-- ==== Sys2Proof/Word.lean ====
section
/-! DEFINITION. The word types of the ZX1: 32-bit registers (R54), 64-bit addresses and register
pairs (R4, R182), bytes, and 32-bit lane masks (one bit per lane). -/

namespace Sys2Proof

/-- A 32-bit register or instruction word. -/
abbrev Word := BitVec 32

/-- A 64-bit value: an address, a pair, a system register. -/
abbrev DWord := BitVec 64

/-- One byte of memory. -/
abbrev Byte := BitVec 8

/-- A set of lanes of a wave: bit L stands for lane L (R68 amask). -/
abbrev Mask := BitVec 32

end Sys2Proof
end

