-- ==== Sys2Proof/Syntax.lean ====
section
/-! DEFINITION. The instruction set and the device's events as data: one constructor per row of
spec/opcode_table.json.  The 211 words of R87 and R89 carry their operand fields; the 77 event rows
(the part's indivisible steps) carry what names the occurrence. -/

namespace Sys2Proof

/-- R73: the scope field, 00 LANE, 01 WAVE, 10 SET, 11 TEAM. -/
inductive Scope where
  | lane | wave | set | team
  deriving DecidableEq, Repr, Inhabited

/-- R68: the extended source field of an LR word. -/
inductive Ext where
  | v (n : Nat)            -- 0-127
  | s (n : Nat)            -- 128-191
  | lane | wave | team | srank | core | die | part | tlane | tile | nteams | nwaves
  | zero | ones | pkg | cyclo | amask      -- 192-207
  | reserved (n : Nat)     -- 208-255, traps ILLOP
  deriving DecidableEq, Repr, Inhabited

/-- Who writes a system register (R309): a wave, by MTS, or tenant 0 through BAR0. -/
inductive RegSrc where
  | wave (key : Nat)
  | bar0 (tenant : Nat)
  deriving DecidableEq, Repr, Inhabited

/-- R30: a request at an HBM controller; a wave waits on it when `waiter` names one. -/
structure HbmReq where
  ctrl : Nat
  tenant : Nat
  die : Nat
  bank : Nat
  row : Nat
  line : Nat
  waiter : Option Nat
  write : Bool
  marked : Bool
  deriving DecidableEq, Repr, Inhabited

/-- R35: what a scrub read finds in a granule. -/
inductive ScrubFound where
  | clean | corrected | uncorrectable
  deriving DecidableEq, Repr, Inhabited

/-- R41: a host access to device memory through an HDM decoder.  `ports` are the decoders the host
address hits; a read has no data. -/
structure HostAccess where
  port : Nat
  addr : Nat
  size : Nat
  data : Option (BitVec 512)
  deriving DecidableEq, Repr, Inhabited

/-- R34, R39: whose request is on a link: an operation (one of its parts), the next element of a copy, a page-table walk, an instruction miss,
or an agent that is no wave and no engine. -/
inductive Requester where
  | op (id : Nat)
  | copy (id : Nat)
  | walk (id : Nat)
  | miss (id : Nat)
  | agent (key : Nat)
  deriving DecidableEq, Repr, Inhabited

/-- One constructor per row of spec/opcode_table.json. -/
inductive Instr where
  /-- NOP, R125 -/
  | nop (sc : Scope)
  /-- ADD, R126 -/
  | add (sc : Scope) (d : Nat) (a : Ext) (b : Nat)
  /-- SUB, R126 -/
  | sub (sc : Scope) (d : Nat) (a : Ext) (b : Nat)
  /-- MULLO, R126 -/
  | mullo (sc : Scope) (d : Nat) (a : Ext) (b : Nat)
  /-- MULHI_I32, R126 -/
  | mulhiI32 (sc : Scope) (d : Nat) (a : Ext) (b : Nat)
  /-- MULHI_N32, R126 -/
  | mulhiN32 (sc : Scope) (d : Nat) (a : Ext) (b : Nat)
  /-- MAD, R126 -/
  | mad (sc : Scope) (d : Nat) (a : Ext) (b : Nat)
  /-- MIN_I32, R126 -/
  | minI32 (sc : Scope) (d : Nat) (a : Ext) (b : Nat)
  /-- MIN_N32, R126 -/
  | minN32 (sc : Scope) (d : Nat) (a : Ext) (b : Nat)
  /-- MAX_I32, R126 -/
  | maxI32 (sc : Scope) (d : Nat) (a : Ext) (b : Nat)
  /-- MAX_N32, R126 -/
  | maxN32 (sc : Scope) (d : Nat) (a : Ext) (b : Nat)
  /-- AND, R126 -/
  | and (sc : Scope) (d : Nat) (a : Ext) (b : Nat)
  /-- OR, R126 -/
  | or (sc : Scope) (d : Nat) (a : Ext) (b : Nat)
  /-- XOR, R126 -/
  | xor (sc : Scope) (d : Nat) (a : Ext) (b : Nat)
  /-- SHL, R126 -/
  | shl (sc : Scope) (d : Nat) (a : Ext) (b : Nat)
  /-- SHR_N32, R126 -/
  | shrN32 (sc : Scope) (d : Nat) (a : Ext) (b : Nat)
  /-- SHR_I32, R126 -/
  | shrI32 (sc : Scope) (d : Nat) (a : Ext) (b : Nat)
  /-- ROTL, R126 -/
  | rotl (sc : Scope) (d : Nat) (a : Ext) (b : Nat)
  /-- CLZ, R126 -/
  | clz (sc : Scope) (d : Nat) (a : Ext)
  /-- POPC, R126 -/
  | popc (sc : Scope) (d : Nat) (a : Ext)
  /-- BREV, R126 -/
  | brev (sc : Scope) (d : Nat) (a : Ext)
  /-- SEL, R126 -/
  | sel (sc : Scope) (d : Nat) (a : Ext) (b : Nat)
  /-- MOV, R126 -/
  | mov (sc : Scope) (d : Nat) (a : Ext)
  /-- ADD64, R127 -/
  | add64 (sc : Scope) (d : Nat) (a : Ext) (b : Nat)
  /-- LEA, R127 -/
  | lea (sc : Scope) (d : Nat) (a : Ext) (b : Nat)
  /-- CMP_EQ, R128 -/
  | cmpEq (sc : Scope) (d : Nat) (a : Ext) (b : Nat)
  /-- CMP_NE, R128 -/
  | cmpNe (sc : Scope) (d : Nat) (a : Ext) (b : Nat)
  /-- CMP_LT_I32, R128 -/
  | cmpLtI32 (sc : Scope) (d : Nat) (a : Ext) (b : Nat)
  /-- CMP_LE_I32, R128 -/
  | cmpLeI32 (sc : Scope) (d : Nat) (a : Ext) (b : Nat)
  /-- CMP_LT_N32, R128 -/
  | cmpLtN32 (sc : Scope) (d : Nat) (a : Ext) (b : Nat)
  /-- CMP_LE_N32, R128 -/
  | cmpLeN32 (sc : Scope) (d : Nat) (a : Ext) (b : Nat)
  /-- EXIT, R176 -/
  | exit
  /-- ADD_F32, R130 -/
  | addF32 (sc : Scope) (d : Nat) (a : Ext) (b : Nat)
  /-- SUB_F32, R130 -/
  | subF32 (sc : Scope) (d : Nat) (a : Ext) (b : Nat)
  /-- MUL_F32, R130 -/
  | mulF32 (sc : Scope) (d : Nat) (a : Ext) (b : Nat)
  /-- FMA_F32, R130 -/
  | fmaF32 (sc : Scope) (d : Nat) (a : Ext) (b : Nat)
  /-- MIN_F32, R130 -/
  | minF32 (sc : Scope) (d : Nat) (a : Ext) (b : Nat)
  /-- MAX_F32, R130 -/
  | maxF32 (sc : Scope) (d : Nat) (a : Ext) (b : Nat)
  /-- NEG_F32, R130 -/
  | negF32 (sc : Scope) (d : Nat) (a : Ext)
  /-- ABS_F32, R130 -/
  | absF32 (sc : Scope) (d : Nat) (a : Ext)
  /-- CMP_EQ_F32, R131 -/
  | cmpEqF32 (sc : Scope) (d : Nat) (a : Ext) (b : Nat)
  /-- CMP_NE_F32, R131 -/
  | cmpNeF32 (sc : Scope) (d : Nat) (a : Ext) (b : Nat)
  /-- CMP_LT_F32, R131 -/
  | cmpLtF32 (sc : Scope) (d : Nat) (a : Ext) (b : Nat)
  /-- CMP_LE_F32, R131 -/
  | cmpLeF32 (sc : Scope) (d : Nat) (a : Ext) (b : Nat)
  /-- CMP_UN_F32, R131 -/
  | cmpUnF32 (sc : Scope) (d : Nat) (a : Ext) (b : Nat)
  /-- RCP, R132 -/
  | rcp (sc : Scope) (d : Nat) (a : Ext)
  /-- RSQ, R132 -/
  | rsq (sc : Scope) (d : Nat) (a : Ext)
  /-- SQRT, R132 -/
  | sqrt (sc : Scope) (d : Nat) (a : Ext)
  /-- EXP2, R132 -/
  | exp2 (sc : Scope) (d : Nat) (a : Ext)
  /-- LOG2, R132 -/
  | log2 (sc : Scope) (d : Nat) (a : Ext)
  /-- SINPI, R132 -/
  | sinpi (sc : Scope) (d : Nat) (a : Ext)
  /-- COSPI, R132 -/
  | cospi (sc : Scope) (d : Nat) (a : Ext)
  /-- ADD_BF16X2, R134 -/
  | addBf16x2 (sc : Scope) (d : Nat) (a : Ext) (b : Nat)
  /-- MUL_BF16X2, R134 -/
  | mulBf16x2 (sc : Scope) (d : Nat) (a : Ext) (b : Nat)
  /-- FMA_BF16X2, R134 -/
  | fmaBf16x2 (sc : Scope) (d : Nat) (a : Ext) (b : Nat)
  /-- CVT, R136 -/
  | cvt (sc : Scope) (d : Nat) (a : Ext) (conv : Nat) (mode : Nat)
  /-- ATOM, R205 -/
  | atom (sc : Scope) (d : Nat) (a : Ext) (w : Bool) (opc : Nat)
  /-- BATOM, R206 -/
  | batom (sc : Scope) (d : Nat) (a : Ext) (opc : Nat)
  /-- COPY, R255 -/
  | copy (nxt : Bool) (h : Nat) (a : Ext) (dir : Nat) (q : Nat)
  /-- SPAWN, R305 -/
  | spawn (d : Nat) (a : Ext) (b : Nat)
  /-- TSGET, R306 -/
  | tsget (d : Nat)
  /-- BRX, R172 -/
  | brx (d : Nat) (a : Ext)
  /-- RET, R172 -/
  | ret (a : Ext)
  /-- SHFL, R139 -/
  | shfl (sc : Scope) (d : Nat) (a : Ext) (b : Nat)
  /-- PUT, R139 -/
  | put (sc : Scope) (d : Nat) (a : Ext) (b : Nat)
  /-- BCAST, R139 -/
  | bcast (sc : Scope) (d : Nat) (a : Ext) (b : Nat)
  /-- VOTE_ANY, R140 -/
  | voteAny (sc : Scope) (d : Nat) (b : Nat)
  /-- VOTE_ALL, R140 -/
  | voteAll (sc : Scope) (d : Nat) (b : Nat)
  /-- BALLOT, R140 -/
  | ballot (sc : Scope) (d : Nat) (b : Nat)
  /-- RED, R142 -/
  | red (sc : Scope) (d : Nat) (a : Ext) (ty : Nat) (opr : Nat)
  /-- SCAN, R142 -/
  | scan (sc : Scope) (d : Nat) (a : Ext) (x : Bool) (ty : Nat) (opr : Nat)
  /-- MATCHRANK, R143 -/
  | matchrank (sc : Scope) (d : Nat) (a : Ext)
  /-- HISTO, R143 -/
  | histo (sc : Scope) (d : Nat) (a : Ext)
  /-- HASH, R145 -/
  | hash (sc : Scope) (d : Nat) (a : Ext) (b : Nat)
  /-- RNG, R146 -/
  | rng (d : Nat)
  /-- SAMPLE, R144 -/
  | sample (sc : Scope) (d : Nat) (a : Ext) (b : Nat)
  /-- JTAB, R174 -/
  | jtab (cnt : Nat) (a : Ext) (b : Nat)
  /-- JOIN, R162 -/
  | join (j : Nat)
  /-- JOINLEAVE, R175 -/
  | joinleave (j : Nat)
  /-- ADDI, R129 -/
  | addi (sc : Scope) (d : Nat) (a : Nat) (imm : Nat)
  /-- ANDI, R129 -/
  | andi (sc : Scope) (d : Nat) (a : Nat) (imm : Nat)
  /-- ORI, R129 -/
  | ori (sc : Scope) (d : Nat) (a : Nat) (imm : Nat)
  /-- XORI, R129 -/
  | xori (sc : Scope) (d : Nat) (a : Nat) (imm : Nat)
  /-- SHLI, R129 -/
  | shli (sc : Scope) (d : Nat) (a : Nat) (imm : Nat)
  /-- SHRI_N32, R129 -/
  | shriN32 (sc : Scope) (d : Nat) (a : Nat) (imm : Nat)
  /-- SHRI_I32, R129 -/
  | shriI32 (sc : Scope) (d : Nat) (a : Nat) (imm : Nat)
  /-- CMPI_EQ, R128 -/
  | cmpiEq (sc : Scope) (d : Nat) (a : Nat) (imm : Nat)
  /-- CMPI_LT_I32, R128 -/
  | cmpiLtI32 (sc : Scope) (d : Nat) (a : Nat) (imm : Nat)
  /-- CMPI_LT_N32, R128 -/
  | cmpiLtN32 (sc : Scope) (d : Nat) (a : Nat) (imm : Nat)
  /-- SHFLI, R139 -/
  | shfli (sc : Scope) (d : Nat) (a : Nat) (imm : Nat)
  /-- BCASTI, R139 -/
  | bcasti (sc : Scope) (d : Nat) (a : Nat) (imm : Nat)
  /-- LD_B8, R196 -/
  | ldB8 (sc : Scope) (d : Nat) (base : Nat) (off : Nat)
  /-- LD_B16, R196 -/
  | ldB16 (sc : Scope) (d : Nat) (base : Nat) (off : Nat)
  /-- LD_B32, R196 -/
  | ldB32 (sc : Scope) (d : Nat) (base : Nat) (off : Nat)
  /-- LD_B64, R196 -/
  | ldB64 (sc : Scope) (d : Nat) (base : Nat) (off : Nat)
  /-- LD_B128, R196 -/
  | ldB128 (sc : Scope) (d : Nat) (base : Nat) (off : Nat)
  /-- ST_B8, R196 -/
  | stB8 (sc : Scope) (d : Nat) (base : Nat) (off : Nat)
  /-- ST_B16, R196 -/
  | stB16 (sc : Scope) (d : Nat) (base : Nat) (off : Nat)
  /-- ST_B32, R196 -/
  | stB32 (sc : Scope) (d : Nat) (base : Nat) (off : Nat)
  /-- ST_B64, R196 -/
  | stB64 (sc : Scope) (d : Nat) (base : Nat) (off : Nat)
  /-- ST_B128, R196 -/
  | stB128 (sc : Scope) (d : Nat) (base : Nat) (off : Nat)
  /-- LD_ACQ_B32, R197 -/
  | ldAcqB32 (sc : Scope) (d : Nat) (base : Nat) (off : Nat)
  /-- LD_ACQ_B64, R197 -/
  | ldAcqB64 (sc : Scope) (d : Nat) (base : Nat) (off : Nat)
  /-- ST_REL_B32, R197 -/
  | stRelB32 (sc : Scope) (d : Nat) (base : Nat) (off : Nat)
  /-- ST_REL_B64, R197 -/
  | stRelB64 (sc : Scope) (d : Nat) (base : Nat) (off : Nat)
  /-- LDF, R199 -/
  | ldf (sc : Scope) (d : Nat) (base : Nat) (k : Nat) (n : Nat)
  /-- STF, R199 -/
  | stf (sc : Scope) (d : Nat) (base : Nat) (k : Nat) (n : Nat)
  /-- LDS_B32, R200 -/
  | ldsB32 (sc : Scope) (d : Nat) (base : Nat) (off : Nat)
  /-- LDS_B128, R200 -/
  | ldsB128 (sc : Scope) (d : Nat) (base : Nat) (off : Nat)
  /-- STS_B32, R200 -/
  | stsB32 (sc : Scope) (d : Nat) (base : Nat) (off : Nat)
  /-- STS_B128, R200 -/
  | stsB128 (sc : Scope) (d : Nat) (base : Nat) (off : Nat)
  /-- LDM, R202 -/
  | ldm (d : Nat) (base : Nat) (c : Nat) (n : Nat)
  /-- STM, R202 -/
  | stm (d : Nat) (base : Nat) (c : Nat) (n : Nat)
  /-- LDH, R201 -/
  | ldh (sc : Scope) (d : Nat) (h : Nat) (m : Nat)
  /-- STH, R201 -/
  | sth (sc : Scope) (d : Nat) (h : Nat) (m : Nat)
  /-- BP, R171 -/
  | bp (sense : Bool) (pred : Nat) (disp : Nat)
  /-- CALL, R171 -/
  | call (sense : Bool) (pred : Nat) (disp : Nat)
  /-- MMA, R282 -/
  | mma (ec : Nat) (acc : Nat) (atam : Bool) (areg : Nat) (breg : Nat) (fmt : Nat)
  /-- ACCZ, R283 -/
  | accz (acc : Nat)
  /-- ACCLD, R283 -/
  | accld (acc : Nat) (areg : Nat)
  /-- ACCST, R283 -/
  | accst (acc : Nat) (areg : Nat) (fmt : Nat)
  /-- ACCFLUSH, R284 -/
  | accflush (acc : Nat) (areg : Nat)
  /-- ACCFLUSH_DET, R279 -/
  | accflushDet (acc : Nat) (areg : Nat)
  /-- CLAUSE, R78 -/
  | clause (wait : Nat) (first : Nat) (second : Nat) (len : Nat)
  /-- UADD, R137 -/
  | uadd (d : Nat) (a : Nat) (b : Nat)
  /-- USUB, R137 -/
  | usub (d : Nat) (a : Nat) (b : Nat)
  /-- UMUL, R137 -/
  | umul (d : Nat) (a : Nat) (b : Nat)
  /-- UMULHI_I32, R137 -/
  | umulhiI32 (d : Nat) (a : Nat) (b : Nat)
  /-- UMULHI_N32, R137 -/
  | umulhiN32 (d : Nat) (a : Nat) (b : Nat)
  /-- UMIN_I32, R137 -/
  | uminI32 (d : Nat) (a : Nat) (b : Nat)
  /-- UMIN_N32, R137 -/
  | uminN32 (d : Nat) (a : Nat) (b : Nat)
  /-- UMAX_I32, R137 -/
  | umaxI32 (d : Nat) (a : Nat) (b : Nat)
  /-- UMAX_N32, R137 -/
  | umaxN32 (d : Nat) (a : Nat) (b : Nat)
  /-- UAND, R137 -/
  | uand (d : Nat) (a : Nat) (b : Nat)
  /-- UOR, R137 -/
  | uor (d : Nat) (a : Nat) (b : Nat)
  /-- UXOR, R137 -/
  | uxor (d : Nat) (a : Nat) (b : Nat)
  /-- USHL, R137 -/
  | ushl (d : Nat) (a : Nat) (b : Nat)
  /-- USHR_N32, R137 -/
  | ushrN32 (d : Nat) (a : Nat) (b : Nat)
  /-- USHR_I32, R137 -/
  | ushrI32 (d : Nat) (a : Nat) (b : Nat)
  /-- UROTL, R137 -/
  | urotl (d : Nat) (a : Nat) (b : Nat)
  /-- UCLZ, R137 -/
  | uclz (d : Nat) (a : Nat)
  /-- UPOPC, R137 -/
  | upopc (d : Nat) (a : Nat)
  /-- UBREV, R137 -/
  | ubrev (d : Nat) (a : Nat)
  /-- UMOV, R137 -/
  | umov (d : Nat) (a : Nat)
  /-- USEL, R137 -/
  | usel (d : Nat) (a : Nat) (b : Nat)
  /-- UADD64, R137 -/
  | uadd64 (d : Nat) (a : Nat) (b : Nat)
  /-- UCMP_EQ, R137 -/
  | ucmpEq (d : Nat) (a : Nat) (b : Nat)
  /-- UCMP_NE, R137 -/
  | ucmpNe (d : Nat) (a : Nat) (b : Nat)
  /-- UCMP_LT_I32, R137 -/
  | ucmpLtI32 (d : Nat) (a : Nat) (b : Nat)
  /-- UCMP_LE_I32, R137 -/
  | ucmpLeI32 (d : Nat) (a : Nat) (b : Nat)
  /-- UCMP_LT_N32, R137 -/
  | ucmpLtN32 (d : Nat) (a : Nat) (b : Nat)
  /-- UCMP_LE_N32, R137 -/
  | ucmpLeN32 (d : Nat) (a : Nat) (b : Nat)
  /-- UADD_F32, R137 -/
  | uaddF32 (d : Nat) (a : Nat) (b : Nat)
  /-- UMUL_F32, R137 -/
  | umulF32 (d : Nat) (a : Nat) (b : Nat)
  /-- UFMA_F32, R137 -/
  | ufmaF32 (d : Nat) (a : Nat) (b : Nat)
  /-- UMIN_F32, R137 -/
  | uminF32 (d : Nat) (a : Nat) (b : Nat)
  /-- UMAX_F32, R137 -/
  | umaxF32 (d : Nat) (a : Nat) (b : Nat)
  /-- UCMP_LT_F32, R137 -/
  | ucmpLtF32 (d : Nat) (a : Nat) (b : Nat)
  /-- URET, R173 -/
  | uret (a : Nat)
  /-- UADDI, R138 -/
  | uaddi (d : Nat) (a : Nat) (imm : Nat)
  /-- UANDI, R138 -/
  | uandi (d : Nat) (a : Nat) (imm : Nat)
  /-- UORI, R138 -/
  | uori (d : Nat) (a : Nat) (imm : Nat)
  /-- UXORI, R138 -/
  | uxori (d : Nat) (a : Nat) (imm : Nat)
  /-- USHLI, R138 -/
  | ushli (d : Nat) (a : Nat) (imm : Nat)
  /-- USHRI_N32, R138 -/
  | ushriN32 (d : Nat) (a : Nat) (imm : Nat)
  /-- USHRI_I32, R138 -/
  | ushriI32 (d : Nat) (a : Nat) (imm : Nat)
  /-- MOVI, R138 -/
  | movi (d : Nat) (imm : Nat)
  /-- LDK, R138 -/
  | ldk (d : Nat) (imm : Nat)
  /-- UCMPI_EQ, R138 -/
  | ucmpiEq (d : Nat) (a : Nat) (imm : Nat)
  /-- UCMPI_LT_I32, R138 -/
  | ucmpiLtI32 (d : Nat) (a : Nat) (imm : Nat)
  /-- UCMPI_LT_N32, R138 -/
  | ucmpiLtN32 (d : Nat) (a : Nat) (imm : Nat)
  /-- ULD_B32, R198 -/
  | uldB32 (d : Nat) (a : Nat) (imm : Nat)
  /-- ULD_B64, R198 -/
  | uldB64 (d : Nat) (a : Nat) (imm : Nat)
  /-- UST_B32, R198 -/
  | ustB32 (d : Nat) (a : Nat) (imm : Nat)
  /-- UST_B64, R198 -/
  | ustB64 (d : Nat) (a : Nat) (imm : Nat)
  /-- BRA, R173 -/
  | bra (disp : Nat)
  /-- BC, R173 -/
  | bc (sense : Bool) (c : Nat) (disp : Nat)
  /-- UCALL, R173 -/
  | ucall (c : Nat) (disp : Nat)
  /-- JOINSET, R175 -/
  | joinset (j : Nat) (a : Nat) (x : Bool)
  /-- YIELD, R178 -/
  | yield
  /-- PART, R177 -/
  | part (r : Nat)
  /-- ARRIVE, R179 -/
  | arrive (r : Nat)
  /-- WAITB, R179 -/
  | waitb (r : Nat)
  /-- TRAP, R180 -/
  | trap (n : Nat)
  /-- RETT, R181 -/
  | rett
  /-- FENCE_ACQ, R207 -/
  | fenceAcq (a : Nat)
  /-- FENCE_REL, R207 -/
  | fenceRel (a : Nat)
  /-- FENCE_AR, R207 -/
  | fenceAr (a : Nat)
  /-- WB, R208 -/
  | wb (a : Nat) (b : Nat)
  /-- INV, R208 -/
  | inv (a : Nat) (b : Nat)
  /-- INVN, R208 -/
  | invn (d : Nat) (a : Nat) (b : Nat)
  /-- IFENCE, R210 -/
  | ifence
  /-- ICINV, R210 -/
  | icinv (a : Nat) (b : Nat)
  /-- PFI, R211 -/
  | pfi (a : Nat) (b : Nat)
  /-- HWAIT_FULL, R266 -/
  | hwaitFull (h : Nat) (p : Bool)
  /-- HWAIT_FREE, R266 -/
  | hwaitFree (h : Nat)
  /-- HCFG_BIND, R265 -/
  | hcfgBind (h : Nat) (a : Nat) (b : Nat)
  /-- HCFG_RING, R265 -/
  | hcfgRing (h : Nat) (a : Nat)
  /-- HCFG_MARK, R265 -/
  | hcfgMark (h : Nat)
  /-- HCFG_UNBIND, R265 -/
  | hcfgUnbind (h : Nat)
  /-- HFREE, R267 -/
  | hfree (h : Nat) (p : Bool)
  /-- FSOPEN, R307 -/
  | fsopen (a : Nat) (b : Nat)
  /-- FSCLOSE, R307 -/
  | fsclose (a : Nat)
  /-- FSWAIT, R307 -/
  | fswait (a : Nat)
  /-- MFS, R311 -/
  | mfs (r : Nat) (num : Nat)
  /-- MTS, R311 -/
  | mts (r : Nat) (num : Nat)
  /-- RNGSEED, R312 -/
  | rngseed (k : Nat)
  /-- RGNW, R313 -/
  | rgnw (k : Nat) (e : Nat) (t : Nat)
  /-- RGNR, R313 -/
  | rgnr (k : Nat) (e : Nat)
  /-- BGTW, R314 -/
  | bgtw (k : Nat) (e : Nat)
  /-- BGTR, R314 -/
  | bgtr (k : Nat) (e : Nat)
  /-- SYSREG_WRITE, R308: Write to a system register with no row of its own, by MTS or BAR0, using the 64-bit latch rule. -/
  | sysregWrite (src : RegSrc) (num : Nat) (v : Word)
  /-- CFRTL_READ, R299: Read of cfrtl copies the published frontier into the wave's CFR snapshot. -/
  | cfrtlRead (wave : Nat)
  /-- TRAPPC_WRITE, R166: A write to TRAPPC in handler mode clears the saved clause context. -/
  | trappcWrite (wave : Nat) (v : DWord)
  /-- WPART_WRITE, R309: A write to wpart sets TW as PART does. -/
  | wpartWrite (wave : Nat) (v : Word)
  /-- SATF_WRITE, R108: A write to satf sets or clears the wave's SATF. -/
  | satfWrite (wave : Nat) (v : Word)
  /-- MEASD7_WRITE, R51: A write to measd7 extends measurement register meassel with the staged 32 bytes. -/
  | measd7Write (v : Word)
  /-- FQCONS_WRITE, R317: Advance the consumed count, freeing fault-queue room. -/
  | fqconsWrite (tenant : Nat) (v : Word)
  /-- CHKKEY_WRITE, R239: Tenant 0 writes CHKKEY, taking effect only while no launch is resident. -/
  | chkkeyWrite (v : DWord)
  /-- FIRCTL_WRITE, R246: Arm or disarm the fault-injection register; ARM with DELAY 0 stays clear. -/
  | firctlWrite (v : Word)
  /-- PKGNUM_WRITE, R342: Set the package number, ignored while any package link is up. -/
  | pkgnumWrite (v : Word)
  /-- LTRESET, R231: With no launch resident, close and check every interval and reset every logical clock. -/
  | ltreset
  /-- TLBINV_PAGE, R325: Invalidate one page of one address-space identifier. -/
  | tlbinvPage (asid : Nat)
  /-- TLBINV_ASID, R325: Invalidate every entry of one address-space identifier. -/
  | tlbinvAsid (asid : Nat)
  /-- TLBINV_ALL, R325: Invalidate every translation entry. -/
  | tlbinvAll
  /-- TLB_INVALIDATE_DONE, R325: BUSY clears once every TLB has dropped the entries and older walks have finished. -/
  | tlbInvalidateDone
  /-- MAPCMD_SUBMIT, R341: Submit the staged matrix; check it by Gaussian elimination and return a status code. -/
  | mapcmdSubmit
  /-- MAP_INSTALL, R29: Once held region accesses drain and its lines are written back and invalidated, the accepted map is installed. -/
  | mapInstall
  /-- PRECMD_SAVE, R320: Start saving a team: stop clause starts and wait for flags, copies and releases to drain. -/
  | precmdSave (core tslot : Nat)
  /-- SAVE_AREA_WRITE, R321: After the drain, task aborts, writing of the save area and freeing of the team. -/
  | saveAreaWrite
  /-- PRECMD_RESTORE, R320: Restore a saved team onto a core, or refuse. -/
  | precmdRestore (core : Nat)
  /-- RTAPPLY, R167: Apply the staged barrier-route configuration and reset the route to phase 0. -/
  | rtapply
  /-- WCMD_RESUME, R319: Resume a suspended group from the point its fault gives. -/
  | wcmdResume (tenant wid : Nat)
  /-- WCMD_KILL, R319: Kill a suspended group: lanes exit, HMODE clears, copies are dropped. -/
  | wcmdKill (tenant wid : Nat)
  /-- RESETCMD_WARM, R343: Warm reset of the device, ordered by the runtime. -/
  | resetcmdWarm
  /-- RESETCMD_CORE, R343: Per-core reset, or a refusal. -/
  | resetcmdCore (core : Nat)
  /-- GATECMD_GATE, R344: Write back and invalidate an idle core's L1, then gate it. -/
  | gatecmdGate (core : Nat)
  /-- GATECMD_WAKE, R344: Wake a gated core. -/
  | gatecmdWake (core : Nat)
  /-- COLD_RESET, R46: Power-on reset. -/
  | coldReset
  /-- CXL_HOT_RESET, R46: Warm reset on a CXL hot reset. -/
  | cxlHotReset
  /-- SNOOP_TIMEOUT, R47: After 100 ms without a host answer, poison the unanswered lines and proceed. -/
  | snoopTimeout
  /-- BOOT_SEQUENCE, R50: Ranger boot: verify and run firmware, self-test, training, measurements, enumeration. -/
  | bootSequence
  /-- POWER_MEASUREMENT, R22: Every 1 ms the ranger measures power and adjusts F. -/
  | powerMeasurement (watts : Nat)
  /-- BUDGET_PERIOD_START, R335: Every 1024 cycles allowances and REMAIN are refilled and the new F applies. -/
  | budgetPeriodStart
  /-- HBM_REQUEST, R30: A request arrives at an HBM controller and waits for a batch. -/
  | hbmRequest (req : HbmReq)
  /-- BATCH_FORM, R30: When no marked request remains, mark each source's oldest requests and debit allowances. -/
  | batchForm (ctrl : Nat)
  /-- SCRUB_READ, R35: The patrol scrubber reads a granule and issues a conditional write if it needs correction. -/
  | scrubRead (line : Nat) (found : ScrubFound)
  /-- SCRUB_CONDITIONAL_WRITE, R35: Conditional scrub write is performed only if the tag matches and no demand write is queued. -/
  | scrubConditionalWrite (idx : Nat)
  /-- LLC_WAY_DISABLE, R36: On its third corrected error a way is written back, invalidated and disabled. -/
  | llcWayDisable (slice set way line : Nat)
  /-- SLICE_RETIRE, R37: Hold the slice, write back and remap it to a spare. -/
  | sliceRetire (die slice : Nat)
  /-- LINK_FLIT_RETRY, R34: A flit failing its CRC is retried. -/
  | linkFlitRetry (link : Nat)
  /-- LINK_DOWN, R34: After the eighth failure the link goes down and in-flight requests complete poisoned. -/
  | linkDown (link : Nat)
  /-- ROUTELOOP, R39: A request revisiting a package is dropped and answered, and a device error is posted.  `part` is the
  operation's part; other requesters have one request and it names nothing. -/
  | routeloop (who : Requester) (part link : Nat)
  /-- HOST_SNOOP, R49: A host snoop is served by coherence, or by the snoop responder as invalid and clean. -/
  | hostSnoop (line : Nat) (inv : Bool)
  /-- HOST_DEVICE_ACCESS, R41: A host CXL.mem access through an HDM decoder. -/
  | hostDeviceAccess (acc : HostAccess)
  /-- MSI_DELIVER_PENDING, R42: When a port enumerates, messages waiting for it are delivered in order. -/
  | msiDeliverPending (port : Nat)
  /-- QUOTE_REQUEST, R52: Sign and return an attestation quote for a nonce. -/
  | quoteRequest (nonce : BitVec 256)
  /-- LAUNCH_ACCEPT, R327: A launch processor takes the next record by priority and accepts or refuses it. -/
  | launchAccept
  /-- TEAM_PLACE, R332: Place the next fitting teams of waiting launches when room frees. -/
  | teamPlace (grid core part : Nat)
  /-- HAMPER_STAGE, R333: Hamper staging completes and the team's waves start together. -/
  | hamperStage (grid team : Nat)
  /-- LAUNCH_COMPLETE, R331: At grid end, write the completion record and send CMPLVEC. -/
  | launchComplete (grid : Nat)
  /-- SHUTTLE_DISPATCH, R289: Form a task wave from the earliest queued tasks of one entry. -/
  | shuttleDispatch (grid core part : Nat)
  /-- TASK_FINISH, R290: A task whose lane exited and whose writes and spawns performed becomes FINISHED. -/
  | taskFinish (grid id : Nat)
  /-- COMMIT_PUBLICATION, R298: Every 64 cycles apply aborts, commit finished tasks in order and publish CFR. -/
  | commitPublication
  /-- TASK_NONSPEC_REDISPATCH, R300: A STOPPED task at the frontier is dispatched alone in non-speculative mode. -/
  | taskNonspecRedispatch (grid part : Nat)
  /-- WAIT_CYCLE_RESOLUTION, R158: Once lanes stop moving, resolve circular waits by releasing joins with LOST or dissolving rendezvous. -/
  | waitCycleResolution (team : Nat)
  /-- LOAD_DATA_ARRIVE, R192: Load data arrives and is written, or poison raises ECCU; the flag falls. -/
  | loadDataArrive (op part word : Nat)
  /-- MEMORY_EVENT_PERFORM, R225: A write or RMW performs and is stamped with its PLT. -/
  | memoryEventPerform (op part : Nat)
  /-- RELEASE_PROVISIONAL_PERFORM, R226: A release performs provisionally at its home and its flag clears. -/
  | releaseProvisionalPerform (op part : Nat)
  /-- RELEASE_COMPLETE, R227: A release becomes readable once the window, earlier releases and home checks allow. -/
  | releaseComplete (op part : Nat)
  /-- INTERVAL_RECORD, R240: The home checker receives an interval record and checks it for SWMR and HASHCHAIN. -/
  | intervalRecord (idx : Nat)
  /-- LT_REBASE, R228: Drain, check and zero all logical clocks. -/
  | ltRebase
  /-- ARRIVE_COUNT, R168: An ARRIVE is counted once its preceding operations and releases allow. -/
  | arriveCount (op : Nat)
  /-- PHASE_COMPLETE, R168: 40 or 120 cycles after the last arrival the phase becomes visible and WAITBs release. -/
  | phaseComplete (route : Nat)
  /-- COPY_TAKE_SLOT, R260: A waiting copy takes a queue slot, moves handle states and its members run on. -/
  | copyTakeSlot (copy : Nat)
  /-- COPY_TRANSFER_FAULT, R264: A fault on an engine element stops the copy and suspends the set. -/
  | copyTransferFault (copy : Nat)
  /-- COPY_COMPLETE, R263: All writes performed: handles become FULL or FREE with releases; slot freed. -/
  | copyComplete (copy : Nat)
  /-- MARK_PERFORM, R265: The MARK release performs and the handle becomes FULL with its fill assigned. -/
  | markPerform (op : Nat)
  /-- HANDLE_ACQUIRE, R266: The awaited handle state holds, the acquire performs and the lanes run. -/
  | handleAcquire (wave lane : Nat)
  /-- ACCUMULATE_APPLY, R278: An accumulate RMW is applied by the near-cache adders in arrival order. -/
  | accumulateApply (op part elem : Nat)
  /-- DET_CONTRIBUTION_APPLY, R279: A held DET contribution is applied when its round and team order allow. -/
  | detContributionApply (op part elem : Nat)
  /-- PAGE_WALK, R323: A page-table walk completes, setting A and D, or faults. -/
  | pageWalk (walk : Nat)
  /-- ICACHE_MISS_FILL, R334: Missing clause words arrive from the LLC and the bundle becomes ready. -/
  | icacheMissFill (miss : Nat)
  /-- FIR_DELAYED_STORE, R246: The injected store performs after its delay; ARM clears and FIRED sets. -/
  | firDelayedStore
  /-- FAULT_RECORD_POST, R317: A waiting record is written when room and EN allow, then its interrupt. -/
  | faultRecordPost (tenant : Nat)
  /-- SPAWN_PERFORM, R305: A SPAWN performs: the child takes its identity from the counter, its scope's LIVE rises, it is queued, and the second flag falls. -/
  | spawnPerform (op part : Nat)
  /-- ACCUMULATOR_SLOT_WRITTEN, R82: An MMA, ACCZ or ACCLD writes its accumulator slot, and the first flag falls. -/
  | accumulatorSlotWritten (op part : Nat)
  /-- BACK_INVALIDATE_RESPONSE, R47: The host answers a back-invalidate snoop, so the warm reset may proceed once every answer is in. -/
  | backInvalidateResponse (line : Nat)
  deriving DecidableEq, Repr, Inhabited

end Sys2Proof
end

