-- ==== Sys2Proof/WellFormed.lean ====
section
/-! DEFINITION. What R90 makes illegal in a decoded word (`Instr.illegal`, by name), and which terms
are words at all (`Instr.fits`: every field within its width).  Conditions that need the machine's
state (a flag field of 15, an undeclared set, an LDK index) are judged at issue. -/

namespace Sys2Proof

/-- R90: the conditions of ILLOP that the word itself decides. -/
inductive Illegal where
  | reservedSource   -- extended source 208-255 (R68)
  | badPredicate     -- predicate index 48 or above, LB pred outside R71
  | badScope         -- scope not accepted by the opcode (R73)
  | unlistedSubcode  -- R67
  | oddPair          -- odd pair index (R57)
  | badGroup         -- four-register index not divisible by 4 (R57)
  | tileWidth        -- PART with an illegal tile width (R63)
  | rangeHoldsBase   -- LDM or STM range holds its base pair (R90, R203)
  | copySource       -- COPY source outside s pairs, or NEXT with another direction (R255)
  | headerFlags      -- first or second 12-14 (R78)
  deriving DecidableEq, Repr, Inhabited

/-- R68: the field is one of the 256 values and names its own form. -/
def Ext.fits : Ext → Bool
  | .v n => n < 128
  | .s n => n < 64
  | .reserved n => 208 ≤ n && n < 256
  | _ => true

/-- R68: 208-255 traps ILLOP. -/
def Ext.isReserved : Ext → Bool
  | .reserved _ => true
  | _ => false

/-- R57, R68: a 64-bit operand through a names an even register, a uniform pair, or a special value. -/
def Ext.pairOk : Ext → Bool
  | .v n => n % 2 == 0
  | .s n => n % 2 == 0
  | _ => true

/-- The first condition that holds, by name. -/
def firstOf : List (Bool × Illegal) → Option Illegal
  | [] => none
  | (b, r) :: rest => if b then some r else firstOf rest

/-- R68 for a 32-bit extended source. -/
def badSrc (a : Ext) : Bool × Illegal := (a.isReserved, .reservedSource)

/-- R57, R68 for a 64-bit extended source. -/
def badPairSrc (a : Ext) : Bool × Illegal := (!a.pairOk, .oddPair)

/-- R57: a pair index. -/
def oddIdx (n : Nat) : Bool × Illegal := (n % 2 != 0, .oddPair)

/-- R57: a four-register index. -/
def badIdx4 (n : Nat) : Bool × Illegal := (n % 4 != 0, .badGroup)

/-- R67: a field that names a predicate. -/
def badPred (n : Nat) : Bool × Illegal := (48 ≤ n, .badPredicate)

/-- R73: the collectives accept WAVE and SET only. -/
def collScope (sc : Scope) : Bool × Illegal := (sc != .wave && sc != .set, .badScope)

/-- R71: LB pred 48-62, or 63 with sense 1. -/
def badLbPred (sense : Bool) (p : Nat) : Bool × Illegal :=
  ((48 ≤ p && p != 63) || (p == 63 && sense), .badPredicate)

/-- R204: the subcode of an atomic with 64-bit flag w. -/
def badAtomOp (w : Bool) (opc : Nat) : Bool × Illegal :=
  (12 ≤ opc || (w && (opc == 10 || opc == 11)), .unlistedSubcode)

/-- R205: which registers d must name. -/
def badAtomDst (w : Bool) (opc d : Nat) : Bool × Illegal :=
  if opc == 9 then (if w then badIdx4 d else oddIdx d) else (if w then oddIdx d else (false, .oddPair))

/-- R203: the range d to d + c, with c the field (count minus 1), holds base or base + 1. -/
def rangeHolds (d base c : Nat) : Bool × Illegal :=
  ((d ≤ base && base ≤ d + c) || (d ≤ base + 1 && base + 1 ≤ d + c), .rangeHoldsBase)

/-- R90: the first ILLOP condition that the word decides, or none. -/
def Instr.illegal : Instr → Option Illegal
  | .add _ _ a _ | .sub _ _ a _ | .mullo _ _ a _ | .mulhiI32 _ _ a _ | .mulhiN32 _ _ a _
  | .mad _ _ a _ | .minI32 _ _ a _ | .minN32 _ _ a _ | .maxI32 _ _ a _ | .maxN32 _ _ a _
  | .and _ _ a _ | .or _ _ a _ | .xor _ _ a _ | .shl _ _ a _ | .shrN32 _ _ a _ | .shrI32 _ _ a _
  | .rotl _ _ a _ | .sel _ _ a _ | .addF32 _ _ a _ | .subF32 _ _ a _ | .mulF32 _ _ a _
  | .fmaF32 _ _ a _ | .minF32 _ _ a _ | .maxF32 _ _ a _ | .addBf16x2 _ _ a _ | .mulBf16x2 _ _ a _
  | .fmaBf16x2 _ _ a _ | .hash _ _ a _ =>
      firstOf [badSrc a]
  | .clz _ _ a | .popc _ _ a | .brev _ _ a | .mov _ _ a | .negF32 _ _ a | .absF32 _ _ a
  | .rcp _ _ a | .rsq _ _ a | .sqrt _ _ a | .exp2 _ _ a | .log2 _ _ a | .sinpi _ _ a
  | .cospi _ _ a =>
      firstOf [badSrc a]
  | .add64 _ d a b =>
      firstOf [badSrc a, oddIdx d, badPairSrc a, oddIdx b]
  | .lea _ d a _ =>
      firstOf [badSrc a, oddIdx d, badPairSrc a]
  | .cmpEq _ d a _ | .cmpNe _ d a _ | .cmpLtI32 _ d a _ | .cmpLeI32 _ d a _ | .cmpLtN32 _ d a _
  | .cmpLeN32 _ d a _ | .cmpEqF32 _ d a _ | .cmpNeF32 _ d a _ | .cmpLtF32 _ d a _ | .cmpLeF32 _ d a _
  | .cmpUnF32 _ d a _ =>
      firstOf [badSrc a, badPred d]
  | .cvt _ _ a conv _ =>
      firstOf [badSrc a, (14 ≤ conv, .unlistedSubcode)]
  | .atom _ d a w opc =>
      firstOf [badSrc a, badAtomOp w opc, badPairSrc a, badAtomDst w opc d]
  | .batom _ d a opc =>
      firstOf [badSrc a, badAtomOp false opc, badAtomDst false opc d]
  | .copy nxt _ a dir _ =>
      firstOf [(match a with | .s k => k % 2 != 0 | _ => true, .copySource), (nxt && dir != 0, .copySource)]
  | .spawn _ a _ =>
      firstOf [badSrc a, badPairSrc a]
  | .tsget d =>
      firstOf [badIdx4 d]
  | .brx d a =>
      firstOf [badSrc a, oddIdx d, badPairSrc a]
  | .ret a =>
      firstOf [badSrc a, badPairSrc a]
  | .shfl sc _ a _ | .put sc _ a _ | .bcast sc _ a _ | .sample sc _ a _ =>
      firstOf [collScope sc, badSrc a]
  | .voteAny sc d b | .voteAll sc d b =>
      firstOf [collScope sc, badPred d, badPred b]
  | .ballot sc _ b =>
      firstOf [collScope sc, badPred b]
  | .red sc _ a ty opr =>
      firstOf [collScope sc, badSrc a, (ty == 3 || opr == 3, .unlistedSubcode)]
  | .scan sc _ a _ ty opr =>
      firstOf [collScope sc, badSrc a, (ty == 3 || opr == 3, .unlistedSubcode)]
  | .matchrank sc _ a | .histo sc _ a =>
      firstOf [collScope sc, badSrc a]
  | .rng d =>
      firstOf [oddIdx d]
  | .jtab _ a _ =>
      firstOf [badSrc a, badPairSrc a]
  | .cmpiEq _ d _ _ | .cmpiLtI32 _ d _ _ | .cmpiLtN32 _ d _ _ =>
      firstOf [badPred d]
  | .shfli sc _ _ _ | .bcasti sc _ _ _ =>
      firstOf [collScope sc]
  | .ldB8 _ _ base _ | .ldB16 _ _ base _ | .ldB32 _ _ base _ | .stB8 _ _ base _ | .stB16 _ _ base _
  | .stB32 _ _ base _ | .ldAcqB32 _ _ base _ | .stRelB32 _ _ base _ =>
      firstOf [oddIdx base]
  | .ldB64 _ d base _ | .stB64 _ d base _ | .ldAcqB64 _ d base _ | .stRelB64 _ d base _ =>
      firstOf [oddIdx base, oddIdx d]
  | .ldB128 _ d base _ | .stB128 _ d base _ =>
      firstOf [oddIdx base, badIdx4 d]
  | .ldf _ _ base _ _ | .stf _ _ base _ _ =>
      firstOf [oddIdx base]
  | .ldsB128 _ d _ _ | .stsB128 _ d _ _ =>
      firstOf [badIdx4 d]
  | .ldm d base c _ | .stm d base c _ =>
      firstOf [oddIdx base, rangeHolds d base c]
  | .bp sense pred _ | .call sense pred _ =>
      firstOf [badLbPred sense pred]
  | .accflush _ areg | .accflushDet _ areg =>
      firstOf [oddIdx areg]
  | .clause _ f g _ =>
      firstOf [(12 ≤ f && f ≤ 14, .headerFlags), (12 ≤ g && g ≤ 14, .headerFlags)]
  | .uadd64 d a b =>
      firstOf [oddIdx d, oddIdx a, oddIdx b]
  | .uret a | .fenceAcq a | .fenceRel a | .fenceAr a =>
      firstOf [oddIdx a]
  | .uldB32 _ a _ | .ustB32 _ a _ =>
      firstOf [oddIdx a]
  | .uldB64 d a _ | .ustB64 d a _ =>
      firstOf [oddIdx d, oddIdx a]
  | .ucall c _ =>
      firstOf [oddIdx c]
  | .joinset _ a x => firstOf [(x && a != 0, .unlistedSubcode)]
  | .part r =>
      firstOf [(r == 0 || 5 < r, .tileWidth)]
  | .wb a _ | .inv a _ | .icinv a _ | .pfi a _ =>
      firstOf [oddIdx a]
  | .invn _ a _ =>
      firstOf [oddIdx a]
  | .rngseed k => firstOf [badIdx4 k]
  | .rgnw k _ _ | .rgnr k _ => firstOf [badIdx4 k]
  | .bgtw k e | .bgtr k e => firstOf [badIdx4 k, (6 ≤ e, .unlistedSubcode)]
  | _ => none

/-- R350, R90: an instruction the assembler accepts. -/
def Instr.wf (i : Instr) : Bool := i.illegal == none

/-- Every field lies within its width, so that the term is some word (event rows are no words). -/
def Instr.fits : Instr → Bool
  | .nop _ => true
  | .add _ d a b => d < 128 && a.fits && b < 128
  | .sub _ d a b => d < 128 && a.fits && b < 128
  | .mullo _ d a b => d < 128 && a.fits && b < 128
  | .mulhiI32 _ d a b => d < 128 && a.fits && b < 128
  | .mulhiN32 _ d a b => d < 128 && a.fits && b < 128
  | .mad _ d a b => d < 128 && a.fits && b < 128
  | .minI32 _ d a b => d < 128 && a.fits && b < 128
  | .minN32 _ d a b => d < 128 && a.fits && b < 128
  | .maxI32 _ d a b => d < 128 && a.fits && b < 128
  | .maxN32 _ d a b => d < 128 && a.fits && b < 128
  | .and _ d a b => d < 128 && a.fits && b < 128
  | .or _ d a b => d < 128 && a.fits && b < 128
  | .xor _ d a b => d < 128 && a.fits && b < 128
  | .shl _ d a b => d < 128 && a.fits && b < 128
  | .shrN32 _ d a b => d < 128 && a.fits && b < 128
  | .shrI32 _ d a b => d < 128 && a.fits && b < 128
  | .rotl _ d a b => d < 128 && a.fits && b < 128
  | .clz _ d a => d < 128 && a.fits
  | .popc _ d a => d < 128 && a.fits
  | .brev _ d a => d < 128 && a.fits
  | .sel _ d a b => d < 128 && a.fits && b < 128
  | .mov _ d a => d < 128 && a.fits
  | .add64 _ d a b => d < 128 && a.fits && b < 128
  | .lea _ d a b => d < 128 && a.fits && b < 128
  | .cmpEq _ d a b => d < 128 && a.fits && b < 128
  | .cmpNe _ d a b => d < 128 && a.fits && b < 128
  | .cmpLtI32 _ d a b => d < 128 && a.fits && b < 128
  | .cmpLeI32 _ d a b => d < 128 && a.fits && b < 128
  | .cmpLtN32 _ d a b => d < 128 && a.fits && b < 128
  | .cmpLeN32 _ d a b => d < 128 && a.fits && b < 128
  | .exit => true
  | .addF32 _ d a b => d < 128 && a.fits && b < 128
  | .subF32 _ d a b => d < 128 && a.fits && b < 128
  | .mulF32 _ d a b => d < 128 && a.fits && b < 128
  | .fmaF32 _ d a b => d < 128 && a.fits && b < 128
  | .minF32 _ d a b => d < 128 && a.fits && b < 128
  | .maxF32 _ d a b => d < 128 && a.fits && b < 128
  | .negF32 _ d a => d < 128 && a.fits
  | .absF32 _ d a => d < 128 && a.fits
  | .cmpEqF32 _ d a b => d < 128 && a.fits && b < 128
  | .cmpNeF32 _ d a b => d < 128 && a.fits && b < 128
  | .cmpLtF32 _ d a b => d < 128 && a.fits && b < 128
  | .cmpLeF32 _ d a b => d < 128 && a.fits && b < 128
  | .cmpUnF32 _ d a b => d < 128 && a.fits && b < 128
  | .rcp _ d a => d < 128 && a.fits
  | .rsq _ d a => d < 128 && a.fits
  | .sqrt _ d a => d < 128 && a.fits
  | .exp2 _ d a => d < 128 && a.fits
  | .log2 _ d a => d < 128 && a.fits
  | .sinpi _ d a => d < 128 && a.fits
  | .cospi _ d a => d < 128 && a.fits
  | .addBf16x2 _ d a b => d < 128 && a.fits && b < 128
  | .mulBf16x2 _ d a b => d < 128 && a.fits && b < 128
  | .fmaBf16x2 _ d a b => d < 128 && a.fits && b < 128
  | .cvt _ d a conv mode => d < 128 && a.fits && conv < 32 && mode < 4
  | .atom _ d a _ opc => d < 128 && a.fits && opc < 16
  | .batom _ d a opc => d < 128 && a.fits && opc < 16
  | .copy _ h a dir q => h < 64 && a.fits && dir < 4 && q < 8
  | .spawn d a b => d < 128 && a.fits && b < 128
  | .tsget d => d < 128
  | .brx d a => d < 128 && a.fits
  | .ret a => a.fits
  | .shfl _ d a b => d < 128 && a.fits && b < 128
  | .put _ d a b => d < 128 && a.fits && b < 128
  | .bcast _ d a b => d < 128 && a.fits && b < 128
  | .voteAny _ d b => d < 128 && b < 128
  | .voteAll _ d b => d < 128 && b < 128
  | .ballot _ d b => d < 128 && b < 128
  | .red _ d a ty opr => d < 128 && a.fits && ty < 4 && opr < 4
  | .scan _ d a _ ty opr => d < 128 && a.fits && ty < 4 && opr < 4
  | .matchrank _ d a => d < 128 && a.fits
  | .histo _ d a => d < 128 && a.fits
  | .hash _ d a b => d < 128 && a.fits && b < 128
  | .rng d => d < 128
  | .sample _ d a b => d < 128 && a.fits && b < 128
  | .jtab cnt a b => cnt < 64 && a.fits && b < 128
  | .join j => j < 16
  | .joinleave j => j < 16
  | .addi _ d a imm => d < 128 && a < 128 && imm < 256
  | .andi _ d a imm => d < 128 && a < 128 && imm < 256
  | .ori _ d a imm => d < 128 && a < 128 && imm < 256
  | .xori _ d a imm => d < 128 && a < 128 && imm < 256
  | .shli _ d a imm => d < 128 && a < 128 && imm < 32
  | .shriN32 _ d a imm => d < 128 && a < 128 && imm < 32
  | .shriI32 _ d a imm => d < 128 && a < 128 && imm < 32
  | .cmpiEq _ d a imm => d < 128 && a < 128 && imm < 256
  | .cmpiLtI32 _ d a imm => d < 128 && a < 128 && imm < 256
  | .cmpiLtN32 _ d a imm => d < 128 && a < 128 && imm < 256
  | .shfli _ d a imm => d < 128 && a < 128 && imm < 32
  | .bcasti _ d a imm => d < 128 && a < 128 && imm < 32
  | .ldB8 _ d base off => d < 128 && base < 128 && off < 256
  | .ldB16 _ d base off => d < 128 && base < 128 && off < 256
  | .ldB32 _ d base off => d < 128 && base < 128 && off < 256
  | .ldB64 _ d base off => d < 128 && base < 128 && off < 256
  | .ldB128 _ d base off => d < 128 && base < 128 && off < 256
  | .stB8 _ d base off => d < 128 && base < 128 && off < 256
  | .stB16 _ d base off => d < 128 && base < 128 && off < 256
  | .stB32 _ d base off => d < 128 && base < 128 && off < 256
  | .stB64 _ d base off => d < 128 && base < 128 && off < 256
  | .stB128 _ d base off => d < 128 && base < 128 && off < 256
  | .ldAcqB32 _ d base off => d < 128 && base < 128 && off < 256
  | .ldAcqB64 _ d base off => d < 128 && base < 128 && off < 256
  | .stRelB32 _ d base off => d < 128 && base < 128 && off < 256
  | .stRelB64 _ d base off => d < 128 && base < 128 && off < 256
  | .ldf _ d base k n => d < 128 && base < 128 && k < 8 && n < 32
  | .stf _ d base k n => d < 128 && base < 128 && k < 8 && n < 32
  | .ldsB32 _ d base off => d < 128 && base < 128 && off < 256
  | .ldsB128 _ d base off => d < 128 && base < 128 && off < 256
  | .stsB32 _ d base off => d < 128 && base < 128 && off < 256
  | .stsB128 _ d base off => d < 128 && base < 128 && off < 256
  | .ldm d base c n => d < 128 && base < 128 && c < 16 && n < 16
  | .stm d base c n => d < 128 && base < 128 && c < 16 && n < 16
  | .ldh _ d h m => d < 128 && h < 64 && m < 64
  | .sth _ d h m => d < 128 && h < 64 && m < 64
  | .bp _ pred disp => pred < 64 && disp < 65536
  | .call _ pred disp => pred < 64 && disp < 65536
  | .mma ec acc _ areg breg fmt => ec < 4 && acc < 64 && areg < 64 && breg < 64 && fmt < 8
  | .accz acc => acc < 64
  | .accld acc areg => acc < 64 && areg < 64
  | .accst acc areg fmt => acc < 64 && areg < 64 && fmt < 8
  | .accflush acc areg => acc < 64 && areg < 64
  | .accflushDet acc areg => acc < 64 && areg < 64
  | .clause wait first second len => wait < 4096 && first < 16 && second < 16 && len < 16
  | .uadd d a b => d < 64 && a < 64 && b < 64
  | .usub d a b => d < 64 && a < 64 && b < 64
  | .umul d a b => d < 64 && a < 64 && b < 64
  | .umulhiI32 d a b => d < 64 && a < 64 && b < 64
  | .umulhiN32 d a b => d < 64 && a < 64 && b < 64
  | .uminI32 d a b => d < 64 && a < 64 && b < 64
  | .uminN32 d a b => d < 64 && a < 64 && b < 64
  | .umaxI32 d a b => d < 64 && a < 64 && b < 64
  | .umaxN32 d a b => d < 64 && a < 64 && b < 64
  | .uand d a b => d < 64 && a < 64 && b < 64
  | .uor d a b => d < 64 && a < 64 && b < 64
  | .uxor d a b => d < 64 && a < 64 && b < 64
  | .ushl d a b => d < 64 && a < 64 && b < 64
  | .ushrN32 d a b => d < 64 && a < 64 && b < 64
  | .ushrI32 d a b => d < 64 && a < 64 && b < 64
  | .urotl d a b => d < 64 && a < 64 && b < 64
  | .uclz d a => d < 64 && a < 64
  | .upopc d a => d < 64 && a < 64
  | .ubrev d a => d < 64 && a < 64
  | .umov d a => d < 64 && a < 64
  | .usel d a b => d < 64 && a < 64 && b < 64
  | .uadd64 d a b => d < 64 && a < 64 && b < 64
  | .ucmpEq d a b => d < 64 && a < 64 && b < 64
  | .ucmpNe d a b => d < 64 && a < 64 && b < 64
  | .ucmpLtI32 d a b => d < 64 && a < 64 && b < 64
  | .ucmpLeI32 d a b => d < 64 && a < 64 && b < 64
  | .ucmpLtN32 d a b => d < 64 && a < 64 && b < 64
  | .ucmpLeN32 d a b => d < 64 && a < 64 && b < 64
  | .uaddF32 d a b => d < 64 && a < 64 && b < 64
  | .umulF32 d a b => d < 64 && a < 64 && b < 64
  | .ufmaF32 d a b => d < 64 && a < 64 && b < 64
  | .uminF32 d a b => d < 64 && a < 64 && b < 64
  | .umaxF32 d a b => d < 64 && a < 64 && b < 64
  | .ucmpLtF32 d a b => d < 64 && a < 64 && b < 64
  | .uret a => a < 64
  | .uaddi d a imm => d < 64 && a < 64 && imm < 256
  | .uandi d a imm => d < 64 && a < 64 && imm < 256
  | .uori d a imm => d < 64 && a < 64 && imm < 256
  | .uxori d a imm => d < 64 && a < 64 && imm < 256
  | .ushli d a imm => d < 64 && a < 64 && imm < 32
  | .ushriN32 d a imm => d < 64 && a < 64 && imm < 32
  | .ushriI32 d a imm => d < 64 && a < 64 && imm < 32
  | .movi d imm => d < 64 && imm < 256
  | .ldk d imm => d < 64 && imm < 256
  | .ucmpiEq d a imm => d < 64 && a < 64 && imm < 256
  | .ucmpiLtI32 d a imm => d < 64 && a < 64 && imm < 256
  | .ucmpiLtN32 d a imm => d < 64 && a < 64 && imm < 256
  | .uldB32 d a imm => d < 64 && a < 64 && imm < 256
  | .uldB64 d a imm => d < 64 && a < 64 && imm < 256
  | .ustB32 d a imm => d < 64 && a < 64 && imm < 256
  | .ustB64 d a imm => d < 64 && a < 64 && imm < 256
  | .bra disp => disp < 65536
  | .bc _ c disp => c < 64 && disp < 65536
  | .ucall c disp => c < 64 && disp < 65536
  | .joinset j a _ => j < 16 && a < 64
  | .yield => true
  | .part r => r < 8
  | .arrive r => r < 8
  | .waitb r => r < 8
  | .trap n => n < 128
  | .rett => true
  | .fenceAcq a => a < 64
  | .fenceRel a => a < 64
  | .fenceAr a => a < 64
  | .wb a b => a < 64 && b < 64
  | .inv a b => a < 64 && b < 64
  | .invn d a b => d < 64 && a < 64 && b < 64
  | .ifence => true
  | .icinv a b => a < 64 && b < 64
  | .pfi a b => a < 64 && b < 64
  | .hwaitFull h _ => h < 64
  | .hwaitFree h => h < 64
  | .hcfgBind h a b => h < 64 && a < 64 && b < 64
  | .hcfgRing h a => h < 64 && a < 64
  | .hcfgMark h => h < 64
  | .hcfgUnbind h => h < 64
  | .hfree h _ => h < 64
  | .fsopen a b => a < 64 && b < 64
  | .fsclose a => a < 64
  | .fswait a => a < 64
  | .mfs r num => r < 64 && num < 4096
  | .mts r num => r < 64 && num < 4096
  | .rngseed k => k < 64
  | .rgnw k e t => k < 64 && e < 64 && t < 64
  | .rgnr k e => k < 64 && e < 64
  | .bgtw k e => k < 64 && e < 64
  | .bgtr k e => k < 64 && e < 64
  | _ => false

end Sys2Proof
end

