-- ==== Sys2Proof/Decode.lean ====
section
/-! DEFINITION. The decoder (R65-R76, R87-R89), total on any bytes, and the encoder from the same
tables.  A word is read as a natural number below 2^32; bit 31 selects the set, [30:24] the opcode.
The decoder refuses, by name, a word that is no row of the opcode maps; what an accepted word's
operands make illegal (R90) is `Instr.illegal`. -/

namespace Sys2Proof

/-- Why a word is no instruction; each of these traps ILLOP (R90). -/
inductive Reject where
  | unassigned     -- R87, R89: a cell marked with a dash
  | reservedBits   -- R67-R76: a reserved or unused bit set
  | badScope       -- R73: a scope the opcode does not accept, where only one is accepted
  | unlisted       -- R67, R265: a subcode that is not listed
  | notAWord       -- not four bytes
  deriving DecidableEq, Repr, Inhabited

/-- R4: the field w[hi:lo]. -/
def fld (hi lo w : Nat) : Nat := w / 2 ^ lo % 2 ^ (hi - lo + 1)

/-- R4: the single bit w[n]. -/
def flag (n w : Nat) : Bool := w / 2 ^ n % 2 == 1

/-- R73. -/
def scopeOf : Nat → Scope
  | 0 => .lane
  | 1 => .wave
  | 2 => .set
  | _ => .team

/-- R73. -/
def Scope.code : Scope → Nat
  | .lane => 0
  | .wave => 1
  | .set => 2
  | .team => 3

/-- R68: the special values 192-207 by offset from 192. -/
def extSpecial : Nat → Ext
  | 0 => .lane | 1 => .wave | 2 => .team | 3 => .srank | 4 => .core | 5 => .die | 6 => .part
  | 7 => .tlane | 8 => .tile | 9 => .nteams | 10 => .nwaves | 11 => .zero | 12 => .ones
  | 13 => .pkg | 14 => .cyclo | 15 => .amask
  | n => .reserved (192 + n)

/-- R68: the extended source field. -/
def extOf (a : Nat) : Ext :=
  if a < 128 then .v a else if a < 192 then .s (a - 128) else extSpecial (a - 192)

/-- R68: the value of the extended source field. -/
def Ext.code : Ext → Nat
  | .v n => n
  | .s n => 128 + n
  | .lane => 192 | .wave => 193 | .team => 194 | .srank => 195 | .core => 196 | .die => 197
  | .part => 198 | .tlane => 199 | .tile => 200 | .nteams => 201 | .nwaves => 202
  | .zero => 203 | .ones => 204 | .pkg => 205 | .cyclo => 206 | .amask => 207
  | .reserved n => n

/-- R87: the L-words, opcodes 00 to 0F. -/
def decodeL0 (op w : Nat) : Except Reject Instr :=
  match op with
  | 0 => if fld 21 0 w == 0 then .ok (.nop (scopeOf (fld 23 22 w))) else .error .reservedBits
  | 1 => .ok (.add (scopeOf (fld 23 22 w)) (fld 21 15 w) (extOf (fld 14 7 w)) (fld 6 0 w))
  | 2 => .ok (.sub (scopeOf (fld 23 22 w)) (fld 21 15 w) (extOf (fld 14 7 w)) (fld 6 0 w))
  | 3 => .ok (.mullo (scopeOf (fld 23 22 w)) (fld 21 15 w) (extOf (fld 14 7 w)) (fld 6 0 w))
  | 4 => .ok (.mulhiI32 (scopeOf (fld 23 22 w)) (fld 21 15 w) (extOf (fld 14 7 w)) (fld 6 0 w))
  | 5 => .ok (.mulhiN32 (scopeOf (fld 23 22 w)) (fld 21 15 w) (extOf (fld 14 7 w)) (fld 6 0 w))
  | 6 => .ok (.mad (scopeOf (fld 23 22 w)) (fld 21 15 w) (extOf (fld 14 7 w)) (fld 6 0 w))
  | 7 => .ok (.minI32 (scopeOf (fld 23 22 w)) (fld 21 15 w) (extOf (fld 14 7 w)) (fld 6 0 w))
  | 8 => .ok (.minN32 (scopeOf (fld 23 22 w)) (fld 21 15 w) (extOf (fld 14 7 w)) (fld 6 0 w))
  | 9 => .ok (.maxI32 (scopeOf (fld 23 22 w)) (fld 21 15 w) (extOf (fld 14 7 w)) (fld 6 0 w))
  | 10 => .ok (.maxN32 (scopeOf (fld 23 22 w)) (fld 21 15 w) (extOf (fld 14 7 w)) (fld 6 0 w))
  | 11 => .ok (.and (scopeOf (fld 23 22 w)) (fld 21 15 w) (extOf (fld 14 7 w)) (fld 6 0 w))
  | 12 => .ok (.or (scopeOf (fld 23 22 w)) (fld 21 15 w) (extOf (fld 14 7 w)) (fld 6 0 w))
  | 13 => .ok (.xor (scopeOf (fld 23 22 w)) (fld 21 15 w) (extOf (fld 14 7 w)) (fld 6 0 w))
  | 14 => .ok (.shl (scopeOf (fld 23 22 w)) (fld 21 15 w) (extOf (fld 14 7 w)) (fld 6 0 w))
  | 15 => .ok (.shrN32 (scopeOf (fld 23 22 w)) (fld 21 15 w) (extOf (fld 14 7 w)) (fld 6 0 w))
  | _ => .error .unassigned

/-- R87: the L-words, opcodes 10 to 1F. -/
def decodeL1 (op w : Nat) : Except Reject Instr :=
  match op with
  | 16 => .ok (.shrI32 (scopeOf (fld 23 22 w)) (fld 21 15 w) (extOf (fld 14 7 w)) (fld 6 0 w))
  | 17 => .ok (.rotl (scopeOf (fld 23 22 w)) (fld 21 15 w) (extOf (fld 14 7 w)) (fld 6 0 w))
  | 18 => if fld 6 0 w == 0 then .ok (.clz (scopeOf (fld 23 22 w)) (fld 21 15 w) (extOf (fld 14 7 w))) else .error .reservedBits
  | 19 => if fld 6 0 w == 0 then .ok (.popc (scopeOf (fld 23 22 w)) (fld 21 15 w) (extOf (fld 14 7 w))) else .error .reservedBits
  | 20 => if fld 6 0 w == 0 then .ok (.brev (scopeOf (fld 23 22 w)) (fld 21 15 w) (extOf (fld 14 7 w))) else .error .reservedBits
  | 21 => .ok (.sel (scopeOf (fld 23 22 w)) (fld 21 15 w) (extOf (fld 14 7 w)) (fld 6 0 w))
  | 22 => if fld 6 0 w == 0 then .ok (.mov (scopeOf (fld 23 22 w)) (fld 21 15 w) (extOf (fld 14 7 w))) else .error .reservedBits
  | 23 => .ok (.add64 (scopeOf (fld 23 22 w)) (fld 21 15 w) (extOf (fld 14 7 w)) (fld 6 0 w))
  | 24 => .ok (.lea (scopeOf (fld 23 22 w)) (fld 21 15 w) (extOf (fld 14 7 w)) (fld 6 0 w))
  | 25 => .ok (.cmpEq (scopeOf (fld 23 22 w)) (fld 21 15 w) (extOf (fld 14 7 w)) (fld 6 0 w))
  | 26 => .ok (.cmpNe (scopeOf (fld 23 22 w)) (fld 21 15 w) (extOf (fld 14 7 w)) (fld 6 0 w))
  | 27 => .ok (.cmpLtI32 (scopeOf (fld 23 22 w)) (fld 21 15 w) (extOf (fld 14 7 w)) (fld 6 0 w))
  | 28 => .ok (.cmpLeI32 (scopeOf (fld 23 22 w)) (fld 21 15 w) (extOf (fld 14 7 w)) (fld 6 0 w))
  | 29 => .ok (.cmpLtN32 (scopeOf (fld 23 22 w)) (fld 21 15 w) (extOf (fld 14 7 w)) (fld 6 0 w))
  | 30 => .ok (.cmpLeN32 (scopeOf (fld 23 22 w)) (fld 21 15 w) (extOf (fld 14 7 w)) (fld 6 0 w))
  | 31 => if fld 23 22 w == 0 then (if fld 21 0 w == 0 then .ok (.exit) else .error .reservedBits) else .error .badScope
  | _ => .error .unassigned

/-- R87: the L-words, opcodes 20 to 2F. -/
def decodeL2 (op w : Nat) : Except Reject Instr :=
  match op with
  | 32 => .ok (.addF32 (scopeOf (fld 23 22 w)) (fld 21 15 w) (extOf (fld 14 7 w)) (fld 6 0 w))
  | 33 => .ok (.subF32 (scopeOf (fld 23 22 w)) (fld 21 15 w) (extOf (fld 14 7 w)) (fld 6 0 w))
  | 34 => .ok (.mulF32 (scopeOf (fld 23 22 w)) (fld 21 15 w) (extOf (fld 14 7 w)) (fld 6 0 w))
  | 35 => .ok (.fmaF32 (scopeOf (fld 23 22 w)) (fld 21 15 w) (extOf (fld 14 7 w)) (fld 6 0 w))
  | 36 => .ok (.minF32 (scopeOf (fld 23 22 w)) (fld 21 15 w) (extOf (fld 14 7 w)) (fld 6 0 w))
  | 37 => .ok (.maxF32 (scopeOf (fld 23 22 w)) (fld 21 15 w) (extOf (fld 14 7 w)) (fld 6 0 w))
  | 38 => if fld 6 0 w == 0 then .ok (.negF32 (scopeOf (fld 23 22 w)) (fld 21 15 w) (extOf (fld 14 7 w))) else .error .reservedBits
  | 39 => if fld 6 0 w == 0 then .ok (.absF32 (scopeOf (fld 23 22 w)) (fld 21 15 w) (extOf (fld 14 7 w))) else .error .reservedBits
  | 40 => .ok (.cmpEqF32 (scopeOf (fld 23 22 w)) (fld 21 15 w) (extOf (fld 14 7 w)) (fld 6 0 w))
  | 41 => .ok (.cmpNeF32 (scopeOf (fld 23 22 w)) (fld 21 15 w) (extOf (fld 14 7 w)) (fld 6 0 w))
  | 42 => .ok (.cmpLtF32 (scopeOf (fld 23 22 w)) (fld 21 15 w) (extOf (fld 14 7 w)) (fld 6 0 w))
  | 43 => .ok (.cmpLeF32 (scopeOf (fld 23 22 w)) (fld 21 15 w) (extOf (fld 14 7 w)) (fld 6 0 w))
  | 44 => .ok (.cmpUnF32 (scopeOf (fld 23 22 w)) (fld 21 15 w) (extOf (fld 14 7 w)) (fld 6 0 w))
  | 45 => if fld 6 0 w == 0 then .ok (.rcp (scopeOf (fld 23 22 w)) (fld 21 15 w) (extOf (fld 14 7 w))) else .error .reservedBits
  | 46 => if fld 6 0 w == 0 then .ok (.rsq (scopeOf (fld 23 22 w)) (fld 21 15 w) (extOf (fld 14 7 w))) else .error .reservedBits
  | 47 => if fld 6 0 w == 0 then .ok (.sqrt (scopeOf (fld 23 22 w)) (fld 21 15 w) (extOf (fld 14 7 w))) else .error .reservedBits
  | _ => .error .unassigned

/-- R87: the L-words, opcodes 30 to 3F. -/
def decodeL3 (op w : Nat) : Except Reject Instr :=
  match op with
  | 48 => if fld 6 0 w == 0 then .ok (.exp2 (scopeOf (fld 23 22 w)) (fld 21 15 w) (extOf (fld 14 7 w))) else .error .reservedBits
  | 49 => if fld 6 0 w == 0 then .ok (.log2 (scopeOf (fld 23 22 w)) (fld 21 15 w) (extOf (fld 14 7 w))) else .error .reservedBits
  | 50 => if fld 6 0 w == 0 then .ok (.sinpi (scopeOf (fld 23 22 w)) (fld 21 15 w) (extOf (fld 14 7 w))) else .error .reservedBits
  | 51 => if fld 6 0 w == 0 then .ok (.cospi (scopeOf (fld 23 22 w)) (fld 21 15 w) (extOf (fld 14 7 w))) else .error .reservedBits
  | 52 => .ok (.addBf16x2 (scopeOf (fld 23 22 w)) (fld 21 15 w) (extOf (fld 14 7 w)) (fld 6 0 w))
  | 53 => .ok (.mulBf16x2 (scopeOf (fld 23 22 w)) (fld 21 15 w) (extOf (fld 14 7 w)) (fld 6 0 w))
  | 54 => .ok (.fmaBf16x2 (scopeOf (fld 23 22 w)) (fld 21 15 w) (extOf (fld 14 7 w)) (fld 6 0 w))
  | 55 => .ok (.cvt (scopeOf (fld 23 22 w)) (fld 21 15 w) (extOf (fld 14 7 w)) (fld 6 2 w) (fld 1 0 w))
  | 56 => if fld 5 4 w == 0 then .ok (.atom (scopeOf (fld 23 22 w)) (fld 21 15 w) (extOf (fld 14 7 w)) (flag 6 w) (fld 3 0 w)) else .error .reservedBits
  | 57 => if fld 6 4 w == 0 then .ok (.batom (scopeOf (fld 23 22 w)) (fld 21 15 w) (extOf (fld 14 7 w)) (fld 3 0 w)) else .error .reservedBits
  | 58 => if fld 23 22 w == 2 then (if fld 1 0 w == 0 then .ok (.copy (flag 21 w) (fld 20 15 w) (extOf (fld 14 7 w)) (fld 6 5 w) (fld 4 2 w)) else .error .reservedBits) else .error .badScope
  | 59 => if fld 23 22 w == 0 then (.ok (.spawn (fld 21 15 w) (extOf (fld 14 7 w)) (fld 6 0 w))) else .error .badScope
  | 60 => if fld 23 22 w == 0 then (if fld 14 0 w == 0 then .ok (.tsget (fld 21 15 w)) else .error .reservedBits) else .error .badScope
  | 61 => if fld 23 22 w == 0 then (if fld 6 0 w == 0 then .ok (.brx (fld 21 15 w) (extOf (fld 14 7 w))) else .error .reservedBits) else .error .badScope
  | 62 => if fld 23 22 w == 0 then (if fld 6 0 w == 0 && fld 21 15 w == 0 then .ok (.ret (extOf (fld 14 7 w))) else .error .reservedBits) else .error .badScope
  | _ => .error .unassigned

/-- R87: the L-words, opcodes 40 to 4F. -/
def decodeL4 (op w : Nat) : Except Reject Instr :=
  match op with
  | 64 => .ok (.shfl (scopeOf (fld 23 22 w)) (fld 21 15 w) (extOf (fld 14 7 w)) (fld 6 0 w))
  | 65 => .ok (.put (scopeOf (fld 23 22 w)) (fld 21 15 w) (extOf (fld 14 7 w)) (fld 6 0 w))
  | 66 => .ok (.bcast (scopeOf (fld 23 22 w)) (fld 21 15 w) (extOf (fld 14 7 w)) (fld 6 0 w))
  | 67 => if fld 14 7 w == 0 then .ok (.voteAny (scopeOf (fld 23 22 w)) (fld 21 15 w) (fld 6 0 w)) else .error .reservedBits
  | 68 => if fld 14 7 w == 0 then .ok (.voteAll (scopeOf (fld 23 22 w)) (fld 21 15 w) (fld 6 0 w)) else .error .reservedBits
  | 69 => if fld 14 7 w == 0 then .ok (.ballot (scopeOf (fld 23 22 w)) (fld 21 15 w) (fld 6 0 w)) else .error .reservedBits
  | 70 => if fld 6 4 w == 0 then .ok (.red (scopeOf (fld 23 22 w)) (fld 21 15 w) (extOf (fld 14 7 w)) (fld 3 2 w) (fld 1 0 w)) else .error .reservedBits
  | 71 => if fld 6 5 w == 0 then .ok (.scan (scopeOf (fld 23 22 w)) (fld 21 15 w) (extOf (fld 14 7 w)) (flag 4 w) (fld 3 2 w) (fld 1 0 w)) else .error .reservedBits
  | 72 => if fld 6 0 w == 0 then .ok (.matchrank (scopeOf (fld 23 22 w)) (fld 21 15 w) (extOf (fld 14 7 w))) else .error .reservedBits
  | 73 => if fld 6 0 w == 0 then .ok (.histo (scopeOf (fld 23 22 w)) (fld 21 15 w) (extOf (fld 14 7 w))) else .error .reservedBits
  | 74 => .ok (.hash (scopeOf (fld 23 22 w)) (fld 21 15 w) (extOf (fld 14 7 w)) (fld 6 0 w))
  | 75 => if fld 23 22 w == 0 then (if fld 14 0 w == 0 then .ok (.rng (fld 21 15 w)) else .error .reservedBits) else .error .badScope
  | 76 => .ok (.sample (scopeOf (fld 23 22 w)) (fld 21 15 w) (extOf (fld 14 7 w)) (fld 6 0 w))
  | 77 => if fld 23 22 w == 0 then (if fld 21 21 w == 0 then .ok (.jtab (fld 20 15 w) (extOf (fld 14 7 w)) (fld 6 0 w)) else .error .reservedBits) else .error .badScope
  | 78 => if fld 23 22 w == 0 then (if fld 14 0 w == 0 && fld 21 19 w == 0 then .ok (.join (fld 18 15 w)) else .error .reservedBits) else .error .badScope
  | 79 => if fld 23 22 w == 0 then (if fld 14 0 w == 0 && fld 21 19 w == 0 then .ok (.joinleave (fld 18 15 w)) else .error .reservedBits) else .error .badScope
  | _ => .error .unassigned

/-- R87: the L-words, opcodes 50 to 5F. -/
def decodeL5 (op w : Nat) : Except Reject Instr :=
  match op with
  | 80 => .ok (.addi (scopeOf (fld 23 22 w)) (fld 21 15 w) (fld 14 8 w) (fld 7 0 w))
  | 81 => .ok (.andi (scopeOf (fld 23 22 w)) (fld 21 15 w) (fld 14 8 w) (fld 7 0 w))
  | 82 => .ok (.ori (scopeOf (fld 23 22 w)) (fld 21 15 w) (fld 14 8 w) (fld 7 0 w))
  | 83 => .ok (.xori (scopeOf (fld 23 22 w)) (fld 21 15 w) (fld 14 8 w) (fld 7 0 w))
  | 84 => if fld 7 5 w == 0 then .ok (.shli (scopeOf (fld 23 22 w)) (fld 21 15 w) (fld 14 8 w) (fld 4 0 w)) else .error .reservedBits
  | 85 => if fld 7 5 w == 0 then .ok (.shriN32 (scopeOf (fld 23 22 w)) (fld 21 15 w) (fld 14 8 w) (fld 4 0 w)) else .error .reservedBits
  | 86 => if fld 7 5 w == 0 then .ok (.shriI32 (scopeOf (fld 23 22 w)) (fld 21 15 w) (fld 14 8 w) (fld 4 0 w)) else .error .reservedBits
  | 87 => .ok (.cmpiEq (scopeOf (fld 23 22 w)) (fld 21 15 w) (fld 14 8 w) (fld 7 0 w))
  | 88 => .ok (.cmpiLtI32 (scopeOf (fld 23 22 w)) (fld 21 15 w) (fld 14 8 w) (fld 7 0 w))
  | 89 => .ok (.cmpiLtN32 (scopeOf (fld 23 22 w)) (fld 21 15 w) (fld 14 8 w) (fld 7 0 w))
  | 90 => if fld 7 5 w == 0 then .ok (.shfli (scopeOf (fld 23 22 w)) (fld 21 15 w) (fld 14 8 w) (fld 4 0 w)) else .error .reservedBits
  | 91 => if fld 7 5 w == 0 then .ok (.bcasti (scopeOf (fld 23 22 w)) (fld 21 15 w) (fld 14 8 w) (fld 4 0 w)) else .error .reservedBits
  | _ => .error .unassigned

/-- R87: the L-words, opcodes 60 to 6F. -/
def decodeL6 (op w : Nat) : Except Reject Instr :=
  match op with
  | 96 => .ok (.ldB8 (scopeOf (fld 23 22 w)) (fld 21 15 w) (fld 14 8 w) (fld 7 0 w))
  | 97 => .ok (.ldB16 (scopeOf (fld 23 22 w)) (fld 21 15 w) (fld 14 8 w) (fld 7 0 w))
  | 98 => .ok (.ldB32 (scopeOf (fld 23 22 w)) (fld 21 15 w) (fld 14 8 w) (fld 7 0 w))
  | 99 => .ok (.ldB64 (scopeOf (fld 23 22 w)) (fld 21 15 w) (fld 14 8 w) (fld 7 0 w))
  | 100 => .ok (.ldB128 (scopeOf (fld 23 22 w)) (fld 21 15 w) (fld 14 8 w) (fld 7 0 w))
  | 101 => .ok (.stB8 (scopeOf (fld 23 22 w)) (fld 21 15 w) (fld 14 8 w) (fld 7 0 w))
  | 102 => .ok (.stB16 (scopeOf (fld 23 22 w)) (fld 21 15 w) (fld 14 8 w) (fld 7 0 w))
  | 103 => .ok (.stB32 (scopeOf (fld 23 22 w)) (fld 21 15 w) (fld 14 8 w) (fld 7 0 w))
  | 104 => .ok (.stB64 (scopeOf (fld 23 22 w)) (fld 21 15 w) (fld 14 8 w) (fld 7 0 w))
  | 105 => .ok (.stB128 (scopeOf (fld 23 22 w)) (fld 21 15 w) (fld 14 8 w) (fld 7 0 w))
  | 106 => .ok (.ldAcqB32 (scopeOf (fld 23 22 w)) (fld 21 15 w) (fld 14 8 w) (fld 7 0 w))
  | 107 => .ok (.ldAcqB64 (scopeOf (fld 23 22 w)) (fld 21 15 w) (fld 14 8 w) (fld 7 0 w))
  | 108 => .ok (.stRelB32 (scopeOf (fld 23 22 w)) (fld 21 15 w) (fld 14 8 w) (fld 7 0 w))
  | 109 => .ok (.stRelB64 (scopeOf (fld 23 22 w)) (fld 21 15 w) (fld 14 8 w) (fld 7 0 w))
  | 110 => .ok (.ldf (scopeOf (fld 23 22 w)) (fld 21 15 w) (fld 14 8 w) (fld 7 5 w) (fld 4 0 w))
  | 111 => .ok (.stf (scopeOf (fld 23 22 w)) (fld 21 15 w) (fld 14 8 w) (fld 7 5 w) (fld 4 0 w))
  | _ => .error .unassigned

/-- R87: the L-words, opcodes 70 to 7F. -/
def decodeL7 (op w : Nat) : Except Reject Instr :=
  match op with
  | 112 => .ok (.ldsB32 (scopeOf (fld 23 22 w)) (fld 21 15 w) (fld 14 8 w) (fld 7 0 w))
  | 113 => .ok (.ldsB128 (scopeOf (fld 23 22 w)) (fld 21 15 w) (fld 14 8 w) (fld 7 0 w))
  | 114 => .ok (.stsB32 (scopeOf (fld 23 22 w)) (fld 21 15 w) (fld 14 8 w) (fld 7 0 w))
  | 115 => .ok (.stsB128 (scopeOf (fld 23 22 w)) (fld 21 15 w) (fld 14 8 w) (fld 7 0 w))
  | 116 => if fld 23 22 w == 0 then (.ok (.ldm (fld 21 15 w) (fld 14 8 w) (fld 7 4 w) (fld 3 0 w))) else .error .badScope
  | 117 => if fld 23 22 w == 0 then (.ok (.stm (fld 21 15 w) (fld 14 8 w) (fld 7 4 w) (fld 3 0 w))) else .error .badScope
  | 118 => if fld 7 6 w == 0 && fld 14 14 w == 0 then .ok (.ldh (scopeOf (fld 23 22 w)) (fld 21 15 w) (fld 13 8 w) (fld 5 0 w)) else .error .reservedBits
  | 119 => if fld 7 6 w == 0 && fld 14 14 w == 0 then .ok (.sth (scopeOf (fld 23 22 w)) (fld 21 15 w) (fld 13 8 w) (fld 5 0 w)) else .error .reservedBits
  | 120 => if fld 23 23 w == 0 then .ok (.bp (flag 22 w) (fld 21 16 w) (fld 15 0 w)) else .error .reservedBits
  | 121 => if fld 23 23 w == 0 then .ok (.call (flag 22 w) (fld 21 16 w) (fld 15 0 w)) else .error .reservedBits
  | 122 => .ok (.mma (fld 23 22 w) (fld 21 16 w) (flag 15 w) (fld 14 9 w) (fld 8 3 w) (fld 2 0 w))
  | 123 => if fld 15 0 w == 0 && fld 23 22 w == 0 then .ok (.accz (fld 21 16 w)) else .error .reservedBits
  | 124 => if fld 8 0 w == 0 && fld 15 15 w == 0 && fld 23 22 w == 0 then .ok (.accld (fld 21 16 w) (fld 14 9 w)) else .error .reservedBits
  | 125 => if fld 8 3 w == 0 && fld 15 15 w == 0 && fld 23 22 w == 0 then .ok (.accst (fld 21 16 w) (fld 14 9 w) (fld 2 0 w)) else .error .reservedBits
  | 126 => if fld 8 0 w == 0 && fld 15 15 w == 0 && fld 23 22 w == 0 then .ok (.accflush (fld 21 16 w) (fld 14 9 w)) else .error .reservedBits
  | 127 => if fld 8 0 w == 0 && fld 15 15 w == 0 && fld 23 22 w == 0 then .ok (.accflushDet (fld 21 16 w) (fld 14 9 w)) else .error .reservedBits
  | _ => .error .unassigned

/-- R87: the L-words by opcode. -/
def decodeL (op w : Nat) : Except Reject Instr :=
  match op / 16 with
  | 0 => decodeL0 op w
  | 1 => decodeL1 op w
  | 2 => decodeL2 op w
  | 3 => decodeL3 op w
  | 4 => decodeL4 op w
  | 5 => decodeL5 op w
  | 6 => decodeL6 op w
  | _ => decodeL7 op w

/-- R266: HWAIT, with imm[1] the mode and imm[0] the phase. -/
def decodeHwait (w : Nat) : Except Reject Instr :=
  if fld 17 2 w != 0 then .error .reservedBits
  else if fld 1 1 w == 0 then .ok (.hwaitFull (fld 23 18 w) (flag 0 w))
  else if fld 0 0 w == 0 then .ok (.hwaitFree (fld 23 18 w)) else .error .reservedBits

/-- R265: HCFG, with x the function. -/
def decodeHcfg (w : Nat) : Except Reject Instr :=
  match fld 5 0 w with
  | 0 => .ok (.hcfgBind (fld 23 18 w) (fld 17 12 w) (fld 11 6 w))
  | 1 => if fld 11 6 w == 0 then .ok (.hcfgRing (fld 23 18 w) (fld 17 12 w)) else .error .reservedBits
  | 2 => if fld 17 6 w == 0 then .ok (.hcfgMark (fld 23 18 w)) else .error .reservedBits
  | 3 => if fld 17 6 w == 0 then .ok (.hcfgUnbind (fld 23 18 w)) else .error .reservedBits
  | _ => .error .unlisted

/-- R89: the G-words, opcodes 00 to 0F. -/
def decodeG0 (op w : Nat) : Except Reject Instr :=
  match op with
  | 0 => .ok (.clause (fld 23 12 w) (fld 11 8 w) (fld 7 4 w) (fld 3 0 w))
  | 1 => if fld 5 0 w == 0 then .ok (.uadd (fld 23 18 w) (fld 17 12 w) (fld 11 6 w)) else .error .reservedBits
  | 2 => if fld 5 0 w == 0 then .ok (.usub (fld 23 18 w) (fld 17 12 w) (fld 11 6 w)) else .error .reservedBits
  | 3 => if fld 5 0 w == 0 then .ok (.umul (fld 23 18 w) (fld 17 12 w) (fld 11 6 w)) else .error .reservedBits
  | 4 => if fld 5 0 w == 0 then .ok (.umulhiI32 (fld 23 18 w) (fld 17 12 w) (fld 11 6 w)) else .error .reservedBits
  | 5 => if fld 5 0 w == 0 then .ok (.umulhiN32 (fld 23 18 w) (fld 17 12 w) (fld 11 6 w)) else .error .reservedBits
  | 6 => if fld 5 0 w == 0 then .ok (.uminI32 (fld 23 18 w) (fld 17 12 w) (fld 11 6 w)) else .error .reservedBits
  | 7 => if fld 5 0 w == 0 then .ok (.uminN32 (fld 23 18 w) (fld 17 12 w) (fld 11 6 w)) else .error .reservedBits
  | 8 => if fld 5 0 w == 0 then .ok (.umaxI32 (fld 23 18 w) (fld 17 12 w) (fld 11 6 w)) else .error .reservedBits
  | 9 => if fld 5 0 w == 0 then .ok (.umaxN32 (fld 23 18 w) (fld 17 12 w) (fld 11 6 w)) else .error .reservedBits
  | 10 => if fld 5 0 w == 0 then .ok (.uand (fld 23 18 w) (fld 17 12 w) (fld 11 6 w)) else .error .reservedBits
  | 11 => if fld 5 0 w == 0 then .ok (.uor (fld 23 18 w) (fld 17 12 w) (fld 11 6 w)) else .error .reservedBits
  | 12 => if fld 5 0 w == 0 then .ok (.uxor (fld 23 18 w) (fld 17 12 w) (fld 11 6 w)) else .error .reservedBits
  | 13 => if fld 5 0 w == 0 then .ok (.ushl (fld 23 18 w) (fld 17 12 w) (fld 11 6 w)) else .error .reservedBits
  | 14 => if fld 5 0 w == 0 then .ok (.ushrN32 (fld 23 18 w) (fld 17 12 w) (fld 11 6 w)) else .error .reservedBits
  | 15 => if fld 5 0 w == 0 then .ok (.ushrI32 (fld 23 18 w) (fld 17 12 w) (fld 11 6 w)) else .error .reservedBits
  | _ => .error .unassigned

/-- R89: the G-words, opcodes 10 to 1F. -/
def decodeG1 (op w : Nat) : Except Reject Instr :=
  match op with
  | 16 => if fld 5 0 w == 0 then .ok (.urotl (fld 23 18 w) (fld 17 12 w) (fld 11 6 w)) else .error .reservedBits
  | 17 => if fld 11 0 w == 0 then .ok (.uclz (fld 23 18 w) (fld 17 12 w)) else .error .reservedBits
  | 18 => if fld 11 0 w == 0 then .ok (.upopc (fld 23 18 w) (fld 17 12 w)) else .error .reservedBits
  | 19 => if fld 11 0 w == 0 then .ok (.ubrev (fld 23 18 w) (fld 17 12 w)) else .error .reservedBits
  | 20 => if fld 11 0 w == 0 then .ok (.umov (fld 23 18 w) (fld 17 12 w)) else .error .reservedBits
  | 21 => if fld 5 0 w == 0 then .ok (.usel (fld 23 18 w) (fld 17 12 w) (fld 11 6 w)) else .error .reservedBits
  | 22 => if fld 5 0 w == 0 then .ok (.uadd64 (fld 23 18 w) (fld 17 12 w) (fld 11 6 w)) else .error .reservedBits
  | 23 => if fld 5 0 w == 0 then .ok (.ucmpEq (fld 23 18 w) (fld 17 12 w) (fld 11 6 w)) else .error .reservedBits
  | 24 => if fld 5 0 w == 0 then .ok (.ucmpNe (fld 23 18 w) (fld 17 12 w) (fld 11 6 w)) else .error .reservedBits
  | 25 => if fld 5 0 w == 0 then .ok (.ucmpLtI32 (fld 23 18 w) (fld 17 12 w) (fld 11 6 w)) else .error .reservedBits
  | 26 => if fld 5 0 w == 0 then .ok (.ucmpLeI32 (fld 23 18 w) (fld 17 12 w) (fld 11 6 w)) else .error .reservedBits
  | 27 => if fld 5 0 w == 0 then .ok (.ucmpLtN32 (fld 23 18 w) (fld 17 12 w) (fld 11 6 w)) else .error .reservedBits
  | 28 => if fld 5 0 w == 0 then .ok (.ucmpLeN32 (fld 23 18 w) (fld 17 12 w) (fld 11 6 w)) else .error .reservedBits
  | _ => .error .unassigned

/-- R89: the G-words, opcodes 20 to 2F. -/
def decodeG2 (op w : Nat) : Except Reject Instr :=
  match op with
  | 32 => if fld 5 0 w == 0 then .ok (.uaddF32 (fld 23 18 w) (fld 17 12 w) (fld 11 6 w)) else .error .reservedBits
  | 33 => if fld 5 0 w == 0 then .ok (.umulF32 (fld 23 18 w) (fld 17 12 w) (fld 11 6 w)) else .error .reservedBits
  | 34 => if fld 5 0 w == 0 then .ok (.ufmaF32 (fld 23 18 w) (fld 17 12 w) (fld 11 6 w)) else .error .reservedBits
  | 35 => if fld 5 0 w == 0 then .ok (.uminF32 (fld 23 18 w) (fld 17 12 w) (fld 11 6 w)) else .error .reservedBits
  | 36 => if fld 5 0 w == 0 then .ok (.umaxF32 (fld 23 18 w) (fld 17 12 w) (fld 11 6 w)) else .error .reservedBits
  | 37 => if fld 5 0 w == 0 then .ok (.ucmpLtF32 (fld 23 18 w) (fld 17 12 w) (fld 11 6 w)) else .error .reservedBits
  | 38 => if fld 11 0 w == 0 && fld 23 18 w == 0 then .ok (.uret (fld 17 12 w)) else .error .reservedBits
  | _ => .error .unassigned

/-- R89: the G-words, opcodes 30 to 3F. -/
def decodeG3 (op w : Nat) : Except Reject Instr :=
  match op with
  | 48 => if fld 11 8 w == 0 then .ok (.uaddi (fld 23 18 w) (fld 17 12 w) (fld 7 0 w)) else .error .reservedBits
  | 49 => if fld 11 8 w == 0 then .ok (.uandi (fld 23 18 w) (fld 17 12 w) (fld 7 0 w)) else .error .reservedBits
  | 50 => if fld 11 8 w == 0 then .ok (.uori (fld 23 18 w) (fld 17 12 w) (fld 7 0 w)) else .error .reservedBits
  | 51 => if fld 11 8 w == 0 then .ok (.uxori (fld 23 18 w) (fld 17 12 w) (fld 7 0 w)) else .error .reservedBits
  | 52 => if fld 11 5 w == 0 then .ok (.ushli (fld 23 18 w) (fld 17 12 w) (fld 4 0 w)) else .error .reservedBits
  | 53 => if fld 11 5 w == 0 then .ok (.ushriN32 (fld 23 18 w) (fld 17 12 w) (fld 4 0 w)) else .error .reservedBits
  | 54 => if fld 11 5 w == 0 then .ok (.ushriI32 (fld 23 18 w) (fld 17 12 w) (fld 4 0 w)) else .error .reservedBits
  | 55 => if fld 17 8 w == 0 then .ok (.movi (fld 23 18 w) (fld 7 0 w)) else .error .reservedBits
  | 56 => if fld 17 8 w == 0 then .ok (.ldk (fld 23 18 w) (fld 7 0 w)) else .error .reservedBits
  | 57 => if fld 11 8 w == 0 then .ok (.ucmpiEq (fld 23 18 w) (fld 17 12 w) (fld 7 0 w)) else .error .reservedBits
  | 58 => if fld 11 8 w == 0 then .ok (.ucmpiLtI32 (fld 23 18 w) (fld 17 12 w) (fld 7 0 w)) else .error .reservedBits
  | 59 => if fld 11 8 w == 0 then .ok (.ucmpiLtN32 (fld 23 18 w) (fld 17 12 w) (fld 7 0 w)) else .error .reservedBits
  | 60 => if fld 11 8 w == 0 then .ok (.uldB32 (fld 23 18 w) (fld 17 12 w) (fld 7 0 w)) else .error .reservedBits
  | 61 => if fld 11 8 w == 0 then .ok (.uldB64 (fld 23 18 w) (fld 17 12 w) (fld 7 0 w)) else .error .reservedBits
  | 62 => if fld 11 8 w == 0 then .ok (.ustB32 (fld 23 18 w) (fld 17 12 w) (fld 7 0 w)) else .error .reservedBits
  | 63 => if fld 11 8 w == 0 then .ok (.ustB64 (fld 23 18 w) (fld 17 12 w) (fld 7 0 w)) else .error .reservedBits
  | _ => .error .unassigned

/-- R89: the G-words, opcodes 40 to 4F. -/
def decodeG4 (op w : Nat) : Except Reject Instr :=
  match op with
  | 64 => if fld 23 16 w == 0 then .ok (.bra (fld 15 0 w)) else .error .reservedBits
  | 65 => if fld 23 23 w == 0 then .ok (.bc (flag 22 w) (fld 21 16 w) (fld 15 0 w)) else .error .reservedBits
  | 66 => if fld 23 22 w == 0 then .ok (.ucall (fld 21 16 w) (fld 15 0 w)) else .error .reservedBits
  | 72 => if fld 11 1 w == 0 && fld 23 22 w == 0 then .ok (.joinset (fld 21 18 w) (fld 17 12 w) (flag 0 w)) else .error .reservedBits
  | 73 => if fld 23 0 w == 0 then .ok (.yield) else .error .reservedBits
  | 74 => if fld 23 3 w == 0 then .ok (.part (fld 2 0 w)) else .error .reservedBits
  | 75 => if fld 23 3 w == 0 then .ok (.arrive (fld 2 0 w)) else .error .reservedBits
  | 76 => if fld 23 3 w == 0 then .ok (.waitb (fld 2 0 w)) else .error .reservedBits
  | 77 => if fld 23 7 w == 0 then .ok (.trap (fld 6 0 w)) else .error .reservedBits
  | 78 => if fld 23 0 w == 0 then .ok (.rett) else .error .reservedBits
  | _ => .error .unassigned

/-- R89: the G-words, opcodes 50 to 5F. -/
def decodeG5 (op w : Nat) : Except Reject Instr :=
  match op with
  | 80 => if fld 11 0 w == 0 && fld 23 18 w == 0 then .ok (.fenceAcq (fld 17 12 w)) else .error .reservedBits
  | 81 => if fld 11 0 w == 0 && fld 23 18 w == 0 then .ok (.fenceRel (fld 17 12 w)) else .error .reservedBits
  | 82 => if fld 11 0 w == 0 && fld 23 18 w == 0 then .ok (.fenceAr (fld 17 12 w)) else .error .reservedBits
  | 83 => if fld 5 0 w == 0 && fld 23 18 w == 0 then .ok (.wb (fld 17 12 w) (fld 11 6 w)) else .error .reservedBits
  | 84 => if fld 5 0 w == 0 && fld 23 18 w == 0 then .ok (.inv (fld 17 12 w) (fld 11 6 w)) else .error .reservedBits
  | 85 => if fld 5 0 w == 0 then .ok (.invn (fld 23 18 w) (fld 17 12 w) (fld 11 6 w)) else .error .reservedBits
  | 86 => if fld 23 0 w == 0 then .ok (.ifence) else .error .reservedBits
  | 87 => if fld 5 0 w == 0 && fld 23 18 w == 0 then .ok (.icinv (fld 17 12 w) (fld 11 6 w)) else .error .reservedBits
  | 88 => if fld 5 0 w == 0 && fld 23 18 w == 0 then .ok (.pfi (fld 17 12 w) (fld 11 6 w)) else .error .reservedBits
  | 89 => decodeHwait w
  | 90 => decodeHcfg w
  | 91 => if fld 17 1 w == 0 then .ok (.hfree (fld 23 18 w) (flag 0 w)) else .error .reservedBits
  | 92 => if fld 5 0 w == 0 && fld 23 18 w == 0 then .ok (.fsopen (fld 17 12 w) (fld 11 6 w)) else .error .reservedBits
  | 93 => if fld 11 0 w == 0 && fld 23 18 w == 0 then .ok (.fsclose (fld 17 12 w)) else .error .reservedBits
  | 94 => if fld 11 0 w == 0 && fld 23 18 w == 0 then .ok (.fswait (fld 17 12 w)) else .error .reservedBits
  | _ => .error .unassigned

/-- R89: the G-words, opcodes 60 to 6F. -/
def decodeG6 (op w : Nat) : Except Reject Instr :=
  match op with
  | 96 => if fld 17 12 w == 0 then .ok (.mfs (fld 23 18 w) (fld 11 0 w)) else .error .reservedBits
  | 97 => if fld 17 12 w == 0 then .ok (.mts (fld 23 18 w) (fld 11 0 w)) else .error .reservedBits
  | 98 => if fld 17 0 w == 0 then .ok (.rngseed (fld 23 18 w)) else .error .reservedBits
  | 99 => if fld 17 12 w == 0 then .ok (.rgnw (fld 23 18 w) (fld 11 6 w) (fld 5 0 w)) else .error .reservedBits
  | 100 => if fld 5 0 w == 0 && fld 17 12 w == 0 then .ok (.rgnr (fld 23 18 w) (fld 11 6 w)) else .error .reservedBits
  | 101 => if fld 5 0 w == 0 && fld 17 12 w == 0 then .ok (.bgtw (fld 23 18 w) (fld 11 6 w)) else .error .reservedBits
  | 102 => if fld 5 0 w == 0 && fld 17 12 w == 0 then .ok (.bgtr (fld 23 18 w) (fld 11 6 w)) else .error .reservedBits
  | _ => .error .unassigned

/-- R89: the G-words by opcode. -/
def decodeG (op w : Nat) : Except Reject Instr :=
  match op / 16 with
  | 0 => decodeG0 op w
  | 1 => decodeG1 op w
  | 2 => decodeG2 op w
  | 3 => decodeG3 op w
  | 4 => decodeG4 op w
  | 5 => decodeG5 op w
  | 6 => decodeG6 op w
  | _ => .error .unassigned

/-- R65: bit 31 selects the set. -/
def decode (w : Nat) : Except Reject Instr :=
  if fld 31 31 w == 0 then decodeL (fld 30 24 w) w else decodeG (fld 30 24 w) w

/-- R65: an instruction word is stored little-endian (R4). -/
def wordOfBytes : List Byte → Option Nat
  | [b0, b1, b2, b3] => some (b0.toNat + 2 ^ 8 * b1.toNat + 2 ^ 16 * b2.toNat + 2 ^ 24 * b3.toNat)
  | _ => none

/-- R65, R4: the four bytes of a word, the lowest address first. -/
def bytesOfWord (w : Nat) : List Byte :=
  [BitVec.ofNat 8 w, BitVec.ofNat 8 (w / 2 ^ 8), BitVec.ofNat 8 (w / 2 ^ 16), BitVec.ofNat 8 (w / 2 ^ 24)]

/-- The decoder on any bytes. -/
def decodeBytes (bs : List Byte) : Except Reject Instr :=
  match wordOfBytes bs with
  | some w => decode w
  | none => .error .notAWord

/-- The decoder on an instruction numbered as spec/opcode_table.json numbers it. -/
def decodeTableWord (nbits w : Nat) : Option Instr :=
  match decodeBytes (bytesOfWord (w % 2 ^ nbits)) with
  | .ok i => some i
  | .error _ => none

/-- The field value `v` with its least significant bit at bit `k`. -/
def place (v k : Nat) : Nat := v * 2 ^ k

/-- R67-R76, R87, R89: the word of an instruction, from the encoding tables; `none` for an event row. -/
def encode : Instr → Option Nat
  | .nop sc => some (0x00000000 + place (sc.code) 22)
  | .add sc d a b => some (0x01000000 + place (sc.code) 22 + place d 15 + place (a.code) 7 + b)
  | .sub sc d a b => some (0x02000000 + place (sc.code) 22 + place d 15 + place (a.code) 7 + b)
  | .mullo sc d a b => some (0x03000000 + place (sc.code) 22 + place d 15 + place (a.code) 7 + b)
  | .mulhiI32 sc d a b => some (0x04000000 + place (sc.code) 22 + place d 15 + place (a.code) 7 + b)
  | .mulhiN32 sc d a b => some (0x05000000 + place (sc.code) 22 + place d 15 + place (a.code) 7 + b)
  | .mad sc d a b => some (0x06000000 + place (sc.code) 22 + place d 15 + place (a.code) 7 + b)
  | .minI32 sc d a b => some (0x07000000 + place (sc.code) 22 + place d 15 + place (a.code) 7 + b)
  | .minN32 sc d a b => some (0x08000000 + place (sc.code) 22 + place d 15 + place (a.code) 7 + b)
  | .maxI32 sc d a b => some (0x09000000 + place (sc.code) 22 + place d 15 + place (a.code) 7 + b)
  | .maxN32 sc d a b => some (0x0A000000 + place (sc.code) 22 + place d 15 + place (a.code) 7 + b)
  | .and sc d a b => some (0x0B000000 + place (sc.code) 22 + place d 15 + place (a.code) 7 + b)
  | .or sc d a b => some (0x0C000000 + place (sc.code) 22 + place d 15 + place (a.code) 7 + b)
  | .xor sc d a b => some (0x0D000000 + place (sc.code) 22 + place d 15 + place (a.code) 7 + b)
  | .shl sc d a b => some (0x0E000000 + place (sc.code) 22 + place d 15 + place (a.code) 7 + b)
  | .shrN32 sc d a b => some (0x0F000000 + place (sc.code) 22 + place d 15 + place (a.code) 7 + b)
  | .shrI32 sc d a b => some (0x10000000 + place (sc.code) 22 + place d 15 + place (a.code) 7 + b)
  | .rotl sc d a b => some (0x11000000 + place (sc.code) 22 + place d 15 + place (a.code) 7 + b)
  | .clz sc d a => some (0x12000000 + place (sc.code) 22 + place d 15 + place (a.code) 7)
  | .popc sc d a => some (0x13000000 + place (sc.code) 22 + place d 15 + place (a.code) 7)
  | .brev sc d a => some (0x14000000 + place (sc.code) 22 + place d 15 + place (a.code) 7)
  | .sel sc d a b => some (0x15000000 + place (sc.code) 22 + place d 15 + place (a.code) 7 + b)
  | .mov sc d a => some (0x16000000 + place (sc.code) 22 + place d 15 + place (a.code) 7)
  | .add64 sc d a b => some (0x17000000 + place (sc.code) 22 + place d 15 + place (a.code) 7 + b)
  | .lea sc d a b => some (0x18000000 + place (sc.code) 22 + place d 15 + place (a.code) 7 + b)
  | .cmpEq sc d a b => some (0x19000000 + place (sc.code) 22 + place d 15 + place (a.code) 7 + b)
  | .cmpNe sc d a b => some (0x1A000000 + place (sc.code) 22 + place d 15 + place (a.code) 7 + b)
  | .cmpLtI32 sc d a b => some (0x1B000000 + place (sc.code) 22 + place d 15 + place (a.code) 7 + b)
  | .cmpLeI32 sc d a b => some (0x1C000000 + place (sc.code) 22 + place d 15 + place (a.code) 7 + b)
  | .cmpLtN32 sc d a b => some (0x1D000000 + place (sc.code) 22 + place d 15 + place (a.code) 7 + b)
  | .cmpLeN32 sc d a b => some (0x1E000000 + place (sc.code) 22 + place d 15 + place (a.code) 7 + b)
  | .exit => some (0x1F000000)
  | .addF32 sc d a b => some (0x20000000 + place (sc.code) 22 + place d 15 + place (a.code) 7 + b)
  | .subF32 sc d a b => some (0x21000000 + place (sc.code) 22 + place d 15 + place (a.code) 7 + b)
  | .mulF32 sc d a b => some (0x22000000 + place (sc.code) 22 + place d 15 + place (a.code) 7 + b)
  | .fmaF32 sc d a b => some (0x23000000 + place (sc.code) 22 + place d 15 + place (a.code) 7 + b)
  | .minF32 sc d a b => some (0x24000000 + place (sc.code) 22 + place d 15 + place (a.code) 7 + b)
  | .maxF32 sc d a b => some (0x25000000 + place (sc.code) 22 + place d 15 + place (a.code) 7 + b)
  | .negF32 sc d a => some (0x26000000 + place (sc.code) 22 + place d 15 + place (a.code) 7)
  | .absF32 sc d a => some (0x27000000 + place (sc.code) 22 + place d 15 + place (a.code) 7)
  | .cmpEqF32 sc d a b => some (0x28000000 + place (sc.code) 22 + place d 15 + place (a.code) 7 + b)
  | .cmpNeF32 sc d a b => some (0x29000000 + place (sc.code) 22 + place d 15 + place (a.code) 7 + b)
  | .cmpLtF32 sc d a b => some (0x2A000000 + place (sc.code) 22 + place d 15 + place (a.code) 7 + b)
  | .cmpLeF32 sc d a b => some (0x2B000000 + place (sc.code) 22 + place d 15 + place (a.code) 7 + b)
  | .cmpUnF32 sc d a b => some (0x2C000000 + place (sc.code) 22 + place d 15 + place (a.code) 7 + b)
  | .rcp sc d a => some (0x2D000000 + place (sc.code) 22 + place d 15 + place (a.code) 7)
  | .rsq sc d a => some (0x2E000000 + place (sc.code) 22 + place d 15 + place (a.code) 7)
  | .sqrt sc d a => some (0x2F000000 + place (sc.code) 22 + place d 15 + place (a.code) 7)
  | .exp2 sc d a => some (0x30000000 + place (sc.code) 22 + place d 15 + place (a.code) 7)
  | .log2 sc d a => some (0x31000000 + place (sc.code) 22 + place d 15 + place (a.code) 7)
  | .sinpi sc d a => some (0x32000000 + place (sc.code) 22 + place d 15 + place (a.code) 7)
  | .cospi sc d a => some (0x33000000 + place (sc.code) 22 + place d 15 + place (a.code) 7)
  | .addBf16x2 sc d a b => some (0x34000000 + place (sc.code) 22 + place d 15 + place (a.code) 7 + b)
  | .mulBf16x2 sc d a b => some (0x35000000 + place (sc.code) 22 + place d 15 + place (a.code) 7 + b)
  | .fmaBf16x2 sc d a b => some (0x36000000 + place (sc.code) 22 + place d 15 + place (a.code) 7 + b)
  | .cvt sc d a conv mode => some (0x37000000 + place (sc.code) 22 + place d 15 + place (a.code) 7 + place conv 2 + mode)
  | .atom sc d a w opc => some (0x38000000 + place (sc.code) 22 + place d 15 + place (a.code) 7 + place (w.toNat) 6 + opc)
  | .batom sc d a opc => some (0x39000000 + place (sc.code) 22 + place d 15 + place (a.code) 7 + opc)
  | .copy nxt h a dir q => some (0x3A800000 + place (nxt.toNat) 21 + place h 15 + place (a.code) 7 + place dir 5 + place q 2)
  | .spawn d a b => some (0x3B000000 + place d 15 + place (a.code) 7 + b)
  | .tsget d => some (0x3C000000 + place d 15)
  | .brx d a => some (0x3D000000 + place d 15 + place (a.code) 7)
  | .ret a => some (0x3E000000 + place (a.code) 7)
  | .shfl sc d a b => some (0x40000000 + place (sc.code) 22 + place d 15 + place (a.code) 7 + b)
  | .put sc d a b => some (0x41000000 + place (sc.code) 22 + place d 15 + place (a.code) 7 + b)
  | .bcast sc d a b => some (0x42000000 + place (sc.code) 22 + place d 15 + place (a.code) 7 + b)
  | .voteAny sc d b => some (0x43000000 + place (sc.code) 22 + place d 15 + b)
  | .voteAll sc d b => some (0x44000000 + place (sc.code) 22 + place d 15 + b)
  | .ballot sc d b => some (0x45000000 + place (sc.code) 22 + place d 15 + b)
  | .red sc d a ty opr => some (0x46000000 + place (sc.code) 22 + place d 15 + place (a.code) 7 + place ty 2 + opr)
  | .scan sc d a x ty opr => some (0x47000000 + place (sc.code) 22 + place d 15 + place (a.code) 7 + place (x.toNat) 4 + place ty 2 + opr)
  | .matchrank sc d a => some (0x48000000 + place (sc.code) 22 + place d 15 + place (a.code) 7)
  | .histo sc d a => some (0x49000000 + place (sc.code) 22 + place d 15 + place (a.code) 7)
  | .hash sc d a b => some (0x4A000000 + place (sc.code) 22 + place d 15 + place (a.code) 7 + b)
  | .rng d => some (0x4B000000 + place d 15)
  | .sample sc d a b => some (0x4C000000 + place (sc.code) 22 + place d 15 + place (a.code) 7 + b)
  | .jtab cnt a b => some (0x4D000000 + place cnt 15 + place (a.code) 7 + b)
  | .join j => some (0x4E000000 + place j 15)
  | .joinleave j => some (0x4F000000 + place j 15)
  | .addi sc d a imm => some (0x50000000 + place (sc.code) 22 + place d 15 + place a 8 + imm)
  | .andi sc d a imm => some (0x51000000 + place (sc.code) 22 + place d 15 + place a 8 + imm)
  | .ori sc d a imm => some (0x52000000 + place (sc.code) 22 + place d 15 + place a 8 + imm)
  | .xori sc d a imm => some (0x53000000 + place (sc.code) 22 + place d 15 + place a 8 + imm)
  | .shli sc d a imm => some (0x54000000 + place (sc.code) 22 + place d 15 + place a 8 + imm)
  | .shriN32 sc d a imm => some (0x55000000 + place (sc.code) 22 + place d 15 + place a 8 + imm)
  | .shriI32 sc d a imm => some (0x56000000 + place (sc.code) 22 + place d 15 + place a 8 + imm)
  | .cmpiEq sc d a imm => some (0x57000000 + place (sc.code) 22 + place d 15 + place a 8 + imm)
  | .cmpiLtI32 sc d a imm => some (0x58000000 + place (sc.code) 22 + place d 15 + place a 8 + imm)
  | .cmpiLtN32 sc d a imm => some (0x59000000 + place (sc.code) 22 + place d 15 + place a 8 + imm)
  | .shfli sc d a imm => some (0x5A000000 + place (sc.code) 22 + place d 15 + place a 8 + imm)
  | .bcasti sc d a imm => some (0x5B000000 + place (sc.code) 22 + place d 15 + place a 8 + imm)
  | .ldB8 sc d base off => some (0x60000000 + place (sc.code) 22 + place d 15 + place base 8 + off)
  | .ldB16 sc d base off => some (0x61000000 + place (sc.code) 22 + place d 15 + place base 8 + off)
  | .ldB32 sc d base off => some (0x62000000 + place (sc.code) 22 + place d 15 + place base 8 + off)
  | .ldB64 sc d base off => some (0x63000000 + place (sc.code) 22 + place d 15 + place base 8 + off)
  | .ldB128 sc d base off => some (0x64000000 + place (sc.code) 22 + place d 15 + place base 8 + off)
  | .stB8 sc d base off => some (0x65000000 + place (sc.code) 22 + place d 15 + place base 8 + off)
  | .stB16 sc d base off => some (0x66000000 + place (sc.code) 22 + place d 15 + place base 8 + off)
  | .stB32 sc d base off => some (0x67000000 + place (sc.code) 22 + place d 15 + place base 8 + off)
  | .stB64 sc d base off => some (0x68000000 + place (sc.code) 22 + place d 15 + place base 8 + off)
  | .stB128 sc d base off => some (0x69000000 + place (sc.code) 22 + place d 15 + place base 8 + off)
  | .ldAcqB32 sc d base off => some (0x6A000000 + place (sc.code) 22 + place d 15 + place base 8 + off)
  | .ldAcqB64 sc d base off => some (0x6B000000 + place (sc.code) 22 + place d 15 + place base 8 + off)
  | .stRelB32 sc d base off => some (0x6C000000 + place (sc.code) 22 + place d 15 + place base 8 + off)
  | .stRelB64 sc d base off => some (0x6D000000 + place (sc.code) 22 + place d 15 + place base 8 + off)
  | .ldf sc d base k n => some (0x6E000000 + place (sc.code) 22 + place d 15 + place base 8 + place k 5 + n)
  | .stf sc d base k n => some (0x6F000000 + place (sc.code) 22 + place d 15 + place base 8 + place k 5 + n)
  | .ldsB32 sc d base off => some (0x70000000 + place (sc.code) 22 + place d 15 + place base 8 + off)
  | .ldsB128 sc d base off => some (0x71000000 + place (sc.code) 22 + place d 15 + place base 8 + off)
  | .stsB32 sc d base off => some (0x72000000 + place (sc.code) 22 + place d 15 + place base 8 + off)
  | .stsB128 sc d base off => some (0x73000000 + place (sc.code) 22 + place d 15 + place base 8 + off)
  | .ldm d base c n => some (0x74000000 + place d 15 + place base 8 + place c 4 + n)
  | .stm d base c n => some (0x75000000 + place d 15 + place base 8 + place c 4 + n)
  | .ldh sc d h m => some (0x76000000 + place (sc.code) 22 + place d 15 + place h 8 + m)
  | .sth sc d h m => some (0x77000000 + place (sc.code) 22 + place d 15 + place h 8 + m)
  | .bp sense pred disp => some (0x78000000 + place (sense.toNat) 22 + place pred 16 + disp)
  | .call sense pred disp => some (0x79000000 + place (sense.toNat) 22 + place pred 16 + disp)
  | .mma ec acc atam areg breg fmt => some (0x7A000000 + place ec 22 + place acc 16 + place (atam.toNat) 15 + place areg 9 + place breg 3 + fmt)
  | .accz acc => some (0x7B000000 + place acc 16)
  | .accld acc areg => some (0x7C000000 + place acc 16 + place areg 9)
  | .accst acc areg fmt => some (0x7D000000 + place acc 16 + place areg 9 + fmt)
  | .accflush acc areg => some (0x7E000000 + place acc 16 + place areg 9)
  | .accflushDet acc areg => some (0x7F000000 + place acc 16 + place areg 9)
  | .clause wait first second len => some (0x80000000 + place wait 12 + place first 8 + place second 4 + len)
  | .uadd d a b => some (0x81000000 + place d 18 + place a 12 + place b 6)
  | .usub d a b => some (0x82000000 + place d 18 + place a 12 + place b 6)
  | .umul d a b => some (0x83000000 + place d 18 + place a 12 + place b 6)
  | .umulhiI32 d a b => some (0x84000000 + place d 18 + place a 12 + place b 6)
  | .umulhiN32 d a b => some (0x85000000 + place d 18 + place a 12 + place b 6)
  | .uminI32 d a b => some (0x86000000 + place d 18 + place a 12 + place b 6)
  | .uminN32 d a b => some (0x87000000 + place d 18 + place a 12 + place b 6)
  | .umaxI32 d a b => some (0x88000000 + place d 18 + place a 12 + place b 6)
  | .umaxN32 d a b => some (0x89000000 + place d 18 + place a 12 + place b 6)
  | .uand d a b => some (0x8A000000 + place d 18 + place a 12 + place b 6)
  | .uor d a b => some (0x8B000000 + place d 18 + place a 12 + place b 6)
  | .uxor d a b => some (0x8C000000 + place d 18 + place a 12 + place b 6)
  | .ushl d a b => some (0x8D000000 + place d 18 + place a 12 + place b 6)
  | .ushrN32 d a b => some (0x8E000000 + place d 18 + place a 12 + place b 6)
  | .ushrI32 d a b => some (0x8F000000 + place d 18 + place a 12 + place b 6)
  | .urotl d a b => some (0x90000000 + place d 18 + place a 12 + place b 6)
  | .uclz d a => some (0x91000000 + place d 18 + place a 12)
  | .upopc d a => some (0x92000000 + place d 18 + place a 12)
  | .ubrev d a => some (0x93000000 + place d 18 + place a 12)
  | .umov d a => some (0x94000000 + place d 18 + place a 12)
  | .usel d a b => some (0x95000000 + place d 18 + place a 12 + place b 6)
  | .uadd64 d a b => some (0x96000000 + place d 18 + place a 12 + place b 6)
  | .ucmpEq d a b => some (0x97000000 + place d 18 + place a 12 + place b 6)
  | .ucmpNe d a b => some (0x98000000 + place d 18 + place a 12 + place b 6)
  | .ucmpLtI32 d a b => some (0x99000000 + place d 18 + place a 12 + place b 6)
  | .ucmpLeI32 d a b => some (0x9A000000 + place d 18 + place a 12 + place b 6)
  | .ucmpLtN32 d a b => some (0x9B000000 + place d 18 + place a 12 + place b 6)
  | .ucmpLeN32 d a b => some (0x9C000000 + place d 18 + place a 12 + place b 6)
  | .uaddF32 d a b => some (0xA0000000 + place d 18 + place a 12 + place b 6)
  | .umulF32 d a b => some (0xA1000000 + place d 18 + place a 12 + place b 6)
  | .ufmaF32 d a b => some (0xA2000000 + place d 18 + place a 12 + place b 6)
  | .uminF32 d a b => some (0xA3000000 + place d 18 + place a 12 + place b 6)
  | .umaxF32 d a b => some (0xA4000000 + place d 18 + place a 12 + place b 6)
  | .ucmpLtF32 d a b => some (0xA5000000 + place d 18 + place a 12 + place b 6)
  | .uret a => some (0xA6000000 + place a 12)
  | .uaddi d a imm => some (0xB0000000 + place d 18 + place a 12 + imm)
  | .uandi d a imm => some (0xB1000000 + place d 18 + place a 12 + imm)
  | .uori d a imm => some (0xB2000000 + place d 18 + place a 12 + imm)
  | .uxori d a imm => some (0xB3000000 + place d 18 + place a 12 + imm)
  | .ushli d a imm => some (0xB4000000 + place d 18 + place a 12 + imm)
  | .ushriN32 d a imm => some (0xB5000000 + place d 18 + place a 12 + imm)
  | .ushriI32 d a imm => some (0xB6000000 + place d 18 + place a 12 + imm)
  | .movi d imm => some (0xB7000000 + place d 18 + imm)
  | .ldk d imm => some (0xB8000000 + place d 18 + imm)
  | .ucmpiEq d a imm => some (0xB9000000 + place d 18 + place a 12 + imm)
  | .ucmpiLtI32 d a imm => some (0xBA000000 + place d 18 + place a 12 + imm)
  | .ucmpiLtN32 d a imm => some (0xBB000000 + place d 18 + place a 12 + imm)
  | .uldB32 d a imm => some (0xBC000000 + place d 18 + place a 12 + imm)
  | .uldB64 d a imm => some (0xBD000000 + place d 18 + place a 12 + imm)
  | .ustB32 d a imm => some (0xBE000000 + place d 18 + place a 12 + imm)
  | .ustB64 d a imm => some (0xBF000000 + place d 18 + place a 12 + imm)
  | .bra disp => some (0xC0000000 + disp)
  | .bc sense c disp => some (0xC1000000 + place (sense.toNat) 22 + place c 16 + disp)
  | .ucall c disp => some (0xC2000000 + place c 16 + disp)
  | .joinset j a x => some (0xC8000000 + place j 18 + place a 12 + x.toNat)
  | .yield => some (0xC9000000)
  | .part r => some (0xCA000000 + r)
  | .arrive r => some (0xCB000000 + r)
  | .waitb r => some (0xCC000000 + r)
  | .trap n => some (0xCD000000 + n)
  | .rett => some (0xCE000000)
  | .fenceAcq a => some (0xD0000000 + place a 12)
  | .fenceRel a => some (0xD1000000 + place a 12)
  | .fenceAr a => some (0xD2000000 + place a 12)
  | .wb a b => some (0xD3000000 + place a 12 + place b 6)
  | .inv a b => some (0xD4000000 + place a 12 + place b 6)
  | .invn d a b => some (0xD5000000 + place d 18 + place a 12 + place b 6)
  | .ifence => some (0xD6000000)
  | .icinv a b => some (0xD7000000 + place a 12 + place b 6)
  | .pfi a b => some (0xD8000000 + place a 12 + place b 6)
  | .hwaitFull h p => some (0xD9000000 + place h 18 + p.toNat)
  | .hwaitFree h => some (0xD9000002 + place h 18)
  | .hcfgBind h a b => some (0xDA000000 + place h 18 + place a 12 + place b 6)
  | .hcfgRing h a => some (0xDA000001 + place h 18 + place a 12)
  | .hcfgMark h => some (0xDA000002 + place h 18)
  | .hcfgUnbind h => some (0xDA000003 + place h 18)
  | .hfree h p => some (0xDB000000 + place h 18 + p.toNat)
  | .fsopen a b => some (0xDC000000 + place a 12 + place b 6)
  | .fsclose a => some (0xDD000000 + place a 12)
  | .fswait a => some (0xDE000000 + place a 12)
  | .mfs r num => some (0xE0000000 + place r 18 + num)
  | .mts r num => some (0xE1000000 + place r 18 + num)
  | .rngseed k => some (0xE2000000 + place k 18)
  | .rgnw k e t => some (0xE3000000 + place k 18 + place e 6 + t)
  | .rgnr k e => some (0xE4000000 + place k 18 + place e 6)
  | .bgtw k e => some (0xE5000000 + place k 18 + place e 6)
  | .bgtr k e => some (0xE6000000 + place k 18 + place e 6)
  | _ => none

end Sys2Proof
end

