-- ==== Sys2Proof/Machine/Num.lean ====
section
/-! DEFINITION. Numbers and the arithmetic they obey (spec/05_number_formats.md, R94-R115): exact
values as a sign, a magnitude and a power of two, the five floating-point formats, one rounding
function, conversions with their saturation events, O4 bytes, exact dot products and the reduction
tree. -/

namespace Sys2Proof.Machine

/-- An exact value: NaN, a signed infinity, or (-1)^neg * m * 2^e.  A zero keeps its sign (R97). -/
inductive Num where
  | nan
  | inf (neg : Bool)
  | fin (neg : Bool) (m : Nat) (e : Int)
  deriving DecidableEq, Repr, Inhabited

/-- R95: the floating-point element formats. -/
inductive Fmt where
  | f32 | bf16 | f16 | e4m3 | e5m2
  deriving DecidableEq, Repr, Inhabited

/-- R95: the number of fraction bits M. -/
def Fmt.mbits : Fmt → Nat
  | .f32 => 23 | .bf16 => 7 | .f16 => 10 | .e4m3 => 3 | .e5m2 => 2

/-- R95: the number of exponent bits E. -/
def Fmt.ebits : Fmt → Nat
  | .f32 => 8 | .bf16 => 8 | .f16 => 5 | .e4m3 => 4 | .e5m2 => 5

/-- R95: the exponent bias. -/
def Fmt.bias : Fmt → Nat
  | .f32 => 127 | .bf16 => 127 | .f16 => 15 | .e4m3 => 7 | .e5m2 => 15

/-- R95: E4M3 has no infinity. -/
def Fmt.hasInf : Fmt → Bool
  | .e4m3 => false
  | _ => true

/-- R95: the canonical NaN. -/
def Fmt.nanBits : Fmt → Nat
  | .f32 => 0x7FC00000 | .bf16 => 0x7FC0 | .f16 => 0x7E00 | .e4m3 => 0x7F | .e5m2 => 0x7E

/-- R95: the bits of the largest finite value. -/
def Fmt.maxBits : Fmt → Nat
  | .f32 => 0x7F7FFFFF | .bf16 => 0x7F7F | .f16 => 0x7BFF | .e4m3 => 0x7E | .e5m2 => 0x7B

/-- R95: the width in bits. -/
def Fmt.width (f : Fmt) : Nat := 1 + f.ebits + f.mbits

/-- R95: the bits of +infinity, for a format that has one. -/
def Fmt.infBits (f : Fmt) : Nat := (2 ^ f.ebits - 1) * 2 ^ f.mbits

/-- The sign bit as a number. -/
def Fmt.signBits (f : Fmt) (neg : Bool) : Nat := if neg then 2 ^ (f.ebits + f.mbits) else 0

/-- The exponent of the format's smallest subnormal, R96. -/
def Fmt.qmin (f : Fmt) : Int := 1 - (f.bias : Int) - (f.mbits : Int)

/-- R96: Value(x, fmt). -/
def value (f : Fmt) (x : Nat) : Num :=
  let m := x % 2 ^ f.mbits
  let e := x / 2 ^ f.mbits % 2 ^ f.ebits
  let neg := x / 2 ^ (f.ebits + f.mbits) % 2 == 1
  if f == .e4m3 && e == 15 && m == 7 then .nan
  else if f.hasInf && e == 2 ^ f.ebits - 1 then (if m == 0 then .inf neg else .nan)
  else if e == 0 then .fin neg m f.qmin
  else .fin neg (2 ^ f.mbits + m) (f.qmin + (e : Int) - 1)

/-- R106: rounding modes. -/
inductive RMode where
  | rne | rz | rd | ru
  deriving DecidableEq, Repr, Inhabited

/-- R106: the two-bit encoding. -/
def rmodeOf : Nat → RMode
  | 0 => .rne | 1 => .rz | 2 => .rd | _ => .ru

/-- The magnitude m / 2^sh rounded to an integer, the sign given, R106. -/
def roundShift (md : RMode) (neg : Bool) (m sh : Nat) : Nat :=
  let q := m / 2 ^ sh
  let r := m % 2 ^ sh
  if r == 0 then q
  else match md with
    | .rz => q
    | .rd => if neg then q + 1 else q
    | .ru => if neg then q else q + 1
    | .rne => if 2 * r > 2 ^ sh then q + 1
              else if 2 * r < 2 ^ sh then q else q + q % 2

/-- The magnitude m * 2^e rounded to a multiple of 2^q, as that multiple. -/
def roundAt (md : RMode) (neg : Bool) (m : Nat) (e q : Int) : Nat :=
  if e ≥ q then m * 2 ^ (e - q).toNat else roundShift md neg m (q - e).toNat

/-- The bits, without sign, of m * 2^e rounded with unbounded exponent: past the largest finite
value the numbers simply go on counting (R107). -/
def roundBits (f : Fmt) (md : RMode) (neg : Bool) (m : Nat) (e : Int) : Nat :=
  if m == 0 then 0
  else
    let top : Int := e + (Nat.log2 m : Int) - (f.mbits : Int)
    let q := if top < f.qmin then f.qmin else top
    (q - f.qmin).toNat * 2 ^ f.mbits + roundAt md neg m e q

/-- R11: Round(v, fmt, mode), without saturation.  Overflow gives the format's infinity; E4M3, which
has none, is only rounded to through `convert`. -/
def roundNum (f : Fmt) (md : RMode) : Num → Nat
  | .nan => f.nanBits
  | .inf neg => if f.hasInf then f.signBits neg + f.infBits else f.signBits neg + f.maxBits
  | .fin neg m e =>
    let b := roundBits f md neg m e
    f.signBits neg + (if b ≤ f.maxBits then b else if f.hasInf then f.infBits else f.maxBits)

/-- R107: conversion to a format with a NaN; the second part is the saturation event. -/
def convert (f : Fmt) (md : RMode) : Num → Nat × Bool
  | .nan => (f.nanBits, false)
  | .inf neg => if f.hasInf then (f.signBits neg + f.infBits, false) else (f.signBits neg + f.maxBits, true)
  | .fin neg m e =>
    let b := roundBits f md neg m e
    if b ≤ f.maxBits then (f.signBits neg + b, false) else (f.signBits neg + f.maxBits, true)

/-- The magnitude of v rounded to an integer, with its sign. -/
def roundInt (md : RMode) (neg : Bool) (m : Nat) (e : Int) : Int :=
  if neg then -(roundAt md neg m e 0 : Int) else (roundAt md neg m e 0 : Int)

/-- Clamps to a range; the second part is the saturation event. -/
def clampInt (lo hi v : Int) : Int × Bool :=
  if v < lo then (lo, true) else if v > hi then (hi, true) else (v, false)

/-- R107: conversion to an integer of the range lo to hi. -/
def convertInt (lo hi : Int) (md : RMode) : Num → Int × Bool
  | .nan => (0, true)
  | .inf neg => (if neg then lo else hi, true)
  | .fin neg m e => clampInt lo hi (roundInt md neg m e)

/-- An integer as an exact value. -/
def numOfInt (i : Int) : Num := .fin (i < 0) i.natAbs 0

/-- Exact negation; a NaN stays one. -/
def Num.negate : Num → Num
  | .nan => .nan
  | .inf n => .inf (!n)
  | .fin n m e => .fin (!n) m e

/-- Exact absolute value. -/
def Num.abs : Num → Num
  | .nan => .nan
  | .inf _ => .inf false
  | .fin _ m e => .fin false m e

/-- Is it a NaN? -/
def Num.isNan : Num → Bool
  | .nan => true
  | _ => false

/-- Is it infinite? -/
def Num.isInf : Num → Bool
  | .inf _ => true
  | _ => false

/-- Is it a zero of either sign? -/
def Num.isZero : Num → Bool
  | .fin _ m _ => m == 0
  | _ => false

/-- The sign as it stands, FALSE for a NaN. -/
def Num.sign : Num → Bool
  | .nan => false
  | .inf n => n
  | .fin n _ _ => n

/-- The signed magnitude in units of 2^q, for q at most e. -/
def scaled (neg : Bool) (m : Nat) (e q : Int) : Int :=
  let v : Int := (m * 2 ^ (e - q).toNat : Nat)
  if neg then -v else v

/-- The exact sum.  The sign of an exact zero follows IEEE 754 under RNE (R97): two zeros of one
sign keep it, any other zero sum is +0. -/
def Num.add : Num → Num → Num
  | .nan, _ => .nan
  | _, .nan => .nan
  | .inf a, .inf b => if a == b then .inf a else .nan
  | .inf a, .fin .. => .inf a
  | .fin .., .inf b => .inf b
  | .fin na ma ea, .fin nb mb eb =>
    if ma == 0 && mb == 0 then .fin (na && nb) 0 0
    else if ma == 0 then .fin nb mb eb
    else if mb == 0 then .fin na ma ea
    else
      let q := if ea ≤ eb then ea else eb
      let s := scaled na ma ea q + scaled nb mb eb q
      .fin (s < 0) s.natAbs q

/-- The exact product. -/
def Num.mul : Num → Num → Num
  | .nan, _ => .nan
  | _, .nan => .nan
  | .inf a, .inf b => .inf (a != b)
  | .inf a, .fin nb mb _ => if mb == 0 then .nan else .inf (a != nb)
  | .fin na ma _, .inf b => if ma == 0 then .nan else .inf (na != b)
  | .fin na ma ea, .fin nb mb eb => .fin (na != nb) (ma * mb) (ea + eb)

/-- Exact multiplication by 2^k. -/
def Num.scale (v : Num) (k : Int) : Num :=
  match v with
  | .fin n m e => .fin n m (e + k)
  | w => w

/-- The exact order of two values that are not NaN: negative, zero or positive as x is below, equal
to or above y; -0 equals +0 (R131). -/
def Num.cmp : Num → Num → Int
  | .inf a, .inf b => if a == b then 0 else if a then -1 else 1
  | .inf a, _ => if a then -1 else 1
  | _, .inf b => if b then 1 else -1
  | .fin na ma ea, .fin nb mb eb =>
    let q := if ea ≤ eb then ea else eb
    let d := scaled na ma ea q - scaled nb mb eb q
    if d < 0 then -1 else if d == 0 then 0 else 1
  | _, _ => 0

/-- R131: neither operand is a NaN. -/
def ordered (x y : Num) : Bool := !x.isNan && !y.isNan

/-- x < y, ordered. -/
def Num.lt (x y : Num) : Bool := ordered x y && x.cmp y < 0

/-- x ≤ y, ordered. -/
def Num.le (x y : Num) : Bool := ordered x y && x.cmp y ≤ 0

/-- x = y, ordered. -/
def Num.eqv (x y : Num) : Bool := ordered x y && x.cmp y == 0

/-- R97: MIN with -0 below +0 and NaN propagated as the canonical NaN. -/
def Num.min (x y : Num) : Num :=
  if !ordered x y then .nan
  else if x.cmp y < 0 then x
  else if x.cmp y > 0 then y
  else if x.sign then x else y

/-- R97: MAX, likewise. -/
def Num.max (x y : Num) : Num :=
  if !ordered x y then .nan
  else if x.cmp y > 0 then x
  else if x.cmp y < 0 then y
  else if x.sign then y else x

/-- Value(x, F32) of a register. -/
def f32 (x : Word) : Num := value .f32 x.toNat

/-- Round(v, F32, RNE) as a register. -/
def rndF32 (v : Num) : Word := BitVec.ofNat 32 (roundNum .f32 .rne v)

/-- R130: ADD.f32 on bits. -/
def addF32 (x y : Word) : Word := rndF32 ((f32 x).add (f32 y))
/-- R130: SUB.f32. -/
def subF32 (x y : Word) : Word := rndF32 ((f32 x).add (f32 y).negate)
/-- R130: MUL.f32. -/
def mulF32 (x y : Word) : Word := rndF32 ((f32 x).mul (f32 y))
/-- R130: FMA.f32, one rounding. -/
def fmaF32 (x y z : Word) : Word := rndF32 (((f32 x).mul (f32 y)).add (f32 z))
/-- R130: MIN.f32. -/
def minF32 (x y : Word) : Word := rndF32 ((f32 x).min (f32 y))
/-- R130: MAX.f32. -/
def maxF32 (x y : Word) : Word := rndF32 ((f32 x).max (f32 y))
/-- R130: NEG.f32; the canonical NaN of a NaN. -/
def negF32 (x : Word) : Word := rndF32 (f32 x).negate
/-- R130: ABS.f32. -/
def absF32 (x : Word) : Word := rndF32 (f32 x).abs

/-- Half e of a BF16 pair, R134. -/
def half (x : Word) (e : Nat) : Nat := x.toNat / 2 ^ (16 * e) % 2 ^ 16

/-- R134: an operation on both elements, each rounded once to BF16. -/
def bf16x2 (f : Num → Num → Num → Num) (x y z : Word) : Word :=
  let el := fun e => roundNum .bf16 .rne
    (f (value .bf16 (half x e)) (value .bf16 (half y e)) (value .bf16 (half z e)))
  BitVec.ofNat 32 (el 0 + 2 ^ 16 * el 1)

/-- R98: Value(e, E8M0). -/
def e8m0 (e : Nat) : Num := if e == 255 then .nan else .fin false 1 ((e : Int) - 127)

/-- Division by an E8M0 scale (R104): exact; a NaN scale gives a NaN. -/
def divScale (v : Num) (e : Nat) : Num := if e == 255 then .nan else v.scale (127 - (e : Int))

/-- A four-bit two's complement value as an exact value. -/
def nibble (n : Nat) : Num := numOfInt (if n % 16 < 8 then (n % 16 : Int) else (n % 16 : Int) - 16)

/-- R99: the two elements of an O4 byte. -/
def o4Elem (byte : Nat) (slot : Nat) : Num :=
  let lo := byte % 16
  let hi := byte / 16 % 16
  if lo == 8 then (if slot == 0 then value .e4m3 (hi * 16 + 8) else .fin false 0 0)
  else if hi == 8 then (if slot == 1 then value .e4m3 (lo * 16 + 8) else .fin false 0 0)
  else nibble (if slot == 0 then lo else hi)

/-- An O4 quantisation (R100 step 1): sign, magnitude, out of range. -/
structure O4Q where
  neg : Bool
  mag : Nat
  oor : Bool
  deriving DecidableEq, Repr, Inhabited

/-- 2 * m * 2^e ≤ k, exactly. -/
def twiceLe (m : Nat) (e : Int) (k : Nat) : Bool :=
  if e + 1 ≥ 0 then m * 2 ^ (e + 1).toNat ≤ k else m ≤ k * 2 ^ (-(e + 1)).toNat

/-- R100 step 1. -/
def o4Quant : Num → O4Q
  | .nan => ⟨false, 0, true⟩
  | .inf n => ⟨n, 256, true⟩
  | .fin n m e =>
    if twiceLe m e 15 then ⟨n, Nat.min 7 (roundAt .rne n m e 0), false⟩
    else if twiceLe m e 23 then ⟨n, 7, false⟩
    else if twiceLe m e 80 then ⟨n, 16, false⟩
    else if twiceLe m e 320 then ⟨n, 64, false⟩
    else ⟨n, 256, !twiceLe m e 512⟩

/-- R100: q is 16, 64 or 256 in magnitude. -/
def O4Q.outlier (q : O4Q) : Bool := q.mag > 7

/-- R100 step 2: the plain code of q. -/
def O4Q.code (q : O4Q) : Nat := if q.neg then (16 - q.mag) % 16 else q.mag

/-- R100 step 3: h, with h[3] the sign and h[2:0] = (log2|q| + 6) / 2. -/
def O4Q.h (q : O4Q) : Nat := (if q.neg then 8 else 0) + (Nat.log2 q.mag + 6) / 2

/-- R100: the byte of two values already divided by their scale, and for each element whether it is
out of range (a saturation event). -/
def o4Byte (v0 v1 : Num) : Nat × Bool × Bool :=
  let q0 := o4Quant v0
  let q1 := o4Quant v1
  if !q0.outlier && !q1.outlier then (q1.code * 16 + q0.code, q0.oor, q1.oor)
  else if q0.outlier && (!q1.outlier || q0.mag ≥ q1.mag) then
    (q0.h * 16 + 8, q0.oor, q1.oor || q1.mag != 0)
  else (8 * 16 + q1.h, q0.oor || q0.mag != 0, q1.oor)

/-- R111: what the K element pairs add up to before the accumulator joins. -/
structure DotAcc where
  sum : Num := .fin false 0 0
  nan : Bool := false
  pinf : Bool := false
  ninf : Bool := false
  deriving DecidableEq, Repr, Inhabited

/-- R111: one element pair. -/
def DotAcc.step (s : DotAcc) (a b : Num) : DotAcc :=
  if a.isNan || b.isNan then { s with nan := true }
  else if a.isInf || b.isInf then
    if a.isZero || b.isZero then { s with nan := true }
    else if a.sign == b.sign then { s with pinf := true }
    else { s with ninf := true }
  else { s with sum := s.sum.add (a.mul b) }

/-- R111: the new accumulator value. -/
def DotAcc.finish (s : DotAcc) (d : Word) : Word :=
  let dv := f32 d
  if s.nan || (s.pinf && s.ninf) || dv.isNan then 0x7FC00000#32
  else if s.pinf || s.ninf then
    if dv.isInf && dv.sign != s.ninf then 0x7FC00000#32
    else if s.pinf then 0x7F800000#32 else 0xFF800000#32
  else if dv.isInf then d
  else
    let t := dv.add s.sum
    if t.isZero then 0#32 else rndF32 t

/-- R111: an output element from its pairs. -/
def dot (pairs : List (Num × Num)) (d : Word) : Word :=
  (pairs.foldl (fun (s : DotAcc) p => s.step p.1 p.2) {}).finish d

/-- R105: PartnerRow(j) under a duplication map. -/
def partnerRow (map : List Nat) (j : Nat) : Nat :=
  map.foldl (fun row k => if k < row then row - 1 else row) j

/-- One level of the tree of R112. -/
def pairUp (op : Word → Word → Word) : List Word → List Word
  | a :: b :: rest => op a b :: pairUp op rest
  | l => l

/-- R112: the tree of `levels` levels; the list holds 2^levels values. -/
def treeLevels (op : Word → Word → Word) : Nat → List Word → List Word
  | 0, l => l
  | k + 1, l => treeLevels op k (pairUp op l)

/-- R112, R113: the reduction of a list padded with the identity to 2^levels. -/
def treeReduce (op : Word → Word → Word) (ident : Word) (levels : Nat) (l : List Word) : Word :=
  (treeLevels op levels (l ++ List.replicate (2 ^ levels - l.length) ident)).headD ident

/-- The least number of levels whose tree holds n values (R113: the next power of two). -/
def levelsFor (n : Nat) : Nat := if n ≤ 1 then 0 else Nat.log2 (n - 1) + 1

/-- R141: the operation of a reduction. -/
inductive RedOp where
  | add | min | max
  deriving DecidableEq, Repr, Inhabited

/-- R141: the type of a reduction. -/
inductive RedTy where
  | i32 | n32 | f32
  deriving DecidableEq, Repr, Inhabited

/-- Two's complement order. -/
def sle (x y : Word) : Bool := x.toInt ≤ y.toInt

/-- R142: the operator. -/
def redFn (ty : RedTy) (op : RedOp) (x y : Word) : Word :=
  match ty, op with
  | .f32, .add => addF32 x y
  | .f32, .min => minF32 x y
  | .f32, .max => maxF32 x y
  | _, .add => x + y
  | .i32, .min => if sle x y then x else y
  | .i32, .max => if sle x y then y else x
  | .n32, .min => if x ≤ y then x else y
  | .n32, .max => if x ≤ y then y else x

/-- R112, R115: the identity. -/
def redIdent (ty : RedTy) (op : RedOp) : Word :=
  match ty, op with
  | .f32, .add => 0x80000000#32
  | .f32, .min => 0x7F800000#32
  | .f32, .max => 0xFF800000#32
  | _, .add => 0#32
  | .i32, .min => 0x7FFFFFFF#32
  | .i32, .max => 0x80000000#32
  | .n32, .min => 0xFFFFFFFF#32
  | .n32, .max => 0#32

/-- R113: a reduction over n waves of 32 positions each; at one wave this is R112 at W = 32. -/
def reduceWaves (ty : RedTy) (op : RedOp) (waves : List (List Word)) : Word :=
  let rs := waves.map (treeReduce (redFn ty op) (redIdent ty op) 5)
  treeReduce (redFn ty op) (redIdent ty op) (levelsFor rs.length) rs

end Sys2Proof.Machine
end

