-- ==== Sys2Proof/Config.lean ====
section
/-! DEFINITION. What the spec leaves open and the model leaves free: constants without a body, so
that nothing can be proved of their values.  Each is applied to a counter of State or to its
operands. -/

namespace Sys2Proof.Config

/-- A free 64-bit value: CHKKEY at reset (R239, DESIGN CHOICE, log 7), and the logical time of a record that no party's clock
stamps (R316, DESIGN CHOICE, log 3). -/
opaque freeKey : Nat → DWord

/-- A byte of a region whose contents are undefined (R29, DESIGN CHOICE, log 8): by map change and
offset in the package's HBM. -/
opaque freeByte : Nat → Nat → Byte

/-- The 33 rows of the eight map matrices as the bytes that are measured (R50 step 7, DESIGN CHOICE, log 8). -/
opaque mapBytes : List Nat → List Byte

/-- The set of an LLC slice that a line uses, 0 to 8191 (R36, R37, DESIGN CHOICE, log 61). -/
opaque llcSet : Nat → Nat

/-- A free choice between two results the spec permits (DESIGN CHOICE, log 3). -/
opaque freeBool : Nat → Bool

/-- The wave index, team number and identity field of a task wave, which is in no team (R290, DESIGN CHOICE, log 3). -/
opaque taskIndex : Nat → Word

/-- SLH-DSA-SHA2-192s verification of a firmware image (R50, FIPS 205, DESIGN CHOICE, log 13): the vendor key, the
image, the signature. -/
opaque slhVerify : List Byte → List Byte → List Byte → Bool

/-- SLH-DSA-SHA2-128f signature of the ranger's attestation key (R52, FIPS 205, DESIGN CHOICE, log 13), 17,088 bytes: the fused
48-byte secret and the message. -/
opaque slhSign : BitVec 384 → List Byte → BitVec (8 * 17088)

/-- The 32-byte attestation public key of a fused secret (R52, DESIGN CHOICE, log 13). -/
opaque slhPublic : BitVec 384 → BitVec 256

end Sys2Proof.Config
end

