-- ==== Sys2Proof/Machine/Map.lean ====
section
/-! DEFINITION. Association lists in one canonical form: keys strictly rising, and no entry that
equals the value an unlisted key has.  Every sparse part of the state (registers, caches, tables) is
such a map, so equal contents are equal data. -/

namespace Sys2Proof.Machine

/-- A map from numbers to values, as a sorted list of pairs. -/
abbrev SMap (α : Type) := List (Nat × α)

/-- The value at a key; `d` where the key is not listed. -/
def SMap.get {α : Type} (d : α) : SMap α → Nat → α
  | [], _ => d
  | (k, v) :: rest, key => if key == k then v else SMap.get d rest key

/-- The map with an entry at a key, before the first larger key. -/
def SMap.insert {α : Type} : SMap α → Nat → α → SMap α
  | [], key, x => [(key, x)]
  | (k, v) :: rest, key, x =>
    if key < k then (key, x) :: (k, v) :: rest
    else if key == k then (key, x) :: rest
    else (k, v) :: SMap.insert rest key x

/-- The map with one key changed; the value `d` takes the key off the list. -/
def SMap.set {α : Type} [DecidableEq α] (d : α) (m : SMap α) (key : Nat) (x : α) : SMap α :=
  if x = d then List.filter (fun e => e.1 != key) m else SMap.insert m key x

/-- Writes in the order listed; a later one to the same key remains. -/
def SMap.setAll {α : Type} [DecidableEq α] (d : α) (m : SMap α) (ws : List (Nat × α)) : SMap α :=
  ws.foldl (fun acc w => SMap.set d acc w.1 w.2) m

/-- Keys strictly rising, each above `lo` where there is one. -/
def SMap.rising {α : Type} : Option Nat → SMap α → Bool
  | _, [] => true
  | lo, (k, _) :: rest => (match lo with | none => true | some l => l < k) && SMap.rising (some k) rest

/-- The canonical form. -/
def SMap.wf {α : Type} [DecidableEq α] (d : α) (m : SMap α) : Bool :=
  SMap.rising none m && m.all (fun e => !decide (e.2 = d))

/-- The first entry that satisfies a test. -/
def SMap.find {α : Type} (m : SMap α) (p : Nat → α → Bool) : Option (Nat × α) :=
  List.find? (fun e => p e.1 e.2) m

end Sys2Proof.Machine
end

