-- ==== Sys2Proof/Machine/State.lean ====
section
/-! DEFINITION. The state of the ZX1: every piece of state the spec names, as plain data, with the
value it has right after reset; the faults and refusals of a step. -/

namespace Sys2Proof.Machine

open Sys2Proof

/-- R187, R216: coherence domains and scopes, in nesting order. -/
inductive Dom where
  | core | die | package | domain | host
  deriving DecidableEq, Repr, Inhabited

/-- R149: the roles. -/
inductive Role where
  | general | copy | matrix
  deriving DecidableEq, Repr, Inhabited

/-- R232: the reordering classes. -/
inductive Cls where
  | pl | pw | aq | rl | fa | fr | fb | ci
  deriving DecidableEq, Repr, Inhabited

/-- R126, R130, R132, R134, R145: the 32-bit operations of a lane. -/
inductive AluOp where
  | add | sub | mullo | mulhiI | mulhiN | mad | minI | minN | maxI | maxN | and | or | xor
  | shl | shrN | shrI | rotl | clz | popc | brev | sel | mov
  | addF | subF | mulF | fmaF | minF | maxF | negF | absF
  | rcp | rsq | sqrt | exp2 | log2 | sinpi | cospi
  | addB | mulB | fmaB | hash
  deriving DecidableEq, Repr, Inhabited

/-- R128, R131: the compares. -/
inductive CmpOp where
  | eq | ne | ltI | leI | ltN | leN | eqF | neF | ltF | leF | unF
  deriving DecidableEq, Repr, Inhabited

/-- The second operand: a v-register or an immediate already widened by R69. -/
inductive Src where
  | reg (n : Nat)
  | imm (w : Word)
  deriving DecidableEq, Repr, Inhabited

/-- R139-R144: the collectives. -/
inductive Coll where
  | shfl (d : Nat) (a : Ext) (b : Nat)
  | shfli (d : Nat) (a : Ext) (m : Nat)
  | put (d : Nat) (a : Ext) (b : Nat)
  | bcast (d : Nat) (a : Ext) (b : Nat)
  | bcasti (d : Nat) (a : Ext) (m : Nat)
  | vote (all : Bool) (d b : Nat)
  | ballot (d b : Nat)
  | red (d : Nat) (a : Ext) (ty opr : Nat)
  | scan (d : Nat) (a : Ext) (x : Bool) (ty opr : Nat)
  | matchrank (d : Nat) (a : Ext)
  | histo (d : Nat) (a : Ext)
  | sample (d : Nat) (a : Ext) (b : Nat)
  deriving DecidableEq, Repr, Inhabited

/-- R196-R206: the memory L-words that R73 accepts at every scope. -/
inductive MemL where
  | ld (size : Nat) (acq : Bool) (d base off : Nat)
  | st (size : Nat) (rel : Bool) (d base off : Nat)
  | ldf (d base k n : Nat)
  | stf (d base k n : Nat)
  | lds (size d base off : Nat)
  | sts (size d base off : Nat)
  | ldh (d h m : Nat)
  | sth (d h m : Nat)
  | atom (d : Nat) (a : Ext) (w : Bool) (opc : Nat)
  | batom (d : Nat) (a : Ext) (opc : Nat)
  deriving DecidableEq, Repr, Inhabited

/-- An L-word as an operation on lanes, in the form a pending rendezvous holds it (R156). -/
inductive LOp where
  | nop
  | alu (op : AluOp) (d : Nat) (a : Ext) (b : Src)
  | pair (lea : Bool) (d : Nat) (a : Ext) (b : Nat)
  | cmp (op : CmpOp) (d : Nat) (a : Ext) (b : Src)
  | cvt (d : Nat) (a : Ext) (conv mode : Nat)
  | coll (c : Coll)
  | mem (m : MemL)
  | copy (nxt : Bool) (h : Nat) (a : Ext) (dir q : Nat)
  deriving DecidableEq, Repr, Inhabited

/-- R150: what a WAITING lane waits at.  A rendezvous carries its operation, the order of its arrival
(cycle, wave index, lowest lane: R157) and whether SATF was checked (R110).  A lane waiting for the flags of a clause start is the
member of a bundle in phase `wait`. -/
inductive Wait where
  | join (j : Nat)
  | rdv (sc : Scope) (sset : Nat) (active : Bool) (op : LOp) (ord : Nat) (ok : Bool)
  | hwait (h : Nat) (full : Bool) (p : Bool) (met : Bool)
  | waitb (r : Nat)
  | fswait (s : Nat)
  | copySlot (copy : Nat)
  deriving DecidableEq, Repr, Inhabited

/-- R60: lane status. -/
inductive Status where
  | running
  | waiting (w : Wait)
  | exited
  deriving DecidableEq, Repr, Inhabited

/-- R60, R150: one lane's program counter and status, and the task it runs (R289). -/
structure Lane where
  pc : DWord := 0#64
  st : Status := .exited
  task : Option Nat := none
  deriving DecidableEq, Repr, Inhabited

/-- R62: a join register. -/
structure Join where
  expect : Mask := 0#32
  lost : Bool := false
  deriving DecidableEq, Repr, Inhabited

/-- R76-R79, R164, R210: a clause in progress: header address, the CLAUSE word, the extension word, the
lanes whose guard is true, its instruction words as fetched, and, in a task wave, the lanes that have performed the instruction at
which others still stand (R300). -/
structure Clause where
  hdr : DWord := 0#64
  word : Word := 0#32
  ext : Word := 0#32
  act : Mask := 0#32
  code : List Word := []
  done : Mask := 0#32                     -- R300 (DEDUCED, log 15)
  sact : Mask := 0#32                     -- R337: the lanes whose guard is true in the shadow, where that has come apart
  deriving DecidableEq, Repr, Inhabited

/-- R78: how far a bundle has come at its clause: step 1 done, waiting for the flags, issuing. -/
inductive Phase where
  | header | wait | body
  deriving DecidableEq, Repr, Inhabited

/-- R152, R191, R334: what keeps a bundle from being ready. -/
inductive Stall where
  | none
  | walk (id : Nat)    -- a page-table walk (R191)
  | miss (id : Nat)    -- an instruction-cache miss (R334)
  | op (id : Nat)      -- an operation the bundle waits for: a JTAB (R174)
  | budget             -- the matrix allowance (R276)
  | full (fs : List (Nat × Nat)) -- a flag at 255 (R83), or a full window (R236)
  | fence (cls : Cls) (dom : Dom) -- a fence whose ordering is not met (R207)
  deriving DecidableEq, Repr, Inhabited

/-- R151: a bundle. -/
structure Bundle where
  lanes : Mask := 0#32
  cl : Clause := {}
  phase : Phase := .header
  stall : Stall := .none
  age : Nat := 0
  handler : Bool := false
  deriving DecidableEq, Repr, Inhabited

/-- R168, R321: a wave's record of its latest ARRIVE on a route. -/
structure Route1 where
  outstanding : Bool := false
  counted : Bool := false
  phase : Nat := 0
  seq : Nat := 0                          -- the phase's number among all of the route (DESIGN CHOICE, log 58)
  deriving DecidableEq, Repr, Inhabited

/-- R192, R316: the register classes of a parity fault. -/
inductive RegClass where
  | v | s | p | acc
  deriving DecidableEq, Repr, Inhabited

/-- R54: the registers of a wave that its shadow has its own of (R337, R338), by the keys of `Wave`. -/
structure Regs where
  v : SMap Word := []
  s : SMap Word := []
  p : SMap Mask := []
  acc : SMap Word := []
  deriving DecidableEq, Repr, Inhabited

/-- R54, R60: a wave slot of a partition and the wave in it. -/
structure Wave where
  resident : Bool := false
  grid : Nat := 0
  tslot : Nat := 0
  widx : Nat := 0
  role : Role := .general
  vcount : Nat := 0
  slots : Nat := 0
  taskWave : Bool := false
  started : Bool := false                 -- R332: waves of a team start together
  lanes : SMap Lane := []                 -- R60, by lane; an unlisted lane is EXITED
  v : SMap Word := []                     -- R54, key 32 n + lane
  s : SMap Word := []                     -- R54
  p : SMap Mask := []                     -- R54, one mask per predicate
  j : SMap Join := []                     -- R62
  f : SMap Nat := []                      -- R83
  acc : SMap Word := []                   -- R54, key 256 slot + element
  bundles : List Bundle := []             -- R151
  tw : Nat := 5                           -- R63
  satf : Bool := false                    -- R60
  hmode : Bool := false                   -- R60
  trappc : DWord := 0#64                  -- R60
  trapcause : Word := 0#32                -- R61
  trapmask : Mask := 0#32                 -- R60
  hlanes : Mask := 0#32                   -- R181: the lanes that entered the handler
  left : Mask := 0#32                     -- R159: lanes whose RDVMIX waits, for the handler's RETT or a RESUME
  saved : Option Clause := none           -- R164: the saved clause context
  rngkey : DWord := 0#64                  -- R60
  rngctr : DWord := 0#64                  -- R60
  mprog : Nat := 0                        -- R202
  mpc : DWord := 0#64                     -- R202: the LDM or STM whose steps MPROG counts (DESIGN CHOICE, log 58)
  mlanes : Mask := 0#32                   -- R202: and its bundle
  cfr : SMap Word := []                   -- R299: the snapshot; unlisted words are all ones
  snaps : SMap (Option DWord) := []       -- R308, by low number
  latches : SMap (Option Word) := []      -- R308
  ibuf : SMap (Option Word) := []         -- R210: words run ahead to, by address / 4
  routes : SMap Route1 := []              -- R168
  frel : Mask := 0#32                     -- R217: lanes whose next write is a release
  frelDom : SMap Dom := []                -- R217: the scope of that fence, by lane
  po : Nat := 0                           -- R236
  stuck : Mask := 0#32                    -- R296: lanes whose version store waits for room
  discard : Bool := false                 -- R227: a discarded release holds later ones back
  yieldUntil : Nat := 0                   -- R178
  waited : Nat := 0                       -- R154: cycles since it was last chosen with a bundle ready
  parity : List (RegClass × Nat) := []    -- R32, R192: failing granules: v 32 n + lane, acc 256 slot + element, s and p by index
  redun : Nat := 0                        -- R337, R338
  shadow : Option Regs := none            -- R337, R338: its shadow's registers; none while they are its own (DEDUCED, log 42)
  deriving DecidableEq, Repr, Inhabited

/-- R248: the states of a handle. -/
inductive HState where
  | unbound | free | filling | full | draining
  deriving DecidableEq, Repr, Inhabited

/-- R248: a handle; PCUR and PPH are held at the first handle of its ring. -/
structure Handle where
  st : HState := .unbound
  hb : Nat := 0
  hlen : Nat := 0
  fph : Bool := true
  first : Option Nat := none              -- none: a ring of itself alone
  count : Nat := 1
  pcur : Nat := 0
  pph : Bool := false
  deriving DecidableEq, Repr, Inhabited

/-- R147: a team slot of a core. -/
structure Team where
  resident : Bool := false
  started : Bool := false                 -- R332, R333
  grid : Nat := 0
  num : Nat := 0
  waves : List Nat := []                  -- wave keys in wave-index order
  scratch : Nat := 0                      -- bytes
  clm : SMap Byte := []                   -- R185
  clmPoison : SMap Bool := []             -- R33, by 4-byte word
  handles : SMap Handle := []
  satctl : Bool := false                  -- R109
  saving : Bool := false                  -- R320
  deriving DecidableEq, Repr, Inhabited

/-- R183, R184, R228, R276: a core. -/
structure Core where
  out : Bool := false                     -- R20: taken out of service
  gated : Bool := false                   -- R48
  carve : Nat := 0                        -- R183
  lt : Nat := 0                           -- R228
  spent : SMap Nat := []                  -- R276, by tenant: the period's refill less REMAIN
  slip : SMap Word := []                  -- R334, by tenant
  chose : SMap Nat := []                  -- R152: one more than the cycle in which a partition last chose
  picked : SMap Nat := []                 -- R154: the wave slot it chose then
  deriving DecidableEq, Repr, Inhabited

/-- R102: a format slot as copied at launch, with its duplication map. -/
structure FmtSlot where
  fmt : Nat := 0
  sk : Nat := 0
  blk : Nat := 0
  ssp : Bool := false
  dbase : DWord := 0#64
  sbase : DWord := 0#64
  map : List Nat := []
  deriving DecidableEq, Repr, Inhabited

/-- R329: a buffer-list entry. -/
structure Buf where
  id : Nat := 0
  acc : Nat := 0
  base : DWord := 0#64
  len : DWord := 0#64
  deriving DecidableEq, Repr, Inhabited

/-- R333: a hamper entry. -/
structure Hamper where
  va : DWord := 0#64
  len : Nat := 0
  scratch : Bool := false
  cdst : Nat := 0
  deriving DecidableEq, Repr, Inhabited

/-- R291: the states of a task. -/
inductive TState where
  | queued | running | finished | stopped | committed | discarded
  deriving DecidableEq, Repr, Inhabited

/-- R293: a version of one line: the bytes written and their values. -/
structure Version where
  mask : BitVec 64 := 0#64
  data : BitVec 512 := 0#512
  deriving DecidableEq, Repr, Inhabited

/-- R286-R297: a task. -/
structure Task where
  ts : DWord := 0#64
  entry : Nat := 0
  scope : Nat := 0
  arg : List Word := []
  parent : Option Nat := none
  st : TState := .discarded
  core : Nat := 0
  wave : Option Nat := none
  ran : Nat := 0                          -- R289: the wave slot it was last given
  lane : Nat := 0
  doomed : Bool := false                  -- R295: aborts at the next publication
  nonspec : Bool := false                 -- R297
  versions : SMap Version := []
  reads : List Nat := []
  deriving DecidableEq, Repr, Inhabited

/-- R301: a finish scope. -/
structure FScope where
  opened : Bool := false
  parent : Option Nat := none
  live : Nat := 0
  deriving DecidableEq, Repr, Inhabited

/-- R279: one DET contribution waiting at its slice. -/
structure Contribution where
  grid : Nat := 0
  team : Nat := 0
  word : Nat := 0
  round : Nat := 0
  op : Nat := 0
  part : Nat := 0
  deriving DecidableEq, Repr, Inhabited

/-- R315, R317-R319: a suspended group, the copy whose fault suspends it, the number of its record among the
tenant's (R316 SEQ), and whether a RESUME waits for that record to be posted. -/
structure Group where
  tenant : Nat := 0
  waves : List Nat := []
  copy : Option Nat := none
  seq : Option Nat := none
  resumed : Bool := false
  deriving DecidableEq, Repr, Inhabited

/-- R161, R320: a saved team: the core it ran on, and what goes on with it beside the save area: the clause contexts,
the arrivals and the suspensions of its waves (their keys are wave indices). -/
structure SavedTeam where
  core : Nat := 0
  area : Nat := 0
  team : Team := {}
  waves : List Wave := []
  groups : List Group := []
  tasks : List (Nat × Wave × List Group) := [] -- R303: the task waves in non-speculative mode of its core: task, wave and suspensions
  deriving DecidableEq, Repr, Inhabited

/-- R147, R327-R333: an accepted launch. -/
structure Grid where
  live : Bool := false
  tenant : Nat := 0
  queue : Nat := 0
  prio : Nat := 0
  lp : Nat := 0
  seq : Nat := 0
  asid : Nat := 0
  accepted : Nat := 0                     -- R332: order of acceptance
  serial : Bool := false
  redun : Nat := 0
  nteams : Nat := 0
  nwaves : Nat := 0
  carve : Nat := 0
  scratch : Nat := 0                      -- bytes
  roles : List Role := []
  decl : List Nat := []                   -- R55: GENERAL, COPY, MATRIX counts
  slots : Nat := 0
  sets : List Nat := []                   -- R148
  trapvec : DWord := 0#64
  consts : List Word := []
  fmts : List FmtSlot := []
  hampers : List Hamper := []
  bufs : List Buf := []
  deps : List Nat := []                   -- R329: grids that must end before its teams are placed
  cmplvec : Nat := 0
  cmpl : DWord := 0#64
  rngkey : DWord := 0#64
  ltstart : DWord := 0#64
  entry : DWord := 0#64
  variant : Nat := 0
  place : List Nat := []                  -- R330: PLACE words; empty when PLACE is zero
  placed : Nat := 0                       -- teams placed so far
  saved : SMap SavedTeam := []            -- R320: teams in a save area, by team number
  icDone : Bool := false                  -- R329: code uses made fetchable
  killed : Bool := false
  isTask : Bool := false
  control : Bool := false
  entries : List DWord := []
  tvcount : Nat := 0
  tslots : Nat := 0
  tcores : List Nat := []
  tasks : SMap Task := []                 -- R287, by identity
  nextId : Nat := 0
  scopes : SMap FScope := []
  frontier : Option (Nat × Nat) := none   -- R298: the published CFR; none is all ones
  det : SMap Nat := []                    -- R279: rounds issued, key team * 2^50 + word
  detDone : List Contribution := []       -- R279: contributions applied
  paused : List Nat := []                 -- R303: cores whose task queue is saved
  ended : List Nat := []                  -- team numbers that have ended
  deriving DecidableEq, Repr, Inhabited

/-- R314, R335, R336: an allowance (DESIGN CHOICE, log 6). -/
structure Allowance where
  allow : Nat := 0
  limit : Nat := 0
  pol : Nat := 0
  rem : Nat := 0
  carry : Nat := 0                        -- R335: bytes moved since the last unit
  exhausted : Nat := 0
  newAllow : Option Nat := none
  newCtl : Option (Nat × Nat) := none
  deriving DecidableEq, Repr, Inhabited

/-- R44: a physical memory window. -/
structure Window where
  base : DWord := 0#64
  last : DWord := 0#64
  valid : Bool := false
  deriving DecidableEq, Repr, Inhabited

/-- R326: a launch queue. -/
structure Queue where
  base : DWord := 0#64
  ctl : Word := 0#32
  tail : Word := 0#32
  head : Word := 0#32
  last : Option Nat := none               -- R327: the launch it accepted last (DESIGN CHOICE, log 58)
  deriving DecidableEq, Repr, Inhabited

/-- R329: the uses recorded for a buffer ID. -/
structure BufUse where
  writer : Option Nat := none
  readers : List Nat := []
  deriving DecidableEq, Repr, Inhabited

/-- R43: what each tenant has of its own. -/
structure Tenant where
  fqbase : DWord := 0#64
  fqctl : Word := 0#32
  fqprod : Word := 0#32
  fqcons : Word := 0#32
  wcmd : Word := 0#32
  redpol : Nat := 0
  winsel : Nat := 0
  windows : SMap Window := []
  msiport : Nat := 0
  queues : SMap Queue := []
  seq : Nat := 0                          -- R326
  nrec : Nat := 0                         -- R316: SEQ
  records : List (List Byte) := []        -- R317: records that wait
  viols : List (Nat × Nat × Nat) := []    -- R244: violations queued: number of the record, cycle, checker (DESIGN CHOICE, log 58)
  mat : Allowance := { allow := 0x0200 }  -- R277, R314 kind 0
  budgets : SMap Allowance := []          -- R314, kinds 1 to 5
  bufs : SMap BufUse := []
  lastTask : Option Nat := none           -- R299: most recent task launch
  deriving DecidableEq, Repr, Inhabited

/-- R238: who holds a line, by the identities of R243. -/
structure Interval where
  line : Nat := 0
  start : Nat := 0
  fin : Nat := 0
  sw : Bool := false
  holder : Nat := 0
  hstart : DWord := 0#64
  hend : DWord := 0#64
  poisoned : Bool := false
  waiting : Bool := false                 -- R240: received before the line's previous record
  deriving DecidableEq, Repr, Inhabited

/-- R238: a holder's interval on a line, while it is open. -/
structure Hold where
  opened : Bool := false
  sw : Bool := false
  start : Nat := 0
  hstart : DWord := 0#64
  gone : Bool := false                    -- closed since the clocks were zero
  deriving DecidableEq, Repr, Inhabited

/-- R25, R190: a line in an L1 or an LLC slice. -/
structure Line where
  valid : Bool := false
  excl : Bool := false
  dirty : Bool := false
  data : BitVec 512 := 0#512
  poison : BitVec 16 := 0#16              -- by 4-byte word; an LLC line marks whole 8-byte pairs
  tenant : Nat := 0                       -- R335: whose write-back an L1's line is
  deriving DecidableEq, Repr, Inhabited

/-- R82, R214: the kinds of operation and event. -/
inductive OpKind where
  | ld | ldf | lds | uld | ldm | jtab
  | st | stf | sts | ust | stm | atom (w : Bool) (opc : Nat) | batom (opc : Nat)
  | fenceAcq | fenceRel | fenceAr
  | wb | inv | invn | icinv
  | mma | accz | accld | accst | accflush | accdet
  | spawn | arrive (r : Nat) | mark (h : Nat) | hfree (h : Nat) (p : Bool)
  | copyIssue | hacquire | waitb | fswait | record
  deriving DecidableEq, Repr, Inhabited

/-- R226, R227: how a release stands. -/
inductive Rel where
  | none | todo | prov | complete | discarded
  deriving DecidableEq, Repr, Inhabited

/-- R214: one event of an operation: one lane, one step, one quarter or one line. -/
structure Part where
  wave : Nat := 0
  lane : Nat := 0                         -- lane; for wide scope, the leader's; for an LX word 8q
  lanes : Mask := 0#32                    -- lanes whose program order the event stands in
  va : DWord := 0#64
  pa : Nat := 0
  clm : Bool := false
  size : Nat := 0
  dom : Dom := .package
  cache : Nat := 0
  task : Bool := false
  data : Nat := 0                         -- store data or operand, little-endian
  data2 : Nat := 0                        -- CAS new value
  dst : List (Nat × Nat) := []            -- (wave, lane) that receive the result
  reg : Nat := 0                          -- first destination register, or slot
  scaleVa : DWord := 0#64                 -- R104: address of the scale byte
  scalePa : Nat := 0
  scaleN : Nat := 0                       -- R104: how many scale bytes the access reads from there
  scaleCache : Nat := 0                   -- R190: the CACHE field of the scale bytes' region
  scaleTask : Bool := false               -- R294: the scale byte lies in a TASK region and a task reads it
  scaleBad : Bool := false                -- the scale byte is what is poisoned; of a flush, the element (R33)
  val : Option Nat := none                -- value bound (R225), low granule upward
  bound : Nat := 0                        -- granules bound, one bit each; 1: the slot is read (R273)
  landed : Nat := 0                       -- destination words written, one bit each; 1: held at its slice (R279)
  hurt : Bool := false                    -- R192: poisoned data met
  hurtAt : Nat := 0                       -- R192: at this offset
  plt : Option Nat := none                -- R230
  rel : Rel := .none
  ready : Nat := 0                        -- R246: the delayed store, no earlier than this cycle; 0: not delayed
  deriving DecidableEq, Repr, Inhabited

/-- R82, R236: an outstanding operation, and the reorder-checker entry it makes. -/
structure Op where
  wave : Nat := 0                         -- the issuing wave, or the leader's
  grid : Nat := 0
  team : Nat := 0                         -- team number
  pos : List (Nat × Nat) := []            -- (member wave, program-order index) (R236)
  core : Nat := 0
  pc : DWord := 0#64
  cls : Cls := .pl
  kind : OpKind := .ld
  sc : Scope := .lane
  sset : Nat := 0
  group : Mask := 0xFFFFFFFF#32           -- R155: at WAVE scope, the lanes of the tile
  flags : List (Nat × Nat) := []          -- (wave, flag) counted (R83)
  parts : List Part := []
  fmt : Nat := 0                          -- format slot, or MMA's first
  atam : Bool := false
  count : Nat := 0                        -- INVN's count of dirty lines
  reg : Nat := 0                          -- INVN's count register
  done : Bool := false                    -- complete for its flag (R82)
  left : List Nat := []                   -- R237: waves in which its entry has left the window
  firctl : Word := 0#32                   -- R311: firctl and firaddr as they stood at issue
  firaddr : DWord := 0#64
  arm : Nat := 0                          -- R246: which arming of the register that was (DESIGN CHOICE, log 58)
  tids : List (Nat × Nat) := []           -- R298: its lanes in a task wave, each with the task it ran at issue
  odd : Bool := false                     -- R337: the shadow's addresses or data differ (DEDUCED, log 42)
  deriving DecidableEq, Repr, Inhabited

/-- R226: a provisional release at its home. -/
structure Prov where
  op : Nat := 0
  part : Nat := 0
  core : Nat := 0
  pa : Nat := 0
  size : Nat := 0
  val : Nat := 0
  bad : Bool := false                     -- R33: the value is poisoned
  deriving DecidableEq, Repr, Inhabited

/-- R252-R264: a copy, its record as read, and its progress. -/
structure Copy where
  live : Bool := false
  team : Nat := 0
  grid : Nat := 0
  sset : Nat := 0
  members : List Nat := []
  pc : DWord := 0#64
  next : Bool := false
  h : Nat := 0
  dir : Nat := 0
  base : DWord := 0#64
  ctl : Word := 0#32
  rteam : Nat := 0
  fill : DWord := 0#64
  dims : List Nat := []
  boxes : List Nat := []
  strides : List Int := []
  coords : List (List Int) := []
  flags : List (Nat × Nat) := []
  order : Nat := 0                        -- R260: rendezvous completion order
  slot : Option Nat := none
  lh : Nat := 0                           -- handle at this team
  rteamKey : Nat := 0
  rh : Nat := 0                           -- receiving handle of a push
  moved : Nat := 0                        -- elements completed (R264)
  ahead : List (Nat × Bool) := []         -- R186, R214: what has been read ahead of the writes: value and poison, by step (DEDUCED, log 24)
  stopped : Bool := false                 -- R264
  failed : Bool := false                  -- R256: failed its handle check
  odd : Bool := false                     -- R337: the shadow issues another copy (DEDUCED, log 42)
  deriving DecidableEq, Repr, Inhabited

/-- R323: a page-table walk in progress. -/
structure Walk where
  core : Nat := 0
  die : Nat := 0
  asid : Nat := 0
  va : DWord := 0#64
  write : Bool := false
  fetch : Bool := false
  wave : Nat := 0
  engine : Option Nat := none             -- R324: the copy whose engine needs it
  drop : Bool := false                    -- R325: begun before an invalidation
  failed : Option (Nat × Nat × Nat × Nat) := none -- R323: code, reason, level and physical address of a walk that failed
  deriving DecidableEq, Repr, Inhabited

/-- R323: a translation held. -/
structure Tlb where
  core : Nat := 0
  asid : Nat := 0
  vpn : Nat := 0                          -- VA / 64 KiB
  frame : Nat := 0                        -- PA / 64 KiB
  x : Bool := false
  w : Bool := false
  rd : Bool := false
  a : Bool := false                       -- R323: A is set in the leaf
  d : Bool := false
  stale : Bool := false                   -- R325: to be dropped before BUSY clears
  deriving DecidableEq, Repr, Inhabited

/-- R313, R325: a cached region table entry of a context, on a core. -/
structure RgnCopy where
  core : Nat := 0
  asid : Nat := 0
  e : Nat := 0
  w0 : DWord := 0#64
  w1 : DWord := 0#64
  stale : Bool := false
  deriving DecidableEq, Repr, Inhabited

/-- R334: an instruction-cache miss. -/
structure Miss where
  wave : Nat := 0
  pa : Nat := 0
  cache : Nat := 0                        -- R190: the CACHE field of the word's region
  va : DWord := 0#64
  deriving DecidableEq, Repr, Inhabited

/-- R167, R168: a barrier route. -/
structure Route where
  owner : Nat := 0
  counts : SMap Nat := []                 -- expected per core; unlisted cores are not members
  newOwner : Nat := 0
  newCounts : SMap Nat := []              -- staged
  phase : Nat := 0
  arrived : SMap Nat := []                -- per core, in the current phase
  ahead : SMap Nat := []                  -- per core, counted toward later phases
  doneAt : List (Nat × Nat) := []         -- (phase, cycle at which its completion is visible)
  last : Nat := 0
  visible : Nat := 0                      -- phases visibly complete, in all
  total : Nat := 0                        -- phases completed, in all
  deriving DecidableEq, Repr, Inhabited

/-- R40-R42: a CXL port. -/
structure Port where
  enumerated : Bool := false
  ioOnly : Bool := false                  -- R50: in recovery
  hdmBase : Nat := 0
  hdmSize : Nat := 0
  pending : List Nat := []                -- vectors of waiting messages, oldest first
  sent : List Nat := []                   -- vectors delivered
  table : SMap (Nat × Word) := []         -- R345: the MSI-X table: address and data, by vector
  wrote : List (Nat × Word) := []         -- R42: the messages' writes
  lt : Nat := 0
  deriving DecidableEq, Repr, Inhabited

/-- R30: a memory controller. -/
structure Ctrl where
  queue : List HbmReq := []
  opened : SMap Nat := []                 -- R30: one more than the row open in a bank
  lt : Nat := 0
  deriving DecidableEq, Repr, Inhabited

/-- R26, R36: a physical LLC slice. -/
structure Slice where
  retired : Bool := false
  errors : SMap Nat := []                 -- corrected errors, key 16 set + way
  disabled : List Nat := []               -- the disable bitmap, key 16 set + way
  lt : Nat := 0
  deriving DecidableEq, Repr, Inhabited

/-- R35: a scrub write on its way. -/
structure Scrub where
  line : Nat := 0
  tag : Nat := 0
  bad : Bool := false
  deriving DecidableEq, Repr, Inhabited

/-- R50: a firmware image in flash (DESIGN CHOICE, log 5). -/
structure Image where
  bytes : List Byte := []
  sig : List Byte := []
  version : Nat := 0
  config : List Byte := []
  maps : SMap (Option Nat) := []          -- R29: the default matrices; unlisted rows are P's
  deriving DecidableEq, Repr, Inhabited

/-- R50: how far the device has come up. -/
inductive Boot where
  | off | up | recovery
  deriving DecidableEq, Repr, Inhabited

/-- R50, R52: what the ranger finds in fuses and flash (DESIGN CHOICE, log 5). -/
structure Rom where
  vendorKey : List Byte := []
  vendorHash : List Byte := []            -- the fused SHA-256 of that key
  minVersion : Nat := 0
  secret : BitVec 384 := 0
  serial : BitVec 128 := 0
  slotA : Option Image := none
  slotB : Option Image := none
  failCores : List Nat := []              -- cores that fail self-test
  failSlices : List Nat := []             -- physical slices, by 64 die + number
  failStack : Bool := false               -- a stack that fails training
  deriving DecidableEq, Repr, Inhabited

/-- The event rows of spec/opcode_table.json as a device schedules them (the constructor of `Instr` of
the same name carries the same fields). -/
inductive DevEv where
  | sysregWrite (src : RegSrc) (num : Nat) (v : Word)
  | cfrtlRead (wave : Nat)
  | trappcWrite (wave : Nat) (v : DWord)
  | wpartWrite (wave : Nat) (v : Word)
  | satfWrite (wave : Nat) (v : Word)
  | measd7Write (v : Word)
  | fqconsWrite (tenant : Nat) (v : Word)
  | chkkeyWrite (v : DWord)
  | firctlWrite (v : Word)
  | pkgnumWrite (v : Word)
  | ltreset
  | tlbinvPage (asid : Nat)
  | tlbinvAsid (asid : Nat)
  | tlbinvAll
  | tlbInvalidateDone
  | mapcmdSubmit
  | mapInstall
  | precmdSave (core tslot : Nat)
  | saveAreaWrite
  | precmdRestore (core : Nat)
  | rtapply
  | wcmdResume (tenant wid : Nat)
  | wcmdKill (tenant wid : Nat)
  | resetcmdWarm
  | resetcmdCore (core : Nat)
  | gatecmdGate (core : Nat)
  | gatecmdWake (core : Nat)
  | coldReset
  | cxlHotReset
  | snoopTimeout
  | bootSequence
  | powerMeasurement (watts : Nat)
  | budgetPeriodStart
  | hbmRequest (req : HbmReq)
  | batchForm (ctrl : Nat)
  | scrubRead (line : Nat) (found : ScrubFound)
  | scrubConditionalWrite (idx : Nat)
  | llcWayDisable (slice set way line : Nat)
  | sliceRetire (die slice : Nat)
  | linkFlitRetry (link : Nat)
  | linkDown (link : Nat)
  | routeloop (who : Requester) (part link : Nat)
  | hostSnoop (line : Nat) (inv : Bool)
  | hostDeviceAccess (acc : HostAccess)
  | msiDeliverPending (port : Nat)
  | quoteRequest (nonce : BitVec 256)
  | launchAccept
  | teamPlace (grid core part : Nat)
  | hamperStage (grid team : Nat)
  | launchComplete (grid : Nat)
  | shuttleDispatch (grid core part : Nat)
  | taskFinish (grid id : Nat)
  | commitPublication
  | taskNonspecRedispatch (grid part : Nat)
  | waitCycleResolution (team : Nat)
  | loadDataArrive (op part word : Nat)
  | memoryEventPerform (op part : Nat)
  | releaseProvisionalPerform (op part : Nat)
  | releaseComplete (op part : Nat)
  | intervalRecord (idx : Nat)
  | ltRebase
  | arriveCount (op : Nat)
  | phaseComplete (route : Nat)
  | copyTakeSlot (copy : Nat)
  | copyTransferFault (copy : Nat)
  | copyComplete (copy : Nat)
  | markPerform (op : Nat)
  | handleAcquire (wave lane : Nat)
  | accumulateApply (op part elem : Nat)
  | detContributionApply (op part elem : Nat)
  | pageWalk (walk : Nat)
  | icacheMissFill (miss : Nat)
  | firDelayedStore
  | faultRecordPost (tenant : Nat)
  | spawnPerform (op part : Nat)
  | accumulatorSlotWritten (op part : Nat)
  | backInvalidateResponse (line : Nat)
  deriving DecidableEq, Repr, Inhabited

/-- What an agent or the outside may do next (R41, R47, R152, R309): the entries of the agenda. -/
inductive Move where
  | tick
  | choose (core part slot : Nat)
  | start (wave : Nat) (pc : DWord)
  | event (e : DevEv)
  | barRead (off : Nat)
  | barWrite (off : Nat) (v : Word)
  | l1Fill (core line : Nat) (excl : Bool)
  | l1Evict (core line : Nat)
  | llcFill (line : Nat)
  | llcEvict (line : Nat)
  | icFill (die line : Nat)
  | icDrop (die line : Nat)
  | runAhead (wave : Nat) (pc : DWord)
  | rgnFill (core asid e : Nat)
  | tlbDrop (core asid vpn : Nat)
  | poison (line : Nat)
  | parity (wave : Nat) (c : RegClass) (n : Nat)
  | mismatch (wave : Nat) (c : RegClass) (n : Nat) (v : Word)
  | linkUp (link : Nat)
  | hdm (port base size : Nat)
  | hostTakes (line : Nat)
  | copyMove (copy : Nat)
  | hbmServe (ctrl idx : Nat)
  | selfTest (core : Nat) (fails : Bool)
  | sliceTest (slice : Nat) (fails : Bool)
  | msix (port vec addr : Nat) (data : Word)
  | devMsi (k : Nat)
  | flash (slotA : Bool) (image : Image)
  deriving DecidableEq, Repr, Inhabited

/-- R29, R341: an accepted map waiting to be installed. -/
structure MapLoad where
  region : Nat := 0
  rows : List Nat := []
  code : Nat := 0
  deriving DecidableEq, Repr, Inhabited

/-- R320: a SAVE or a RESTORE in progress. -/
structure Saving where
  core : Nat := 0
  tslot : Nat := 0
  addr : Nat := 0
  deriving DecidableEq, Repr, Inhabited

/-- R46, R47: a warm reset that waits for the host's answers. -/
structure WarmWait where
  lines : List Nat := []
  since : Nat := 0
  deriving DecidableEq, Repr, Inhabited

/-- Who acts next: the model's own scheduling data (DESIGN CHOICE, log 2, log 3) and the cycle count of R68. -/
structure Sched where
  cur : Nat × Mask := (0, 0#32)           -- wave key and lanes of the issuing bundle
  issueQ : List (Nat × Mask) := []        -- bundles chosen and not yet issued (R152)
  due : List DevEv := []                  -- device events due now
  agenda : List Move := []
  free : Nat := 0
  cycle : Nat := 0                        -- R68
  deriving DecidableEq, Repr, Inhabited

/-- The levels of execution (R147) and the groups suspended (R315). -/
structure Exec where
  waves : SMap Wave := []                 -- key 64 core + 16 partition + slot
  teams : SMap Team := []                 -- key 8 core + team slot
  cores : SMap Core := []
  grids : SMap Grid := []
  nextGrid : Nat := 0
  rrTenant : Nat := 0                     -- R327: round-robin pointer
  groups : List Group := []
  tenants : SMap Tenant := []
  deriving DecidableEq, Repr, Inhabited

/-- Device registers (R309) and the commands they start. -/
structure DevRegs where
  dev : SMap Word := []                   -- those with no other home, by number
  chkkey : DWord := 0#64                  -- R239
  bsnap : SMap (Option DWord) := []       -- R308: BAR0 snapshots
  blatch : SMap (Option Word) := []       -- R308: BAR0 latches
  firArm : Nat := 0                       -- R246: how often the register has been armed (DESIGN CHOICE, log 58)
  firFired : Nat := 0                     -- the arming that has fired last (DESIGN CHOICE, log 58)
  barData : Word := 0#32                  -- what the last BAR0 read returned
  rows : SMap Nat := []                   -- R340: staged rows, key 64 region + row
  maps : SMap (Option Nat) := []          -- R27: installed rows, key 64 region + row; unlisted: P
  mapLoad : Option MapLoad := none        -- R341
  meas : SMap (List Byte) := []           -- R51; unlisted: 32 zero bytes
  measd : SMap Word := []                 -- R309: staged measd0-7
  rtbl : SMap Word := []                  -- R342
  saving : Option Saving := none          -- R320
  restoring : Option Saving := none       -- R320
  warm : Option WarmWait := none          -- R47
  tlbBusy : Bool := false                 -- R325
  deriving DecidableEq, Repr, Inhabited

/-- The rest of the package: routes, ports, links, controllers, slices, ranger. -/
structure Package where
  routes : SMap Route := []               -- R167
  ports : SMap Port := []                 -- R40
  links : SMap Bool := []                 -- R34: package links that are up, die links that are down
  retries : SMap Nat := []                -- R34: failures of the flit on its way
  ctrls : SMap Ctrl := []                 -- R30, key 2 die + controller
  slices : SMap Slice := []               -- R26, key 64 die + physical slice
  remap : SMap (Option Nat) := []         -- R26, key 64 die + logical slice; unlisted: the same number
  powers : List Nat := []                 -- R22: the last ten samples, newest first
  powerAt : Nat := 0                      -- R22: the cycle of the newest
  newF : Option Nat := none               -- R22: F for the next period
  arbLt : Nat := 0                        -- R228: the commit arbiter's clock
  period : Nat := 0                       -- R335: one more than the cycle of the last period start
  turns : SMap Nat := []                  -- R45: by link, one more than the tenant that entered last in the period
  pub : Nat := 0                          -- R298: one more than the cycle of the last publication
  rebase : Bool := false                  -- R228: placement stopped
  boot : Boot := .off                     -- R50
  rom : Rom := {}                         -- R50
  running : Option Image := none          -- R50
  quoteOut : List (List Byte) := []       -- R52: quotes returned
  deriving DecidableEq, Repr, Inhabited

/-- What a request is: an access, a write-back of a line (no new value: R40 and R226 do not hold it), or an access of the host. -/
inductive AskSort where
  | access | back | host
  deriving DecidableEq, Repr, Inhabited

/-- A request for a line on its way: who asks, from which die, through the L1 of which core, for which tenant (32: nobody's), for how
many bytes at which address; whether it writes, and whether it moves data at all. -/
structure Ask where
  key : Nat := 0
  die : Nat := 0
  core : Option Nat := none
  tenant : Nat := 0
  line : Nat := 0
  pa : Nat := 0
  bytes : Nat := 0
  cache : Nat := 0
  write : Bool := false
  data : Bool := true
  sort : AskSort := .access
  deriving DecidableEq, Repr, Inhabited

/-- The memory system. -/
structure MemSys where
  mem : List Host.Cell := []              -- bytes at their home, by physical address
  memPoison : SMap Bool := []             -- R33, by line
  laid : SMap (Option Nat) := []          -- R29: after a warm reset, the maps under which HBM's contents lie (DEDUCED, log 35)
  scrambled : SMap Nat := []              -- R29: regions (by address / 2^36) whose contents a map change left undefined (DESIGN CHOICE, log 8)
  tags : SMap Nat := []                   -- R32, by line
  l1 : SMap Line := []                    -- key 256 line + core
  llc : SMap Line := []                   -- by line
  icache : SMap Line := []                -- key 4 line + die
  prov : List Prov := []                  -- R226
  hostLines : List Nat := []              -- R47: lines the host may hold
  tlb : List Tlb := []                    -- R322-R325
  walks : SMap Walk := []
  misses : SMap Miss := []
  rgn : List RgnCopy := []                -- R313, R325
  scrubs : List Scrub := []               -- R35
  asked : List Ask := []                  -- what an agent's action asks for, while it is tried; empty between steps (DESIGN CHOICE, log 63)
  wants : SMap Ask := []                  -- R30, R45: the request with which an agent waits, by its key (DESIGN CHOICE, log 63)
  got : List (Nat × Nat) := []            -- requests of agents answered and not yet used: key and 2 line + write (DESIGN CHOICE, log 63)
  lost : List (Nat × Nat) := []           -- R34, R39: of those, the ones answered with poisoned data: key and line
  held : SMap Hold := []                  -- R238: open intervals, key 2^32 line + checker
  served : List (Nat × Nat) := []         -- R30: requests served and not yet used: requester and line
  intervals : List Interval := []         -- R238: records on their way
  history : List Interval := []           -- R240: records received
  deriving DecidableEq, Repr, Inhabited

/-- Operations outstanding. -/
structure Pending where
  ops : SMap Op := []                     -- R82, R236
  next : Nat := 0
  copies : SMap Copy := []                -- R260
  held : List Contribution := []          -- R279
  deriving DecidableEq, Repr, Inhabited

/-- The whole machine. -/
structure State where
  sch : Sched := {}
  x : Exec := {}
  reg : DevRegs := {}
  pk : Package := {}
  m : MemSys := {}
  o : Pending := {}
  deriving DecidableEq, Repr, Inhabited

/-- A step of this machine never stops it: every trap and fault the spec describes is a next state.
This one reason stands for a step whose scheduled bundle does not exist. -/
inductive Fault where
  /-- Raised by no meaning; safe. -/
  | none
  deriving DecidableEq, Repr, Inhabited

/-- Why the model does not run an instruction. -/
inductive Refusal where
  /-- The instruction has no meaning yet; raised by `exec` only; safe. -/
  | notModelled (mnemonic : String)
  deriving DecidableEq, Repr, Inhabited

/-- What a meaning answers. -/
abbrev Outcome := Host.Outcome State Fault Refusal

/-- The machine right after cold reset: every register at its reset value (R309), no launch, no line
held, memory with nothing listed, and the boot sequence due (R46, R50).  The registers the spec states no
value for stand at the values of logs 2 to 6 (DESIGN CHOICE); CHKKEY is a free value (DESIGN CHOICE, log 7) (DESIGN CHOICE, log 6). -/
def State.reset : State :=
  { sch := { due := [.bootSequence] }
    reg := { dev := [(0x406, 1800#32), (0x41D, 24#32), (0x41E, 64#32), (0x420, 3#32)]
             chkkey := Config.freeKey 0 } }

end Sys2Proof.Machine
end

