-- ==== Sys2Proof/Machine/Get.lean ====
section
/-! DEFINITION. The named reads and writes of the state's parts: each record has one home and one
accessor pair, and every meaning goes through them. -/

namespace Sys2Proof.Machine

open Sys2Proof

/-- R54: the key of a wave slot. -/
def waveKey (core part slot : Nat) : Nat := 64 * core + 16 * part + slot
/-- The core of a wave. -/
def coreOf (w : Nat) : Nat := w / 64
/-- R17: the die of a core. -/
def dieOf (core : Nat) : Nat := core / 64

/-- A wave slot. -/
def State.wave (s : State) (w : Nat) : Wave := SMap.get {} s.x.waves w
/-- Writes a wave slot. -/
def State.setWave (s : State) (w : Nat) (x : Wave) : State :=
  { s with x := { s.x with waves := SMap.set {} s.x.waves w x } }
/-- Changes a wave slot. -/
def State.modWave (s : State) (w : Nat) (f : Wave → Wave) : State := s.setWave w (f (s.wave w))

/-- A team slot. -/
def State.team (s : State) (t : Nat) : Team := SMap.get {} s.x.teams t
/-- Writes a team slot. -/
def State.setTeam (s : State) (t : Nat) (x : Team) : State :=
  { s with x := { s.x with teams := SMap.set {} s.x.teams t x } }
/-- Changes a team slot. -/
def State.modTeam (s : State) (t : Nat) (f : Team → Team) : State := s.setTeam t (f (s.team t))

/-- A core. -/
def State.core (s : State) (c : Nat) : Core := SMap.get {} s.x.cores c
/-- Writes a core. -/
def State.setCore (s : State) (c : Nat) (x : Core) : State :=
  { s with x := { s.x with cores := SMap.set {} s.x.cores c x } }
/-- Changes a core. -/
def State.modCore (s : State) (c : Nat) (f : Core → Core) : State := s.setCore c (f (s.core c))

/-- A launch. -/
def State.grid (s : State) (g : Nat) : Grid := SMap.get {} s.x.grids g
/-- Writes a launch. -/
def State.setGrid (s : State) (g : Nat) (x : Grid) : State :=
  { s with x := { s.x with grids := SMap.set {} s.x.grids g x } }
/-- Changes a launch. -/
def State.modGrid (s : State) (g : Nat) (f : Grid → Grid) : State := s.setGrid g (f (s.grid g))

/-- A tenant. -/
def State.tenant (s : State) (t : Nat) : Tenant := SMap.get {} s.x.tenants t
/-- Writes a tenant. -/
def State.setTenant (s : State) (t : Nat) (x : Tenant) : State :=
  { s with x := { s.x with tenants := SMap.set {} s.x.tenants t x } }
/-- Changes a tenant. -/
def State.modTenant (s : State) (t : Nat) (f : Tenant → Tenant) : State := s.setTenant t (f (s.tenant t))

/-- An operation. -/
def State.op (s : State) (n : Nat) : Op := SMap.get {} s.o.ops n
/-- Writes an operation. -/
def State.setOp (s : State) (n : Nat) (x : Op) : State :=
  { s with o := { s.o with ops := SMap.set {} s.o.ops n x } }
/-- A copy. -/
def State.copy (s : State) (n : Nat) : Copy := SMap.get {} s.o.copies n
/-- Writes a copy. -/
def State.setCopy (s : State) (n : Nat) (x : Copy) : State :=
  { s with o := { s.o with copies := SMap.set {} s.o.copies n x } }

/-- R309: a device register with no other home. -/
def State.dev (s : State) (n : Nat) : Word := SMap.get 0#32 s.reg.dev n
/-- Writes it. -/
def State.setDev (s : State) (n : Nat) (v : Word) : State :=
  { s with reg := { s.reg with dev := SMap.set 0#32 s.reg.dev n v } }
/-- A 64-bit device register, low half at the lower number (R308). -/
def State.dev64 (s : State) (n : Nat) : DWord := s.dev (n + 1) ++ s.dev n

/-- A barrier route. -/
def State.route (s : State) (r : Nat) : Route := SMap.get {} s.pk.routes r
/-- Writes a route. -/
def State.setRoute (s : State) (r : Nat) (x : Route) : State :=
  { s with pk := { s.pk with routes := SMap.set {} s.pk.routes r x } }
/-- A port. -/
def State.port (s : State) (p : Nat) : Port := SMap.get {} s.pk.ports p
/-- Writes a port. -/
def State.setPort (s : State) (p : Nat) (x : Port) : State :=
  { s with pk := { s.pk with ports := SMap.set {} s.pk.ports p x } }
/-- A controller. -/
def State.ctrl (s : State) (c : Nat) : Ctrl := SMap.get {} s.pk.ctrls c
/-- Writes a controller. -/
def State.setCtrl (s : State) (c : Nat) (x : Ctrl) : State :=
  { s with pk := { s.pk with ctrls := SMap.set {} s.pk.ctrls c x } }
/-- A physical slice. -/
def State.slice (s : State) (k : Nat) : Slice := SMap.get {} s.pk.slices k
/-- Writes a slice. -/
def State.setSlice (s : State) (k : Nat) (x : Slice) : State :=
  { s with pk := { s.pk with slices := SMap.set {} s.pk.slices k x } }

/-- Draws a free value's number and advances the counter (DESIGN CHOICE, log 3). -/
def State.draw (s : State) : Nat × State :=
  (s.sch.free, { s with sch := { s.sch with free := s.sch.free + 1 } })

/-- R54: V(n, L) of a wave. -/
def Wave.vreg (x : Wave) (n l : Nat) : Word := SMap.get 0#32 x.v (32 * n + l)
/-- Writes V(n, L). -/
def Wave.setV (x : Wave) (n l : Nat) (v : Word) : Wave := { x with v := SMap.set 0#32 x.v (32 * n + l) v }
/-- R54: S(n). -/
def Wave.sreg (x : Wave) (n : Nat) : Word := SMap.get 0#32 x.s n
/-- Writes S(n). -/
def Wave.setS (x : Wave) (n : Nat) (v : Word) : Wave := { x with s := SMap.set 0#32 x.s n v }
/-- R54: the mask of predicate n. -/
def Wave.pmask (x : Wave) (n : Nat) : Mask := SMap.get 0#32 x.p n
/-- R54: P(n, L). -/
def Wave.pred (x : Wave) (n l : Nat) : Bool := (x.pmask n).getLsbD l
/-- A mask with one bit set to a value. -/
def setBit (m : Mask) (l : Nat) (b : Bool) : Mask :=
  if b then m ||| (1#32 <<< l) else m &&& ~~~(1#32 <<< l)
/-- Writes P(n, L). -/
def Wave.setP (x : Wave) (n l : Nat) (b : Bool) : Wave :=
  { x with p := SMap.set 0#32 x.p n (setBit (x.pmask n) l b) }
/-- R57: a v-register pair, low word first (R4). -/
def Wave.vpair (x : Wave) (n l : Nat) : DWord := x.vreg (n + 1) l ++ x.vreg n l
/-- Writes a v-register pair. -/
def Wave.setVpair (x : Wave) (n l : Nat) (v : DWord) : Wave :=
  (x.setV n l (v.extractLsb' 0 32)).setV (n + 1) l (v.extractLsb' 32 32)
/-- R57: a uniform pair. -/
def Wave.spair (x : Wave) (n : Nat) : DWord := x.sreg (n + 1) ++ x.sreg n
/-- Writes a uniform pair. -/
def Wave.setSpair (x : Wave) (n : Nat) (v : DWord) : Wave :=
  (x.setS n (v.extractLsb' 0 32)).setS (n + 1) (v.extractLsb' 32 32)
/-- R62: a join register. -/
def Wave.join (x : Wave) (n : Nat) : Join := SMap.get {} x.j n
/-- Writes a join register. -/
def Wave.setJoin (x : Wave) (n : Nat) (v : Join) : Wave := { x with j := SMap.set {} x.j n v }
/-- R83: the count of flag n. -/
def Wave.flag (x : Wave) (n : Nat) : Nat := SMap.get 0 x.f n
/-- Writes the count of a flag. -/
def Wave.setFlag (x : Wave) (n v : Nat) : Wave := { x with f := SMap.set 0 x.f n v }
/-- R54: element i of accumulator slot n. -/
def Wave.accElem (x : Wave) (n i : Nat) : Word := SMap.get 0#32 x.acc (256 * n + i)
/-- Writes an accumulator element. -/
def Wave.setAcc (x : Wave) (n i : Nat) (v : Word) : Wave :=
  { x with acc := SMap.set 0#32 x.acc (256 * n + i) v }
/-- R60: one lane. -/
def Wave.lane (x : Wave) (l : Nat) : Lane := SMap.get {} x.lanes l
/-- Writes one lane. -/
def Wave.setLane (x : Wave) (l : Nat) (v : Lane) : Wave := { x with lanes := SMap.set {} x.lanes l v }
/-- R168: a route record. -/
def Wave.routeRec (x : Wave) (r : Nat) : Route1 := SMap.get {} x.routes r
/-- Writes a route record. -/
def Wave.setRouteRec (x : Wave) (r : Nat) (v : Route1) : Wave :=
  { x with routes := SMap.set {} x.routes r v }

/-- The lane numbers of a mask, rising (R13). -/
def lanesOf (m : Mask) : List Nat := (List.range 32).filter (fun l => m.getLsbD l)
/-- The mask of a list of lanes. -/
def maskOf (ls : List Nat) : Mask := ls.foldl (fun m l => m ||| (1#32 <<< l)) 0#32
/-- Does the mask hold a lane? -/
def hasLane (m : Mask) (l : Nat) : Bool := m.getLsbD l
/-- The number of lanes of a mask. -/
def population (m : Mask) : Nat := (lanesOf m).length
/-- The lowest lane of a mask; 32 where it is empty. -/
def lowest (m : Mask) : Nat := (lanesOf m).headD 32

/-- Is the status EXITED? -/
def Status.isExited : Status → Bool
  | .exited => true
  | _ => false
/-- Is the status RUNNING? -/
def Status.isRunning : Status → Bool
  | .running => true
  | _ => false

/-- The non-exited lanes of a wave (R155). -/
def Wave.live (x : Wave) : Mask := maskOf ((List.range 32).filter fun l => !(x.lane l).st.isExited)

/-- Applies a change to every lane of a mask, lanes rising. -/
def Wave.forLanes (x : Wave) (m : Mask) (f : Wave → Nat → Wave) : Wave := (lanesOf m).foldl f x

/-- Sets the status of the lanes of a mask. -/
def Wave.setStatus (x : Wave) (m : Mask) (st : Status) : Wave :=
  x.forLanes m fun y l => y.setLane l { y.lane l with st := st }
/-- Sets the program counter of the lanes of a mask. -/
def Wave.setPcs (x : Wave) (m : Mask) (pc : DWord) : Wave :=
  x.forLanes m fun y l => y.setLane l { y.lane l with pc := pc }

/-- R63, R338: the exponent of the tile width a wave's lanes see. -/
def Wave.effTw (x : Wave) : Nat := if x.redun == 2 then Nat.min x.tw 4 else x.tw

/-- The bundle with exactly these lanes. -/
def Wave.bundle? (x : Wave) (m : Mask) : Option Bundle := x.bundles.find? (fun b => b.lanes == m)
/-- Replaces the bundle with these lanes. -/
def Wave.setBundle (x : Wave) (m : Mask) (b : Bundle) : Wave :=
  { x with bundles := x.bundles.map fun c => if c.lanes == m then b else c }
/-- Drops the bundle with these lanes. -/
def Wave.dropBundle (x : Wave) (m : Mask) : Wave :=
  { x with bundles := x.bundles.filter fun c => !(c.lanes == m) }
/-- The bundle that holds a lane. -/
def Wave.bundleOf (x : Wave) (l : Nat) : Option Bundle := x.bundles.find? (fun b => hasLane b.lanes l)

/-- R76: the fields of a CLAUSE word. -/
def Clause.waitMask (c : Clause) : Nat := c.word.toNat / 2 ^ 12 % 2 ^ 12
/-- R76: the flag of loads and matrix operations. -/
def Clause.first (c : Clause) : Nat := c.word.toNat / 2 ^ 8 % 16
/-- R76: the flag of stores, atomics, copy issues and LLC accumulates. -/
def Clause.second (c : Clause) : Nat := c.word.toNat / 2 ^ 4 % 16
/-- R76: the number of instructions. -/
def Clause.count (c : Clause) : Nat := c.word.toNat % 16 + 1
/-- R75: the address after the last instruction, the next header. -/
def Clause.next (c : Clause) : DWord := c.hdr + 8#64 + BitVec.ofNat 64 (4 * c.count)
/-- R77: guard enable. -/
def Clause.ge (c : Clause) : Bool := c.ext.getLsbD 15
/-- R77: guard predicate. -/
def Clause.gp (c : Clause) : Nat := c.ext.toNat / 2 ^ 9 % 64
/-- R77: guard sense. -/
def Clause.gs (c : Clause) : Bool := c.ext.getLsbD 8
/-- R77: the set index. -/
def Clause.sset (c : Clause) : Nat := c.ext.toNat / 2 ^ 5 % 8

/-- The grid of a wave. -/
def State.gridOf (s : State) (w : Nat) : Grid := s.grid (s.wave w).grid
/-- The key under which a task wave, which is in no team (R285), keeps what a team holds: no scratch, no set, no
handle. -/
def taskTeam (w : Nat) : Nat := 2 ^ 16 + w
/-- The key of the team of a wave. -/
def State.teamKey (s : State) (w : Nat) : Nat := if (s.wave w).taskWave then taskTeam w else 8 * coreOf w + (s.wave w).tslot
/-- The team of a wave. -/
def State.teamOf (s : State) (w : Nat) : Team := s.team (s.teamKey w)
/-- R148: the mask of a set of a grid. -/
def Grid.set (g : Grid) (i : Nat) : Nat := g.sets.getD i 0
/-- R148: is the wave index a member of the set? -/
def Grid.inSet (g : Grid) (i widx : Nat) : Bool := g.set i / 2 ^ widx % 2 == 1
/-- R148: the set rank. -/
def Grid.rank (g : Grid) (i widx : Nat) : Nat := ((List.range widx).filter (fun k => g.inSet i k)).length
/-- The keys of the member waves of a set, in set order. -/
def State.setWaves (s : State) (w sset : Nat) : List Nat :=
  let g := s.gridOf w
  (s.teamOf w).waves.filter fun k => g.inSet sset (s.wave k).widx

/-- R243: a wave's identity. -/
def State.waveId (s : State) (w : Nat) : Nat :=
  coreOf w * 2 ^ 16 + (w / 16 % 4) * 2 ^ 14 + (w % 16) * 2 ^ 10 +
    (if (s.wave w).taskWave then (Config.taskIndex (3 * w)).toNat % 2 ^ 8 * 2 ^ 2 else (s.wave w).widx * 2 ^ 5 + (s.wave w).tslot * 2 ^ 2)
/-- R243: the wave key of an identity. -/
def waveOfId (i : Nat) : Nat := waveKey (i / 2 ^ 16 % 256) (i / 2 ^ 14 % 4) (i / 2 ^ 10 % 16)

/-- Is the wave a member of a suspended group (R315)? -/
def State.suspended (s : State) (w : Nat) : Bool := s.x.groups.any fun g => g.waves.contains w

/-- R228: the clock of a core advances and is read. -/
def State.tickLt (s : State) (c : Nat) : Nat × State :=
  let n := (s.core c).lt + 1
  (n, s.setCore c { s.core c with lt := n })
/-- R229: a core receives a message that carries LT `m`. -/
def State.recvLt (s : State) (c m : Nat) : Nat × State :=
  let n := Nat.max (s.core c).lt m + 1
  (n, s.setCore c { s.core c with lt := n })

end Sys2Proof.Machine
end

