-- ==== Sys2Proof/Machine/Hash.lean ====
section
/-! DEFINITION. Hashes and generators: HASH32 (R116), mix64 (R117), and SHA-256 of FIPS 180-4, which
R51 and R50 name (PRESUMED, log 14). -/

namespace Sys2Proof.Machine

/-- R116. -/
def hash32 (x : Word) : Word :=
  let x := x ^^^ (x >>> 16)
  let x := x * 0x6C8E9CF5#32
  let x := x ^^^ (x >>> 13)
  let x := x * 0x2F4A7C15#32
  x ^^^ (x >>> 16)

/-- R117. -/
def mix64 (key ctr : DWord) : DWord :=
  let z := ctr ^^^ key.rotateLeft 17
  let z := z ^^^ (z >>> 31)
  let z := z * 0xD6E8FEB86659FD93#64
  let z := z ^^^ (z >>> 29)
  let z := z * 0xA5A3564E2B1C8F27#64
  let z := z ^^^ key
  z ^^^ (z >>> 32)

/-- FIPS 180-4 section 4.2.2: the round constants. -/
def shaK : List Word :=
  [0x428a2f98#32, 0x71374491#32, 0xb5c0fbcf#32, 0xe9b5dba5#32, 0x3956c25b#32, 0x59f111f1#32,
   0x923f82a4#32, 0xab1c5ed5#32, 0xd807aa98#32, 0x12835b01#32, 0x243185be#32, 0x550c7dc3#32,
   0x72be5d74#32, 0x80deb1fe#32, 0x9bdc06a7#32, 0xc19bf174#32, 0xe49b69c1#32, 0xefbe4786#32,
   0x0fc19dc6#32, 0x240ca1cc#32, 0x2de92c6f#32, 0x4a7484aa#32, 0x5cb0a9dc#32, 0x76f988da#32,
   0x983e5152#32, 0xa831c66d#32, 0xb00327c8#32, 0xbf597fc7#32, 0xc6e00bf3#32, 0xd5a79147#32,
   0x06ca6351#32, 0x14292967#32] ++
  [0x27b70a85#32, 0x2e1b2138#32, 0x4d2c6dfc#32, 0x53380d13#32, 0x650a7354#32, 0x766a0abb#32,
   0x81c2c92e#32, 0x92722c85#32, 0xa2bfe8a1#32, 0xa81a664b#32, 0xc24b8b70#32, 0xc76c51a3#32,
   0xd192e819#32, 0xd6990624#32, 0xf40e3585#32, 0x106aa070#32, 0x19a4c116#32, 0x1e376c08#32,
   0x2748774c#32, 0x34b0bcb5#32, 0x391c0cb3#32, 0x4ed8aa4a#32, 0x5b9cca4f#32, 0x682e6ff3#32,
   0x748f82ee#32, 0x78a5636f#32, 0x84c87814#32, 0x8cc70208#32, 0x90befffa#32, 0xa4506ceb#32,
   0xbef9a3f7#32, 0xc67178f2#32]

/-- FIPS 180-4 section 5.3.3: the initial hash value. -/
def shaH0 : List Word :=
  [0x6a09e667#32, 0xbb67ae85#32, 0x3c6ef372#32, 0xa54ff53a#32, 0x510e527f#32, 0x9b05688c#32,
   0x1f83d9ab#32, 0x5be0cd19#32]

/-- FIPS 180-4 section 6.2.2 step 1: the message schedule, newest word first, `n` words more. -/
def shaSchedule : Nat → List Word → List Word
  | 0, w => w
  | n + 1, w =>
    let a := w.getD 1 0#32
    let b := w.getD 14 0#32
    let s1 := a.rotateRight 17 ^^^ a.rotateRight 19 ^^^ (a >>> 10)
    let s0 := b.rotateRight 7 ^^^ b.rotateRight 18 ^^^ (b >>> 3)
    shaSchedule n ((s1 + w.getD 6 0#32 + s0 + w.getD 15 0#32) :: w)

/-- FIPS 180-4 section 6.2.2 step 3: one round. -/
def shaRound (h : List Word) (kw : Word × Word) : List Word :=
  match h with
  | [a, b, c, d, e, f, g, hh] =>
    let s1 := e.rotateRight 6 ^^^ e.rotateRight 11 ^^^ e.rotateRight 25
    let ch := (e &&& f) ^^^ (~~~e &&& g)
    let t1 := hh + s1 + ch + kw.1 + kw.2
    let s0 := a.rotateRight 2 ^^^ a.rotateRight 13 ^^^ a.rotateRight 22
    let maj := (a &&& b) ^^^ (a &&& c) ^^^ (b &&& c)
    [t1 + s0 + maj, a, b, c, d + t1, e, f, g]
  | h => h

/-- FIPS 180-4 section 6.2.2: one block of 16 words. -/
def shaBlock (h block : List Word) : List Word :=
  let w := (shaSchedule 48 block.reverse).reverse
  List.zipWith (· + ·) h ((shaK.zip w).foldl shaRound h)

/-- Big-endian words of a byte string whose length is a multiple of 4. -/
def beWords : List Byte → List Word
  | a :: b :: c :: d :: rest => (a ++ b ++ c ++ d) :: beWords rest
  | _ => []

/-- The blocks in order. -/
def shaBlocks : Nat → List Word → List Word → List Word
  | 0, h, _ => h
  | n + 1, h, ws => shaBlocks n (shaBlock h (ws.take 16)) (ws.drop 16)

/-- The big-endian bytes of a 32-bit word. -/
def beBytes (w : Word) : List Byte :=
  [w.extractLsb' 24 8, w.extractLsb' 16 8, w.extractLsb' 8 8, w.extractLsb' 0 8]

/-- SHA-256 of a byte string (FIPS 180-4, PRESUMED, log 14), as 32 bytes in digest order. -/
def sha256 (bs : List Byte) : List Byte :=
  let bits := 8 * bs.length
  let pad := (119 - bs.length % 64) % 64
  let len := (List.range 8).map fun i => BitVec.ofNat 8 (bits / 2 ^ (8 * (7 - i)))
  let ws := beWords (bs ++ [0x80#8] ++ List.replicate pad 0#8 ++ len)
  (shaBlocks (ws.length / 16) shaH0 ws).flatMap beBytes

end Sys2Proof.Machine
end

