-- ==== Sys2Proof/Machine/Lines.lean ====
section
/-! DEFINITION. Lines of physical memory (R24-R33): the address map, homes, bytes at home, lines in L1 and LLC, poison
by granule.  One value of a line is current at any moment: that of the L1 that holds it exclusively, else the LLC's,
else the home's. -/

namespace Sys2Proof.Machine

open Sys2Proof

/-- What a byte of memory that nothing has written reads as: zero (DESIGN CHOICE, log 4). -/
def memDefault : Byte := 0#8

/-- The canonical form of memory. -/
def Memory.wf (mem : List Host.Cell) : Bool := SMap.wf memDefault mem

/-- A byte at its home. -/
def memByte (mem : List Host.Cell) (a : Nat) : Byte := SMap.get memDefault mem a

/-- Writes a byte at its home. -/
def setMemByte (mem : List Host.Cell) (a : Nat) (b : Byte) : List Host.Cell := SMap.set memDefault mem a b

/-- R24: the first host address. -/
def hostBase : Nat := 2 ^ 51
/-- R24: the end of domain HBM. -/
def hbmEnd : Nat := 2 ^ 45
/-- R24: a reserved physical address. -/
def reservedPa (pa : Nat) : Bool := hbmEnd ≤ pa && pa < hostBase
/-- R24: a host address. -/
def isHostPa (pa : Nat) : Bool := hostBase ≤ pa
/-- R24: the package number of an HBM address. -/
def pkgOf (pa : Nat) : Nat := pa / 2 ^ 39
/-- R342: this package's number. -/
def State.pkgnum (s : State) : Nat := (s.dev 0x430).toNat % 64
/-- R24: an address of this package's HBM (DESIGN CHOICE, log 48). -/
def State.ownHbm (s : State) (pa : Nat) : Bool := pa < hbmEnd && pkgOf pa == s.pkgnum
/-- R342: a route-table entry. -/
def State.rtblEntry (s : State) (p : Nat) : Word := SMap.get 0#32 s.reg.rtbl p
/-- R24: a package number joined to the domain. -/
def State.joined (s : State) (p : Nat) : Bool := p == s.pkgnum || (s.rtblEntry p).getLsbD 7

/-- R29: row i of the reset matrix P. -/
def resetRow (i : Nat) : Nat :=
  if 11 ≤ i && i ≤ 13 then 2 ^ (i + 19) else if 30 ≤ i && i ≤ 32 then 2 ^ (i - 19) else 2 ^ i
/-- R27: row i of the map of region k. -/
def State.mapRow (s : State) (k i : Nat) : Nat :=
  (SMap.get none s.reg.maps (64 * k + i)).getD (resetRow i)
/-- R27: the package's region of a line: own HBM and PA[38:36]. -/
def State.inRegion (s : State) (k line : Nat) : Bool := s.ownHbm (64 * line) && 64 * line / 2 ^ 36 % 8 == k
/-- The parity of the 33 low bits of a number. -/
def parity33 (x : Nat) : Nat := ((List.range 33).filter (fun j => x / 2 ^ j % 2 == 1)).length % 2
/-- R27: the location y of an HBM offset (DESIGN CHOICE, log 48). -/
def State.location (s : State) (off : Nat) : Nat :=
  let x := off / 64 % 2 ^ 33
  let k := off / 2 ^ 36 % 8
  (List.range 33).foldl (fun y i => y + parity33 (Nat.land (s.mapRow k i) x) * 2 ^ i) 0
/-- R25: HASH32 of PA[37:6]. -/
def lineHash (line : Nat) : Nat := (hash32 (BitVec.ofNat 32 line)).toNat
/-- R25: the home die of a line of this package or of the host. -/
def State.homeDie (s : State) (line : Nat) : Nat :=
  if isHostPa (64 * line) then lineHash line / 48 % 4 else s.location (64 * line % 2 ^ 39) / 2 ^ 31 % 4
/-- R26: the physical slice of a logical one, as 64 die + slice. -/
def State.physSlice (s : State) (die k : Nat) : Nat :=
  64 * die + (SMap.get none s.pk.remap (64 * die + k)).getD k
/-- R25: the logical slice number of a line. -/
def logSlice (line : Nat) : Nat := lineHash line % 48
/-- R25: the home slice; none for a line of another package. -/
def State.homeSlice (s : State) (line : Nat) : Option Nat :=
  if s.ownHbm (64 * line) || isHostPa (64 * line) then some (s.physSlice (s.homeDie line) (logSlice line)) else none

/-- R27: the fields of a location. -/
structure Dram where
  stack : Nat
  channel : Nat
  pseudo : Nat
  sid : Nat
  group : Nat
  bank : Nat
  column : Nat
  high : Nat
  low : Nat
  deriving DecidableEq, Repr, Inhabited

/-- R27: the fields of the location of a line. -/
def State.dram (s : State) (line : Nat) : Dram :=
  let y := s.location (64 * line % 2 ^ 39)
  { stack := y / 2 ^ 30 % 8, channel := y / 2 ^ 25 % 32, pseudo := y / 2 ^ 24 % 2, sid := y / 2 ^ 22 % 4, group := y / 2 ^ 20 % 4,
    bank := y / 2 ^ 18 % 4, column := y / 2 ^ 14 % 16, high := y / 2 ^ 11 % 8, low := y % 2 ^ 11 }

/-- R18, R30: the controller of a line, 2 die + stack mod 2. -/
def State.ctrlOf (s : State) (line : Nat) : Nat := (s.dram line).stack
/-- R27: a bank of a controller, by channel, pseudo-channel, stack identifier, bank group and bank. -/
def Dram.bankKey (d : Dram) : Nat := (((d.channel * 2 + d.pseudo) * 4 + d.sid) * 4 + d.group) * 4 + d.bank
/-- R27: a row of a bank. -/
def Dram.row (d : Dram) : Nat := d.high * 2 ^ 11 + d.low

/-- R29: what covers a byte whose region's contents a map change left undefined: a free byte, until it is written
(DESIGN CHOICE, log 8). -/
def State.cover (s : State) (a : Nat) : Byte :=
  match SMap.get 0 s.m.scrambled (a / 2 ^ 36) with
  | 0 => 0#8
  | n => Config.freeByte n (a % 2 ^ 39)

/-- A byte at its home as software sees it. -/
def State.homeByte (s : State) (a : Nat) : Byte := memByte s.m.mem a ^^^ s.cover a

/-- The bytes of a line at its home. -/
def State.homeData (s : State) (line : Nat) : BitVec 512 :=
  (List.range 64).foldl (fun d i => d ||| ((s.homeByte (64 * line + i)).setWidth 512 <<< (8 * i))) 0#512
/-- Byte i of a line. -/
def byteOf (d : BitVec 512) (i : Nat) : Byte := (d >>> (8 * i)).setWidth 8
/-- A line with byte i replaced. -/
def putByte (d : BitVec 512) (i : Nat) (b : Byte) : BitVec 512 :=
  (d &&& ~~~(0xFF#512 <<< (8 * i))) ||| (b.setWidth 512 <<< (8 * i))
/-- The n bytes at offset i of a line, as a number (R4). -/
def bytesAt (d : BitVec 512) (i n : Nat) : Nat := (d >>> (8 * i)).toNat % 2 ^ (8 * n)
/-- A line with n bytes at offset i replaced by a number. -/
def putBytes (d : BitVec 512) (i n v : Nat) : BitVec 512 :=
  (List.range n).foldl (fun d k => putByte d (i + k) (BitVec.ofNat 8 (v / 2 ^ (8 * k)))) d

/-- Writes a whole line at its home; the granule's poison is replaced and its tag rises (R33, R35). -/
def State.putHome (s : State) (line : Nat) (d : BitVec 512) (bad : Bool) : State :=
  { s with m := { s.m with
      mem := (List.range 64).foldl (fun m i => setMemByte m (64 * line + i) (byteOf d i ^^^ s.cover (64 * line + i))) s.m.mem
      memPoison := SMap.set false s.m.memPoison line bad
      tags := SMap.set 0 s.m.tags line ((SMap.get 0 s.m.tags line + 1) % 16) } }

/-- R33: the poison of a line at home. -/
def State.homePoison (s : State) (line : Nat) : Bool := SMap.get false s.m.memPoison line
/-- Marks a line poisoned at home. -/
def State.poisonHome (s : State) (line : Nat) : State :=
  { s with m := { s.m with memPoison := SMap.set false s.m.memPoison line true } }

/-- R239: the line hash. -/
def State.lineHashOf (s : State) (d : BitVec 512) : DWord :=
  (List.range 8).foldl (fun h i => mix64 h (d.extractLsb' (64 * i) 64)) s.reg.chkkey

/-- A line of an L1. -/
def State.l1Line (s : State) (core line : Nat) : Line := SMap.get {} s.m.l1 (256 * line + core)
/-- Writes a line of an L1. -/
def State.setL1 (s : State) (core line : Nat) (x : Line) : State :=
  { s with m := { s.m with l1 := SMap.set {} s.m.l1 (256 * line + core) x } }
/-- A line of the LLC. -/
def State.llcLine (s : State) (line : Nat) : Line := SMap.get {} s.m.llc line
/-- Writes a line of the LLC. -/
def State.setLlc (s : State) (line : Nat) (x : Line) : State :=
  { s with m := { s.m with llc := SMap.set {} s.m.llc line x } }

/-- R33: poison marks widened to the LLC's 8-byte granule. -/
def widen8 (p : BitVec 16) : BitVec 16 :=
  (List.range 8).foldl (fun q i => if (p.extractLsb' (2 * i) 2) != 0#2 then q ||| (3#16 <<< (2 * i)) else q) 0#16

/-- The cores whose L1 holds a line. -/
def State.holders (s : State) (line : Nat) : List Nat :=
  (s.m.l1.filter (fun e => e.1 / 256 == line && (s.l1Line (e.1 % 256) line).valid)).map (fun e => e.1 % 256)
/-- The core that holds a line exclusively. -/
def State.owner (s : State) (line : Nat) : Option Nat :=
  (s.holders line).find? (fun c => (s.l1Line c line).excl)

/-- The current value of a line below every L1: the LLC's copy, else the home's, with its poison. -/
def State.below (s : State) (line : Nat) : BitVec 512 × BitVec 16 :=
  let l := s.llcLine line
  if l.valid then (l.data, l.poison)
  else (s.homeData line, if s.homePoison line then 0xFFFF#16 else 0#16)

/-- The current value of a line. -/
def State.lineVal (s : State) (line : Nat) : BitVec 512 × BitVec 16 :=
  match s.owner line with
  | some c => ((s.l1Line c line).data, (s.l1Line c line).poison)
  | none => s.below line

end Sys2Proof.Machine
end

