-- ==== Sys2Proof/Machine/Holders.lean ====
section
/-! DEFINITION. Who holds a line, as the coherence checkers see it (R228, R229, R238, R243): the clocks, the messages
that carry them, and the intervals that open and close as a line changes hands.  Nothing here reads or changes data. -/

namespace Sys2Proof.Machine

open Sys2Proof

/-- R228: the clock of a slice, by its key. -/
def State.sliceLt (s : State) (k : Nat) : Nat := (s.slice k).lt

/-- R243: checker identities. -/
def l1Checker (core : Nat) : Nat := 1 * 2 ^ 28 + core
/-- R243. -/
def sliceChecker (k : Nat) : Nat := 2 * 2 ^ 28 + k
/-- R243: the checker of what lies below a line's slice: its memory controller, or the host port of its die: H0 for the lines whose home
is die 0 or 1, H1 for those of dies 2 and 3 (DESIGN CHOICE, log 62). -/
def State.bottomChecker (s : State) (line : Nat) : Nat :=
  if isHostPa (64 * line) then 4 * 2 ^ 28 + s.homeDie line / 2 else 3 * 2 ^ 28 + s.ctrlOf line
/-- R243: a host port's checker. -/
def portChecker (p : Nat) : Nat := 4 * 2 ^ 28 + p

/-- R25, R238: the holder of a line below every L1: its home slice where that has it, else the controller or port; of a line of
another package none here, whose clock is taken to be behind every core's (DEDUCED, log 53). -/
def State.baseChecker (s : State) (line : Nat) : Nat :=
  match s.homeSlice line with
  | some k => if (s.llcLine line).valid then sliceChecker k else s.bottomChecker line
  | none => 0

/-- R228: the clock of the agent that a checker belongs to. -/
def State.clockOf (s : State) (h : Nat) : Nat :=
  match h / 2 ^ 28 with
  | 1 => (s.core (h % 2 ^ 16)).lt
  | 2 => s.sliceLt (h % 2 ^ 16)
  | 3 => (s.ctrl (h % 2 ^ 16)).lt
  | 4 => (s.port (h % 2 ^ 16)).lt
  | _ => 0

/-- Sets the clock of an agent. -/
def State.setClock (s : State) (h t : Nat) : State :=
  let k := h % 2 ^ 16
  match h / 2 ^ 28 with
  | 1 => s.setCore k { s.core k with lt := t }
  | 2 => s.setSlice k { s.slice k with lt := t }
  | 3 => s.setCtrl k { s.ctrl k with lt := t }
  | 4 => s.setPort k { s.port k with lt := t }
  | _ => s

/-- R229: an agent receives a message that carries another's clock. -/
def State.sendLt (s : State) (a b : Nat) : State := s.setClock b (Nat.max (s.clockOf b) (s.clockOf a) + 1)
/-- R229: an agent performs an event. -/
def State.tickAt (s : State) (h : Nat) : State := s.setClock h (s.clockOf h + 1)

/-- R238: the open interval of a holder on a line. -/
def State.held (s : State) (line h : Nat) : Hold := SMap.get {} s.m.held (2 ^ 32 * line + h)
/-- Writes it. -/
def State.setHeld (s : State) (line h : Nat) (x : Hold) : State :=
  { s with m := { s.m with held := SMap.set {} s.m.held (2 ^ 32 * line + h) x } }

/-- R238: what a holder has of a line: an L1 its copy (what it discards it never gives on), the others what lies below. -/
def State.heldData (s : State) (line h : Nat) : BitVec 512 × BitVec 16 :=
  let l := s.l1Line (h % 2 ^ 16) line
  if h / 2 ^ 28 == 1 && !l.dirty then (l.data, l.poison) else s.below line

/-- R238: the interval as it stands: a controller or port holds every line from clock zero until it gives it up. -/
def State.heldNow (s : State) (line h : Nat) : Hold :=
  let x := s.held line h
  if 3 ≤ h / 2 ^ 28 && !x.opened && !x.gone then { opened := true, sw := true, hstart := s.lineHashOf (s.homeData line) } else x

/-- R238: an interval opens at the holder's clock. -/
def State.openAt (s : State) (line h : Nat) (sw : Bool) : State :=
  if h == 0 then s else s.setHeld line h { opened := true, sw := sw, start := s.clockOf h, hstart := s.lineHashOf (s.heldData line h).1 }

/-- R238: the record of an interval that closes now; nothing where none is open. -/
def State.closeAt (s : State) (line h : Nat) : State :=
  let x := s.heldNow line h
  if x.opened then
    let d := s.heldData line h
    { s with m := { s.m with
        intervals := s.m.intervals ++ [{ line := line, start := x.start, fin := s.clockOf h, sw := x.sw, holder := h, hstart := x.hstart,
                                         hend := s.lineHashOf d.1, poisoned := d.2 != 0#16 }]
        held := SMap.set {} s.m.held (2 ^ 32 * line + h) { gone := true } } }
  else s

/-- R238: a line, with the permission held, passes from one holder below the L1s to another. -/
def State.passLine (s : State) (line a b : Nat) : State :=
  let x := s.heldNow line a
  let s := if (s.held line b).opened then s.closeAt line b else s
  let s := (s.closeAt line a).sendLt a b
  if x.opened then s.openAt line b x.sw else s

/-- R238, R229: a holder gives up its permission to write and reads on: the read that takes the line performs there. -/
def State.shareAt (s : State) (line h : Nat) : State :=
  let x := s.heldNow line h
  if x.opened && !x.sw then s else ((s.closeAt line h).tickAt h).openAt line h false

/-- R238, R40: where the host reads a host line beside this package, its port's interval ends before the line is written here. -/
def State.takeBack (s : State) (line : Nat) : State :=
  let b := s.baseChecker line
  let c := s.bottomChecker line
  if b != c && b != 0 && (s.held line c).opened then (s.closeAt line c).sendLt c b else s

/-- R238, R229: an L1 gains a line from the holder below it. -/
def State.grantLine (s : State) (core line : Nat) (excl : Bool) : State :=
  let b := s.baseChecker line
  let h := l1Checker core
  let s := if excl then (s.takeBack line).closeAt line b else s.shareAt line b
  let s := s.sendLt b h
  s.setHeld line h { opened := true, sw := excl, start := s.clockOf h, hstart := s.lineHashOf (s.below line).1 }

/-- R238, R229: an L1 gives a line up: the snoop reaches it, and its response the holder below. -/
def State.returnLine (s : State) (core line : Nat) : State :=
  let b := s.baseChecker line
  let h := l1Checker core
  let s := ((s.sendLt b h).closeAt line h).sendLt h b
  if (s.heldNow line b).opened then s else s.openAt line b true

/-- R238, R229: a write performs at the holder below the L1s. -/
def State.writeAt (s : State) (line : Nat) : State :=
  let s := s.takeBack line
  let b := s.baseChecker line
  let x := s.heldNow line b
  if x.opened && x.sw then (s.tickAt b).setHeld line b x else ((s.closeAt line b).tickAt b).openAt line b true

/-- R47, R238: the host may hold a device line from now on, for reading: the line's holder reads on with it. -/
def State.hostTake (s : State) (port line : Nat) : State :=
  if s.m.hostLines.contains line then s
  else
    let s := s.shareAt line (s.baseChecker line)
    let s := (s.sendLt (s.baseChecker line) (portChecker port)).openAt line (portChecker port) false
    { s with m := { s.m with hostLines := s.m.hostLines ++ [line] } }

/-- R40, R47, R238: the host gives a device line back. -/
def State.hostGive (s : State) (line : Nat) : State :=
  let s := [0, 1].foldl (fun (s : State) p => if (s.held line (portChecker p)).opened then
      (s.closeAt line (portChecker p)).sendLt (portChecker p) (s.baseChecker line) else s) s
  { s with m := { s.m with hostLines := s.m.hostLines.filter fun l => l != line } }

end Sys2Proof.Machine
end

