-- ==== Sys2Proof/Machine/Budget.lean ====
section
/-! DEFINITION. Allowances as they are debited (R314, R335, R336), and the links a request crosses (R18, R34, R38, R39). -/

namespace Sys2Proof.Machine

open Sys2Proof

/-- R314: an allowance of a tenant, by kind 1 to 5. -/
def Tenant.budget (t : Tenant) (kind : Nat) : Allowance := SMap.get {} t.budgets kind
/-- Writes an allowance. -/
def Tenant.setBudget (t : Tenant) (kind : Nat) (a : Allowance) : Tenant := { t with budgets := SMap.set {} t.budgets kind a }

/-- R336: may n units of a kind be taken now?  Only HARD makes traffic wait. -/
def State.canPay (s : State) (t kind n : Nat) : Bool :=
  let a := (s.tenant t).budget kind
  a.pol != 2 || n ≤ a.rem

/-- R335: n units of a kind are debited. -/
def State.pay (s : State) (t kind n : Nat) : State :=
  if n == 0 then s else s.modTenant t fun x => let a := x.budget kind; x.setBudget kind { a with rem := a.rem - n }

/-- R336: may n bytes of a kind counted in 64 bytes move now? -/
def State.canPayBytes (s : State) (t kind n : Nat) : Bool :=
  let a := (s.tenant t).budget kind
  n == 0 || a.pol != 2 || (a.rem != 0 && (a.carry + n) / 64 ≤ a.rem)

/-- R335: n bytes of a kind are debited, a unit for every 64; what is left over counts toward the next unit (DEDUCED, log 52). -/
def State.payBytes (s : State) (t kind n : Nat) : State :=
  if n == 0 then s else s.modTenant t fun x =>
    let a := x.budget kind
    x.setBudget kind { a with rem := a.rem - (a.carry + n) / 64, carry := (a.carry + n) % 64 }

/-- R336: a tenant under SOFT with a kind exhausted is served after tenants with remainder. -/
def State.softOut (s : State) (t kind : Nat) : Bool := let a := (s.tenant t).budget kind; a.pol == 1 && a.rem == 0

/-- R38: the number of the die link of two dies: 12 to 17, after the twelve package links (DESIGN CHOICE, log 33). -/
def dieLink (a b : Nat) : Nat :=
  let lo := Nat.min a b
  11 + (if lo == 0 then 0 else if lo == 1 then 2 else 3) + Nat.max a b

/-- R38: the die links from one die to another. -/
def dieHop (a b : Nat) : List Nat := if a == b then [] else [dieLink a b]

/-- R18: the die of the host port that serves the host lines of a home die (DESIGN CHOICE, log 62). -/
def portDie (die : Nat) : Nat := 2 * (die / 2)

/-- R18, R34, R38, R39: the links a request of a die to a line crosses: the direct link to the line's home die and, for a host line that
the slice there has not, or is not to answer, from there to the die of its port; or the way to the package link of the route, which is
attached to the die of its number over 3. -/
def State.linksTo (s : State) (die line : Nat) (through : Bool := false) : List Nat :=
  if s.ownHbm (64 * line) then dieHop die (s.homeDie line)
  else if isHostPa (64 * line) then
    dieHop die (s.homeDie line) ++ if through || !(s.llcLine line).valid then dieHop (s.homeDie line) (portDie (s.homeDie line)) else []
  else
    let l := (s.rtblEntry (pkgOf (64 * line))).toNat % 16
    dieHop die (l / 3) ++ [l]

/-- R335: the kind of allowance a link debits: package links are those below 12. -/
def linkKind (l : Nat) : Nat := if l < 12 then 3 else 2

/-- R335: bytes enter links; tenant 32 is nobody. -/
def State.bill (s : State) (t : Nat) (links : List Nat) (n : Nat) : State := if 32 ≤ t then s else links.foldl (fun (s : State) l => s.payBytes t (linkKind l) n) s

/-- R34: is a link up?  Package links are down until trained; die links are up unless taken down. -/
def State.linkIsUp (s : State) (n : Nat) : Bool := if n < 12 then SMap.get false s.pk.links n else !SMap.get false s.pk.links n
/-- Takes a link up or down. -/
def State.setLink (s : State) (n : Nat) (up : Bool) : State :=
  { s with pk := { s.pk with links := SMap.set false s.pk.links n (if n < 12 then up else !up) } }

/-- R36: the enabled ways of a set of a slice. -/
def Slice.enabledWays (x : Slice) (set : Nat) : Nat := ((List.range 16).filter fun w => !x.disabled.contains (16 * set + w)).length

end Sys2Proof.Machine
end

