-- ==== Sys2Proof/Machine/Memory.lean ====
section
/-! DEFINITION. Physical memory as agents use it (R24-R33, R190, R225): lines taken from and given to the caches, and the
coherent read and write of every access. -/

namespace Sys2Proof.Machine

open Sys2Proof

/-- Drops a line of an L1 without writing it back. -/
def State.dropL1 (s : State) (core line : Nat) : State :=
  if (s.l1Line core line).valid then (s.returnLine core line).setL1 core line {} else s

/-- R36, R37: the home slice of a line has an enabled way in its set. -/
def State.hasWay (s : State) (k line : Nat) : Bool := (s.slice k).enabledWays (Config.llcSet line) != 0

/-- R25, R37: a line comes into its home slice. -/
def State.fillLlc (s : State) (line : Nat) : State :=
  match s.homeSlice line with
  | none => s
  | some k =>
    if (s.llcLine line).valid || !s.hasWay k line then s
    else
      let r := s.below line
      (s.passLine line (s.bottomChecker line) (sliceChecker k)).setLlc line { valid := true, data := r.1, poison := r.2 }

/-- Writes into the level below every L1: the LLC where it has the line, else memory. -/
def State.putBelow (s : State) (line : Nat) (d : BitVec 512) (p : BitVec 16) : State :=
  if (s.llcLine line).valid then s.setLlc line { valid := true, dirty := true, data := d, poison := widen8 p }
  else s.putHome line d (p != 0#16)

/-- R229: an L1's data goes below; the write-back carries the core's clock. -/
def State.writeBack (s : State) (core line : Nat) : State :=
  let l := s.l1Line core line
  let s := s.fillLlc line
  (s.sendLt (l1Checker core) (s.baseChecker line)).putBelow line l.data l.poison

/-- R335: what an L1's write-back of a line debits: it enters its links. -/
def State.billBack (s : State) (core line : Nat) : State :=
  let l := s.l1Line core line
  if l.valid && l.dirty then s.bill l.tenant (s.linksTo (dieOf core) line) 64 else s

/-- Dirty data of one L1 copy goes below, the copy stays clean. -/
def State.saveL1 (s : State) (core line : Nat) : State :=
  let l := s.l1Line core line
  if l.valid && l.dirty then (s.writeBack core line).setL1 core line { l with dirty := false } else s

/-- R208 WB of one L1 copy. -/
def State.cleanL1 (s : State) (core line : Nat) : State := (s.billBack core line).saveL1 core line

/-- One L1 gives a line up, dirty data written below first.  The copy that holds the line exclusively is the line's
value (R225): where the level below has another, it goes below as well. -/
def State.giveL1 (s : State) (core line : Nat) : State :=
  let l := s.l1Line core line
  let s := if s.owner line == some core && !l.dirty && l.data != (s.below line).1 then s.writeBack core line else s.saveL1 core line
  s.dropL1 core line

/-- Takes a line away from one L1. -/
def State.evictL1 (s : State) (core line : Nat) : State := (s.billBack core line).giveL1 core line

/-- Takes a line away from every L1 but one, from the core that holds it exclusively last. -/
def State.recall (s : State) (line : Nat) (but : Option Nat) : State :=
  let o := s.owner line
  let s := (s.holders line).foldl (fun s c => if but == some c || o == some c then s else s.dropL1 c line) s
  match o with
  | some c => if but == some c then s else s.evictL1 c line
  | none => s

/-- R229, R238: a read at the home by another agent than the core that holds the line exclusively: that core is snooped, and gives the
line up (DEDUCED, log 18). -/
def State.yieldLine (s : State) (core : Option Nat) (line : Nat) : State :=
  match s.owner line with
  | some c => if core == some c then s else s.recall line none
  | none => s

/-- Drops the LLC copy of a line. -/
def State.dropLlc (s : State) (line : Nat) : State :=
  if (s.llcLine line).valid then (s.passLine line (s.baseChecker line) (s.bottomChecker line)).setLlc line {} else s

/-- Writes a dirty LLC line to its home. -/
def State.cleanLlc (s : State) (line : Nat) : State :=
  let l := s.llcLine line
  if l.valid && l.dirty then
    ((s.sendLt (s.baseChecker line) (s.bottomChecker line)).putHome line l.data (l.poison != 0#16)).setLlc line { l with dirty := false }
  else s

/-- Writes a line back from everywhere to its home and invalidates every copy (R29, R46). -/
def State.flushLine (s : State) (line : Nat) : State := ((s.recall line none).cleanLlc line).dropLlc line

/-- R225, R238: a core's L1 gains a line, exclusively or for reading. -/
def State.gainL1 (s : State) (core line : Nat) (excl : Bool) : State :=
  let s := if excl then s.recall line (some core)
           else match s.owner line with
             | some c => if c == core then s else s.evictL1 c line
             | none => s
  let old := s.l1Line core line
  if old.valid && (old.excl || !excl) then s
  else
    let s := s.dropL1 core line
    let r := s.below line
    (s.grantLine core line excl).setL1 core line { valid := true, excl := excl, data := r.1, poison := r.2 }

/-- R226: the provisional releases that cover a byte, as seen by a core: the releasing core is
served the released value, every other agent the value before it. -/
def State.overlay (s : State) (core : Option Nat) (pa n v : Nat) : Nat :=
  s.m.prov.foldl (fun v (q : Prov) =>
    if core == some q.core && q.pa < pa + n && pa < q.pa + q.size then
      (List.range n).foldl (fun v i =>
        let a := pa + i
        if q.pa ≤ a && a < q.pa + q.size then
          v - (v / 2 ^ (8 * i) % 256) * 2 ^ (8 * i) + (q.val / 2 ^ (8 * (a - q.pa)) % 256) * 2 ^ (8 * i)
        else v) v
    else v) v

/-- R226, R33: the poison of byte a as a core sees it: that of the last provisional release of its own that covers the byte. -/
def State.overlayBad (s : State) (core : Option Nat) (a : Nat) (bad : Bool) : Bool :=
  s.m.prov.foldl (fun b (q : Prov) => if core == some q.core && q.pa ≤ a && a < q.pa + q.size then q.bad else b) bad

/-- The coherent read of n bytes inside one line, with its poison (R33) (DEDUCED, log 18). -/
def State.readPa (s : State) (core : Option Nat) (pa n : Nat) : Nat × Bool :=
  let (d, p) := s.lineVal (pa / 64)
  let o := pa % 64
  let bad := (List.range n).any fun i => s.overlayBad core (pa + i) (p.getLsbD ((o + i) / 4))
  (s.overlay core pa n (bytesAt d o n), bad)

/-- The poison marks of a line after a write: a granule the write replaces whole takes the data's
poison; one it replaces in part keeps its own or gains the data's (R33).  `g` is the granule in bytes. -/
def markPoison (p : BitVec 16) (o n g : Nat) (bad : Bool) : BitVec 16 :=
  (List.range 16).foldl (fun q i =>
    let lo := 4 * i / g * g
    if o < lo + g && lo < o + n then
      let whole := o ≤ lo && lo + g ≤ o + n
      let b := if whole then bad else p.getLsbD i || bad
      if b then q ||| (1#16 <<< i) else q &&& ~~~(1#16 <<< i)
    else q) p

/-- The write of n bytes inside one line at the level below the L1s (the home, R225). -/
def State.writeHome (s : State) (pa n v : Nat) (cache : Nat) (bad : Bool) : State :=
  let line := pa / 64
  let s := s.recall line none
  let o := pa % 64
  let (d, p) := s.below line
  if cache == 2 then
    (((s.cleanLlc line).dropLlc line).writeAt line).putHome line (putBytes d o n v) (if p != 0#16 then !(n == 64) || bad else bad)
  else
    let s := s.fillLlc line
    (s.writeAt line).putBelow line (putBytes d o n v) (markPoison p o n (if (s.llcLine line).valid then 8 else 64) bad)

/-- R225: a write by a core: into its L1 where that holds the line exclusively and the region may be
held there, else at the home (DEDUCED, log 18). -/
def State.writePa (s : State) (core : Nat) (pa n v : Nat) (cache : Nat) (bad : Bool) : State :=
  let line := pa / 64
  if cache == 0 && s.owner line == some core then
    let l := s.l1Line core line
    let o := pa % 64
    s.setL1 core line { l with dirty := true, data := putBytes l.data o n v, poison := markPoison l.poison o n 4 bad }
  else s.writeHome pa n v cache bad

/-- Reads of n bytes by an agent that is no core and sees no provisional value. -/
def State.readPhys (s : State) (pa n : Nat) : Nat := (s.readPa none pa n).1

/-- Byte-wise physical read of a range that may cross lines. -/
def State.readRange (s : State) (pa n : Nat) : List Byte :=
  (List.range n).map fun i => BitVec.ofNat 8 (s.readPhys (pa + i) 1)

/-- Byte-wise physical write at the home. -/
def State.writeRange (s : State) (pa : Nat) (bs : List Byte) : State :=
  (bs.zip (List.range bs.length)).foldl (fun s e => s.writeHome (pa + e.2) 1 e.1.toNat 0 false) s

/-- R185, R186: n bytes of a team's scratch and their poison. -/
def Team.readClm (t : Team) (c n : Nat) : Nat × Bool :=
  ((List.range n).foldl (fun v i => v + (SMap.get 0#8 t.clm (c + i)).toNat * 2 ^ (8 * i)) 0,
   (List.range n).any fun i => SMap.get false t.clmPoison ((c + i) / 4))

/-- Writes n bytes of a team's scratch; a word replaced whole takes the data's poison (R33). -/
def Team.writeClm (t : Team) (c n v : Nat) (bad : Bool) : Team :=
  { t with
    clm := (List.range n).foldl (fun m i => SMap.set 0#8 m (c + i) (BitVec.ofNat 8 (v / 2 ^ (8 * i)))) t.clm
    clmPoison := (List.range ((c + n - 1) / 4 + 1 - c / 4)).foldl (fun m k =>
      let w := c / 4 + k
      let whole := c ≤ 4 * w && 4 * w + 4 ≤ c + n
      SMap.set false m w (if whole then bad else SMap.get false t.clmPoison w || bad)) t.clmPoison }

/-- The little-endian bytes of a number (R4). -/
def leBytes (n v : Nat) : List Byte := (List.range n).map fun i => BitVec.ofNat 8 (v / 2 ^ (8 * i))
/-- The number of little-endian bytes. -/
def leNat : List Byte → Nat
  | [] => 0
  | b :: bs => b.toNat + 256 * leNat bs

end Sys2Proof.Machine
end

