-- ==== Sys2Proof/Machine/Translate.lean ====
section
/-! DEFINITION. Regions (R187-R190), translation (R322-R325) and the checks every virtual access makes,
in the order of R191. -/

namespace Sys2Proof.Machine

open Sys2Proof

/-- R315, R316: what a system fault reports of itself. -/
structure FaultInfo where
  code : Nat := 0
  reason : Nat := 0
  addr : Nat := 0
  info : Nat := 0
  paddr : Nat := 0
  deriving DecidableEq, Repr, Inhabited

/-- R315: the code of PAGE. -/
def cPAGE : Nat := 0x10
/-- R315: the code of PROT. -/
def cPROT : Nat := 0x11
/-- R315: the code of DOMAIN. -/
def cDOMAIN : Nat := 0x12
/-- R315: the code of ECCU. -/
def cECCU : Nat := 0x13
/-- R315: the code of COPYBOUND. -/
def cCOPYBOUND : Nat := 0x14
/-- R315: the code of COPYADDR. -/
def cCOPYADDR : Nat := 0x15
/-- R315: the code of BUDGET. -/
def cBUDGET : Nat := 0x16

/-- PROT with a reason of R316 at an address. -/
def prot (reason addr : Nat) : FaultInfo := { code := cPROT, reason := reason, addr := addr }
/-- R316: PROT reasons ALIGN, SCRATCH, HANDLE, TASK and the others, by number. -/
def rACCESS : Nat := 0
/-- R316. -/
def rALIGN : Nat := 1
/-- R316. -/
def rWINDOW : Nat := 2
/-- R316. -/
def rRESERVEDPA : Nat := 3
/-- R316. -/
def rSCRATCH : Nat := 4
/-- R316. -/
def rHSTATE : Nat := 5
/-- R316. -/
def rHANDLE : Nat := 6
/-- R316. -/
def rSHAPE : Nat := 7
/-- R316. -/
def rFMT : Nat := 8
/-- R316. -/
def rTASK : Nat := 9
/-- R316. -/
def rSPAWN : Nat := 10
/-- R316. -/
def rFSCOPE : Nat := 11
/-- R316. -/
def rSYSREG : Nat := 12
/-- R316. -/
def rHTRAP : Nat := 13
/-- R316. -/
def rROUTE : Nat := 14
/-- R316. -/
def rLENGTH : Nat := 15
/-- R316. -/
def rNOPKG : Nat := 16

/-- R182: canonical, bits [63:55] all equal to bit 54. -/
def canonical (va : DWord) : Bool := va.toNat < 2 ^ 54 || 2 ^ 64 - 2 ^ 54 ≤ va.toNat

/-- R322: the physical address of a context entry. -/
def State.ctxEntry (s : State) (asid : Nat) : Nat := (s.dev64 0x407).toNat + 64 * asid
/-- R322: ROOT. -/
def State.ctxRoot (s : State) (asid : Nat) : Nat := s.readPhys (s.ctxEntry asid) 8
/-- R322: RGNBASE. -/
def State.ctxRgn (s : State) (asid : Nat) : Nat := s.readPhys (s.ctxEntry asid + 8) 8
/-- R322: TENANT. -/
def State.ctxTenant (s : State) (asid : Nat) : Nat := s.readPhys (s.ctxEntry asid + 16) 1

/-- R187: a region entry's two words, from the core's cached copy where it has one, else from memory. -/
def State.rgnWords (s : State) (core : Option Nat) (asid e : Nat) : DWord × DWord :=
  match s.m.rgn.find? (fun r => core == some r.core && r.asid == asid && r.e == e) with
  | some r => (r.w0, r.w1)
  | none =>
    let b := s.ctxRgn asid + 16 * e
    (BitVec.ofNat 64 (s.readPhys b 8), BitVec.ofNat 64 (s.readPhys (b + 8) 8))

/-- R33: is a region entry that is read from memory poisoned? -/
def State.rgnBad (s : State) (core : Option Nat) (asid e : Nat) : Bool :=
  !(s.m.rgn.any fun r => core == some r.core && r.asid == asid && r.e == e) &&
  ((s.readPa none (s.ctxRgn asid + 16 * e) 8).2 || (s.readPa none (s.ctxRgn asid + 16 * e + 8) 8).2)

/-- R187, R188: what governs an access. -/
structure Region where
  dom : Dom := .package
  cache : Nat := 0
  task : Bool := false
  hcore : Nat := 0
  hdie : Nat := 0
  deriving DecidableEq, Repr, Inhabited

/-- R187: the DOM field. -/
def domOf : Nat → Dom
  | 0 => .core | 1 => .die | 2 => .package | 3 => .domain | _ => .host

/-- R242: the code of a domain; also the nesting order of R219. -/
def Dom.code : Dom → Nat
  | .core => 0 | .die => 1 | .package => 2 | .domain => 3 | .host => 4

/-- A field of a 64-bit word. -/
def bits (w : DWord) (hi lo : Nat) : Nat := w.toNat / 2 ^ lo % 2 ^ (hi + 1 - lo)

/-- R187: does a valid entry hold the granule? -/
def entryHolds (w0 w1 : DWord) (g : Nat) : Bool :=
  bits w0 7 7 == 1 && bits w0 54 16 ≤ g && g ≤ bits w1 54 16

/-- R187: the region of an entry, however it came into memory: its reserved bits are not looked at, and DOM 5 to 7 are HOST (DESIGN
CHOICE, log 54). -/
def entryRegion (w0 w1 : DWord) : Region :=
  { dom := domOf (bits w0 6 4), cache := bits w0 3 2, task := bits w0 1 1 == 1,
    hcore := bits w1 15 8, hdie := bits w1 1 0 }

/-- R188: the valid entry of lowest number whose range holds the address, else the default region. -/
def State.regionOf (s : State) (core : Option Nat) (asid : Nat) (va : DWord) : Region :=
  let g := bits va 54 16
  match (List.range 64).find? (fun e => entryHolds (s.rgnWords core asid e).1 (s.rgnWords core asid e).2 g) with
  | some e => entryRegion (s.rgnWords core asid e).1 (s.rgnWords core asid e).2
  | none => {}

/-- R188, R33: the poisoned entry that a search for the address meets before one that holds it, as the fault it raises. -/
def State.rgnFault (s : State) (core : Option Nat) (asid : Nat) (va : DWord) : Option FaultInfo :=
  match (List.range 64).find? (fun e => s.rgnBad core asid e || entryHolds (s.rgnWords core asid e).1 (s.rgnWords core asid e).2 (bits va 54 16)) with
  | some e => if s.rgnBad core asid e then some { code := cECCU, addr := va.toNat, paddr := s.ctxRgn asid + 16 * e } else none
  | none => none

/-- R216: who makes an access. -/
structure Agent where
  core : Option Nat := none
  die : Nat := 0
  asid : Nat := 0
  tenant : Nat := 0
  wave : Option Nat := none
  engine : Bool := false                  -- a copy engine
  copy : Nat := 0                         -- the copy it makes
  key : Nat := 0                          -- of a launch processor: what it does (DESIGN CHOICE, log 63)
  maint : Bool := false                   -- WB, INV, INVN, ICINV
  joint : Bool := false                   -- a uniform or WAVE-scope access (R290)
  deriving DecidableEq, Repr, Inhabited

/-- The agent of a wave. -/
def State.agentOf (s : State) (w : Nat) : Agent :=
  let g := s.gridOf w
  { core := some (coreOf w), die := dieOf (coreOf w), asid := g.asid, tenant := g.tenant, wave := some w }

/-- R189, before translation. -/
def scopeValid (ag : Agent) (r : Region) : Bool :=
  match r.dom with
  | .core => ag.core == some r.hcore
  | .die => ag.die == r.hdie
  | _ => true

/-- R41: inside an HDM decoder range of a port. -/
def State.inHdm (s : State) (pa : Nat) : Bool :=
  [0, 1].any fun p => let q := s.port p; q.hdmBase ≤ pa && pa < q.hdmBase + q.hdmSize

/-- R189, after translation. -/
def State.domAgrees (s : State) (r : Region) (pa : Nat) : Bool :=
  match r.dom with
  | .domain => pa < hbmEnd && s.joined (pkgOf pa)
  | .host => isHostPa pa || (s.ownHbm pa && s.inHdm pa)
  | _ => s.ownHbm pa

/-- R323: what an access needs of the leaf. -/
inductive Need where
  | load | store | fetch
  deriving DecidableEq, Repr, Inhabited

/-- R44: inside one of the tenant's windows that are in force. -/
def State.inWindow (s : State) (t pa : Nat) : Bool :=
  t == 0 || (s.tenant t).windows.any fun e => e.2.valid &&
    bits e.2.base 51 16 ≤ pa / 2 ^ 16 && pa / 2 ^ 16 ≤ bits e.2.last 51 16

/-- R323: a walk's answer: the frame, the leaf's permissions and the address of the leaf. -/
structure WalkOk where
  frame : Nat := 0
  x : Bool := false
  w : Bool := false
  rd : Bool := false
  pte : Nat := 0
  deriving DecidableEq, Repr, Inhabited

/-- R323: a nonzero reserved bit of an entry. -/
def pteReserved (e : DWord) : Bool := bits e 63 52 != 0 || bits e 15 8 != 0 || bits e 5 5 != 0

/-- R323: PAGE with a reason at a level. -/
def pageFault (reason level : Nat) (va : DWord) : FaultInfo :=
  { code := cPAGE, reason := reason, addr := va.toNat, info := level }

/-- R323: one table level and those below it, `n` levels still to read after this one.  A table address that R24 reserves, or that lies
in another package's HBM, is read as any other, without a fault (DESIGN CHOICE, log 62). -/
def State.walkLevel (s : State) (va : DWord) : Nat → Nat → Except FaultInfo WalkOk
  | n, table =>
    let level := 3 - n
    let idx := if n == 2 then bits va 54 42 else if n == 1 then bits va 41 29 else bits va 28 16
    let a := table + 8 * idx
    let (v, bad) := s.readPa none a 8
    let e := BitVec.ofNat 64 v
    let ty := bits e 1 0
    if bad then .error { code := cECCU, addr := va.toNat, paddr := a }
    else if ty == 0 then .error (pageFault 1 level va)
    else if ty == 3 || pteReserved e then .error (pageFault 2 level va)
    else if ty == 1 then
      match n with
      | 0 => .error (pageFault 2 level va)
      | n + 1 => s.walkLevel va n (bits e 51 16 * 2 ^ 16)
    else if n == 2 then .error (pageFault 2 level va)
    else if n == 1 && bits e 28 16 != 0 then .error (pageFault 2 level va)
    else .ok { frame := if n == 1 then bits e 51 16 + bits va 28 16 else bits e 51 16,
               x := bits e 4 4 == 1, w := bits e 3 3 == 1, rd := bits e 2 2 == 1, pte := a }

/-- R323: the entries that a walk reads, by address. -/
def State.walkReads (s : State) (va : DWord) : Nat → Nat → List Nat
  | n, table =>
    let idx := if n == 2 then bits va 54 42 else if n == 1 then bits va 41 29 else bits va 28 16
    let a := table + 8 * idx
    let (v, bad) := s.readPa none a 8
    let e := BitVec.ofNat 64 v
    a :: (if !bad && bits e 1 0 == 1 && !pteReserved e then
      match n with
      | 0 => []
      | n + 1 => s.walkReads va n (bits e 51 16 * 2 ^ 16)
    else [])

/-- R322, R323: a whole walk.  The reserved bytes of the context entry and the other bits of ROOT are not looked at (DESIGN CHOICE,
log 54). -/
def State.walkNow (s : State) (asid : Nat) (va : DWord) : Except FaultInfo WalkOk :=
  let root := BitVec.ofNat 64 (s.ctxRoot asid)
  if (s.readPa none (s.ctxEntry asid) 8).2 then .error { code := cECCU, addr := va.toNat, paddr := s.ctxEntry asid }
  else if bits root 0 0 == 0 then .error (pageFault 1 0 va)
  else s.walkLevel va 2 (bits root 51 16 * 2 ^ 16)

/-- R322, R323: the addresses of everything a walk reads. -/
def State.tableReads (s : State) (asid : Nat) (va : DWord) : List Nat :=
  let root := BitVec.ofNat 64 (s.ctxRoot asid)
  s.ctxEntry asid :: if bits root 0 0 == 0 || (s.readPa none (s.ctxEntry asid) 8).2 then [] else s.walkReads va 2 (bits root 51 16 * 2 ^ 16)

/-- R323: does the leaf grant what is needed? -/
def grants (x w rd : Bool) : Need → Bool
  | .load => rd
  | .store => w
  | .fetch => x

/-- R323: A, and D for a write, as the walker sets them in the lowest byte of a leaf. -/
def leafBits (b : Nat) (write : Bool) : Nat := Nat.lor b (if write then 0xC0 else 0x80)

/-- R323: the leaf has them already. -/
def State.leafMarked (s : State) (pte : Nat) (write : Bool) : Bool := leafBits (s.readPhys pte 1) write == s.readPhys pte 1

/-- R323: the walker sets A, and D for a write, in the leaf (DEDUCED, log 20). -/
def State.markLeaf (s : State) (pte : Nat) (write : Bool) : State :=
  s.writeHome pte 1 (leafBits (s.readPhys pte 1) write) 0 false

/-- R293: is the wave a task wave with live tasks in its grid? -/
def Grid.tasksLive (g : Grid) : Bool :=
  g.isTask && g.tasks.any fun e => e.2.st != .committed && e.2.st != .discarded

/-- R292: a task launch of the context that still has a live task. -/
def State.liveTaskGrid (s : State) (asid : Nat) : Option Nat :=
  (s.x.grids.find? (fun e => e.2.live && e.2.asid == asid && e.2.tasksLive)).map (fun e => e.1)

/-- R292, R290: step 7 of R191. -/
def State.taskRule (s : State) (ag : Agent) (r : Region) (need : Need) : Bool :=
  let own := match ag.wave with
    | some w => (s.wave w).taskWave
    | none => false
  s.x.grids.all fun e => !(e.2.live && e.2.asid == ag.asid && e.2.tasksLive) ||
    let mine := own && (ag.wave.map fun w => (s.wave w).grid) == some e.1
    if r.task then mine && !ag.engine && !ag.maint && !ag.joint
    else !(mine && (need == .store || ag.maint))

/-- An access that passed its checks. -/
structure Access where
  va : DWord := 0#64
  pa : Nat := 0
  dom : Dom := .package
  cache : Nat := 0
  task : Bool := false
  deriving DecidableEq, Repr, Inhabited

/-- The answer of the checks: passed, a fault, or a walk first (R191). -/
inductive Chk where
  | ok (a : Access)
  | bad (f : FaultInfo)
  | walk (va : DWord) (need : Need)
  deriving DecidableEq, Repr, Inhabited

/-- R191 steps 5 to 7, with the decoding of R24 before the domain (DEDUCED, log 21). -/
def State.checkPa (s : State) (ag : Agent) (r : Region) (need : Need) (va : DWord) (pa : Nat) (task : Bool := true) : Chk :=
  let f := fun (reason : Nat) => Chk.bad { code := cPROT, reason := reason, addr := va.toNat, paddr := pa }
  if !s.inWindow ag.tenant pa then f rWINDOW
  else if reservedPa pa then f rRESERVEDPA
  else if pa < hbmEnd && !s.joined (pkgOf pa) then f rNOPKG
  else if !s.domAgrees r pa then .bad { code := cDOMAIN, addr := va.toNat, paddr := pa }
  else if task && !s.taskRule ag r need then f rTASK
  else .ok { va := va, pa := pa, dom := r.dom, cache := r.cache, task := r.task }

/-- R191 step 4 against the TLB of a core: the physical address, a fault, or a walk. -/
def State.tlbLook (s : State) (core asid : Nat) (va : DWord) (need : Need) : Option (Except FaultInfo Nat) :=
  match s.m.tlb.find? (fun t => t.core == core && t.asid == asid && t.vpn == va.toNat / 2 ^ 16) with
  | none => none
  | some t =>
    let pa := t.frame * 2 ^ 16 + va.toNat % 2 ^ 16
    if !grants t.x t.w t.rd need then some (.error { code := cPROT, reason := rACCESS, addr := va.toNat, paddr := pa })
    else if !t.a || (need == .store && !t.d) then none
    else some (.ok pa)

/-- R323, R324: the walk is this agent's: its wave's, or its copy's. -/
def Agent.owns (ag : Agent) (k : Walk) : Bool := if ag.engine then k.engine == some ag.copy else k.engine == none && some k.wave == ag.wave

/-- R323: a walk of this agent for the page that has failed, as the fault it raises. -/
def State.failedWalk (s : State) (ag : Agent) (va : DWord) : Option FaultInfo :=
  match s.m.walks.find? (fun k => ag.owns k.2 && k.2.va.toNat / 2 ^ 16 == va.toNat / 2 ^ 16 && k.2.failed.isSome) with
  | some (_, k) => k.failed.map fun r => { code := r.1, reason := r.2.1, info := r.2.2.1, addr := va.toNat, paddr := r.2.2.2 }
  | none => none

/-- R191 steps 1 to 7 for an access of `size` bytes by an agent of a core; `size` 0 checks no
alignment.  A translation that the core does not hold asks for a walk. -/
def State.check (s : State) (ag : Agent) (need : Need) (va : DWord) (size : Nat) : Chk :=
  if !canonical va then .bad (pageFault 0 0 va)
  else if size != 0 && va.toNat % size != 0 then .bad (prot rALIGN va.toNat)
  else
    let r := s.regionOf ag.core ag.asid va
    match s.rgnFault ag.core ag.asid va with
    | some f => .bad f
    | none =>
    if !scopeValid ag r then .bad { code := cDOMAIN, addr := va.toNat }
    else match s.tlbLook (ag.core.getD 0) ag.asid va need with
      | none => match s.failedWalk ag va with
        | some f => .bad f
        | none => .walk va need
      | some (.error f) => .bad f
      | some (.ok pa) => s.checkPa ag r need va pa

/-- R335: what an agent's action asks of memory: bytes at addresses, each read or written (DESIGN CHOICE, log 63). -/
def State.note (s : State) (ag : Agent) (as : List (Nat × Nat × Bool)) : State :=
  { s with m := { s.m with asked := s.m.asked ++ as.map fun a =>
      { die := ag.die, tenant := ag.tenant, line := a.1 / 64, pa := a.1, bytes := a.2.1, cache := 1, write := a.2.2 } } }

/-- R34: a line that an agent asked for was lost on its way. -/
def State.lostTo (s : State) (ag : Agent) (pa : Nat) : Bool := s.m.lost.contains (ag.key, pa / 64)

/-- R323: the walk of an agent that is no core: it reads the tables, and marks the leaf that grants what is needed. -/
def State.walkMark (s : State) (ag : Agent) (need : Need) (va : DWord) : Except FaultInfo WalkOk × State :=
  let rs := s.tableReads ag.asid va
  let t := s.note ag (rs.map fun a => (a, 8, false))
  match rs.find? (s.lostTo ag) with
  | some a => (.error { code := cECCU, addr := va.toNat, paddr := a }, t)
  | none => match s.walkNow ag.asid va with
    | .error f => (.error f, t)
    | .ok k =>
      if grants k.x k.w k.rd need && !s.leafMarked k.pte (need == .store) then (.ok k, (t.note ag [(k.pte, 1, true)]).markLeaf k.pte (need == .store))
      else (.ok k, t)

/-- R191 for an agent that is no core and has no TLB (the launch processor): `task` says whether step 7 applies. -/
def State.checkNow (s : State) (ag : Agent) (need : Need) (va : DWord) (size : Nat) (task : Bool := true) : Except FaultInfo Access × State :=
  if !canonical va then (.error (pageFault 0 0 va), s)
  else if size != 0 && va.toNat % size != 0 then (.error (prot rALIGN va.toNat), s)
  else
    let r := s.regionOf ag.core ag.asid va
    match s.rgnFault ag.core ag.asid va with
    | some f => (.error f, s)
    | none =>
      if !scopeValid ag r then (.error { code := cDOMAIN, addr := va.toNat }, s)
      else match s.walkMark ag need va with
        | (.error f, s) => (.error f, s)
        | (.ok k, s) =>
          let pa := k.frame * 2 ^ 16 + va.toNat % 2 ^ 16
          if !grants k.x k.w k.rd need then (.error { code := cPROT, reason := rACCESS, addr := va.toNat, paddr := pa }, s)
          else match s.checkPa ag r need va pa task with
            | .ok a => (.ok a, s)
            | .bad f => (.error f, s)
            | .walk _ _ => (.error (pageFault 1 3 va), s)

/-- R191: the three checks of a CLM access, in their order. -/
def checkClm (scratch : Nat) (c size align : Nat) (high : Bool) : Option FaultInfo :=
  if high then some (prot rSCRATCH c)
  else if c % align != 0 then some (prot rALIGN c)
  else if scratch < c + size then some (prot rSCRATCH c)
  else none

end Sys2Proof.Machine
end

