-- ==== Sys2Proof/Machine/Ops.lean ====
section
/-! DEFINITION. The shared operations over waves: exits, in-wave trap entry and return (R163-R166,
R181), system faults and their records (R315-R317), flags (R83), and the end of an instruction. -/

namespace Sys2Proof.Machine

open Sys2Proof

/-- R61: the codes of the in-wave causes. -/
def causeILLOP : Nat := 0x01
/-- R61. -/
def causeREGBOUND : Nat := 0x02
/-- R61. -/
def causeJTBOUND : Nat := 0x03
/-- R61. -/
def causeRDVMIX : Nat := 0x04
/-- R61. -/
def causeROLE : Nat := 0x05
/-- R61. -/
def causeSATARM : Nat := 0x06
/-- R61. -/
def causeTSORDER : Nat := 0x07

/-- R61: the TRAPCAUSE word. -/
def trapCauseWord (cause : Nat) (hdr : Bool) : Word :=
  BitVec.ofNat 32 (cause + (if hdr then 256 else 0))

/-- Takes lanes out of every bundle; a bundle left empty is gone. -/
def Wave.unbundle (x : Wave) (m : Mask) : Wave :=
  { x with bundles := (x.bundles.map fun b => { b with lanes := b.lanes &&& ~~~m }).filter fun b => b.lanes != 0#32 }

/-- R162: the lanes of a wave that wait at join j. -/
def Wave.joined (x : Wave) (j : Nat) : Mask :=
  maskOf ((List.range 32).filter fun l => match (x.lane l).st with
    | .waiting (.join k) => k == j
    | _ => false)

/-- R162: a join releases its waiting lanes, with LOST set or not. -/
def Wave.releaseJoin (x : Wave) (j : Nat) (lost : Bool) : Wave :=
  let m := x.joined j
  let x := x.forLanes m fun y l => let ln := y.lane l; y.setLane l { ln with pc := ln.pc + 4#64, st := .running }
  if lost then x.setJoin j { x.join j with lost := true } else x

/-- R162: judges every join of a wave. -/
def Wave.judgeJoins (x : Wave) : Wave :=
  (List.range 16).foldl (fun x j =>
    let m := x.joined j
    if m != 0#32 && (x.join j).expect &&& ~~~m == 0#32 then x.releaseJoin j false else x) x

/-- R176: lanes become EXITED, leave their bundles and every join register; the joins are judged. -/
def Wave.exitLanes (x : Wave) (m : Mask) : Wave :=
  let x := ({ x with stuck := x.stuck &&& ~~~m } : Wave).unbundle m |>.setStatus m .exited
  ((List.range 16).foldl (fun y n => y.setJoin n { y.join n with expect := (y.join n).expect &&& ~~~m }) x).judgeJoins

/-- R164: the trap lanes, the lanes named and the other lanes of their bundles. -/
def Wave.trapLanes (x : Wave) (m : Mask) : Mask :=
  x.bundles.foldl (fun t b => if (b.lanes &&& m) != 0#32 then t ||| b.lanes else t) m

/-- R164 steps 2 to 4: the handler is entered. -/
def Wave.enterHandler (x : Wave) (vec : DWord) (cause : Word) (pc : DWord) (mask lanes : Mask)
    (ctx : Option Clause) : Wave :=
  let x := ((x.unbundle lanes).setStatus lanes .running).setPcs lanes vec
  { x with
    hmode := true, trappc := pc, trapcause := cause, trapmask := mask, hlanes := lanes, saved := ctx,
    bundles := x.bundles ++ [{ lanes := lanes, cl := { hdr := vec }, handler := true }] }

/-- R165: where the lanes of a trap that is posted stand: at an instruction, in one bundle with the
clause context they had; at a header, in no bundle. -/
def Wave.standAt (x : Wave) (pc : DWord) (lanes : Mask) (ctx : Option Clause) : Wave :=
  let h := x.bundles.any fun b => b.handler && (b.lanes &&& lanes) != 0#32
  let x := ((x.unbundle lanes).setStatus lanes .running).setPcs lanes pc
  match ctx with
  | none => x
  | some c => { x with bundles := x.bundles ++ [{ lanes := lanes, cl := { c with act := c.act &&& lanes }, phase := .body, handler := h }] }

/-- R316: the bytes of a fault record. -/
def recordBytes (f : FaultInfo) (susp lane ctx pc wave lt seq : Nat) : List Byte :=
  leBytes 1 f.code ++ leBytes 1 f.reason ++ leBytes 1 susp ++ leBytes 1 lane ++ leBytes 4 ctx ++
  leBytes 8 f.addr ++ leBytes 8 pc ++ leBytes 4 wave ++ leBytes 4 0 ++
  leBytes 8 f.info ++ leBytes 8 f.paddr ++ leBytes 8 lt ++ leBytes 8 seq

/-- R316: the number of a register class. -/
def RegClass.code : RegClass → Nat
  | .v => 0 | .s => 1 | .p => 2 | .acc => 3

/-- R32: the granule of a register in a lane: a v-register has one for each lane. -/
def granule (l : Nat) (r : RegClass × Nat) : RegClass × Nat := if r.1 == .v then (.v, 32 * r.2 + l) else r

/-- R32: the granules of registers in some lanes. -/
def granules (m : Mask) (rs : List (RegClass × Nat)) : List (RegClass × Nat) :=
  rs.flatMap fun r => if r.1 == .v then (lanesOf m).map fun l => granule l r else [r]

/-- R32: the granules of an accumulator slot, one for each element. -/
def slotGranules (n : Nat) : List (RegClass × Nat) := (List.range 256).map fun i => (.acc, 256 * n + i)

/-- The register of a granule. -/
def regOf (r : RegClass × Nat) : Nat :=
  match r.1 with
  | .v => r.2 / 32
  | .acc => r.2 / 256
  | _ => r.2

/-- R316: LANE of the record of a register whose parity check fails: the lane of a v-register, else 0xFF (DEDUCED, log 26). -/
def parityLane (r : RegClass × Nat) : Nat := if r.1 == .v then r.2 % 32 else 255

/-- R316: the fault of a register whose parity check fails (DEDUCED, log 26). -/
def parityFault (r : RegClass × Nat) : FaultInfo := { code := cECCU, reason := 1, info := r.1.code * 2 ^ 8 + regOf r }

/-- R317: records are posted and the queue has room. -/
def Tenant.room (t : Tenant) : Bool :=
  t.fqctl.getLsbD 31 && t.fqprod - t.fqcons != BitVec.ofNat 32 (2 ^ (t.fqctl.toNat % 32))

/-- R317: EN is held at 0 by an illegal LOG2N. -/
def Tenant.canPost (t : Tenant) : Bool :=
  let n := t.fqctl.toNat % 32
  4 ≤ n && n ≤ 16 && t.room

/-- R317: OVF is set while records wait that cannot be posted (DEDUCED, log 50). -/
def Tenant.noteOvf (t : Tenant) : Tenant := if t.records.isEmpty || t.canPost then t else { t with fqctl := t.fqctl ||| 0x10000#32 }

/-- R317: a record joins those that wait. -/
def State.queueRecord (s : State) (t : Nat) (r : List Byte) : State :=
  s.modTenant t fun x => ({ x with records := x.records ++ [r], nrec := x.nrec + 1 } : Tenant).noteOvf

/-- R316: the CTX word of a launch. -/
def ctxWord (tenant asid : Nat) : Nat := tenant * 2 ^ 16 + asid

/-- R315: suspends a group of waves of one tenant, whose record is queued next. -/
def State.suspend (s : State) (g : Group) : State :=
  let h : Group := { g with seq := some (s.tenant g.tenant).nrec }
  { s with x := { s.x with groups := s.x.groups ++ [h] } }

/-- R323: failed walks of some waves are forgotten once the fault they raise is taken. -/
def State.dropFailed (s : State) (ws : List Nat) : State :=
  { s with m := { s.m with walks := s.m.walks.filter fun k => !(ws.contains k.2.wave && k.2.failed.isSome) } }

/-- R315: a system fault: the group is suspended and one record is queued for its tenant. -/
def State.sysFault (s : State) (ws : List Nat) (susp w lane : Nat) (pc : DWord) (f : FaultInfo) : State :=
  let g := s.gridOf w
  let r := recordBytes f susp lane (ctxWord g.tenant g.asid) pc.toNat (s.waveId w) (s.core (coreOf w)).lt (s.tenant g.tenant).nrec
  ((s.dropFailed ws).suspend { tenant := g.tenant, waves := ws }).queueRecord g.tenant r

/-- R315: a device error posts code 0x30 to tenant 0 and suspends nothing.  The record's LT names no
core's clock and is free (DESIGN CHOICE, log 3). -/
def State.deviceError (s : State) (reason info paddr : Nat) : State :=
  let (n, s) := s.draw
  s.queueRecord 0 (recordBytes { code := 0x30, reason := reason, info := info, paddr := paddr } 3 255 0 0 0xFFFFFFFF
    (Config.freeKey n).toNat (s.tenant 0).nrec)

/-- R163-R165: TAKING AN IN-WAVE TRAP.  `mask` is TRAPMASK; `ctx` is the clause context where `pc` is
an instruction; `rdv` marks a rendezvous dissolved or checked, where only the named lanes move when
the trap is posted as HTRAP. -/
def State.inWaveTrap (s : State) (w cause : Nat) (hdr : Bool) (pc : DWord) (mask : Mask)
    (ctx : Option Clause) (rdv : Bool) : State :=
  let x := s.wave w
  let word := trapCauseWord cause hdr
  let lanes := x.trapLanes mask
  let vec := (s.gridOf w).trapvec
  if x.hmode || vec == 0#64 then
    let s := s.setWave w (x.standAt pc (if rdv then mask else lanes) ctx)
    s.sysFault [w] 0 w (lowest mask) pc { code := cPROT, reason := rHTRAP, info := word.toNat, addr := 0 }
  else s.setWave w (x.enterHandler vec word pc mask lanes ctx)

/-- R181: RETURNING FROM A TRAP, for a wave in handler mode. -/
def Wave.returnTrap (x : Wave) : Wave :=
  let m := x.hlanes &&& x.live
  let x := ((x.unbundle m).setStatus m .running).setPcs m x.trappc
  let bs := x.bundles.map fun b => { b with handler := false }
  { x with
    hmode := false, hlanes := 0#32, saved := none,
    bundles := match x.saved with
      | some c => if m == 0#32 then bs else bs ++ [{ lanes := m, cl := { c with act := c.act &&& m }, phase := .body }]
      | none => bs }

/-- The issuing bundle and what it stands in. -/
structure Cx where
  w : Nat
  x : Wave
  b : Bundle
  pc : DWord
  act : Mask
  g : Grid
  hold : Mask := 0#32                     -- R300: lanes of the bundle that do not perform the instruction now
  deriving DecidableEq, Repr, Inhabited

/-- The issuing bundle (R151), if it exists. -/
def State.cx (s : State) : Option Cx :=
  let w := s.sch.cur.1
  let x := s.wave w
  match x.bundle? s.sch.cur.2 with
  | none => none
  | some b => some { w := w, x := x, b := b, pc := (x.lane (lowest b.lanes)).pc, act := b.cl.act &&& b.lanes &&& ~~~b.cl.done, g := s.grid x.grid }

/-- R300: the issuing bundle but for lanes that meet a condition. -/
def Cx.without (c : Cx) (m : Mask) : Cx := { c with act := c.act &&& ~~~m, hold := c.hold ||| m }

/-- R80: does the bundle stand at its clause's last instruction? -/
def Cx.isLast (c : Cx) : Bool := c.pc + 4#64 == c.b.cl.next

/-- R151, R80: the bundle moves past an instruction: to the next one of the clause, or, after the last,
to the next header, where its lanes are in no bundle until they start a clause.  MPROG is clear (R202).  Where lanes of a task
wave are held back (R300), the others have performed the instruction and the bundle stands until these have met their condition
(DEDUCED, log 15). -/
def State.advance (s : State) (c : Cx) : State :=
  s.modWave c.w fun x =>
    if c.hold != 0#32 then
      { x.setBundle c.b.lanes { c.b with cl := { c.b.cl with done := c.b.cl.done ||| (c.b.lanes &&& ~~~c.hold) }, stall := .none, age := 0 } with mprog := 0 }
    else
    let x := { x.setPcs c.b.lanes (c.pc + 4#64) with mprog := 0 }
    if c.isLast then x.dropBundle c.b.lanes
    else x.setBundle c.b.lanes { c.b with cl := { c.b.cl with done := 0#32 }, stall := .none, age := 0 }

/-- R80, R151: the bundle ends its clause, each lane leaving for an address; MPROG is clear (R202).  Lanes held back stay (R300). -/
def State.leave (s : State) (c : Cx) (target : Nat → DWord) : State :=
  s.modWave c.w fun x =>
    let x := x.forLanes (c.b.lanes &&& ~~~c.hold) fun y l => y.setLane l { y.lane l with pc := target l }
    { (if c.hold == 0#32 then x.dropBundle c.b.lanes else x.unbundle (c.b.lanes &&& ~~~c.hold)) with mprog := 0 }

/-- R150: the lanes of the bundle wait at its instruction; MPROG is clear (R202). -/
def State.waitAt (s : State) (c : Cx) (k : Wait) : State :=
  s.modWave c.w fun x => { (x.setStatus c.b.lanes (.waiting k)).setBundle c.b.lanes { c.b with stall := .none, age := 0 } with mprog := 0 }

/-- R152: the bundle stays at its instruction, stalled; its age starts anew when the stall ends (DEDUCED, log 28). -/
def State.stall (s : State) (c : Cx) (why : Stall) : State :=
  s.modWave c.w fun x => x.setBundle c.b.lanes { c.b with stall := why, age := 0 }

/-- R291, R300: the lanes' tasks become STOPPED and the lanes EXITED; nothing is raised. -/
def State.stopTasks (s : State) (w : Nat) (m : Mask) : State :=
  let x := s.wave w
  let s := (s.dropFailed [w]).modGrid x.grid fun g => { g with tasks := (lanesOf m).foldl (fun ts l =>
    match (x.lane l).task with
    | none => ts
    | some id => SMap.set {} ts id { SMap.get {} ts id with st := .stopped, wave := none }) g.tasks }
  s.modWave w fun x => (x.exitLanes m).forLanes m fun y l => y.setLane l { y.lane l with task := none }

/-- R300: the lanes of a mask whose tasks are speculative, whose conditions are deferred. -/
def State.specLanes (s : State) (w : Nat) (m : Mask) : Mask :=
  let x := s.wave w
  if x.taskWave then
    maskOf ((lanesOf m).filter fun l => match (x.lane l).task with
      | some id => !(SMap.get {} (s.grid x.grid).tasks id).nonspec
      | none => false)
  else 0#32

/-- R300: does a condition that the lanes of a mask meet leave other lanes of the bundle to perform the instruction? -/
def Cx.splits (c : Cx) (m : Mask) : Bool := c.x.taskWave && (c.b.lanes &&& ~~~(m ||| c.hold ||| c.b.cl.done)) != 0#32

/-- R300: the lanes of a mask meet a condition.  In a task wave the tasks of those that are speculative stop, and the other lanes
of the bundle perform the instruction before the rest of the mask meets what it meets (DEDUCED, log 15). -/
def State.meets (s : State) (c : Cx) (m : Mask) (others : Cx → State → State) (raise : State → State) : State :=
  if !c.splits m then raise s
  else
    let sp := s.specLanes c.w m
    if sp != 0#32 then s.stopTasks c.w sp else others (c.without m) s

/-- R163: an in-wave trap of an instruction of the issuing bundle; the speculative lanes of a task wave
defer it (R300). -/
def State.trapAt (s : State) (c : Cx) (cause : Nat) (mask : Mask) : State :=
  let sp := s.specLanes c.w mask
  let s := if sp == 0#32 then s else s.stopTasks c.w sp
  let rest := mask &&& ~~~sp
  if rest == 0#32 && sp != 0#32 then s
  else s.inWaveTrap c.w cause false c.pc rest (some c.b.cl) false

/-- R91: ILLOP, ROLE and REGBOUND name every lane of the bundle. -/
def State.trapAll (s : State) (c : Cx) (cause : Nat) : State := s.trapAt c cause c.b.lanes

/-- R315: a system fault of the issuing wave at its instruction, deferred likewise. -/
def State.faultAt (s : State) (c : Cx) (lane : Nat) (mask : Mask) (f : FaultInfo) : State :=
  let sp := s.specLanes c.w mask
  let s := if sp == 0#32 then s else s.stopTasks c.w sp
  if mask &&& ~~~sp == 0#32 && sp != 0#32 then s else s.sysFault [c.w] 0 c.w lane c.pc f

/-- R83: the count of a flag rises. -/
def State.flagUp (s : State) (w f : Nat) : State := s.modWave w fun x => x.setFlag f (x.flag f + 1)
/-- R83: the count of a flag falls. -/
def State.flagDown (s : State) (w f : Nat) : State := s.modWave w fun x => x.setFlag f (x.flag f - 1)
/-- R83: several flags fall together. -/
def State.flagsDown (s : State) (fs : List (Nat × Nat)) : State := fs.foldl (fun s e => s.flagDown e.1 e.2) s

/-- R236: the next program-order index of a wave. -/
def State.takePo (s : State) (w : Nat) : Nat × State :=
  ((s.wave w).po, s.modWave w fun x => { x with po := (x.po + 1) % 2 ^ 32 })

/-- R202: an instruction that takes effect clears MPROG (DEDUCED, log 10). -/
def State.clearMprog (s : State) (w : Nat) : State :=
  if (s.wave w).mprog == 0 then s else s.modWave w fun x => { x with mprog := 0 }

/-- R68: an extended source in one lane, 32 bits.  `b` gives the set and the active mask.  In a task wave nwaves is the launch
record's (DESIGN CHOICE, log 3). -/
def State.extVal (s : State) (w : Nat) (b : Bundle) (a : Ext) (l : Nat) : Word :=
  let x := s.wave w
  let g := s.grid x.grid
  let core := coreOf w
  match a with
  | .v n => x.vreg n l
  | .s n => x.sreg n
  | .lane => BitVec.ofNat 32 l
  | .wave => if x.taskWave then Config.taskIndex (3 * w + 1) else BitVec.ofNat 32 x.widx
  | .team => if x.taskWave then Config.taskIndex (3 * w + 2) else BitVec.ofNat 32 (s.teamOf w).num
  | .srank => if !x.taskWave && g.inSet b.cl.sset x.widx then BitVec.ofNat 32 (g.rank b.cl.sset x.widx) else 0xFFFFFFFF#32
  | .core => BitVec.ofNat 32 core
  | .die => BitVec.ofNat 32 (dieOf core)
  | .part => BitVec.ofNat 32 (w / 16 % 4)
  | .tlane => BitVec.ofNat 32 (l % 2 ^ x.effTw)
  | .tile => BitVec.ofNat 32 (l / 2 ^ x.effTw)
  | .nteams => BitVec.ofNat 32 g.nteams
  | .nwaves => BitVec.ofNat 32 g.nwaves
  | .zero => 0#32
  | .ones => 0xFFFFFFFF#32
  | .pkg => BitVec.ofNat 32 s.pkgnum
  | .cyclo => BitVec.ofNat 32 s.sch.cycle
  | .amask => b.cl.act &&& b.lanes
  | .reserved _ => 0#32

/-- R68: an extended source in one lane, 64 bits. -/
def State.extVal64 (s : State) (w : Nat) (b : Bundle) (a : Ext) (l : Nat) : DWord :=
  match a with
  | .v n => (s.wave w).vpair n l
  | .s n => (s.wave w).spair n
  | e => (s.extVal w b e l).setWidth 64

/-- R56: the v-registers an extended source reads, as 32-bit or 64-bit operand. -/
def extTop (a : Ext) (wide : Bool) : Nat :=
  match a with
  | .v n => n + (if wide then 2 else 1)
  | _ => 0

end Sys2Proof.Machine
end

