-- ==== Sys2Proof/Machine/Sfu.lean ====
section
/-! DEFINITION. The special functions of R132 and R133.  RCP, RSQ and SQRT are exact quotients and
roots with a sticky bit; EXP2, LOG2, SINPI and COSPI are computed to a fixed number of binary places
far beyond F32 and then rounded once (DEDUCED, log 12). -/

namespace Sys2Proof.Machine

/-- The integer square root by bits: the greatest r below 2^n, extending r0, with r*r ≤ x. -/
def isqrtGo (x : Nat) : Nat → Nat → Nat
  | 0, r => r
  | n + 1, r =>
    let t := r + 2 ^ n
    if t * t ≤ x then isqrtGo x n t else isqrtGo x n r

/-- floor(sqrt x). -/
def isqrt (x : Nat) : Nat := isqrtGo x (Nat.log2 x / 2 + 1) 0

/-- A magnitude of which only q is known exactly and `inexact` says that a fraction follows. -/
def sticky (neg : Bool) (q : Nat) (inexact : Bool) (e : Int) : Num :=
  .fin neg (2 * q + (if inexact then 1 else 0)) (e - 1)

/-- R132, R133: 1 / x. -/
def rcpNum : Num → Num
  | .nan => .nan
  | .inf n => .fin n 0 0
  | .fin n m e => if m == 0 then .inf n else sticky n (2 ^ 64 / m) (2 ^ 64 % m != 0) (-64 - e)

/-- R132, R133: the square root.  The exponent is made even and the magnitude long enough. -/
def sqrtNum : Num → Num
  | .nan => .nan
  | .inf n => if n then .nan else .inf false
  | .fin n m e =>
    if m == 0 then .fin n 0 0
    else if n then .nan
    else
      let k : Nat := if e % 2 == 0 then 64 else 65
      let x := m * 2 ^ k
      let r := isqrt x
      sticky false r (r * r != x) ((e - (k : Int)) / 2)

/-- R132, R133: 1 / sqrt x.  floor(2^S / sqrt x) is the root of floor(2^(2S) / x). -/
def rsqNum : Num → Num
  | .nan => .nan
  | .inf n => if n then .nan else .fin false 0 0
  | .fin n m e =>
    if m == 0 then .inf n
    else if n then .nan
    else
      let k : Nat := if e % 2 == 0 then 0 else 1
      let x := m * 2 ^ k
      let r := isqrt (2 ^ 160 / x)
      sticky false r (r * r * x != 2 ^ 160) (-80 - (e - (k : Int)) / 2)

/-- Binary places of the fixed-point work. -/
def sfuP : Nat := 320

/-- One in fixed point. -/
def sfuOne : Nat := 2 ^ sfuP

/-- ln 2 in fixed point: the sum of 1 / (k 2^k). -/
def ln2Fix : Nat := 
  (List.range sfuP).foldl (fun s i => s + 2 ^ (sfuP - (i + 1)) / (i + 1)) 0

/-- atan(1/n) in fixed point: alternating series, term t = 1/n^(2k+1). -/
def atanGo (n2 : Nat) : Nat → Nat → Nat → Int → Int
  | 0, _, _, s => s
  | f + 1, t, k, s =>
    let d : Int := (t / (2 * k + 1) : Nat)
    atanGo n2 f (t / n2) (k + 1) (if k % 2 == 0 then s + d else s - d)

/-- atan(1/n). -/
def atanInv (n : Nat) : Int := atanGo (n * n) 80 (sfuOne / n) 0 0

/-- π in fixed point, by Machin's formula 16 atan(1/5) - 4 atan(1/239). -/
def piFix : Nat := (16 * atanInv 5 - 4 * atanInv 239).toNat

/-- e^y by its series, y in fixed point below one. -/
def expGo (y : Nat) : Nat → Nat → Nat → Nat → Nat
  | 0, _, _, s => s
  | f + 1, k, t, s =>
    let t' := t * y / sfuOne / k
    expGo y f (k + 1) t' (s + t')

/-- e^y. -/
def expFix (y : Nat) : Nat := expGo y 80 1 sfuOne sfuOne

/-- sin y by its series, y in fixed point at most π/2. -/
def sinGo (y2 : Nat) : Nat → Nat → Nat → Int → Int
  | 0, _, _, s => s
  | f + 1, k, t, s =>
    let t' := t * y2 / sfuOne / ((2 * k) * (2 * k + 1))
    sinGo y2 f (k + 1) t' (if k % 2 == 1 then s - (t' : Int) else s + (t' : Int))

/-- sin y. -/
def sinFix (y : Nat) : Nat := (sinGo (y * y / sfuOne) 60 1 y (y : Int)).toNat

/-- A fixed-point result, always taken as inexact. -/
def fixNum (neg : Bool) (v : Nat) (e : Int) : Num := sticky neg v true (e - (sfuP : Int))

/-- The floor of (-1)^neg * m * 2^e and the fraction left, in fixed point. -/
def floorFrac (neg : Bool) (m : Nat) (e : Int) : Int × Nat :=
  if e ≥ 0 then (if neg then -((m * 2 ^ e.toNat : Nat) : Int) else ((m * 2 ^ e.toNat : Nat) : Int), 0)
  else
    let k := (-e).toNat
    let v : Int := if neg then -(m : Int) else (m : Int)
    let q := v / ((2 ^ k : Nat) : Int)
    (q, (v % ((2 ^ k : Nat) : Int)).toNat * sfuOne / 2 ^ k)

/-- R132, R133: 2^x.  Beyond ±1024 every result overflows or rounds to zero; below 2^-40 in
magnitude every result rounds to one. -/
def exp2Num : Num → Num
  | .nan => .nan
  | .inf n => if n then .fin false 0 0 else .inf false
  | .fin n m e =>
    if m == 0 then .fin false 1 0
    else if e + (Nat.log2 m : Int) ≥ 10 then (if n then .fin false 1 (-1024) else .fin false 1 1024)
    else if e + (Nat.log2 m : Int) < -40 then .fin false 1 0
    else
      let (q, f) := floorFrac n m e
      if f == 0 then .fin false 1 q else fixNum false (expFix (f * ln2Fix / sfuOne)) q

/-- The series of atanh: sum of t^(2k+1)/(2k+1). -/
def atanhGo (t2 : Nat) : Nat → Nat → Nat → Nat → Nat
  | 0, _, _, s => s
  | f + 1, k, t, s => atanhGo t2 f (k + 1) (t * t2 / sfuOne) (s + t / (2 * k + 1))

/-- log2 of m / 2^(log2 m), in fixed point: 2 atanh((z-1)/(z+1)) / ln 2. -/
def log2Frac (m : Nat) : Nat :=
  let p := 2 ^ Nat.log2 m
  let t := (m - p) * sfuOne / (m + p)
  2 * atanhGo (t * t / sfuOne) 110 0 t 0 * sfuOne / ln2Fix

/-- R132, R133: log2 x. -/
def log2Num : Num → Num
  | .nan => .nan
  | .inf n => if n then .nan else .inf false
  | .fin n m e =>
    if m == 0 then .inf true
    else if n then .nan
    else
      let k : Int := e + (Nat.log2 m : Int)
      if m == 2 ^ Nat.log2 m then (if k == 0 then .fin false 0 0 else numOfInt k)
      else
        let v : Int := k * (sfuOne : Int) + (log2Frac m : Int)
        fixNum (v < 0) v.natAbs 0

/-- sin(π r) for r in fixed point, 0 < r ≤ 1/2. -/
def sinPiFix (r : Nat) : Nat := sinFix (r * piFix / sfuOne)

/-- R132, R133: sin(π x). -/
def sinpiNum : Num → Num
  | .nan => .nan
  | .inf _ => .nan
  | .fin n m e =>
    let (q, f) := floorFrac false m e
    if f == 0 then .fin n 0 0
    else
      let r := if 2 * f ≤ sfuOne then f else sfuOne - f
      fixNum (n != (q % 2 == 1)) (sinPiFix r) 0

/-- R132, R133: cos(π x). -/
def cospiNum : Num → Num
  | .nan => .nan
  | .inf _ => .nan
  | .fin _ m e =>
    let (q, f) := floorFrac false m e
    let odd := q % 2 == 1
    if f == 0 then .fin odd 1 0
    else if 2 * f == sfuOne then .fin false 0 0
    else if 2 * f < sfuOne then fixNum odd (sinPiFix (sfuOne / 2 - f)) 0
    else fixNum (!odd) (sinPiFix (f - sfuOne / 2)) 0

/-- R132: the F32 result of a special function. -/
def sfu (f : Num → Num) (x : Word) : Word := rndF32 (f (f32 x))

end Sys2Proof.Machine
end

