-- ==== Sys2Proof/Machine/Operands.lean ====
section
/-! DEFINITION. Operand forms and the values of the computation instructions: the tables of R126-R136
as functions of bits, and the effect of an operation on lanes with every source read before any
destination is written (R14, R120-R123). -/

namespace Sys2Proof.Machine

open Sys2Proof

/-- R126: the shift amount. -/
def shAmt (y : Word) : Nat := y.toNat % 32

/-- R126: leading zero bits, bits below n still to look at. -/
def clzGo (x : Word) : Nat → Nat
  | 0 => 32
  | n + 1 => if x.getLsbD n then 31 - n else clzGo x n

/-- R126: CLZ. -/
def clz (x : Word) : Word := BitVec.ofNat 32 (clzGo x 32)
/-- R126: POPC. -/
def popc (x : Word) : Word := BitVec.ofNat 32 (population x)
/-- R126: BREV. -/
def brev (x : Word) : Word := maskOf ((List.range 32).filter fun i => x.getLsbD (31 - i))

/-- R126, R130, R132, R134, R145: the result of a 32-bit operation on x, y and the old destination z. -/
def aluVal (op : AluOp) (x y z : Word) : Word :=
  match op with
  | .add => x + y
  | .sub => x - y
  | .mullo => x * y
  | .mulhiI => BitVec.ofInt 32 (x.toInt * y.toInt / 2 ^ 32)
  | .mulhiN => BitVec.ofNat 32 (x.toNat * y.toNat / 2 ^ 32)
  | .mad => x * y + z
  | .minI => if sle x y then x else y
  | .minN => if x ≤ y then x else y
  | .maxI => if sle y x then x else y
  | .maxN => if y ≤ x then x else y
  | .and => x &&& y
  | .or => x ||| y
  | .xor => x ^^^ y
  | .shl => x <<< shAmt y
  | .shrN => x >>> shAmt y
  | .shrI => x.sshiftRight (shAmt y)
  | .rotl => x.rotateLeft (shAmt y)
  | .clz => clz x
  | .popc => popc x
  | .brev => brev x
  | .sel => if z != 0#32 then x else y
  | .mov => x
  | .addF => addF32 x y
  | .subF => subF32 x y
  | .mulF => mulF32 x y
  | .fmaF => fmaF32 x y z
  | .minF => minF32 x y
  | .maxF => maxF32 x y
  | .negF => negF32 x
  | .absF => absF32 x
  | .rcp => sfu rcpNum x
  | .rsq => sfu rsqNum x
  | .sqrt => sfu sqrtNum x
  | .exp2 => sfu exp2Num x
  | .log2 => sfu log2Num x
  | .sinpi => sfu sinpiNum x
  | .cospi => sfu cospiNum x
  | .addB => bf16x2 (fun a b _ => a.add b) x y z
  | .mulB => bf16x2 (fun a b _ => a.mul b) x y z
  | .fmaB => bf16x2 (fun a b c => (a.mul b).add c) x y z
  | .hash => hash32 (y ^^^ x)

/-- R126: does the operation read its b operand? -/
def AluOp.usesB : AluOp → Bool
  | .clz | .popc | .brev | .mov | .negF | .absF
  | .rcp | .rsq | .sqrt | .exp2 | .log2 | .sinpi | .cospi => false
  | _ => true

/-- R128, R131: the condition of a compare. -/
def cmpVal (op : CmpOp) (x y : Word) : Bool :=
  match op with
  | .eq => x == y
  | .ne => x != y
  | .ltI => x.toInt < y.toInt
  | .leI => x.toInt ≤ y.toInt
  | .ltN => x < y
  | .leN => x ≤ y
  | .eqF => (f32 x).eqv (f32 y)
  | .neF => !(f32 x).eqv (f32 y)
  | .ltF => (f32 x).lt (f32 y)
  | .leF => (f32 x).le (f32 y)
  | .unF => !ordered (f32 x) (f32 y)

/-- R127: ADD64 and LEA; `y` is the b pair, or the b register in its low word. -/
def pairVal (lea : Bool) (x : DWord) (y : DWord) : DWord :=
  if lea then x + (y.extractLsb' 0 32).signExtend 64 else x + y

/-- R94: the range of I32 and N32. -/
def toI32 (md : RMode) (v : Num) : Word := BitVec.ofInt 32 (convertInt (-(2 ^ 31)) (2 ^ 31 - 1) md v).1
/-- R94, R107. -/
def toN32 (md : RMode) (v : Num) : Word := BitVec.ofInt 32 (convertInt 0 (2 ^ 32 - 1) md v).1

/-- A value placed in the low or high half of a register (R135). -/
def lowHalf (v : Nat) : Word := BitVec.ofNat 32 v
/-- R135: the high half written, the low half kept. -/
def highHalf (v : Nat) (z : Word) : Word := BitVec.ofNat 32 (v * 2 ^ 16) ||| (z &&& 0xFFFF#32)

/-- R135, R136: CVT of x into the old destination z. -/
def cvtVal (conv mode : Nat) (x z : Word) : Word :=
  let md := rmodeOf mode
  match conv with
  | 0 => toI32 md (f32 x)
  | 1 => toN32 md (f32 x)
  | 2 => BitVec.ofNat 32 (convert .f32 md (numOfInt x.toInt)).1
  | 3 => BitVec.ofNat 32 (convert .f32 md (numOfInt x.toNat)).1
  | 4 => lowHalf (convert .bf16 md (f32 x)).1
  | 5 => highHalf (convert .bf16 md (f32 x)).1 z
  | 6 => lowHalf (convert .f16 md (f32 x)).1
  | 7 => highHalf (convert .f16 md (f32 x)).1 z
  | 8 => rndF32 (value .bf16 (half x 0))
  | 9 => rndF32 (value .bf16 (half x 1))
  | 10 => rndF32 (value .f16 (half x 0))
  | 11 => rndF32 (value .f16 (half x 1))
  | 12 => toI32 md (numOfInt x.toNat)
  | _ => toN32 md (numOfInt x.toInt)

/-- A register, pair or predicate write of one lane of one wave. -/
inductive Wr where
  | v (w l n : Nat) (x : Word)
  | p (w l n : Nat) (b : Bool)
  deriving DecidableEq, Repr, Inhabited

/-- Performs one write. -/
def State.write1 (s : State) : Wr → State
  | .v w l n x => s.modWave w fun y => y.setV n l x
  | .p w l n b => s.modWave w fun y => y.setP n l b

/-- Performs writes in the order listed; the sources were read before (R14). -/
def State.writeAll (s : State) (ws : List Wr) : State := ws.foldl State.write1 s

/-- The second operand in a lane. -/
def Wave.src (x : Wave) (b : Src) (l : Nat) : Word :=
  match b with
  | .reg n => x.vreg n l
  | .imm w => w

/-- Both words of a 64-bit result. -/
def wrPair (w l d : Nat) (v : DWord) : List Wr :=
  [.v w l d (v.extractLsb' 0 32), .v w l (d + 1) (v.extractLsb' 32 32)]

/-- R120: what an operation of the computation class writes in lane l of wave w, whose bundle is b. -/
def State.laneWrites (s : State) (w : Nat) (b : Bundle) (l : Nat) : LOp → List Wr
  | .alu op d a y =>
    let x := s.wave w
    [.v w l d (aluVal op (s.extVal w b a l) (x.src y l) (x.vreg d l))]
  | .pair lea d a y =>
    let x := s.wave w
    wrPair w l d (pairVal lea (s.extVal64 w b a l) (if lea then (x.vreg y l).setWidth 64 else x.vpair y l))
  | .cmp op d a y => [.p w l d (cmpVal op (s.extVal w b a l) ((s.wave w).src y l))]
  | .cvt d a conv mode => [.v w l d (cvtVal conv mode (s.extVal w b a l) ((s.wave w).vreg d l))]
  | _ => []

/-- The effect of an operation in the given lanes, each (wave, bundle, lane), all sources first. -/
def State.lanesEffect (s : State) (ls : List (Nat × Bundle × Nat)) (op : LOp) : State :=
  s.writeAll (ls.flatMap fun e => s.laneWrites e.1 e.2.1 e.2.2 op)

/-- A position of a collective's group (R122): its wave, bundle and lane, and whether its lane is an
active member. -/
structure Pos where
  w : Nat
  b : Bundle
  l : Nat
  act : Bool
  deriving DecidableEq, Repr, Inhabited

/-- The positions that are active members, as numbers. -/
def actOf (ps : List Pos) : List Nat := (List.range ps.length).filter fun q => (ps.getD q default).act

/-- R144: a weight as it enters the scan. -/
def weight (y : Word) : Word :=
  let v := f32 y
  if v.isNan || v.isInf || v.lt (.fin false 0 0) then 0#32 else y

/-- R112-R115: the group's values with the identity outside Act and, for a scan, above `last`, cut in
trees: one of 2^levels at WAVE scope, one per wave at SET scope. -/
def collReduce (ty : RedTy) (op : RedOp) (wide : Bool) (vals : List (Option Word)) (last : Nat) : Word :=
  let xs := (List.range vals.length).map fun q =>
    if q < last then (vals.getD q none).getD (redIdent ty op) else redIdent ty op
  if wide then reduceWaves ty op ((List.range (xs.length / 32)).map fun k => (xs.drop (32 * k)).take 32)
  else treeReduce (redFn ty op) (redIdent ty op) (levelsFor xs.length) xs

/-- R141: TYPE. -/
def redTyOf : Nat → RedTy
  | 0 => .i32 | 1 => .n32 | _ => .f32
/-- R141: OPR. -/
def redOpOf : Nat → RedOp
  | 0 => .add | 1 => .min | _ => .max

/-- R139-R144: what a collective writes.  `ps` are the group's positions in order, `wide` marks SET
scope. -/
def State.collWrites (s : State) (ps : List Pos) (wide : Bool) (c : Coll) : List Wr :=
  let at_ := fun (q : Nat) => ps.getD q default
  let act := actOf ps
  let width := ps.length
  let X := fun (a : Ext) (q : Nat) => s.extVal (at_ q).w (at_ q).b a (at_ q).l
  let Y := fun (b : Nat) (q : Nat) => (s.wave (at_ q).w).vreg b (at_ q).l
  let P := fun (b : Nat) (q : Nat) => (s.wave (at_ q).w).pred b (at_ q).l
  let D := fun (d : Nat) (q : Nat) (v : Word) => Wr.v (at_ q).w (at_ q).l d v
  let isAct := fun (q : Nat) => q < width && (at_ q).act
  match c with
  | .shfl d a b => act.flatMap fun q => let t := (Y b q).toNat; if isAct t then [D d q (X a t)] else []
  | .shfli d a m => act.flatMap fun q =>
      let t := 32 * (q / 32) + Nat.xor (q % 32) m
      if isAct t then [D d q (X a t)] else []
  | .put d a b => act.flatMap fun q => let t := (Y b q).toNat; if isAct t then [D d t (X a q)] else []
  | .bcast d a b =>
      match act with
      | [] => []
      | q0 :: _ => let t := (Y b q0).toNat; if isAct t then act.map fun q => D d q (X a t) else []
  | .bcasti d a m => if isAct m then act.map fun q => D d q (X a m) else []
  | .vote all d b =>
      let v := if all then act.all (P b) else act.any (P b)
      act.map fun q => .p (at_ q).w (at_ q).l d v
  | .ballot d b =>
      let m := act.foldl (fun m q => if P b q then m + 2 ^ q else m) 0
      act.map fun q =>
        if wide then D d q (if q % 32 < width / 32 then BitVec.ofNat 32 (m / 2 ^ (32 * (q % 32))) else 0#32)
        else D d q (BitVec.ofNat 32 m)
  | .red d a ty opr =>
      let vals := (List.range width).map fun q => if isAct q then some (X a q) else none
      let v := collReduce (redTyOf ty) (redOpOf opr) wide vals width
      act.map fun q => D d q v
  | .scan d a x ty opr =>
      let vals := (List.range width).map fun q => if isAct q then some (X a q) else none
      act.map fun q => D d q (collReduce (redTyOf ty) (redOpOf opr) wide vals (if x then q else q + 1))
  | .matchrank d a => act.map fun q =>
      let same := act.filter fun t => X a t == X a q
      D d q (BitVec.ofNat 32 (same.length % 2 ^ 16 * 2 ^ 16 + (same.filter (· < q)).length % 2 ^ 16))
  | .histo d a => act.map fun q => D d q (BitVec.ofNat 32 (act.filter fun t => (X a t).toNat == q).length)
  | .sample d a b =>
      match act with
      | [] => []
      | q0 :: _ =>
        let ws := (List.range width).map fun q => if isAct q then some (weight (Y b q)) else none
        let c := fun (q : Nat) => collReduce .f32 .add wide ws (q + 1)
        let total := c (width - 1)
        let u0 := f32 (X a q0)
        let u : Word := if u0.isNan || u0.lt (.fin false 0 0) then 0#32 else X a q0
        let t0 := mulF32 u total
        let t : Word := if (f32 t0).isNan then 0#32 else t0
        let k : Word :=
          if (f32 total).isZero then 0xFFFFFFFF#32
          else match act.find? (fun q => (f32 t).lt (f32 (c q))) with
            | some q => BitVec.ofNat 32 q
            | none => BitVec.ofNat 32 ((act.filter fun q => (Num.fin false 0 0).lt (f32 (weight (Y b q)))).getLastD 0)
        act.map fun q => D d q k

/-- R56: the largest v-register index an operation reads or writes, plus one. -/
def Coll.top : Coll → Nat
  | .shfl d a b | .put d a b | .bcast d a b | .sample d a b => Nat.max (d + 1) (Nat.max (extTop a false) (b + 1))
  | .shfli d a _ | .bcasti d a _ | .red d a _ _ | .scan d a _ _ _ | .matchrank d a | .histo d a =>
    Nat.max (d + 1) (extTop a false)
  | .vote _ _ _ => 0
  | .ballot d _ => d + 1

/-- R56 for the memory forms; `o4` is the format of a slot that names a pair. -/
def MemL.top (o4 : Bool) : MemL → Nat
  | .ld z _ d base _ | .st z _ d base _ => Nat.max (base + 2) (d + Nat.max 1 (z / 4))
  | .ldf d base _ _ | .stf d base _ _ => Nat.max (base + 2) (d + (if o4 then 2 else 1))
  | .lds z d base _ | .sts z d base _ => Nat.max (base + 1) (d + z / 4)
  | .ldh d _ _ | .sth d _ _ => d + 1
  | .atom d a w opc => Nat.max (extTop a true) (d + (if w then 2 else 1) * (if opc == 9 then 2 else 1))
  | .batom d a opc => Nat.max (extTop a false) (d + (if opc == 9 then 2 else 1))

/-- The register of a second operand, plus one. -/
def Src.top : Src → Nat
  | .reg n => n + 1
  | .imm _ => 0

/-- R56: the largest v-register index an operation names, plus one. -/
def LOp.top (o4 : Bool) : LOp → Nat
  | .nop => 0
  | .alu op d a b => Nat.max (d + 1) (Nat.max (extTop a false) (if op.usesB then b.top else 0))
  | .pair lea d a b => Nat.max (d + 2) (Nat.max (extTop a true) (b + (if lea then 1 else 2)))
  | .cmp _ _ a b => Nat.max (extTop a false) b.top
  | .cvt d a _ _ => Nat.max (d + 1) (extTop a false)
  | .coll c => c.top
  | .mem m => m.top o4
  | .copy _ _ _ _ _ => 0

/-- The registers an extended source reads. -/
def Ext.regs (a : Ext) (wide : Bool) : List (RegClass × Nat) :=
  match a with
  | .v n => if wide then [(.v, n), (.v, n + 1)] else [(.v, n)]
  | .s n => if wide then [(.s, n), (.s, n + 1)] else [(.s, n)]
  | _ => []

/-- The register a second operand reads. -/
def Src.regs : Src → List (RegClass × Nat)
  | .reg n => [(.v, n)]
  | .imm _ => []

/-- R126, R130, R134: does the operation read its destination? -/
def AluOp.usesD : AluOp → Bool
  | .mad | .sel | .fmaF | .fmaB => true
  | _ => false

/-- n v-registers from d upward. -/
def vRange (d n : Nat) : List (RegClass × Nat) := (List.range n).map fun k => (.v, d + k)

/-- R139-R144: the registers a collective reads. -/
def Coll.regs : Coll → List (RegClass × Nat)
  | .shfl _ a b | .put _ a b | .bcast _ a b | .sample _ a b => Ext.regs a false ++ [(.v, b)]
  | .vote _ _ b | .ballot _ b => [(.p, b)]
  | .shfli _ a _ | .bcasti _ a _ | .red _ a _ _ | .scan _ a _ _ _ | .matchrank _ a | .histo _ a => Ext.regs a false

/-- R196-R206: the registers a memory word reads; `o4` is the format of a slot that names a pair. -/
def MemL.regs (o4 : Bool) : MemL → List (RegClass × Nat)
  | .ld _ _ _ base _ | .ldf _ base _ _ => vRange base 2
  | .st z _ d base _ => vRange base 2 ++ vRange d (Nat.max 1 (z / 4))
  | .stf d base _ _ => vRange base 2 ++ vRange d (if o4 then 2 else 1)
  | .lds _ _ base _ => vRange base 1
  | .sts z d base _ => vRange base 1 ++ vRange d (z / 4)
  | .ldh _ _ m => [(.s, m)]
  | .sth d _ m => [(.s, m), (.v, d)]
  | .atom d a w opc => Ext.regs a true ++ vRange d ((if w then 2 else 1) * (if opc == 9 then 2 else 1))
  | .batom d a opc => Ext.regs a false ++ vRange d (if opc == 9 then 2 else 1)

/-- R192: the registers an operation reads. -/
def LOp.regs (o4 : Bool) : LOp → List (RegClass × Nat)
  | .nop => []
  | .alu op d a b => Ext.regs a false ++ (if op.usesB then b.regs else []) ++ (if op.usesD then [(.v, d)] else [])
  | .pair lea _ a b => Ext.regs a true ++ vRange b (if lea then 1 else 2)
  | .cmp _ _ a b => Ext.regs a false ++ b.regs
  | .cvt d a conv _ => Ext.regs a false ++ (if conv == 5 || conv == 7 then [(.v, d)] else [])
  | .coll c => c.regs
  | .mem m => m.regs o4
  | .copy _ _ a _ q => Ext.regs a true ++ (List.range 5).map fun i => (.s, 8 * q + i)

end Sys2Proof.Machine
end

