-- ==== Sys2Proof/Machine/Order.lean ====
section
/-! DEFINITION. Ordering (R232-R237) and its checking: which events must wait for which, program-order
entries, logical time, the reorder checker's window, releases, and containment (R241-R244). -/

namespace Sys2Proof.Machine

open Sys2Proof

/-- R233: the cell for an earlier and a later class: some TRUE is O, some FALSE is O=. -/
def cell (e l : Cls) : Option Bool :=
  match e, l with
  | .pl, .rl | .pl, .fa | .pl, .fr | .pl, .fb | .pl, .ci => some true
  | .pw, .rl | .pw, .fr | .pw, .fb | .pw, .ci => some true
  | .aq, _ => some true
  | .rl, .aq | .rl, .fa => some false
  | .rl, .rl | .rl, .fr | .rl, .fb => some true
  | .fa, _ => some true
  | .fr, .pw | .fr, .rl | .fr, .fr | .fr, .fb | .fr, .ci => some true
  | .fb, _ => some true
  | .ci, .rl | .ci, .fr | .ci, .fb | .ci, .ci => some true
  | _, _ => none

/-- R233: must events of these classes and scopes perform in order? -/
def mustOrder (e l : Cls) (de dl : Dom) : Bool :=
  match cell e l with
  | some true => true
  | some false => de == dl
  | none => false

/-- R104: the ranges of bytes an event accesses in its space: the element and the scale bytes. -/
def Part.ranges (p : Part) : List (Nat × Nat) := [(p.pa, p.size), (p.scalePa, p.scaleN)]

/-- R234: do two events access a common byte? -/
def shareByte (a b : Part) : Bool :=
  a.clm == b.clm && a.ranges.any fun x => b.ranges.any fun y => x.2 != 0 && y.2 != 0 && x.1 < y.1 + y.2 && y.1 < x.1 + x.2

/-- The program-order index of an operation in a wave. -/
def Op.poIn (o : Op) (w : Nat) : Option Nat := (o.pos.find? (fun e => e.1 == w)).map (fun e => e.2)

/-- R236: indices compared modulo 2^32. -/
def poBefore (a b : Nat) : Bool := a != b && (b + 2 ^ 32 - a) % 2 ^ 32 < 2 ^ 31

/-- R215: the lanes of wave w in whose program order a part stands: those of its group. -/
def Op.lanesIn (o : Op) (p : Part) (w : Nat) : Mask :=
  if o.sc == .lane then (if o.wave == w then p.lanes else 0#32) else if o.sc == .wave then o.group else 0xFFFFFFFF#32

/-- R293: an access of a task to a TASK region acts as a plain one. -/
def Part.cls (p : Part) (c : Cls) : Cls :=
  if p.task then (match c with | .aq => .pl | .rl => .pw | c => c) else c

/-- R207: a fence. -/
def OpKind.isFence : OpKind → Bool
  | .fenceAcq | .fenceRel | .fenceAr => true
  | _ => false

/-- R198: a uniform access. -/
def OpKind.isUniform : OpKind → Bool
  | .uld | .ust => true
  | _ => false

/-- R233, R234, R293: must two events of one lane perform in order?  Fences do not order accesses to TASK regions. -/
def inOrder (ce cl : Cls) (fe fl : Bool) (de dl : Dom) (p q : Part) : Bool :=
  (mustOrder (p.cls ce) (q.cls cl) de dl && !(p.task && fl) && !(q.task && fe)) || shareByte p q

/-- R82: a kind whose data arrives word by word. -/
def OpKind.isLoad : OpKind → Bool
  | .ld | .lds | .uld | .ldm | .jtab => true
  | _ => false

/-- R227, R207: does the release still hold later releases, fences and counts back? -/
def Part.relOpen (p : Part) : Bool := p.rel == .todo || p.rel == .prov

/-- An event as ordering sees it. -/
structure Ev where
  w : Nat
  lanes : Mask
  cls : Cls
  dom : Dom
  po : Nat
  part : Part
  fence : Bool := false
  uni : Bool := false
  deriving DecidableEq, Repr, Inhabited

/-- R246: PASS is set. -/
def Op.passes (o : Op) : Bool := o.firctl.getLsbD 1

/-- Does an earlier part hold an event back (R233, R234, R227, R207)? -/
def Part.holds (p : Part) (o : Op) (ev : Ev) : Bool :=
  (p.plt == none && !(p.ready != 0 && o.passes) && inOrder o.cls ev.cls o.kind.isFence ev.fence p.dom ev.dom p ev.part) ||
  (p.relOpen && (ev.cls == .fr || ev.cls == .fb))

/-- R235: may an event perform now? -/
def State.mayPerform (s : State) (ev : Ev) : Bool :=
  !((ev.cls == .fr || ev.cls == .fb) && (s.wave ev.w).discard) &&
  s.o.ops.all fun e =>
    let o := e.2
    match o.poIn ev.w with
    | none => true
    | some po => !poBefore po ev.po ||
        -- R198: the uniform accesses of a wave perform in issue order, whichever bundles issue them
        (!(o.kind.isUniform && ev.uni && !o.done) &&
        o.parts.all fun p => (o.lanesIn p ev.w &&& ev.lanes) == 0#32 || !p.holds o ev)

/-- R236: the number of entries in a core's window: an operation has one in each member wave. -/
def State.windowCount (s : State) (core : Nat) : Nat :=
  (s.o.ops.map fun e => if e.2.core == core then e.2.pos.length - e.2.left.length else 0).foldl (· + ·) 0

/-- R228: the greatest clock of the package. -/
def State.maxClock (s : State) : Nat :=
  let a := s.x.cores.foldl (fun n e => Nat.max n e.2.lt) s.pk.arbLt
  let a := s.pk.slices.foldl (fun n e => Nat.max n e.2.lt) a
  let a := s.pk.ctrls.foldl (fun n e => Nat.max n e.2.lt) a
  s.pk.ports.foldl (fun n e => Nat.max n e.2.lt) a

/-- R228: a rebase that no longer waits for launches to end: no core issues memory instructions. -/
def State.rebasing (s : State) : Bool := 2 ^ 47 + 2 ^ 46 ≤ s.maxClock

/-- R236: the window of a core is full, or a rebase holds it. -/
def State.windowFull (s : State) (core : Nat) : Bool := 256 ≤ s.windowCount core || s.rebasing

/-- R236: the window of a core has no room for n entries, or a rebase holds it. -/
def State.windowLacks (s : State) (core n : Nat) : Bool := 256 < s.windowCount core + n || s.rebasing

/-- R83: a flag that would pass 255. -/
def State.flagsFull (s : State) (fs : List (Nat × Nat)) : Bool := fs.any fun e => 255 ≤ (s.wave e.1).flag e.2

/-- Takes program-order indices in every member wave (DEDUCED, log 11). -/
def State.takePos (s : State) (ws : List Nat) : List (Nat × Nat) × State :=
  ws.foldl (fun a w => let (p, s) := a.2.takePo w; (a.1 ++ [(w, p)], s)) ([], s)

/-- R289: the lanes of a wave that run a task, each with it. -/
def Wave.tasksNow (x : Wave) : List (Nat × Nat) := (List.range 32).filterMap fun l => (x.lane l).task.map fun t => (l, t)

/-- R82, R236: an operation is issued: its entry is made and its flags rise (DEDUCED, log 11). -/
def State.issueOp (s : State) (ws : List Nat) (o : Op) : Nat × State :=
  let (pos, s) := s.takePos ws
  let id := s.o.next
  let s := o.flags.foldl (fun s e => s.flagUp e.1 e.2) s
  let s := s.setOp id { o with
    pos := pos, grid := (s.wave o.wave).grid, team := (s.teamOf o.wave).num, tids := (s.wave o.wave).tasksNow
    firctl := s.dev 0x403, firaddr := s.dev64 0x404, arm := s.reg.firArm }
  (id, { s with o := { s.o with next := id + 1 } })

/-- Changes one part of an operation. -/
def State.modPart (s : State) (id i : Nat) (f : Part → Part) : State :=
  let o := s.op id
  s.setOp id { o with parts := o.parts.set i (f (o.parts.getD i {})) }

/-- R230: stamps a part with the core's clock: after a message that carries LT `m`, or by itself. -/
def State.stamp (s : State) (id i : Nat) (m : Option Nat) : State :=
  let c := (s.op id).core
  let (t, s) := match m with
    | some m => s.recvLt c m
    | none => s.tickLt c
  s.modPart id i fun p => { p with plt := some t }

/-- The line an entry records (R236, R241). -/
def Part.line (p : Part) : Nat := p.pa / 64 * 64

/-- Poisons a line wherever its current value is held (R33, R241). -/
def State.poisonLine (s : State) (line : Nat) : State :=
  let s := s.recall line none
  let l := s.llcLine line
  if l.valid then s.setLlc line { l with poison := 0xFFFF#16, dirty := true } else s.poisonHome line

/-- The provisional releases of some waves, as (operation, part). -/
def State.provOf (s : State) (ws : List Nat) : List (Nat × Nat) :=
  (s.m.prov.filter fun q => ws.any fun w => ((s.op q.op).poIn w).isSome).map fun q => (q.op, q.part)

/-- R241: discards provisional releases; their writes leave co. -/
def State.discardRels (s : State) (qs : List (Nat × Nat)) : State :=
  let s := { s with m := { s.m with prov := s.m.prov.filter fun q => !qs.contains (q.op, q.part) } }
  qs.foldl (fun s e =>
    let s := s.modPart e.1 e.2 fun p => { p with rel := .discarded }
    (s.op e.1).pos.foldl (fun s k => s.modWave k.1 fun x => { x with discard := true }) s) s

/-- R241: the waves a containment suspends: the given ones and the members of each wide discarded
release's set or team. -/
def State.containWaves (s : State) (ws : List Nat) (qs : List (Nat × Nat)) : List Nat :=
  (ws ++ qs.flatMap fun e =>
    let o := s.op e.1
    match o.sc with
    | .set | .team => o.pos.map fun k => k.1
    | _ => []).eraseDups

/-- R242: the bytes of a CONTAIN record (DEDUCED, log 29). -/
def containBytes (kind scope flags ndisc line lo hi checker wave pc pol poe rline : Nat) : List Byte :=
  leBytes 1 kind ++ leBytes 1 scope ++ leBytes 2 flags ++ leBytes 2 ndisc ++ leBytes 2 0 ++ leBytes 8 line ++
  leBytes 8 lo ++ leBytes 8 hi ++ leBytes 4 checker ++ leBytes 4 wave ++ leBytes 8 pc ++ leBytes 4 pol ++
  leBytes 4 poe ++ leBytes 8 rline

/-- R244: how many of the violations queued last for a tenant were found in this cycle by checkers of higher identity. -/
def Tenant.laterViols (t : Tenant) (cycle checker : Nat) : Nat :=
  ((t.viols.reverse.zip (List.range t.viols.length)).takeWhile fun e => e.1.1 + 1 + e.2 == t.nrec && t.nrec ≤ e.1.1 + t.records.length && e.1.2.1 == cycle && checker < e.1.2.2).length

/-- R241, R244: posts the record of a violation to a tenant, in order of checker identity among those of one cycle, and suspends the
waves of a group, where it has any. -/
def State.postViolation (s : State) (g : Group) (checker : Nat) (r : List Byte) : State :=
  let t := s.tenant g.tenant
  let k := t.laterViols s.sch.cycle checker
  let n := t.nrec - k
  let s := (s.queueRecord g.tenant r).modTenant g.tenant fun x => { x with
    records := t.records.take (t.records.length - k) ++ [r] ++ t.records.drop (t.records.length - k)
    viols := (t.viols.filter fun e => e.1 < n && t.nrec ≤ e.1 + t.records.length) ++ [(n, s.sch.cycle, checker)] ++
      (t.viols.filter fun e => n ≤ e.1).map fun e => (e.1 + 1, e.2) }
  let gs := s.x.groups.map fun (h : Group) => if h.tenant == g.tenant then { h with seq := h.seq.map fun j => if n ≤ j then j + 1 else j } else h
  { s with x := { s.x with groups := if g.waves.isEmpty then gs else gs ++ [{ g with seq := some n }] } }

/-- R241: the line of the first discarded release, the one of lowest index. -/
def State.firstRel (s : State) (qs : List (Nat × Nat)) : Option (Nat × Nat) :=
  qs.foldl (fun (b : Option (Nat × Nat)) e => match b with
    | none => some e
    | some k =>
      let a := ((s.op e.1).pos.head?.map fun x => x.2).getD 0
      let c := ((s.op k.1).pos.head?.map fun x => x.2).getD 0
      if poBefore a c then some e else b) none

/-- The line of a part named by (operation, part). -/
def State.partLine (s : State) (e : Nat × Nat) : Nat := ((s.op e.1).parts.getD e.2 {}).line

/-- R241: a REORDER violation between entry e and the later entry l of wave w. -/
def State.containReorder (s : State) (w eid lid : Nat) (pe pl : Part) (scope : Dom) : State :=
  let e := s.op eid
  let l := s.op lid
  let qs := s.provOf [w]
  let rline := ((s.firstRel qs).map s.partLine).getD 0
  let ws := s.containWaves [w] qs
  let s := s.discardRels qs
  let pois := !pe.clm && pe.size != 0 && (e.cls == .pw || e.cls == .rl)
  let s := if pois then s.poisonLine (pe.pa / 64) else s
  let t := (s.gridOf w).tenant
  let flags := (if qs.isEmpty then 0 else 1) + (if pois then 2 else 0) + (if pe.ready != 0 then 4 else 0) + (if pe.clm then 8 else 0)
  let r := containBytes 1 scope.code flags qs.length pe.line (pl.plt.getD 0) (pe.plt.getD 0) e.core
    (s.waveId w) l.pc.toNat ((l.poIn w).getD 0) ((e.poIn w).getD 0) rline
  s.postViolation { tenant := t, waves := ws } e.core r

/-- R217: a fence after an entry in a wave makes its reads acquires. -/
def State.fencedAfter (s : State) (w po lane : Nat) : Bool :=
  s.o.ops.any fun e => (e.2.kind == .fenceAcq || e.2.kind == .fenceAr) && (match e.2.poIn w with | some p => poBefore po p | none => false) &&
    e.2.parts.any fun q => hasLane (e.2.lanesIn q w) lane

/-- R217: is an entry a release, a fence or an acquire in a lane? -/
def State.syncs (s : State) (w po lane : Nat) (o : Op) (q : Part) : Bool :=
  match o.cls with
  | .pl => s.fencedAfter w po lane
  | .pw => q.rel != .none
  | .ci => false
  | _ => true

/-- R237: the scope recorded: that of the first release, fence or acquire at or after l in program
order, in the lane. -/
def State.violScope (s : State) (w lpo lane : Nat) : Dom :=
  let cand := s.o.ops.filterMap fun e =>
    match e.2.poIn w with
    | some p =>
      if p == lpo || poBefore lpo p then
        (e.2.parts.find? fun q => hasLane (e.2.lanesIn q w) lane && s.syncs w p lane e.2 q).map fun q => (p, q.dom)
      else none
    | none => none
  match cand.foldl (fun (b : Option (Nat × Dom)) c => match b with
      | none => some c
      | some k => if poBefore c.1 k.1 then some c else b) none with
  | some k => k.2
  | none => .package

/-- R237: the first failing pair of parts of e and a later l in wave w, by lane. -/
def failingPair (w : Nat) (e l : Op) : Option (Nat × Part × Part) :=
  (List.range 32).foldl (fun b lane => match b with
    | some r => some r
    | none =>
      (e.parts.filter fun p => hasLane (e.lanesIn p w) lane).foldl (fun b p => match b with
        | some r => some r
        | none => ((l.parts.filter fun q => hasLane (l.lanesIn q w) lane).find? fun q =>
            inOrder e.cls l.cls e.kind.isFence l.kind.isFence p.dom q.dom p q &&
            (match p.plt, q.plt with | some a, some c => c < a | _, _ => false)).map fun q => (lane, p, q)) none) none

/-- R237: checks an entry that leaves against every later entry of its wave. -/
def State.checkLeaving (s : State) (w eid : Nat) : State :=
  let e := s.op eid
  let epo := (e.poIn w).getD 0
  let later := (s.o.ops.filter fun k => match k.2.poIn w with
    | some p => poBefore epo p && !k.2.left.contains w
    | none => false).map fun k => k.1
  later.foldl (fun s lid =>
    let l := s.op lid
    match failingPair w e l with
    | none => s
    | some (lane, p, q) => s.containReorder w eid lid p q (s.violScope w ((l.poIn w).getD 0) lane)) s

/-- Has every part performed? -/
def Op.performed (o : Op) : Bool := o.parts.all fun p => p.plt.isSome

/-- R192: has a part performed, and, where it is a load, written its last word or met poison? -/
def Part.arrived (p : Part) (k : OpKind) : Bool := p.plt.isSome && (!k.isLoad || p.hurt || p.landed + 1 == 2 ^ ((p.size + 3) / 4))

/-- R82: has every part come to its end? -/
def Op.arrived (o : Op) : Bool := o.parts.all fun p => p.arrived o.kind

/-- The earliest entry of a wave still in the window. -/
def State.oldest (s : State) (w : Nat) : Option Nat :=
  (s.o.ops.foldl (fun (b : Option (Nat × Nat)) e => match e.2.poIn w with
    | none => b
    | some p =>
      if e.2.left.contains w then b
      else match b with
        | none => some (e.1, p)
        | some k => if poBefore p k.2 then some (e.1, p) else b) none).map fun k => k.1

/-- R237: entries of a wave leave in order, at most `n` of them. -/
def State.leaveWindow (s : State) (w : Nat) : Nat → State
  | 0 => s
  | n + 1 =>
    match s.oldest w with
    | none => s
    | some id =>
      if (s.op id).performed then
        let s := s.checkLeaving w id
        (s.setOp id { s.op id with left := w :: (s.op id).left }).leaveWindow w n
      else s

/-- An operation that nothing waits for any more. -/
def Op.finished (o : Op) : Bool :=
  o.done && o.left.length == o.pos.length && o.parts.all fun p => !p.relOpen

/-- Forgets finished operations. -/
def State.sweepOps (s : State) : State := { s with o := { s.o with ops := s.o.ops.filter fun e => !e.2.finished } }

/-- After a perform: entries leave the windows of the operation's waves, and finished operations go. -/
def State.afterPerform (s : State) (id : Nat) : State :=
  ((s.op id).pos.foldl (fun s e => s.leaveWindow e.1 256) s).sweepOps

/-- R82: the operation is complete for its flags. -/
def State.completeOp (s : State) (id : Nat) : State :=
  let o := s.op id
  if o.done then s else (s.flagsDown o.flags).setOp id { o with done := true }

/-- R227: may a provisional release complete? -/
def State.mayComplete (s : State) (id i : Nat) : Bool :=
  let o := s.op id
  let p := o.parts.getD i {}
  o.pos.all (fun k =>
    s.o.ops.all fun e => match e.2.poIn k.1 with
      | none => true
      | some po => !poBefore po k.2 ||
          e.2.parts.all fun q => (e.2.lanesIn q k.1 &&& o.lanesIn p k.1) == 0#32 ||
            (e.2.left.contains k.1 && !q.relOpen)) &&
  o.pos.all (fun k => !(s.wave k.1).discard) &&
  -- R240: a check is pending from the receipt of its record
  s.m.intervals.all fun v => v.line != p.pa / 64 || !v.waiting

/-- R226: a granule on which a provisional release stands. -/
def State.provHeld (s : State) (pa n : Nat) : Bool :=
  s.m.prov.any fun q => q.pa / 8 * 8 < pa + n && pa < (q.pa + q.size + 7) / 8 * 8

/-- R226: a line on which a provisional release stands. -/
def State.provLine (s : State) (line : Nat) : Bool := s.m.prov.any fun q => q.pa / 64 == line

/-- The event of a part, in one of its waves. -/
def Op.ev (o : Op) (p : Part) (w : Nat) : Ev :=
  { w := w, lanes := o.lanesIn p w, cls := o.cls, dom := p.dom, po := (o.poIn w).getD 0, part := p, fence := o.kind.isFence, uni := o.kind.isUniform }

/-- R199, R283: does a part read before any part of its instruction writes: a scale byte, or an accumulator slot? -/
def Op.readsFirst (o : Op) (p : Part) : Bool := ((o.kind == .stf && p.scaleN != 0) || o.kind == .accst) && p.bound != 1

/-- R235: may this part of this operation perform, in every wave it stands in? -/
def State.partReady (s : State) (id i : Nat) : Bool :=
  let o := s.op id
  match o.parts[i]? with
  | none => false
  | some p => p.plt == none && o.pos.all (fun k => s.mayPerform (o.ev p k.1)) &&
      -- R194, R203: parts of one instruction on a common byte perform in their order, and all of them in a task wave
      (o.parts.take i).all fun q => q.plt.isSome || o.readsFirst p ||
        !(o.sc == .lane && (s.wave o.wave).taskWave) && (!shareByte q p || o.cls == .pl && ((q.lanes &&& p.lanes) == 0#32 || o.kind == .mma || o.kind == .accld))

/-- R222, R232: an event without location, performed at once, in the program order of some lanes:
rendezvous completion, handle acquire, WAITB release, FSWAIT completion. -/
def State.noteEvent (s : State) (ws : List Nat) (lanes : Mask) (cls : Cls) (dom : Dom) (kind : OpKind) (sc : Scope) (pc : DWord) : State :=
  let w := ws.headD 0
  let o : Op := { wave := w, core := coreOf w, pc := pc, cls := cls, kind := kind, sc := sc, done := true,
                  parts := [{ wave := w, lanes := lanes, dom := dom }] }
  let (id, s) := s.issueOp ws o
  (s.stamp id 0 none).afterPerform id

/-- R54, R337: the registers of a wave's shadow: its own where they have come apart. -/
def Wave.regs (x : Wave) : Regs := { v := x.v, s := x.s, p := x.p, acc := x.acc }

/-- R337, R338: is an operation's part other in the shadow: by its address or data as they were at issue, or by the accumulator slot that it
reads as it performs? (DEDUCED, log 42) -/
def State.differs (s : State) (id i : Nat) : Bool :=
  let o := s.op id
  let x := s.wave o.wave
  let n := (o.parts.getD i {}).reg
  let slot := fun (m : SMap Word) => (List.range 256).map fun k => SMap.get 0#32 m (256 * n + k)
  o.odd || ((o.kind == .accst || o.kind == .accflush || o.kind == .accdet) &&
    match x.shadow with | some r => slot x.acc != slot r.acc | none => false)

/-- R339, R242: containment of a mismatch: releases are discarded, the waves are suspended, and SDC is posted with the compared line
(DESIGN CHOICE, log 64). -/
def State.containShadow (s : State) (ws : List Nat) (copy : Option Nat) (line flags : Nat) (pc : DWord) : State :=
  let w := ((ws.find? fun w => (s.wave w).shadow.isSome).getD (ws.headD 0))
  let qs := s.provOf ws
  let rline := ((s.firstRel qs).map s.partLine).getD 0
  let out := s.containWaves ws qs
  let s := s.discardRels qs
  let ck := 5 * 2 ^ 28 + coreOf w
  let r := containBytes 4 0 ((if qs.isEmpty then 0 else 1) + flags) qs.length line 0 0 ck (s.waveId w) pc.toNat 0 0 rline
  s.postViolation { tenant := (s.gridOf w).tenant, waves := out, copy := copy } ck r

end Sys2Proof.Machine
end

