-- ==== Sys2Proof/Machine/Versions.lean ====
section
/-! DEFINITION. Speculative data of timestamped tasks (R291-R297): versions, read sets, what a task reads
and writes, aborts and discards. -/

namespace Sys2Proof.Machine

open Sys2Proof

/-- A task of a grid. -/
def Grid.task (g : Grid) (id : Nat) : Task := SMap.get {} g.tasks id
/-- Writes a task. -/
def Grid.setTask (g : Grid) (id : Nat) (t : Task) : Grid := { g with tasks := SMap.set {} g.tasks id t }

/-- R287: the order of tasks by (TS, identity): is task a earlier than task b? -/
def Grid.earlier (g : Grid) (a b : Nat) : Bool :=
  let x := (g.task a).ts.toNat
  let y := (g.task b).ts.toNat
  x < y || (x == y && a < b)

/-- R291: neither COMMITTED nor DISCARDED. -/
def TState.live : TState → Bool
  | .committed | .discarded => false
  | _ => true

/-- R298: the earliest task that is neither COMMITTED nor DISCARDED. -/
def Grid.front (g : Grid) : Option Nat :=
  g.tasks.foldl (fun (b : Option Nat) e =>
    if e.2.st.live then
      match b with
      | none => some e.1
      | some k => if g.earlier e.1 k then some e.1 else b
    else b) none

/-- The value of a byte in a version, if its mask covers it. -/
def Version.byte? (v : Version) (i : Nat) : Option Byte := if v.mask.getLsbD i then some (byteOf v.data i) else none

/-- R294: the byte of address a that task u reads: its own version, else that of the latest earlier
task whose version covers it, else none (committed memory). -/
def Grid.versionByte (g : Grid) (u : Nat) (a : Nat) : Option Byte :=
  let line := a / 64
  let own := (SMap.get {} (g.task u).versions line).byte? (a % 64)
  match own with
  | some b => some b
  | none =>
    if (g.task u).nonspec then none
    else
      let c := g.tasks.foldl (fun (b : Option Nat) e =>
        if g.earlier e.1 u && ((SMap.get {} e.2.versions line).byte? (a % 64)).isSome then
          match b with
          | none => some e.1
          | some k => if g.earlier k e.1 then some e.1 else b
        else b) none
      match c with
      | some k => (SMap.get {} (g.task k).versions line).byte? (a % 64)
      | none => none

/-- R294: what task u reads of n bytes, and their poison. -/
def State.taskRead (s : State) (g u core pa n : Nat) : Nat × Bool :=
  let gr := s.grid g
  (List.range n).foldl (fun r i => match gr.versionByte u (pa + i) with
    | some b => (r.1 + b.toNat * 2 ^ (8 * i), r.2)
    | none => let (v, p) := s.readPa (some core) (pa + i) 1; (r.1 + v * 2 ^ (8 * i), r.2 || p)) (0, false)

/-- R294: the line enters u's read set when a byte was not covered by its own version. -/
def State.noteRead (s : State) (g u pa n : Nat) : State :=
  let t := (s.grid g).task u
  let v := SMap.get {} t.versions (pa / 64)
  if t.nonspec || t.reads.contains (pa / 64) || (List.range n).all (fun i => v.mask.getLsbD (pa % 64 + i)) then s
  else s.modGrid g fun x => x.setTask u { t with reads := (pa / 64) :: t.reads }

/-- R295: a version store by task t to a line dooms every later uncommitted task that read it. -/
def Grid.doom (g : Grid) (t line : Nat) : Grid :=
  { g with tasks := g.tasks.map fun e =>
      if g.earlier t e.1 && e.2.st.live && !e.2.nonspec && e.2.reads.contains line then (e.1, { e.2 with doomed := true }) else e }

/-- R293: the version of a line after a store of n bytes. -/
def Version.store (v : Version) (i n x : Nat) : Version :=
  { mask := (List.range n).foldl (fun m k => m ||| (1#64 <<< (i + k))) v.mask
    data := putBytes v.data i n x }

/-- R293: the version lines held on a core. -/
def State.versionCount (s : State) (core : Nat) : Nat :=
  s.x.grids.foldl (fun n g => g.2.tasks.foldl (fun n e => if e.2.core == core then n + e.2.versions.length else n) n) 0

/-- R293: the version capacity of a core, half its L1 in lines. -/
def State.versionCap (s : State) (core : Nat) : Nat := 2048 - 512 * (s.core core).carve

/-- R291: a task leaves its lane at once. -/
def State.leaveLane (s : State) (t : Task) : State :=
  match t.wave with
  | none => s
  | some w => s.modWave w fun x =>
    let x := x.exitLanes (1#32 <<< t.lane)
    x.setLane t.lane { x.lane t.lane with task := none }

/-- R301: the live count of a scope falls. -/
def Grid.lessLive (g : Grid) (k : Nat) : Grid :=
  let f := SMap.get {} g.scopes k
  { g with scopes := SMap.set {} g.scopes k { f with live := f.live - 1 } }

/-- R295: drops a task's versions and reads; answers the lines it held. -/
def State.dropVersions (s : State) (g id : Nat) : List Nat × State :=
  let t := (s.grid g).task id
  (t.versions.map (fun e => e.1), s.modGrid g fun x => x.setTask id { t with versions := [], reads := [] })

/-- The tasks later than `id`, live and speculative, whose read set holds one of the lines. -/
def Grid.readersOf (g : Grid) (id : Nat) (lines : List Nat) : List Nat :=
  (g.tasks.filter fun e => g.earlier id e.1 && e.2.st.live && e.2.st != .queued && !e.2.nonspec &&
    lines.any fun l => e.2.reads.contains l).map fun e => e.1

/-- The children of a task that are still there. -/
def Grid.children (g : Grid) (id : Nat) : List Nat :=
  (g.tasks.filter fun e => e.2.parent == some id && e.2.st.live).map fun e => e.1

/-- R295: works off aborts (TRUE) and discards (FALSE), at most `n` of them. -/
def State.undoTasks (s : State) (g : Nat) : Nat → List (Nat × Bool) → State
  | 0, _ => s
  | _, [] => s
  | n + 1, (id, abort) :: rest =>
    let t := (s.grid g).task id
    if t.st.live then
      let s := s.leaveLane t
      let (lines, s) := s.dropVersions g id
      let s := s.modGrid g fun x =>
        let x := x.setTask id { x.task id with st := if abort then .queued else .discarded, wave := none, doomed := false }
        if abort then x else x.lessLive t.scope
      let gr := s.grid g
      s.undoTasks g n (rest ++ (gr.readersOf id lines).map (fun k => (k, true)) ++ (gr.children id).map (fun k => (k, false)))
    else s.undoTasks g n rest

/-- R295: aborts a task with everything that follows from it. -/
def State.abortTask (s : State) (g id : Nat) : State :=
  s.undoTasks g (4 * (s.grid g).tasks.length * (s.grid g).tasks.length + 4) [(id, true)]

/-- R296: the latest task on a core that holds versions and is later than t. -/
def Grid.victim (g : Grid) (core t : Nat) : Option Nat :=
  g.tasks.foldl (fun (b : Option Nat) e =>
    if e.2.core == core && !e.2.versions.isEmpty && g.earlier t e.1 && !e.2.nonspec then
      match b with
      | none => some e.1
      | some k => if g.earlier k e.1 then some e.1 else b
    else b) none

/-- R296: makes room for one more version line, at most `n` aborts; FALSE when the task must wait. -/
def State.makeRoom (s : State) (g core t : Nat) : Nat → Bool × State
  | 0 => (false, s)
  | n + 1 =>
    if s.versionCount core < s.versionCap core then (true, s)
    else match (s.grid g).victim core t with
      | none => (false, s)
      | some k => (s.abortTask g k).makeRoom g core t n

/-- R293, R297: does the task write a version of this line? -/
def Task.versions? (t : Task) (line : Nat) : Bool := !t.nonspec || (SMap.get {} t.versions line).mask != 0#64

/-- R293, R295-R297: task t writes n bytes; FALSE when its core has no room and it is not the frontier. -/
def State.taskWrite (s : State) (g t core pa n x cache : Nat) (bad : Bool) : Bool × State :=
  let line := pa / 64
  let tk := (s.grid g).task t
  if tk.versions? line then
    let (room, s) := if (SMap.get {} tk.versions line).mask != 0#64 then (true, s) else s.makeRoom g core t 4096
    if room then
      let tk := (s.grid g).task t
      let v := (SMap.get {} tk.versions line).store (pa % 64) n x
      (true, s.modGrid g fun gr => (gr.setTask t { tk with versions := SMap.set {} tk.versions line v }).doom t line)
    else if (s.grid g).front == some t then
      -- R296: the frontier goes on in non-speculative mode and writes memory
      let s := s.modGrid g fun gr => (gr.setTask t { gr.task t with nonspec := true, reads := [] }).doom t line
      (true, s.writePa core pa n x cache bad)
    else (false, s)
  else (true, (s.modGrid g fun gr => gr.doom t line).writePa core pa n x cache bad)

end Sys2Proof.Machine
end

