-- ==== Sys2Proof/Machine/Mem.lean ====
section
/-! DEFINITION. Memory instructions (R191-R206): the request each lane makes, its checks, the operation
issued, and how its parts perform: reads bound and landed word by word, writes, atomics. -/

namespace Sys2Proof.Machine

open Sys2Proof

/-- What one lane asks of memory. -/
structure Req where
  clm : Bool := false
  va : DWord := 0#64
  c : Nat := 0                            -- CLM address
  high : Bool := false                    -- R191: CLM address bits [31:20] not zero
  size : Nat := 4
  align : Nat := 4
  need : Need := .load
  data : Nat := 0
  data2 : Nat := 0
  scale : Option DWord := none            -- R104: a scale byte read with the element
  deriving DecidableEq, Repr, Inhabited

/-- R95, R102: the element formats of a slot: 0 F32 to 4 E5M2; 5 is O4. -/
def fmtOf : Nat → Fmt
  | 0 => .f32 | 1 => .bf16 | 2 => .f16 | 3 => .e4m3 | _ => .e5m2
/-- R104: the width of a slot's format in bits. -/
def fmtWidth (f : Nat) : Nat := if f == 5 then 4 else (fmtOf f).width
/-- R199: the size in bytes of an element access. -/
def FmtSlot.bytes (f : FmtSlot) : Nat := if f.fmt == 5 then 1 else fmtWidth f.fmt / 8
/-- R104: the address of the scale byte of the element at bit position p. -/
def FmtSlot.scaleAddr (f : FmtSlot) (p : Int) : DWord :=
  let e := (p - 8 * (f.dbase.toNat : Int)) / (fmtWidth f.fmt : Int)
  BitVec.ofInt 64 ((f.sbase.toNat : Int) + e / 2 ^ (f.blk + 4))
/-- The format slot k of a wave's launch. -/
def Grid.slot (g : Grid) (k : Nat) : FmtSlot := g.fmts.getD k {}

/-- R199: LDF or STF through an O4 slot. -/
def LOp.o4 (g : Grid) : LOp → Bool
  | .mem (.ldf _ _ k _) | .mem (.stf _ _ k _) => (g.slot k).fmt == 5
  | _ => false

/-- The words of consecutive registers as one number, the lowest first (R57). -/
def Wave.regsVal (x : Wave) (d n l : Nat) : Nat :=
  (List.range n).foldl (fun v k => v + (x.vreg (d + k) l).toNat * 2 ^ (32 * k)) 0
/-- The store data of z bytes at register d. -/
def Wave.storeVal (x : Wave) (d z l : Nat) : Nat :=
  if z < 4 then (x.vreg d l).toNat % 2 ^ (8 * z) else x.regsVal d (z / 4) l

/-- R199, R262, R283: the number a store through a slot writes, and its saturation event.  A converting copy rounds to nearest even, as STF
and ACCST do (DESIGN CHOICE, log 62). -/
def storeElem (f : FmtSlot) (x0 x1 : Word) (scale : Option Nat) : Nat × Bool :=
  let dv := fun (w : Word) => match scale with | some e => divScale (f32 w) e | none => f32 w
  if f.fmt == 5 then let (b, a0, a1) := o4Byte (dv x0) (dv x1); (b, a0 || a1)
  else convert (fmtOf f.fmt) .rne (dv x0)

/-- R199: the F32 results of a load through a slot. -/
def loadElem (f : FmtSlot) (v : Nat) (scale : Option Nat) : List Word :=
  let sc := fun (n : Num) => match scale with | some e => n.mul (e8m0 e) | none => n
  if f.fmt == 5 then [rndF32 (sc (o4Elem v 0)), rndF32 (sc (o4Elem v 1))]
  else [rndF32 (sc (value (fmtOf f.fmt) v))]

/-- A CLM request from a register value and an offset (R200). -/
def clmReq (v : Word) (off z : Nat) (need : Need) (data : Nat) : Req :=
  { clm := true, c := v.toNat % 2 ^ 20 + off, high := v.toNat / 2 ^ 20 != 0, size := z, align := z, need := need, data := data }

/-- R196-R206: the request of lane l of wave w under bundle b; a fault for the handle and slot checks (DEDUCED, log 17). -/
def State.reqOf (s : State) (w : Nat) (b : Bundle) (l : Nat) (m : MemL) : Except FaultInfo Req :=
  let x := s.wave w
  let g := s.grid x.grid
  let at_ := fun (base off : Nat) => x.vpair base l + BitVec.ofNat 64 off
  let slotReq := fun (base k n : Nat) (need : Need) (data : Nat) =>
    let f := g.slot k
    let va := at_ base (4 * n)
    if f.sk == 1 && f.ssp then Except.error (prot rFMT va.toNat)
    else Except.ok ({ va := va, size := f.bytes, align := f.bytes, need := need, data := data,
                      scale := if f.sk == 1 then some (f.scaleAddr (8 * (va.toNat : Int))) else none } : Req)
  let handleReq := fun (h m : Nat) (need : Need) (data : Nat) =>
    let o := (x.sreg m).toNat + 4 * l
    let hd := SMap.get {} (s.teamOf w).handles h
    if x.taskWave then Except.error (prot rTASK 0)
    else if hd.st == .unbound || hd.hlen < o + 4 then Except.error (prot rHANDLE (hd.hb + o))
    else Except.ok ({ clm := true, c := hd.hb + o, size := 4, align := 1, need := need, data := data } : Req)
  match m with
  | .ld z _ _ base off => .ok { va := at_ base (off * z), size := z, align := z }
  | .st z _ d base off => .ok { va := at_ base (off * z), size := z, align := z, need := .store, data := x.storeVal d z l }
  | .ldf _ base k n => slotReq base k n .load 0
  | .stf d base k n =>
    let two := (g.slot k).fmt == 5
    slotReq base k n .store ((x.vreg d l).toNat + (if two then (x.vreg (d + 1) l).toNat * 2 ^ 32 else 0))
  | .lds z _ base off => .ok (clmReq (x.vreg base l) (off * z) z .load 0)
  | .sts z d base off => .ok (clmReq (x.vreg base l) (off * z) z .store (x.storeVal d z l))
  | .ldh _ h m => handleReq h m .load 0
  | .sth d h m => handleReq h m .store (x.vreg d l).toNat
  | .atom d a wide opc =>
    let z := if wide then 8 else 4
    .ok { va := s.extVal64 w b a l, size := z, align := z, need := .store, data := x.storeVal d z l,
          data2 := if opc == 9 then x.storeVal (d + z / 4) z l else 0 }
  | .batom d a opc =>
    .ok { clmReq (s.extVal w b a l) 0 4 .store (x.vreg d l).toNat with
          data2 := if opc == 9 then (x.vreg (d + 1) l).toNat else 0 }

/-- The answer of checking a request. -/
inductive ReqChk where
  | ok (p : Part)
  | bad (f : FaultInfo)
  | walk (va : DWord) (need : Need)
  deriving DecidableEq, Repr, Inhabited

/-- R191: all checks of one request by an agent; `scratch` is the team's scratch size (DEDUCED, log 17). -/
def State.checkReq (s : State) (ag : Agent) (scratch : Nat) (r : Req) : ReqChk :=
  if r.clm then
    match checkClm scratch r.c r.size r.align r.high with
    | some f => .bad f
    | none => .ok { clm := true, pa := r.c, va := BitVec.ofNat 64 r.c, size := r.size, dom := .core, data := r.data, data2 := r.data2 }
  else
    match s.check ag r.need r.va r.align with
    | .bad f => .bad f
    | .walk va n => .walk va n
    | .ok a =>
      let own := (ag.wave.map fun w => (s.wave w).taskWave).getD false
      let p : Part := { va := r.va, pa := a.pa, size := r.size, dom := a.dom, cache := a.cache, task := a.task && own, data := r.data, data2 := r.data2 }
      match r.scale with
      | none => .ok p
      | some sa =>
        match s.check ag .load sa 1 with
        | .bad f => .bad f
        | .walk va n => .walk va n
        | .ok k => .ok { p with scaleVa := sa, scalePa := k.pa, scaleN := 1, scaleCache := k.cache, scaleTask := k.task && own }

/-- The checks of several lanes: all parts, or the first lane that fails or needs a walk (R191), and
every failing lane (R300). -/
structure LaneChk where
  parts : List Part := []
  bad : List (Nat × FaultInfo) := []
  walk : Option (Nat × DWord × Need) := none
  deriving DecidableEq, Repr, Inhabited

/-- R191: every lane is checked before any performs. -/
def checkLanes (ls : List Nat) (chk : Nat → ReqChk) : LaneChk :=
  ls.foldl (fun r l => match chk l with
    | .ok p => { r with parts := r.parts ++ [{ p with lane := l, lanes := 1#32 <<< l }] }
    | .bad f => { r with bad := r.bad ++ [(l, f)] }
    | .walk va n => { r with walk := r.walk <|> some (l, va, n) }) {}

/-- R191, R323: starts the walk a lane needs; the bundle stalls on it. -/
def State.startWalk (s : State) (w : Nat) (va : DWord) (need : Need) : Nat × State :=
  let id := s.o.next
  let core := coreOf w
  let k : Walk := { core := core, die := dieOf core, asid := (s.gridOf w).asid, va := va, write := need == .store, fetch := need == .fetch, wave := w }
  (id, { s with m := { s.m with walks := SMap.set {} s.m.walks id k }, o := { s.o with next := id + 1 } })

/-- R82: the kind of a memory operation. -/
def MemL.kind : MemL → OpKind
  | .ld .. => .ld | .st .. => .st | .ldf .. => .ldf | .stf .. => .stf
  | .lds .. => .lds | .sts .. => .sts | .ldh .. => .lds | .sth .. => .sts
  | .atom _ _ w opc => .atom w opc | .batom _ _ opc => .batom opc

/-- R232: its class. -/
def MemL.cls : MemL → Cls
  | .ld _ acq .. => if acq then .aq else .pl
  | .st _ rel .. => if rel then .rl else .pw
  | .ldf .. | .lds .. | .ldh .. => .pl
  | _ => .pw

/-- R82: does it set the first flag? -/
def MemL.isLoad : MemL → Bool
  | .ld .. | .ldf .. | .lds .. | .ldh .. => true
  | _ => false

/-- Its data register. -/
def MemL.reg : MemL → Nat
  | .ld _ _ d _ _ | .st _ _ d _ _ | .ldf d _ _ _ | .stf d _ _ _ | .lds _ d _ _ | .sts _ d _ _
  | .ldh d _ _ | .sth d _ _ | .atom d _ _ _ | .batom d _ _ => d

/-- Its format slot. -/
def MemL.slot : MemL → Nat
  | .ldf _ _ k _ | .stf _ _ k _ => k
  | _ => 0

/-- R82: the flag of a clause that an operation names. -/
def Clause.flagFor (c : Clause) (load : Bool) : Nat := if load then c.first else c.second

/-- R217: is this part, a write of a lane that has issued FENCE.REL since its last write, a release?
ST.REL is one always.  A write to CLM takes the fence's turn and performs at the bank (DEDUCED, log 22). -/
def relState (frel : Mask) (cls : Cls) (p : Part) : Rel :=
  if p.task || p.clm then .none
  else if cls == .rl || (cls == .pw && (frel &&& p.lanes) != 0#32) then .todo
  else .none

/-- R217: the parts of an operation in order, each write taking its lanes' turn: the lanes whose next
write is still a release, and the parts. -/
def relParts (cls : Cls) (frel : Mask) : List Part → Mask × List Part
  | [] => (frel, [])
  | p :: ps =>
    let r := relParts cls (if cls == .pw || cls == .rl then frel &&& ~~~p.lanes else frel) ps
    (r.1, { p with rel := relState frel cls p } :: r.2)

/-- R82, R217, R236: issues an operation of wave `o.wave` that stands in the program order of waves `ws`. -/
def State.issueRel (s : State) (ws : List Nat) (o : Op) : State :=
  if o.sc == .lane then
    let r := relParts o.cls (s.wave o.wave).frel o.parts
    ((s.modWave o.wave fun x => { x with frel := r.1 }).issueOp ws { o with parts := r.2 }).2
  else
    -- at a wider scope the write stands in the program order of every lane of the group
    let due := ws.any fun w => ((s.wave w).frel &&& o.lanesIn {} w) != 0#32
    let s := if o.cls == .pw || o.cls == .rl then ws.foldl (fun (s : State) w => s.modWave w fun x => { x with frel := x.frel &&& ~~~o.lanesIn {} w }) s else s
    (s.issueOp ws { o with parts := o.parts.map fun p => { p with rel := relState (if due then p.lanes else 0#32) o.cls p } }).2

/-- R108, R199: converts at issue through a slot with no scale; each saturating lane sets SATF. -/
def stfAtIssue (f : FmtSlot) (p : Part) : Part × Bool :=
  if f.sk == 1 then (p, false)
  else
    let (v, sat) := storeElem f (BitVec.ofNat 32 p.data) (BitVec.ofNat 32 (p.data / 2 ^ 32)) none
    ({ p with data := v }, sat)

/-- Issues a memory operation whose parts have passed every check.  `dsts` gives the lanes that
receive each part's result; `ws` the member waves; `fl` the flags counted; `group` the lanes of a WAVE-scope group. -/
def State.issueMem (s : State) (w : Nat) (ws : List Nat) (pc : DWord) (sc : Scope) (sset : Nat) (m : MemL)
    (parts : List Part) (fl : List (Nat × Nat)) (group : Mask := 0xFFFFFFFF#32) : State :=
  let x := s.wave w
  let g := s.grid x.grid
  let conv := parts.map fun p => match m with
    | .stf _ _ k _ => stfAtIssue (g.slot k) p
    | _ => (p, false)
  let sat := conv.any fun e => e.2
  let s := if sat then s.modWave w fun y => { y with satf := true } else s
  s.issueRel ws { wave := w, core := coreOf w, pc := pc, cls := m.cls, kind := m.kind, sc := sc, sset := sset, group := group,
                  flags := fl, parts := conv.map fun e => e.1, fmt := m.slot }

/-- R193: the destinations of a part: every (wave, lane) that receives the result. -/
def Part.to (p : Part) (w reg : Nat) (dst : List (Nat × Nat)) : Part := { p with wave := w, reg := reg, dst := dst }

/-- R204: a 64-bit or 32-bit two's complement value. -/
def signedOf (z v : Nat) : Int := (BitVec.ofNat (8 * z) v).toInt

/-- R205: the new value of an atomic on z bytes. -/
def atomVal (opc z old data new : Nat) : Nat :=
  let md := 2 ^ (8 * z)
  match opc with
  | 0 => (old + data) % md
  | 1 => if signedOf z old ≤ signedOf z data then old else data
  | 2 => Nat.min old data
  | 3 => if signedOf z data ≤ signedOf z old then old else data
  | 4 => Nat.max old data
  | 5 => Nat.land old data
  | 6 => Nat.lor old data
  | 7 => Nat.xor old data
  | 8 => data
  | 9 => if old == data then new else old
  | 10 => (addF32 (BitVec.ofNat 32 old) (BitVec.ofNat 32 data)).toNat
  | _ => (bf16x2 (fun a b _ => a.add b) (BitVec.ofNat 32 old) (BitVec.ofNat 32 data) 0#32).toNat

/-- R205: CAS with an unequal value writes nothing (DEDUCED, log 19). -/
def atomWrites (opc old data : Nat) : Bool := opc != 9 || old == data

/-- The task whose accesses a part makes, for a TASK region in a task wave (R292-R294). -/
def State.partTask (s : State) (o : Op) (p : Part) : Option (Nat × Nat) :=
  let x := s.wave o.wave
  if p.task && x.taskWave then ((x.lane p.lane).task).map fun t => (x.grid, t) else none

/-- Reads n bytes for a part at an address of its space, with poison; another core that holds the line exclusively gives it up. -/
def State.partRead (s : State) (o : Op) (p : Part) (pa n : Nat) : (Nat × Bool) × State :=
  if p.clm then ((s.teamOf o.wave).readClm pa n, s)
  else
    let s := s.yieldLine (some o.core) (pa / 64)
    match s.partTask o p with
    | some (g, t) => let r := s.taskRead g t o.core pa n; (r, s.noteRead g t pa n)
    | none => (s.readPa (some o.core) pa n, s)

/-- R104, R294: reads the scale byte of an element, as its load or store reads memory. -/
def State.scaleRead (s : State) (o : Op) (p : Part) : (Nat × Bool) × State :=
  s.partRead o { p with clm := false, task := p.scaleTask } p.scalePa 1

/-- Writes n bytes for a part; FALSE when a task has no room for the version (R296). -/
def State.partWrite (s : State) (o : Op) (p : Part) (n v : Nat) (bad : Bool) : Bool × State :=
  if p.clm then (true, s.modTeam (s.teamKey o.wave) fun t => t.writeClm p.pa n v bad)
  else match s.partTask o p with
    | some (g, t) => s.taskWrite g t o.core p.pa n v p.cache bad
    | none =>
      -- R291: a lane whose task was aborted, discarded or stopped writes nothing any more
      if p.task && (s.wave o.wave).taskWave then (true, s) else (true, s.writePa o.core p.pa n v p.cache bad)

/-- The granules of a part's access: 8 bytes, or the whole of a smaller one (R214). -/
def Part.granules (p : Part) : Nat := (p.size + 7) / 8
/-- R196: the number of destination words. -/
def Part.words (p : Part) : Nat := (p.size + 3) / 4

/-- Does a bit of a number stand? -/
def hasBit (n i : Nat) : Bool := n / 2 ^ i % 2 == 1
/-- A number with bit i set. -/
def withBit (n i : Nat) : Nat := if hasBit n i then n else n + 2 ^ i

/-- R192: the offset of the first poisoned word among the n bytes a part reads at an address. -/
def State.poisonAt (s : State) (o : Op) (p : Part) (pa n : Nat) : Nat :=
  (((List.range (n / 4)).find? fun i => (s.partRead o p (pa + 4 * i) 4).1.2).getD 0) * 4

/-- R214, R225: binds granule k of a read. -/
def State.bindGranule (s : State) (id i k : Nat) : State :=
  let o := s.op id
  let p := o.parts.getD i {}
  let n := Nat.min 8 (p.size - 8 * k)
  let ((v, bad), s) := s.partRead o p (p.pa + 8 * k) n
  let off := if bad then 8 * k + s.poisonAt o p (p.pa + 8 * k) n else 0
  s.modPart id i fun q => { q with
    val := some (q.val.getD 0 + v * 2 ^ (64 * k)), bound := withBit q.bound k, hurt := q.hurt || bad
    hurtAt := if bad && q.hurt then Nat.min q.hurtAt off else if bad then off else q.hurtAt }

/-- Writes one word to every destination of a part; "lane" 32 stands for the wave's uniform registers. -/
def State.landWord (s : State) (p : Part) (k : Nat) (v : Word) : State :=
  p.dst.foldl (fun s e => s.modWave e.1 fun x => if e.2 == 32 then x.setS (p.reg + k) v else x.setV (p.reg + k) e.2 v) s

/-- Writes every word of an old value to the destinations of a part (R205). -/
def State.landAll (s : State) (p : Part) (old : Nat) : State :=
  (List.range (p.size / 4)).foldl (fun (s : State) k => s.landWord p k (BitVec.ofNat 32 (old / 2 ^ (32 * k)))) s

/-- R192, R316: what ECCU reports of a part that met poison (DEDUCED, log 16). -/
def Part.eccu (p : Part) : FaultInfo :=
  { code := cECCU, reason := 0, addr := if p.scaleBad then p.scaleVa.toNat else p.va.toNat + p.hurtAt
    paddr := if p.clm then 0 else if p.scaleBad then p.scalePa else p.pa + p.hurtAt }

/-- The part of the lowest lane, the first of that lane (DEDUCED, log 16). -/
def lowestPart : List Part → Option Part
  | [] => none
  | p :: ps => match lowestPart ps with
    | none => some p
    | some q => if q.lane < p.lane then some q else some p

/-- R192, R300: the parts that met poison raise ECCU, once for an operation whose parts have all performed; it names
the lowest lane.  Speculative tasks stop instead, and a lane whose task has gone reads nothing (R291). -/
def State.raiseEccu (s : State) (id : Nat) : State :=
  let o := s.op id
  let hs := if o.arrived then o.parts.filter fun p => p.hurt else []
  match hs with
  | [] => s
  | p :: _ =>
    match o.sc with
    | .set | .team => s.sysFault (o.pos.map fun e => e.1) (if o.sc == .set then 1 else 2) o.wave p.lane o.pc p.eccu
    | _ =>
      let x := s.wave o.wave
      let sp := s.specLanes o.wave (maskOf (hs.map fun q => q.lane))
      let s := if sp == 0#32 then s else s.stopTasks o.wave sp
      match lowestPart (hs.filter fun q => !(x.taskWave && (hasLane sp q.lane || (x.lane q.lane).task.isNone))) with
      | none => s
      | some q => s.sysFault [o.wave] 0 o.wave q.lane o.pc q.eccu

/-- R225, R229: the clock message a read of a core receives: data returned by the home slice, or by what lies below it, unless its
own L1 holds the line. -/
def State.readLt (s : State) (core : Nat) (p : Part) : Option Nat :=
  if p.clm || (s.l1Line core (p.pa / 64)).valid then none else some (s.clockOf (s.baseChecker (p.pa / 64)))

/-- R230: a read takes its PLT when its data arrives. -/
def State.stampRead (s : State) (id i : Nat) : State :=
  let p := (s.op id).parts.getD i {}
  if p.plt.isSome then s else s.stamp id i (s.readLt (s.op id).core p)

/-- R192: a read whose last word is written (or whose data is poisoned) ends. -/
def State.finishRead (s : State) (id i : Nat) : State :=
  let s := (s.stampRead id i).raiseEccu id
  let s := if (s.op id).arrived && (s.op id).kind != .jtab then s.completeOp id else s
  s.afterPerform id

/-- R192, R196: data of a load arrives for part i: the granule that holds the word is bound where it is
not; then, all granules bound, the read takes its PLT and the word is written, so that what depends on a word is stamped
after the read (R234).  Poisoned data writes nothing. -/
def State.arrive (s : State) (id i word : Nat) : State :=
  let p := (s.op id).parts.getD i {}
  if p.words ≤ word || hasBit p.landed word then s
  else
    let s := if hasBit p.bound (word / 2) then s else s.bindGranule id i (word / 2)
    let p := (s.op id).parts.getD i {}
    if p.bound + 1 == 2 ^ p.granules then
      if p.hurt then s.finishRead id i
      else
        let s := (s.stampRead id i).landWord p word (BitVec.ofNat 32 (p.val.getD 0 / 2 ^ (32 * word)))
        let s := s.modPart id i fun q => { q with landed := withBit q.landed word }
        if ((s.op id).parts.getD i {}).landed + 1 == 2 ^ p.words then s.finishRead id i else s.afterPerform id
    else s

/-- R199: the element and its scale byte arrive together for LDF. -/
def State.arriveElem (s : State) (id i : Nat) : State :=
  let o := s.op id
  let p := o.parts.getD i {}
  let f := (s.gridOf o.wave).slot o.fmt
  let ((v, bad), s) := s.partRead o p p.pa p.size
  let (sc, sbad, s) := if f.sk == 1 then let ((e, b), s) := s.scaleRead o p; (some e, b, s) else (none, false, s)
  let s := s.modPart id i fun q => { q with hurt := bad || sbad, scaleBad := sbad && !bad }
  if bad || sbad then s.finishRead id i
  else
    let ws := loadElem f v sc
    let s := (List.range ws.length).foldl (fun s k => s.landWord p k (ws.getD k 0#32)) s
    s.finishRead id i

/-- A part that is no read has come to its end: the operation completes when all parts have (R82). -/
def State.endPart (s : State) (id : Nat) : State :=
  let s := s.raiseEccu id
  let s := if (s.op id).performed then s.completeOp id else s
  s.afterPerform id

/-- A write or RMW has performed: it is stamped (a perform notice carries no clock: R229). -/
def State.finishWrite (s : State) (id i : Nat) : State := (s.stamp id i none).endPart id

/-- R229: a part that stands for no event of the core is over: the clock does not advance. -/
def State.markSilent (s : State) (id i : Nat) : State := s.modPart id i fun p => { p with plt := some (s.core (s.op id).core).lt }

/-- R229: such a part comes to its end. -/
def State.endSilent (s : State) (id i : Nat) : State := (s.markSilent id i).endPart id

/-- R246: the injected store has performed: FIRED sets, and ARM clears where the register has not been armed anew (DEDUCED, log 47). -/
def State.firDone (s : State) (o : Op) (p : Part) : State :=
  if p.ready != 0 then
    let s := s.setDev 0x403 ((if o.arm == s.reg.firArm then s.dev 0x403 &&& ~~~1#32 else s.dev 0x403) ||| 4#32)
    { s with reg := { s.reg with firFired := Nat.max s.reg.firFired o.arm } }
  else s

/-- R296, R151: the storing lane stalls until its task is the frontier: its bundle keeps it to the end of the clause, and it
starts no other (DEDUCED, log 15). -/
def State.stallTask (s : State) (o : Op) (p : Part) : State :=
  s.modWave o.wave fun x => { x with stuck := setBit x.stuck p.lane true }

/-- R296: the stall ends. -/
def State.unstallTask (s : State) (o : Op) (p : Part) : State :=
  s.modWave o.wave fun x => { x with stuck := setBit x.stuck p.lane false }

/-- R199: does a store convert when its scale byte arrives? -/
def State.scaledStore (s : State) (o : Op) : Bool := o.kind == .stf && ((s.gridOf o.wave).slot o.fmt).sk == 1

/-- R199, R108: the scale byte of an STF part arrives: its element is converted.  A poisoned scale byte makes the data poisoned
(R33), and what it would saturate is no event (DESIGN CHOICE, log 51). -/
def State.stfConvert (s : State) (id i : Nat) : State :=
  let o := s.op id
  let p := o.parts.getD i {}
  if !s.scaledStore o || p.bound == 1 then s
  else
    let ((e, bad), s) := s.scaleRead o p
    let r := storeElem ((s.gridOf o.wave).slot o.fmt) (BitVec.ofNat 32 p.data) (BitVec.ofNat 32 (p.data / 2 ^ 32)) (some e)
    let s := s.modPart id i fun q => { q with data := r.1, bound := 1, hurt := bad, scaleBad := bad }
    if r.2 && !bad then s.modWave o.wave fun x => { x with satf := true } else s

/-- R194: an STF part may write once the scale bytes of all its lanes have been read. -/
def State.stfReady (s : State) (id : Nat) : Bool := !s.scaledStore (s.op id) || (s.op id).parts.all fun q => q.bound == 1

/-- R225: a plain store of a part performs; an STF part with a scale has its scale byte read first. -/
def State.performStore (s : State) (id i : Nat) : State :=
  let o := s.op id
  let p := o.parts.getD i {}
  if s.scaledStore o && p.bound != 1 then s.stfConvert id i
  else if !s.stfReady id then s
  else
    let (ok, s) := s.partWrite o p p.size p.data p.scaleBad
    if ok then ((s.unstallTask o p).firDone o p).finishWrite id i
    else s.stallTask o p

/-- R205: the atomic of a CACHE 00 region performs in its core's L1, which takes the line exclusively first. -/
def State.ownFor (s : State) (o : Op) (p : Part) : State :=
  if 256 ≤ o.core || p.clm || p.cache != 0 || (s.partTask o p).isSome || s.owner (p.pa / 64) == some o.core then s
  else
    let s := s.gainL1 o.core (p.pa / 64) true
    s.setL1 o.core (p.pa / 64) { s.l1Line o.core (p.pa / 64) with tenant := (s.grid o.grid).tenant }

/-- R205, R206: an atomic of a part performs: one indivisible read and write (DEDUCED, log 19). -/
def State.performAtom (s : State) (id i opc : Nat) : State :=
  let o := s.op id
  let p := o.parts.getD i {}
  let s := s.ownFor o p
  let ((old, bad), s) := s.partRead o p p.pa p.size
  if bad then (s.modPart id i fun q => { q with hurt := true, hurtAt := s.poisonAt o p p.pa p.size }).finishWrite id i
  else
    let (ok, s) := if atomWrites opc old p.data then s.partWrite o p p.size (atomVal opc p.size old p.data p.data2) false else (true, s)
    if ok then
      let s := s.landAll p old
      (s.unstallTask o p).finishWrite id i
    else s.stallTask o p

/-- R226: the value a release writes at its provisional perform, and its poison; an atomic's old value is
bound and written to its destination. -/
def State.provValue (s : State) (o : Op) (p : Part) : Nat × Bool × State :=
  match o.kind with
  | .atom _ opc =>
    let (old, bad) := s.readPa (some o.core) p.pa p.size
    (atomVal opc p.size old p.data p.data2, bad, if bad then s else s.landAll p old)
  | .accflush | .accdet =>
    let (old, bad) := s.readPa none p.pa p.size
    ((addF32 (BitVec.ofNat 32 old) (BitVec.ofNat 32 p.data)).toNat, bad || p.scaleBad, s)
  | _ => (p.data, p.scaleBad, s)

/-- R226: a release performs provisionally at its home.  An atomic that meets poisoned data writes nothing
(R192). -/
def State.performProvisional (s : State) (id i : Nat) : State :=
  let o := s.op id
  let p := o.parts.getD i {}
  if s.scaledStore o && p.bound != 1 then s.stfConvert id i
  else if !s.stfReady id then s
  else
  let (v, bad, s) := (s.recall (p.pa / 64) none).provValue o p
  let acc := o.kind == .accflush || o.kind == .accdet
  let s := if bad && !acc then s.modPart id i fun q => { q with hurt := true, hurtAt := s.poisonAt o p p.pa p.size } else s
  let void := bad && !acc && o.kind != .stf
  let s := if void then s else { s with m := { s.m with prov := s.m.prov ++
    [({ op := id, part := i, core := o.core, pa := p.pa, size := p.size, val := v, bad := bad } : Prov)] } }
  ((s.firDone o p).modPart id i fun q => { q with rel := if void then .complete else .prov }).finishWrite id i

/-- R227: a release completes: its value becomes the line's, readable by every agent. -/
def State.completeRelease (s : State) (id i : Nat) : State :=
  let p := (s.op id).parts.getD i {}
  match s.m.prov.find? (fun q => q.op == id && q.part == i) with
  | none => s
  | some q =>
    let s := { s with m := { s.m with prov := s.m.prov.filter fun r => !(r.op == id && r.part == i) } }
    let s := s.writeHome q.pa q.size q.val p.cache q.bad
    (s.modPart id i fun r => { r with rel := .complete }).sweepOps

/-- R337: the operations that are compared before they perform. -/
def OpKind.compared : OpKind → Bool
  | .st | .stf | .sts | .ust | .stm | .atom _ _ | .batom _ | .accst | .accflush | .accdet => true
  | _ => false

/-- R339: the operation of part `i` is stopped: what has not performed ends without effect, lines that it wrote before are poisoned,
and the mismatch is contained (DESIGN CHOICE, log 64). -/
def State.stopOp (s : State) (id i : Nat) : State :=
  let o := s.op id
  let p := o.parts.getD i {}
  let lines := ((o.parts.filter fun q => q.plt.isSome && !q.clm && q.size != 0).map fun q => q.pa / 64).eraseDups
  let s := lines.foldl (fun (s : State) line => s.poisonLine line) s
  let s := (List.range o.parts.length).foldl (fun (s : State) k =>
    if ((s.op id).parts.getD k {}).plt.isSome then s
    else (s.modPart id k fun q => { q with rel := if q.rel == .todo then .discarded else q.rel }).finishWrite id k) s
  s.containShadow (o.pos.map fun k => k.1) none p.line ((if lines.isEmpty then 0 else 2) + (if p.clm then 8 else 0)) o.pc

/-- R337: a part performs by `f`, once its operation has been compared with the shadow's. -/
def State.compared (s : State) (id i : Nat) (f : State → State) : State :=
  let o := s.op id
  if o.kind.compared && s.differs id i then s.stopOp id i else f s

end Sys2Proof.Machine
end

