-- ==== Sys2Proof/Machine/CopyShape.lean ====
section
/-! DEFINITION. Copies and handles as data (R248-R259): handle rings, the shape record, the elements of a copy, and what the next access of
the engine asks of memory (R186, R214, R262). -/

namespace Sys2Proof.Machine

open Sys2Proof

/-- A handle of a team. -/
def Team.handle (t : Team) (h : Nat) : Handle := SMap.get {} t.handles h
/-- Writes a handle. -/
def Team.setHandle (t : Team) (h : Nat) (x : Handle) : Team := { t with handles := SMap.set {} t.handles h x }
/-- R248: the first handle of the ring of h. -/
def Team.ringFirst (t : Team) (h : Nat) : Nat := (t.handle h).first.getD h
/-- R248: the ring of h is a ring of one. -/
def Team.ringOne (t : Team) (h : Nat) : Bool := (t.handle h).count == 1
/-- R248: the handle at PCUR of the ring of h. -/
def Team.ringCur (t : Team) (h : Nat) : Nat := let f := t.ringFirst h; f + (t.handle f).pcur

/-- R249: a fill is assigned to the handle at PCUR of its ring. -/
def Team.assignFill (t : Team) (h : Nat) : Team :=
  let f := t.ringFirst h
  let r := t.handle f
  let t := t.setHandle h { t.handle h with fph := r.pph }
  let r := t.handle f
  t.setHandle f (if r.pcur + 1 == r.count then { r with pcur := 0, pph := !r.pph } else { r with pcur := r.pcur + 1 })

/-- R265 UNBIND: the other members of the ring of h become rings of one, the next fill of each taking
the phase opposite to its latest. -/
def Team.breakRing (t : Team) (h : Nat) : Team :=
  let f := t.ringFirst h
  let n := (t.handle f).count
  if n == 1 then t
  else (List.range n).foldl (fun t k =>
    if f + k == h then t
    else let x := t.handle (f + k)
      t.setHandle (f + k) { x with first := none, count := 1, pcur := 0, pph := !x.fph }) t

/-- Changes the team of a wave. -/
def State.modTeamOf (s : State) (w : Nat) (f : Team → Team) : State := s.modTeam (s.teamKey w) f

/-- R267: an HFREE performs: a FULL handle of its phase becomes FREE. -/
def Team.freeHandle (t : Team) (h : Nat) (p : Bool) : Team :=
  if (t.handle h).st == .full && (t.handle h).fph == p then t.setHandle h { t.handle h with st := .free } else t

/-- R266: notes for the lanes of a wave that wait at a handle that the awaited state holds (DEDUCED, log 27). -/
def Wave.noteHwait (x : Wave) (t : Team) : Wave :=
  (List.range 32).foldl (fun x l =>
    let ln := x.lane l
    match ln.st with
    | .waiting (.hwait h full p false) =>
      let hd := t.handle h
      if (if full then hd.st == .full && hd.fph == p else hd.st == .free) then x.setLane l { ln with st := .waiting (.hwait h full p true) } else x
    | _ => x) x

/-- R253: the shape record as read, 128 bytes. -/
def recField (bs : List Byte) (off n : Nat) : Nat := leNat ((bs.drop off).take n)

/-- R252: CTL fields. -/
def Copy.esz (c : Copy) : Nat := 2 ^ (c.ctl.toNat % 8)
/-- R252. -/
def Copy.rank (c : Copy) : Nat := c.ctl.toNat / 8 % 8
/-- R252. -/
def Copy.permit (c : Copy) : Bool := c.ctl.getLsbD 6
/-- R252. -/
def Copy.cvt (c : Copy) : Bool := c.ctl.getLsbD 7
/-- R252. -/
def Copy.fslot (c : Copy) : Nat := c.ctl.toNat / 2 ^ 8 % 8
/-- R252. -/
def Copy.rhField (c : Copy) : Nat := c.ctl.toNat / 2 ^ 11 % 64
/-- R252. -/
def Copy.rnext (c : Copy) : Bool := c.ctl.getLsbD 17
/-- R256: the size of an element in the handle. -/
def Copy.hsz (c : Copy) : Nat := if c.dir == 3 || (c.dir == 1 && c.cvt) then 4 else c.esz
/-- R257: the elements of a slice. -/
def Copy.perSlice (c : Copy) : Nat := c.boxes.foldl (· * ·) 1
/-- R256: the slice size in bytes. -/
def Copy.sliceSize (c : Copy) : Nat := c.hsz * c.perSlice
/-- R264: the elements of the copy. -/
def Copy.total (c : Copy) : Nat := c.perSlice * c.members.length
/-- R262: the slot's format of a converting store. -/
def State.copyFmt (s : State) (c : Copy) : FmtSlot := (s.grid c.grid).slot c.fslot
/-- R262: a store that forms O4 pairs. -/
def State.copyO4 (s : State) (c : Copy) : Bool := c.dir == 1 && c.cvt && (s.copyFmt c).fmt == 5

/-- R252: a copy from its record; indices at RANK and above count as DIM 1, BOX 1, STRIDE 0. -/
def copyOfRecord (bs : List Byte) (c : Copy) : Copy :=
  let ctl := BitVec.ofNat 32 (recField bs 8 4)
  let r := ctl.toNat / 8 % 8
  let pick := fun (off n d : Nat) => (List.range 5).map fun i => if i < r then recField bs (off + n * i) n else d
  { c with
    base := BitVec.ofNat 64 (recField bs 0 8), ctl := ctl, rteam := recField bs 0x0C 2,
    fill := BitVec.ofNat 64 (recField bs 0x10 8), dims := pick 0x18 4 1, boxes := pick 0x2C 4 1,
    strides := (pick 0x40 8 0).map fun v => (BitVec.ofNat 64 v).toInt }

/-- R257: the indices of element e: its slice, and the element's index in each dimension. -/
def Copy.indices (c : Copy) (e : Nat) : Nat × List Nat :=
  let k := e / c.perSlice
  let r := e % c.perSlice
  (k, ((List.range 5).foldl (fun (a : List Nat × Nat) i =>
    let b := c.boxes.getD i 1
    (a.1 ++ [a.2 % b], a.2 / b)) ([], r)).1)

/-- R258: an element's coordinates. -/
def Copy.coordsOf (c : Copy) (e : Nat) : List Int :=
  let (k, js) := c.indices e
  (List.range 5).map fun i => (c.coords.getD k []).getD i 0 + (js.getD i 0 : Nat)

/-- R258: in bounds. -/
def Copy.inBounds (c : Copy) (e : Nat) : Bool :=
  (List.range c.rank).all fun i => let x := (c.coordsOf e).getD i 0; 0 ≤ x && x < ((c.dims.getD i 1 : Nat) : Int)

/-- R259: the byte address of element e; for an O4 slot, of the byte that holds it. -/
def State.elemAddr (s : State) (c : Copy) (e : Nat) : DWord :=
  let xs := c.coordsOf e
  let o4 := s.copyO4 c
  BitVec.ofInt 64 ((List.range c.rank).foldl (fun a i =>
    a + (if o4 && i == 0 then xs.getD 0 0 / 2 else xs.getD i 0 * c.strides.getD i 0)) c.base.toInt)

/-- R257: the offset of element e in the handle. -/
def Copy.offset (c : Copy) (e : Nat) : Nat := c.hsz * e

/-- R262: the elements moved together as one: an O4 pair, or one. -/
def State.copyStep (s : State) (c : Copy) : Nat := if s.copyO4 c then 2 else 1

/-- R262: the element that step i of the engine's next access begins with. -/
def State.stepAt (s : State) (c : Copy) (i : Nat) : Nat := c.moved + s.copyStep c * i

/-- R214: the aligned word of memory of an element. -/
def State.memWord (s : State) (c : Copy) (e : Nat) : Option Nat :=
  if c.dir == 2 || !c.inBounds e then none else some ((s.elemAddr c e).toNat / 4)

/-- R186: the aligned word of its handle. -/
def Copy.handleWord (c : Copy) (e : Nat) : Nat := c.offset e / 4

/-- R214: are two elements read in one event: in the same word of memory by a load, else of the handle? -/
def State.oneRead (s : State) (c : Copy) (a b : Nat) : Bool :=
  if c.dir == 0 then (s.memWord c a).isSome && s.memWord c a == s.memWord c b else c.handleWord a == c.handleWord b

/-- R214: are two elements written in one event?  An accumulate makes one for each (R262). -/
def State.oneWrite (s : State) (c : Copy) (a b : Nat) : Bool :=
  if c.dir == 0 || c.dir == 2 then c.handleWord a == c.handleWord b
  else c.dir == 1 && (s.memWord c a).isSome && s.memWord c a == s.memWord c b

/-- R186, R214: the steps of the engine's next write: those that begin in one aligned word of what it writes (DEDUCED, log 24). -/
def State.copySpan (s : State) (c : Copy) : Nat :=
  ((List.range 4).takeWhile fun i => i == 0 || (s.stepAt c i < c.total && s.oneWrite c c.moved (s.stepAt c i))).length

/-- R186, R214: the steps that must have been read before n are written: a word is read whole, and what is read ahead of the write
is kept (DEDUCED, log 24). -/
def State.copyReads (s : State) (c : Copy) (n : Nat) : Nat :=
  if n ≤ c.ahead.length then c.ahead.length
  else n + ((List.range 4).takeWhile fun i => s.stepAt c (n + i) < c.total && s.oneRead c (s.stepAt c (n - 1)) (s.stepAt c (n + i))).length

/-- R262: what a step asks of memory: address, bytes, and whether it writes; the scale byte of a converting store comes first. -/
def State.stepUses (s : State) (c : Copy) (i : Nat) : List (DWord × Nat × Bool) :=
  let f := s.copyFmt c
  let e := s.stepAt c i
  let va := s.elemAddr c e
  if c.dir == 2 || !c.inBounds e then []
  else (if c.dir == 1 && c.cvt && f.sk == 1 && !f.ssp then [(f.scaleAddr (8 * (va.toNat : Int)), 1, false)] else []) ++
    [(va, if s.copyO4 c then 1 else c.esz, c.dir != 0)]

/-- R220: the copy engine of a core as an agent, for a copy. -/
def State.engineOf (s : State) (id : Nat) : Agent :=
  let c := s.copy id
  let g := s.grid c.grid
  { core := some (c.team / 8), die := dieOf (c.team / 8), asid := g.asid, tenant := g.tenant, engine := true, copy := id }

/-- R191: the checks of one use. -/
def State.useChk (s : State) (id : Nat) (u : DWord × Nat × Bool) : Chk := s.check (s.engineOf id) (if u.2.2 then .store else .load) u.1 0

/-- R262, R264: the fault of a step: the slot check of R104 first, then the checks of its uses (DESIGN CHOICE, log 62). -/
def State.stepFault (s : State) (id i : Nat) : Option FaultInfo :=
  let c := s.copy id
  let va := s.elemAddr c (s.stepAt c i)
  if c.dir == 1 && c.cvt && c.inBounds (s.stepAt c i) && (s.copyFmt c).sk == 1 && (s.copyFmt c).ssp then some (prot rFMT va.toNat)
  else (s.stepUses c i).findSome? fun u => match s.useChk id u with
    | .bad f => some f
    -- R262: an accumulate into a DOMAIN or HOST region
    | .ok a => if c.dir == 3 && (a.dom == .domain || a.dom == .host) then some { code := cDOMAIN, addr := u.1.toNat, paddr := a.pa } else none
    | .walk _ _ => none

/-- R323: the walk that a step needs first. -/
def State.stepWalk (s : State) (id i : Nat) : Option (DWord × Need) :=
  (s.stepUses (s.copy id) i).findSome? fun u => match s.useChk id u with
    | .walk va need => some (va, need)
    | _ => none

/-- R264: the steps that the next access moves: those of its write before one that faults. -/
def State.movesNow (s : State) (id : Nat) : Nat :=
  let c := s.copy id
  ((List.range (s.copySpan c)).takeWhile fun i => (c.dir == 0 && i < c.ahead.length) || (s.stepFault id i).isNone).length

/-- R262: the steps that are read when the next access has read. -/
def State.readTo (s : State) (id : Nat) : Nat :=
  let c := s.copy id
  let n := s.movesNow id
  if n < s.copySpan c then Nat.max n c.ahead.length else s.copyReads c n

/-- R262: the steps whose uses the next access makes: a load those it reads, a store those it writes. -/
def State.accessSteps (s : State) (id : Nat) : List Nat :=
  if (s.copy id).dir == 0 then (List.range (s.readTo id)).drop (s.copy id).ahead.length else List.range (s.movesNow id)

/-- R262, R191: their accesses of memory: what the checks pass, the bytes, and whether they write. -/
def State.accessUses (s : State) (id : Nat) : List (Access × Nat × Bool) :=
  ((s.accessSteps id).flatMap (s.stepUses (s.copy id))).filterMap fun u => match s.useChk id u with
    | .ok a => some (a, u.2)
    | _ => none

/-- R335: the bytes an engine moves with some steps; an element out of bounds moves none (DEDUCED, log 52). -/
def State.moveBytes (s : State) (c : Copy) (n : Nat) : Nat :=
  if c.dir == 2 then n * c.esz
  else (((List.range n).map fun i => if c.inBounds (s.stepAt c i) then (if s.copyO4 c then 1 else c.esz) else 0).foldl (· + ·) 0)

/-- R261: the links a push crosses. -/
def Copy.pushLinks (c : Copy) : List Nat := if c.dir == 2 then dieHop (dieOf (c.team / 8)) (dieOf (c.rteamKey / 8)) else []

end Sys2Proof.Machine
end

