-- ==== Sys2Proof/Machine/Access.lean ====
section
/-! DEFINITION. What a request meets on its way to a line (R29-R31, R34, R40, R45, R335, R336): a map change, its links and
their allowances and turns, the host's copy, the memory controller; and the requests of the agents that are no core (DESIGN CHOICE, log 63). -/

namespace Sys2Proof.Machine

open Sys2Proof

/-- Who asks for a line, by key: part i of an operation. -/
def askPart (id i : Nat) : Nat := 5 * (2 ^ 20 * id + i)
/-- The engine of a copy. -/
def askCopy (id : Nat) : Nat := 5 * id + 1
/-- A walk. -/
def askWalk (id : Nat) : Nat := 5 * id + 2
/-- A miss. -/
def askMiss (id : Nat) : Nat := 5 * id + 3
/-- An agent that is no core, by what it does and for whom: 0 the launch processors' taking of a record, 1 their making code fetchable,
2 staging a team, 3 ending a launch, 4 posting a tenant's records, 5 saving, 6 restoring, 7 reading the record of a wave's COPY, 8 a wave's
region words, 9 an L1's write-back, 10 a slice's, 11 the host, 12 a map change, 13 retiring a slice (DESIGN CHOICE, log 63). -/
def askAgent (kind id : Nat) : Nat := 5 * (16 * id + kind) + 4

/-- R190: the core's L1 serves the request. -/
def State.inL1 (s : State) (a : Ask) : Bool :=
  a.cache == 0 && (match a.core with | some c => (s.l1Line c a.line).valid && (!a.write || (s.l1Line c a.line).excl) | none => false)

/-- R30: a controller has served the request. -/
def State.wasServed (s : State) (a : Ask) : Bool := s.m.served.contains (a.key, a.line)

/-- R30: the request needs no controller: the line is not in this package's HBM, or a cache holds it, or it has been served. -/
def State.hbmDone (s : State) (a : Ask) : Bool :=
  !a.data || !s.ownHbm (64 * a.line) || s.inL1 a || (a.cache != 2 && (s.llcLine a.line).valid) || s.wasServed a

/-- R29: a controller has accepted, or served, a request of this requester in a region. -/
def State.accepted (s : State) (key region : Nat) : Bool :=
  (s.m.served.any fun e => e.1 == key && s.inRegion region e.2) || s.pk.ctrls.any fun e => e.2.queue.any fun q => q.waiter == some key && s.inRegion region q.line

/-- R29 step 1: a map change holds new accesses to its region. -/
def State.mapHolds (s : State) (a : Ask) : Bool :=
  a.sort != .back && (match s.reg.mapLoad with | some v => s.inRegion v.region a.line && !s.accepted a.key v.region | none => false)

/-- The links of a request. -/
def State.askLinks (s : State) (a : Ask) : List Nat := if s.inL1 a then [] else s.linksTo a.die a.line (a.cache == 2)

/-- R336: may a tenant's bytes of a kind move now?  Traffic of nobody always may (DESIGN CHOICE, log 63). -/
def State.canMove (s : State) (t kind n : Nat) : Bool := 32 ≤ t || s.canPayBytes t kind n

/-- R34, R336: the request may enter a link, as far as the link and the allowance go; one that finds a link down waits until
the link is up again (DESIGN CHOICE, log 33). -/
def State.linkOpen (s : State) (a : Ask) (l : Nat) : Bool := s.linkIsUp l && s.canMove a.tenant (linkKind l) a.bytes

/-- R40: the host holds a line that a request is to write. -/
def State.hostHolds (s : State) (a : Ask) : Bool := a.write && a.sort == .access && s.m.hostLines.contains a.line

/-- The request may go, but for its turn at its links.  A write waits until the host has given the line back (R40), and none goes while
parts are in reset (R47). -/
def State.askOpen (s : State) (a : Ask) : Bool :=
  !s.mapHolds a && s.hbmDone a && !s.hostHolds a && s.reg.warm.isNone && (s.askLinks a).all (s.linkOpen a)

/-- The lines of a range of bytes. -/
def linesOf (pa n : Nat) : List Nat := if n == 0 then [] else (List.range ((pa + n - 1) / 64 + 1 - pa / 64)).map fun i => pa / 64 + i

/-- The requests by which an agent reads or writes n bytes at a physical address, one for each line. -/
def physAsks (key die tenant pa n : Nat) (write : Bool) : List Ask :=
  (linesOf pa n).map fun l =>
    { key := key, die := die, tenant := tenant, line := l, pa := Nat.max pa (64 * l), bytes := Nat.min (pa + n) (64 * (l + 1)) - Nat.max pa (64 * l), cache := 1, write := write }

/-- R208: a maintenance instruction's line. -/
def OpKind.isMaint : OpKind → Bool
  | .wb | .inv | .invn | .icinv => true
  | _ => false
/-- A kind whose parts write memory. -/
def OpKind.writes : OpKind → Bool
  | .st | .stf | .ust | .stm | .atom _ _ | .accflush | .accdet => true
  | _ => false

/-- R293: a part's write goes into a version on its core. -/
def State.versioned (s : State) (o : Op) (p : Part) : Bool :=
  o.kind.writes && (match s.partTask o p with | some (g, t) => ((s.grid g).task t).versions? (p.pa / 64) | none => false)

/-- R208: a maintenance instruction's part writes a dirty line of the LLC to its home. -/
def State.flushesLlc (s : State) (o : Op) (p : Part) : Bool :=
  (o.kind == .wb || o.kind == .inv) && p.dom == .host && (s.llcLine (p.pa / 64)).dirty

/-- The requests of a part: for its bytes, and for its scale bytes, which an STF reads in an event before. -/
def State.partAsks (s : State) (o : Op) (p : Part) (key : Nat) : List Ask :=
  if p.clm || p.size == 0 then []
  else
    let first := s.scaledStore o && p.bound != 1
    let a : Ask := { key := key, die := dieOf o.core, core := some o.core, tenant := (s.grid o.grid).tenant, data := !o.kind.isMaint || s.flushesLlc o p }
    (if first || s.versioned o p then [] else (linesOf p.pa p.size).map fun l => { a with line := l, pa := p.pa, bytes := p.size, cache := if s.flushesLlc o p then 2 else p.cache, write := o.kind.writes }) ++
    (if s.scaledStore o && !first then [] else (linesOf p.scalePa p.scaleN).map fun l => { a with line := l, pa := p.scalePa, bytes := p.scaleN, cache := p.scaleCache })

/-- The requests of part i of an operation. -/
def State.asksOf (s : State) (id i : Nat) : List Ask := s.partAsks (s.op id) ((s.op id).parts.getD i {}) (askPart id i)

/-- R323, R322: the requests of a walk: for its context entry and for every table entry it reads. -/
def State.walkAsks (s : State) (id : Nat) (k : Walk) : List Ask :=
  let t := match k.engine with
    | some c => (s.grid (s.copy c).grid).tenant
    | none => (s.gridOf k.wave).tenant
  (s.tableReads k.asid k.va).map fun a => { key := askWalk id, die := k.die, tenant := t, line := a / 64, pa := a, bytes := 8, cache := 1 }

/-- R334: the request of an instruction miss. -/
def State.missAsk (s : State) (id : Nat) (k : Miss) : Ask :=
  { key := askMiss id, die := dieOf (coreOf k.wave), tenant := (s.gridOf k.wave).tenant, line := k.pa / 64, pa := k.pa / 64 * 64, bytes := 64, cache := if k.cache == 2 then 2 else 1 }

/-- Requests for one line in one direction are one. -/
def mergeAsk (as : List Ask) (a : Ask) : List Ask :=
  if as.any fun b => b.line == a.line && b.write == a.write then
    as.map fun b => if b.line == a.line && b.write == a.write then { b with bytes := b.bytes + a.bytes } else b
  else as ++ [a]

/-- R262: the requests of the engine's next access. -/
def State.elemAsks (s : State) (id : Nat) : List Ask :=
  let c := s.copy id
  ((s.accessUses id).map fun u => ({ key := askCopy id, die := dieOf (c.team / 8), tenant := (s.grid c.grid).tenant, line := u.1.pa / 64, pa := u.1.pa,
                                     bytes := u.2.1, cache := u.1.cache, write := u.2.2 } : Ask)).foldl mergeAsk []

/-- A requester that waits: for which tenant and waves, with which requests; of a push also the links it crosses. -/
structure Parked where
  tenant : Nat := 0
  waves : List Nat := []
  asks : List Ask := []
  links : List Nat := []
  bytes : Nat := 0                        -- R335: what it moves as a copy
  deriving DecidableEq, Repr, Inhabited

/-- R246: a part that waits for nothing but its requests. -/
def State.partParked (s : State) (id i : Nat) : Bool :=
  let p := (s.op id).parts.getD i {}
  p.ready == 0 && s.partReady id i && !s.provHeld p.pa p.size

/-- The parts that wait for their requests. -/
def State.parkedParts (s : State) : List Parked :=
  s.o.ops.flatMap fun e => ((List.range e.2.parts.length).filter fun i => (e.2.parts.getD i {}).plt.isNone && s.partParked e.1 i).map fun i =>
    { tenant := (s.grid e.2.grid).tenant, waves := e.2.pos.map fun k => k.1, asks := s.asksOf e.1 i }

/-- The copies whose next access waits. -/
def State.parkedCopies (s : State) : List Parked :=
  (s.o.copies.filter fun e => e.2.live && e.2.slot.isSome && !e.2.stopped && e.2.moved < e.2.total).map fun e =>
    let n := s.movesNow e.1
    { tenant := (s.grid e.2.grid).tenant, waves := e.2.members, asks := s.elemAsks e.1, links := e.2.pushLinks, bytes := s.moveBytes e.2 n }

/-- R324: one of the 512 walkers of its die works on the walk: those that began first have them. -/
def State.hasWalker (s : State) (walk : Nat) (k : Walk) : Bool :=
  (s.m.walks.filter fun e => e.1 < walk && e.2.die == k.die && e.2.failed.isNone).length < 512

/-- The waves that wait for a walk. -/
def State.walkWaves (s : State) (k : Walk) : List Nat := match k.engine with | some c => (s.copy c).members | none => [k.wave]

/-- The walks, misses and agents that wait. -/
def State.parkedRest (s : State) : List Parked :=
  ((s.m.walks.filter fun e => e.2.failed.isNone && s.hasWalker e.1 e.2).map fun e =>
    let as := s.walkAsks e.1 e.2
    { tenant := (as.headD {}).tenant, waves := s.walkWaves e.2, asks := as }) ++
  (s.m.misses.map fun e => { tenant := (s.gridOf e.2.wave).tenant, waves := [e.2.wave], asks := [s.missAsk e.1 e.2] }) ++
  s.m.wants.map fun e => { tenant := e.2.tenant, asks := [e.2] }

/-- All that wait. -/
def State.parked (s : State) : List Parked := s.parkedParts ++ s.parkedCopies ++ s.parkedRest

/-- The links that a waiting requester is to enter. -/
def State.parkedLinks (s : State) (k : Parked) : List Nat := k.asks.flatMap s.askLinks ++ k.links

/-- R261: a push may enter its links. -/
def State.pushOpen (s : State) (t n : Nat) (ls : List Nat) : Bool := ls.all fun l => s.linkIsUp l && s.canMove t (linkKind l) n

/-- R45: does a tenant have a request that could enter a link now? (DEDUCED, log 53) -/
def State.waitsAt (s : State) (t link : Nat) : Bool :=
  s.parked.any fun k => k.tenant == t && (s.parkedLinks k).contains link && k.asks.all s.askOpen && s.pushOpen t k.bytes k.links

/-- R45, R336: the place of a tenant in a link's round: a tenant under SOFT with its allowance exhausted comes after the others, and
the tenant that entered last comes last. -/
def State.turnOf (s : State) (link t : Nat) : Nat :=
  (if s.softOut t (linkKind link) then 32 else 0) + (t + 32 - SMap.get 0 s.pk.turns link) % 32

/-- R45: it is a tenant's turn at a link; nobody's traffic takes none (DESIGN CHOICE, log 63). -/
def State.hasTurn (s : State) (t link : Nat) : Bool :=
  32 ≤ t || (List.range 32).all fun u => u == t || s.turnOf link t ≤ s.turnOf link u || !s.waitsAt u link

/-- May a request go now? -/
def State.askReady (s : State) (a : Ask) : Bool := s.askOpen a && (s.askLinks a).all (s.hasTurn a.tenant)

/-- R45: a tenant enters links. -/
def State.takeTurns (s : State) (t : Nat) (ls : List Nat) : State :=
  if 32 ≤ t then s else { s with pk := { s.pk with turns := ls.foldl (fun m l => SMap.set 0 m l (t + 1)) s.pk.turns } }

/-- R335, R45, R30, R25: a request goes: it enters its links, uses what its controller served, and the line comes into the LLC where
its region lets it. -/
def State.askGo (s : State) (a : Ask) : State :=
  let ls := s.askLinks a
  let served := s.wasServed a
  let s := (s.bill a.tenant ls a.bytes).takeTurns a.tenant ls
  if served then
    let s := { s with m := { s.m with served := s.m.served.erase (a.key, a.line) } }
    if a.cache == 2 then s else s.fillLlc a.line
  else s

/-- Requests go. -/
def State.asksGo (s : State) (as : List Ask) : State := as.foldl (fun (s : State) a => s.askGo a) s

/-- R336, R30: may a part's requests go?  A request that finds a link of its route down waits (DESIGN CHOICE, log 33). -/
def State.linkFree (s : State) (id i : Nat) : Bool := (s.asksOf id i).all s.askReady

/-- R335: a part's requests go. -/
def State.linkPay (s : State) (id i : Nat) : State := s.asksGo (s.asksOf id i)

/-- R34: the links that a part's requests cross. -/
def State.partLinks (s : State) (id i : Nat) : List Nat := (s.asksOf id i).flatMap s.askLinks

/-- R226: a write of an agent is held while a provisional release stands on one of its granules. -/
def State.heldWrite (s : State) (a : Ask) : Bool := a.write && a.sort != .back && s.provHeld a.pa a.bytes

/-- A request of an agent, as one that has been answered. -/
def Ask.mark (a : Ask) : Nat × Nat := (a.key, 2 * a.line + a.write.toNat)

/-- R30, R45: the requests of an agent go, one after another; at the first that may not go it waits (DESIGN CHOICE, log 63). -/
def State.passAsks (s : State) : List Ask → Bool × State
  | [] => (true, s)
  | a :: as =>
    if s.m.got.contains a.mark then s.passAsks as
    else if s.askReady a then
      let s := s.askGo a
      ({ s with m := { s.m with got := s.m.got ++ [a.mark], wants := SMap.set {} s.m.wants a.key {} } } : State).passAsks as
    else (false, { s with m := { s.m with wants := SMap.set {} s.m.wants a.key a } })

/-- What an agent had asked for is used, or asked for no more. -/
def State.agentDone (s : State) (key : Nat) : State :=
  { s with m := { s.m with
      asked := [], wants := SMap.set {} s.m.wants key {}
      got := s.m.got.filter fun e => e.1 != key, lost := s.m.lost.filter fun e => e.1 != key } }

/-- R34, R39: some of what an agent asked for was lost on its way. -/
def State.lostAny (s : State) (key : Nat) : Bool := s.m.lost.any fun e => e.1 == key

/-- An agent acts by `f` once the requests that this takes have been answered, and no write of it is held (R40, R226); until then `wait`
says what it does. -/
def State.actOr (s : State) (key : Nat) (as : List Ask) (wait f : State → State) : State :=
  let r := s.passAsks as
  if r.1 && !as.any (fun a => s.heldWrite a || s.hostHolds a) then (f r.2).agentDone key else wait r.2

/-- An agent acts by `f` once the requests that this takes have been answered. -/
def State.act (s : State) (key : Nat) (as : List Ask) (f : State → State) : State := s.actOr key as id f

/-- The requests that an action makes as the state stands. -/
def State.asksBy (s : State) (key : Nat) (f : State → State) : List Ask := ((f s).m.asked.map fun a => { a with key := key }).foldl mergeAsk []

/-- An agent acts by `f`, whose requests are those it notes. -/
def State.tryAct (s : State) (key : Nat) (f : State → State) : State := s.act key (s.asksBy key f) f

/-- R30: the requests by which lines that a cache holds dirty go to their homes (DESIGN CHOICE, log 63). -/
def State.backAsks (s : State) (key : Nat) (lines : List Nat) : List Ask :=
  (lines.filter fun l => ((s.llcLine l).valid && (s.llcLine l).dirty) || (s.holders l).any fun c => (s.l1Line c l).dirty).map fun l =>
    { key := key, die := s.homeDie l, tenant := 32, line := l, pa := 64 * l, bytes := 64, cache := 2, write := true, sort := .back }

/-- R30: the request that a requester has for a line: of an operation, a copy, a walk, a miss or an agent. -/
def State.askOf (s : State) (k line : Nat) : Option Ask :=
  let id := k / 5
  let mine := fun (as : List Ask) => as.find? fun a => a.line == line
  match k % 5 with
  | 0 => if ((s.op (id / 2 ^ 20)).parts.getD (id % 2 ^ 20) {}).plt.isSome then none else mine (s.asksOf (id / 2 ^ 20) (id % 2 ^ 20))
  | 1 =>
    let c := s.copy id
    if !c.live || c.slot.isNone || c.stopped || c.total ≤ c.moved then none else mine (s.elemAsks id)
  | 2 => (s.m.walks.find? fun e => e.1 == id && e.2.failed.isNone).bind fun e => mine (s.walkAsks id e.2)
  | 3 => (s.m.misses.find? fun e => e.1 == id).bind fun e => mine [s.missAsk id e.2]
  | _ => (s.m.wants.find? fun e => e.1 == k).bind fun e => mine [e.2]

end Sys2Proof.Machine
end

