-- ==== Sys2Proof/Machine/CopyEngine.lean ====
section
/-! DEFINITION. The copy engine (R247-R267): the checks of a copy, taking a slot, moving elements, completion and transfer
faults. -/

namespace Sys2Proof.Machine

open Sys2Proof

/-- R250, R266: handles of a team change, and the waits that this satisfies are noted at once. -/
def State.modHandles (s : State) (tk : Nat) (f : Team → Team) : State :=
  let s := s.modTeam tk f
  (s.team tk).waves.foldl (fun s w => s.modWave w fun x => x.noteHwait (s.team tk)) s

/-- R253: the record is refused. -/
def State.badShape (s : State) (bs : List Byte) (c : Copy) : Bool :=
  let r := c.rank
  let f := s.copyFmt c
  recField bs 8 4 / 2 ^ 18 != 0 || recField bs 0x0E 2 != 0 || recField bs 0x68 24 != 0 ||
  c.ctl.toNat % 8 > 3 || r == 0 || r > 5 ||
  c.boxes.any (· == 0) ||
  (c.cvt && c.dir != 1) ||
  (c.dir == 3 && c.esz != 4) ||
  (c.dir == 1 && c.cvt && f.fmt != 5 && fmtWidth f.fmt != 8 * c.esz) ||
  (s.copyO4 c && (c.esz != 1 || c.dims.getD 0 0 % 2 == 1 || c.boxes.getD 0 0 % 2 == 1 ||
    c.coords.any fun k => k.getD 0 0 % 2 != 0)) ||
  -- a push ignores BASE and STRIDE (R258)
  c.dir != 2 && (c.base.toNat % c.esz != 0 || (List.range r).any fun i => !(i == 0 && s.copyO4 c) && c.strides.getD i 0 % (c.esz : Int) != 0)

/-- The team slot that holds team `num` of a grid. -/
def State.findTeam (s : State) (g num : Nat) : Option Nat :=
  (SMap.find s.x.teams fun _ t => t.resident && t.grid == g && t.num == num).map fun e => e.1

/-- R256: the conditions on one handle of a team; with NEXT or RNEXT, of the member at PCUR when they are judged (DESIGN CHOICE, log 62). -/
def Team.handleFits (t : Team) (h : Nat) (next : Bool) (need : Nat) : Bool :=
  let k := if next then t.ringCur h else h
  (t.handle k).st != .unbound && need ≤ (t.handle k).hlen && (next || t.ringOne h)

/-- R256: the handle checks: TRUE when they pass.  A team that is saved (R320) keeps its handles, and a push toward it waits. -/
def State.copyHandlesOk (s : State) (c : Copy) : Bool :=
  let need := c.members.length * c.sliceSize
  (s.team c.team).handleFits c.h c.next need &&
  (c.dir != 2 ||
    (c.rteam < (s.grid c.grid).nteams && !(s.grid c.grid).ended.contains c.rteam &&
      match s.findTeam c.grid c.rteam with
      | some k => (s.team k).handleFits c.rhField c.rnext need
      | none => (s.grid c.grid).saved.any fun e => e.1 == c.rteam && e.2.team.handleFits c.rhField c.rnext need))

/-- R258: the first (set rank, dimension) with an element out of bounds. -/
def Copy.outOfBounds (c : Copy) : Option (Nat × Nat) :=
  (List.range c.members.length).foldl (fun b k => match b with
    | some r => some r
    | none => ((List.range c.rank).find? fun i =>
        let x := (c.coords.getD k []).getD i 0
        x < 0 || ((c.dims.getD i 1 : Nat) : Int) < x + (c.boxes.getD i 1 : Nat)).map fun i => (k, i)) none

/-- R258, R259: the range of coordinate i of slice k that is in bounds. -/
def Copy.span (c : Copy) (k i : Nat) : Int × Int :=
  let x := (c.coords.getD k []).getD i 0
  let lo := max 0 x
  let hi := min ((c.dims.getD i 1 : Nat) : Int) (x + (c.boxes.getD i 1 : Nat)) - 1
  (lo, hi)

/-- R259: the least and greatest element address of slice k, none when it has no element in bounds. -/
def State.copyEnds (s : State) (c : Copy) (k : Nat) : Option (Int × Int) :=
  let spans := (List.range c.rank).map (c.span k)
  if spans.any fun e => e.2 < e.1 then none
  else
    let o4 := s.copyO4 c
    let term := fun (i : Nat) =>
      let e := spans.getD i (0, 0)
      if o4 && i == 0 then (e.1 / 2, e.2 / 2)
      else
        let a := e.1 * c.strides.getD i 0
        let b := e.2 * c.strides.getD i 0
        (min a b, max a b)
    some ((List.range c.rank).foldl (fun (r : Int × Int) i => (r.1 + (term i).1, r.2 + (term i).2)) (c.base.toInt, c.base.toInt))

/-- R259: the first set rank with an address outside the canonical range. -/
def State.badAddr (s : State) (c : Copy) : Option Nat :=
  (List.range c.members.length).find? fun k => match s.copyEnds c k with
    | none => false
    | some (lo, hi) => lo < -(2 ^ 54) || 2 ^ 54 ≤ hi + (c.esz : Int) - 1

/-- R255 steps 2 to 4 on a record that R253 accepts. -/
def State.copyFault (s : State) (c : Copy) : Option FaultInfo :=
  if !s.copyHandlesOk c then some (prot rHANDLE 0)
  else if c.dir == 2 then none
  else match (if c.permit then none else c.outOfBounds) with
    | some (k, i) => some { code := cCOPYBOUND, info := k * 2 ^ 8 + i }
    | none => match s.badAddr c with
      | some k => some { code := cCOPYADDR, info := k * 2 ^ 8 }
      | none => none

/-- The receiving handle of a push: team slot and handle, when the team is resident. -/
def State.pushTarget (s : State) (c : Copy) : Option (Nat × Nat) :=
  (s.findTeam c.grid c.rteam).map fun k => (k, if c.rnext then (s.team k).ringCur c.rhField else c.rhField)

/-- The handle of the issuing team that a copy uses. -/
def State.copyLocal (s : State) (c : Copy) : Nat := if c.next then (s.team c.team).ringCur c.h else c.h

/-- R260: a free slot of a core's command queue. -/
def State.freeSlot (s : State) (core : Nat) : Option Nat :=
  (List.range 16).find? fun k => !s.o.copies.any fun e => e.2.live && e.2.team / 8 == core && e.2.slot == some k

/-- R260: the conditions for taking a slot. -/
def State.copyReady (s : State) (c : Copy) : Bool :=
  let st := ((s.team c.team).handle (s.copyLocal c)).st
  (s.freeSlot (c.team / 8)).isSome &&
  (match c.dir with
   | 0 => st == .free
   | 2 => st == .full && (match s.pushTarget c with
       | some (k, h) => ((s.team k).handle h).st == .free && !(s.team k).saving
       | none => false)
   | _ => st == .full)

/-- R260: the copy that takes a slot first among those of its core: order of completion of the
rendezvous, then team slot, then set index. -/
def State.copyFirst (s : State) (id : Nat) : Bool :=
  let c := s.copy id
  s.o.copies.all fun e =>
    let d := e.2
    !(d.live && d.slot == none && !d.failed && d.team / 8 == c.team / 8 && s.copyReady d && s.copyHandlesOk d) || e.1 == id ||
    c.order < d.order || (c.order == d.order && (c.team < d.team || (c.team == d.team && c.sset ≤ d.sset)))

/-- Sets a handle's state. -/
def Team.setState (t : Team) (h : Nat) (st : HState) : Team := t.setHandle h { t.handle h with st := st }

/-- R250, R249: the transitions when a slot is taken. -/
def State.takeHandles (s : State) (id : Nat) (slot : Nat) : State :=
  let c := s.copy id
  let lh := s.copyLocal c
  let s := s.modTeam c.team fun t => if c.dir == 0 then (t.assignFill lh).setState lh .filling else t.setState lh .draining
  let (rk, rh, s) := match (if c.dir == 2 then s.pushTarget c else none) with
    | some (k, h) => (k, h, s.modTeam k fun t => (t.assignFill h).setState h .filling)
    | none => (0, 0, s)
  s.setCopy id { c with slot := some slot, lh := lh, rteamKey := rk, rh := rh }

/-- R262: n bytes of the local handle for element e. -/
def State.handleRead (s : State) (c : Copy) (e n : Nat) : Nat × Bool :=
  let t := s.team c.team
  t.readClm ((t.handle c.lh).hb + c.offset e) n

/-- R262: writes n bytes at element e of the handle of a load or of the receiver of a push. -/
def State.handleWrite (s : State) (c : Copy) (e n v : Nat) (bad : Bool) : State :=
  let k := if c.dir == 2 then c.rteamKey else c.team
  let h := if c.dir == 2 then c.rh else c.lh
  s.modTeam k fun t => t.writeClm ((t.handle h).hb + c.offset e) n v bad

/-- R229: data comes back to the engine, or a write of the engine has performed at a line's home. -/
def State.engineSees (s : State) (c : Copy) (line : Nat) (data : Bool) : State :=
  let h := l1Checker (c.team / 8)
  if data then s.sendLt (s.baseChecker line) h else s.tickAt h

/-- R262: n bytes of memory read by the engine, poisoned where the line was lost on its way (R34).  It is served no provisional value of
its own core's (DESIGN CHOICE, log 62). -/
def State.engineRead (s : State) (c : Copy) (lost : List Nat) (pa n : Nat) : (Nat × Bool) × State :=
  let s := s.yieldLine none (pa / 64)
  let r := s.readPa none pa n
  ((r.1, r.2 || lost.contains (pa / 64)), s.engineSees c (pa / 64) true)

/-- R262: what step i reads before it is written: of a load the element, or the fill; else the handle's bytes. -/
def State.readStep (s : State) (id : Nat) (lost : List Nat) (i : Nat) : (Nat × Bool) × State :=
  let c := s.copy id
  let e := s.stepAt c i
  if c.dir != 0 then (s.handleRead c e c.hsz, s)
  else if !c.inBounds e then ((c.fill.toNat % 2 ^ (8 * c.esz), false), s)
  else match s.useChk id (s.elemAddr c e, c.esz, false) with
    | .ok a => s.engineRead c lost a.pa c.esz
    | _ => ((0, true), s)

/-- R186, R214: the reads of the next access: every word it needs is read whole (DEDUCED, log 24). -/
def State.copyRead (s : State) (id : Nat) (lost : List Nat) : State :=
  let c := s.copy id
  ((List.range (s.readTo id)).drop c.ahead.length).foldl (fun (s : State) i =>
    let r := s.readStep id lost i
    let k := r.2.copy id
    r.2.setCopy id { k with ahead := k.ahead ++ [r.1] }) s

/-- R262, R104: the scale of a converting store and its poison. -/
def State.copyScale (s : State) (id : Nat) (lost : List Nat) (i : Nat) : (Option Nat × Bool) × State :=
  let c := s.copy id
  if (s.copyFmt c).sk != 1 then ((none, false), s)
  else match (s.stepUses c i).head?.map (s.useChk id) with
    | some (.ok a) => let r := s.engineRead c lost a.pa 1; ((some r.1.1, r.1.2), r.2)
    | _ => ((none, true), s)

/-- R262, R108: the bytes that step i of a store writes, with their poison; a saturation event sets SATF in every member. -/
def State.storeVal (s : State) (id : Nat) (lost : List Nat) (i : Nat) : (Nat × Bool) × State :=
  let c := s.copy id
  let v := c.ahead.getD i (0, true)
  if !c.cvt then (v, s)
  else
    let w := if s.copyO4 c then s.handleRead c (s.stepAt c i + 1) 4 else (0, false)
    let r := s.copyScale id lost i
    let x := storeElem (s.copyFmt c) (BitVec.ofNat 32 v.1) (BitVec.ofNat 32 w.1) r.1.1
    let bad := v.2 || w.2 || r.1.2
    -- poisoned data saturates nothing (DESIGN CHOICE, log 51)
    ((x.1, bad), if x.2 && !bad then c.members.foldl (fun s w => s.modWave w fun y => { y with satf := true }) r.2 else r.2)

/-- R262: step i of a store or an accumulate is written; what was lost on its way is poisoned, or, with `drop`, not written (R34, R39). -/
def State.writeStep (s : State) (id : Nat) (lost : List Nat) (drop : Bool) (i : Nat) : State :=
  let c := s.copy id
  let e := s.stepAt c i
  if !c.inBounds e then s
  else match s.useChk id (s.elemAddr c e, c.esz, true) with
    | .ok a =>
      let gone := lost.contains (a.pa / 64)
      if gone && drop then s
      else if c.dir == 3 then
        let v := c.ahead.getD i (0, true)
        let r := (s.yieldLine none (a.pa / 64)).readPa none a.pa 4
        (s.writeHome a.pa 4 (addF32 (BitVec.ofNat 32 r.1) (BitVec.ofNat 32 v.1)).toNat a.cache (v.2 || r.2 || gone)).engineSees c (a.pa / 64) false
      else
        let v := s.storeVal id lost i
        (v.2.writeHome a.pa (if s.copyO4 c then 1 else c.esz) v.1.1 a.cache (v.1.2 || gone)).engineSees c (a.pa / 64) false
    | _ => s

/-- The bytes of several elements of n bytes one after another, and whether any is poisoned. -/
def joinElems (n : Nat) : List (Nat × Bool) → Nat × Bool
  | [] => (0, false)
  | e :: es => let r := joinElems n es; (e.1 % 2 ^ (8 * n) + 2 ^ (8 * n) * r.1, e.2 || r.2)

/-- R262, R251: n steps are written: of the words of a handle all bytes at once, of memory one element after another, which lie in one
aligned word of it. -/
def State.copyWrite (s : State) (id : Nat) (lost : List Nat) (drop : Bool) (n : Nat) : State :=
  let c := s.copy id
  let v := joinElems c.esz (c.ahead.take n)
  let s := if c.dir == 0 || c.dir == 2 then s.handleWrite c c.moved (n * c.esz) v.1 v.2
           else (List.range n).foldl (fun (s : State) i => s.writeStep id lost drop i) s
  s.setCopy id { s.copy id with moved := c.moved + s.copyStep c * n, ahead := c.ahead.drop n }

/-- R262: one access of the engine. -/
def State.copyAccess (s : State) (id : Nat) (lost : List Nat) (drop : Bool) : State :=
  let n := s.movesNow id
  if n == 0 then s else (s.copyRead id lost).copyWrite id lost drop n

/-- R226, R336: may the engine make its next access now?  A write to the granule of a provisional release is held. -/
def State.elemReady (s : State) (id : Nat) : Bool :=
  let c := s.copy id
  let t := (s.grid c.grid).tenant
  let n := s.moveBytes c (s.movesNow id)
  s.reg.warm.isNone && s.canPayBytes t 4 n &&
  (s.elemAsks id).all s.askReady &&
  (s.accessUses id).all (fun u => !(u.2.2 && s.provHeld u.1.pa u.2.1)) &&
  ((s.accessSteps id).all fun i => (s.stepWalk id i).isNone) &&
  s.pushOpen t n c.pushLinks && c.pushLinks.all (s.hasTurn t)

/-- R335: what the next access debits. -/
def State.elemPay (s : State) (id : Nat) : State :=
  let c := s.copy id
  let t := (s.grid c.grid).tenant
  let n := s.moveBytes c (s.movesNow id)
  (((s.asksGo (s.elemAsks id)).payBytes t 4 n).bill t c.pushLinks n).takeTurns t c.pushLinks

/-- R323, R324: the engine of a copy asks for a walk, where it has not yet. -/
def State.engineWalk (s : State) (id : Nat) (va : DWord) (need : Need) : State :=
  let c := s.copy id
  if s.m.walks.any fun k => k.2.engine == some id && k.2.va.toNat / 2 ^ 16 == va.toNat / 2 ^ 16 && !k.2.drop && k.2.failed.isNone then s
  else
    let n := s.o.next
    let k : Walk := { core := c.team / 8, die := dieOf (c.team / 8), asid := (s.grid c.grid).asid, va := va, write := need == .store, wave := c.members.headD 0, engine := some id }
    { s with m := { s.m with walks := SMap.set {} s.m.walks n k }, o := { s.o with next := n + 1 } }

/-- R323: the walks of a copy that have failed are forgotten once their fault is taken, all of them with the copy. -/
def State.dropWalks (s : State) (id : Nat) (all : Bool) : State :=
  { s with m := { s.m with walks := s.m.walks.filter fun k => !(k.2.engine == some id && (all || k.2.failed.isSome)) } }

/-- R262: the engine of a copy goes on: it asks for a walk that its next access needs, or makes the access. -/
def State.copyStepOn (s : State) (id : Nat) : State :=
  let c := s.copy id
  if c.total ≤ c.moved then s
  else match (s.accessSteps id).findSome? (s.stepWalk id), s.elemReady id with
    | some k, _ => s.engineWalk id k.1 k.2
    | none, true => (s.elemPay id).copyAccess id [] false
    | none, false => s

/-- R264, R34: the engine's next access is on a link that fails: what it reads over the link is poisoned, what it writes over it too. -/
def State.copyPoison (s : State) (id link : Nat) : State :=
  let c := s.copy id
  let lost := ((s.elemAsks id).filter fun a => (s.askLinks a).contains link).map fun a => a.line
  if !c.live || c.slot.isNone || c.stopped || c.total ≤ c.moved || (lost.isEmpty && !c.pushLinks.contains link) || !s.elemReady id then s
  else if c.pushLinks.contains link then
    let s := s.copyRead id []
    let k := s.copy id
    (s.setCopy id { k with ahead := k.ahead.map fun e => (e.1, true) }).copyWrite id [] false (s.movesNow id)
  else s.copyAccess id lost false

/-- R250: the transitions when a copy completes. -/
def State.releaseHandles (s : State) (c : Copy) : State :=
  if c.dir == 0 then s.modHandles c.team fun t => t.setState c.lh .full
  else
    let s := if c.dir == 2 then s.modHandles c.rteamKey fun t => t.setState c.rh .full else s
    s.modHandles c.team fun t => t.setState c.lh .free

/-- R250 last row: the transitions when a copy is killed in its slot. -/
def State.killHandles (s : State) (c : Copy) : State :=
  if c.dir == 0 then s.modHandles c.team fun t => t.setState c.lh .free
  else
    let s := if c.dir == 2 then s.modHandles c.rteamKey fun t => t.setState c.rh .free else s
    s.modHandles c.team fun t => t.setState c.lh .full

/-- R264, R319: a copy is dropped; in a slot, its handles move by the last row of R250. -/
def State.dropCopy (s : State) (id : Nat) : State :=
  let c := s.copy id
  let s := if c.slot.isSome then s.killHandles c else s.flagsDown c.flags
  (s.dropWalks id true).setCopy id {}

/-- R316: the address a wave stands at: the header of the clause its lowest live lane is in, or that lane's own. -/
def Wave.stands (x : Wave) : DWord :=
  let l := lowest x.live
  match x.bundleOf l with
  | some b => b.cl.hdr
  | none => (x.lane l).pc

/-- R256, R264, R316: a system fault of a copy's set; the record names the wave of set rank 0 and where it stands. -/
def State.copySetFault (s : State) (id : Nat) (f : FaultInfo) : State :=
  let c := s.copy id
  let w := c.members.headD 0
  let t := (s.grid c.grid).tenant
  let r := recordBytes f 1 255 (ctxWord t (s.grid c.grid).asid) (s.wave w).stands.toNat (s.waveId w) (s.core (coreOf w)).lt (s.tenant t).nrec
  (s.suspend { tenant := t, waves := c.members, copy := some id }).queueRecord t r

/-- R39: a write of an engine that is dropped on its way: the set takes ECCU with its address, and the copy goes on. -/
def State.copyLost (s : State) (id : Nat) (a : Ask) : State :=
  let c := s.copy id
  let w := c.members.headD 0
  let t := (s.grid c.grid).tenant
  let f : FaultInfo := { code := cECCU, paddr := a.pa, addr := (s.elemAddr c c.moved).toNat }
  let r := recordBytes f 1 255 (ctxWord t (s.grid c.grid).asid) (s.wave w).stands.toNat (s.waveId w) (s.core (coreOf w)).lt (s.tenant t).nrec
  (s.suspend { tenant := t, waves := c.members }).queueRecord t r

/-- R39: a request of an engine comes back over a package link: what it reads is poisoned, what it writes is not written. -/
def State.copyLoop (s : State) (id : Nat) (a : Ask) : State :=
  (if a.write then s.copyLost id a else s).copyAccess id [a.line] true

end Sys2Proof.Machine
end

