-- ==== Sys2Proof/Machine/Sync.lean ====
section
/-! DEFINITION. Where lanes meet: rendezvous (R155-R161), joins (R162), circular waits (R158), the other
waits of R150, and the ends of waves, teams and grids. -/

namespace Sys2Proof.Machine

open Sys2Proof

/-- R155: a level of rendezvous: scope and group. -/
inductive Lvl where
  | tile (w t : Nat)
  | set (tk sset : Nat)
  | team (tk : Nat)
  deriving DecidableEq, Repr, Inhabited

/-- The lanes of a tile of a wave. -/
def Wave.tileMask (x : Wave) (t : Nat) : Mask :=
  maskOf ((List.range (2 ^ x.effTw)).map fun i => t * 2 ^ x.effTw + i)

/-- R155: the waves of a level and the lanes of each that belong to its group. -/
def State.lvlWaves (s : State) : Lvl → List (Nat × Mask)
  | .tile w t => [(w, (s.wave w).tileMask t)]
  | .set tk i =>
    let t := s.team tk
    (t.waves.filter fun w => (s.grid t.grid).inSet i (s.wave w).widx).map fun w => (w, 0xFFFFFFFF#32)
  | .team tk => (s.team tk).waves.map fun w => (w, 0xFFFFFFFF#32)

/-- A lane that waits at a rendezvous. -/
structure Arr where
  w : Nat
  l : Nat
  pc : DWord
  act : Bool
  op : LOp
  ord : Nat
  ok : Bool
  deriving DecidableEq, Repr, Inhabited

/-- Is a lane's wait one of this level? -/
def Lvl.matches (v : Lvl) (sc : Scope) (sset : Nat) : Bool :=
  match v with
  | .tile _ _ => sc == .wave
  | .set _ i => sc == .set && sset == i
  | .team _ => sc == .team

/-- The lanes that wait at the pending rendezvous of a level. -/
def State.arrivals (s : State) (v : Lvl) : List Arr :=
  (s.lvlWaves v).flatMap fun e =>
    (lanesOf e.2).filterMap fun l =>
      match ((s.wave e.1).lane l).st with
      | .waiting (.rdv sc i a op ord ok) =>
        if v.matches sc i then some { w := e.1, l := l, pc := ((s.wave e.1).lane l).pc, act := a, op := op, ord := ord, ok := ok } else none
      | _ => none

/-- R155: the members of a level's group. -/
def State.members (s : State) (v : Lvl) : List (Nat × Nat) :=
  (s.lvlWaves v).flatMap fun e => (lanesOf (e.2 &&& (s.wave e.1).live)).map fun l => (e.1, l)

/-- The clause context of a lane's bundle. -/
def Wave.clauseOf (x : Wave) (l : Nat) : Clause := ((x.bundleOf l).map fun b => b.cl).getD {}

/-- The clause context of several lanes that stand at one instruction: the masks join. -/
def Wave.clauseOfMask (x : Wave) (m : Mask) : Clause :=
  let c := x.clauseOf (lowest m)
  { c with act := (lanesOf m).foldl (fun a l => if hasLane (x.clauseOf l).act l then setBit a l true else a) 0#32 }

/-- R159, R315: the lanes of a wave whose RDVMIX has been put off until the handler's RETT, or until the wave goes on. -/
def State.putOff (s : State) (w : Nat) : Mask := if (s.wave w).hmode || s.suspended w then (s.wave w).left else 0#32

/-- R159: RDVMIX is due for some lanes of a wave, each with the address where it waits: those at the lowest address take it,
and the others wait until RETT.  The tasks of speculative lanes stop instead (R300).  The lanes of a suspended wave keep their status
(R315): their case is judged again when the wave goes on (DEDUCED, log 27). -/
def State.rdvmix (s : State) (w : Nat) (due : List (DWord × Nat)) : State :=
  match due.filter fun e => !hasLane (s.putOff w) e.2 with
  | [] => s
  | e0 :: es =>
    if s.suspended w then s.modWave w fun x => { x with left := x.left ||| maskOf ((e0 :: es).map fun e => e.2) }
    else
    let pc := es.foldl (fun p e => if e.1 < p then e.1 else p) e0.1
    let m := maskOf (((e0 :: es).filter fun e => e.1 == pc).map fun e => e.2)
    let rest := maskOf (((e0 :: es).filter fun e => e.1 != pc).map fun e => e.2)
    let x := s.wave w
    let sp := s.specLanes w m
    let s := s.setWave w { x with left := s.putOff w ||| rest }
    let s := if sp == 0#32 then s else s.stopTasks w sp
    if m &&& ~~~sp == 0#32 then s
    else s.inWaveTrap w causeRDVMIX false pc (m &&& ~~~sp) (some (x.clauseOfMask (x.trapLanes (m &&& ~~~sp)))) true

/-- R157: did the lane arrive in the cycle that ends now? -/
def State.fresh (s : State) (a : Arr) : Bool := a.ord / 1024 + 1 == s.sch.cycle

/-- R157: does arrival b, at another address of the level, dissolve the rendezvous where a waits?  It does as it arrives, and again
where RDVMIX was put off (R159). -/
def State.dissolves (s : State) (b a : Arr) : Bool :=
  b.pc != a.pc && a.ord < b.ord && (s.fresh b || hasLane (s.wave a.w).left a.l)

/-- R157: the arrivals at a level whose rendezvous is dissolved. -/
def State.dissolved (s : State) (v : Lvl) : List Arr :=
  let as := s.arrivals v
  as.filter fun a => as.any fun b => s.dissolves b a

/-- R159: what was put off in a wave that goes on has been judged again. -/
def State.judged (s : State) (w : Nat) : State :=
  if (s.putOff w) != 0#32 || (s.wave w).left == 0#32 then s else s.modWave w fun x => { x with left := 0#32 }

/-- R157, R159: in each wave of a team RDVMIX is taken for what is dissolved at all its levels together. -/
def State.dissolve (s : State) (tk : Nat) (vs : List Lvl) : State :=
  let ds := vs.flatMap s.dissolved
  (s.team tk).waves.foldl (fun s w => (s.judged w).rdvmix w ((ds.filter fun a => a.w == w).map fun a => (a.pc, a.l))) s

/-- Members become RUNNING past the instruction at which they met (R156 step 3). -/
def State.releaseLanes (s : State) (ls : List (Nat × Nat)) : State :=
  ls.foldl (fun s e => s.modWave e.1 fun x =>
    let ln := x.lane e.2
    let c := x.clauseOf e.2
    let x := x.setLane e.2 { ln with pc := ln.pc + 4#64, st := .running }
    if ln.pc + 4#64 == c.next then x.unbundle (1#32 <<< e.2) else x) s

/-- What executing a wide instruction answers. -/
inductive Wide where
  | done (s : State)
  | copy (s : State) (id : Nat)
  | fault (s : State) (f : FaultInfo)
  | wait (s : State)
  deriving DecidableEq, Repr, Inhabited

/-- The bundle of an arrived lane. -/
def State.arrBundle (s : State) (a : Arr) : Bundle := ((s.wave a.w).bundleOf a.l).getD {}

/-- R122: the positions of a level's group. -/
def State.positions (s : State) (v : Lvl) (as : List Arr) : List Pos :=
  (s.lvlWaves v).flatMap fun e => (lanesOf e.2).map fun l =>
    { w := e.1, b := ((s.wave e.1).bundleOf l).getD {}, l := l, act := as.any fun a => a.w == e.1 && a.l == l && a.act }

/-- R193: the flags a wide operation counts: one of each member wave's clause. -/
def State.wideFlags (s : State) (as : List Arr) (load : Bool) : List (Nat × Nat) :=
  (as.map fun a => (a.w, ((s.wave a.w).clauseOf a.l).flagFor load)).eraseDups

/-- A walk for this wave and page is already on its way. -/
def State.walking (s : State) (w : Nat) (va : DWord) : Bool :=
  s.m.walks.any fun k => k.2.engine.isNone && k.2.wave == w && k.2.va.toNat / 2 ^ 16 == va.toNat / 2 ^ 16 && !k.2.drop

/-- Starts a walk unless one is on its way. -/
def State.needWalk (s : State) (w : Nat) (va : DWord) (n : Need) : State :=
  if s.walking w va then s else (s.startWalk w va n).2

/-- R193: a memory L-word at a wide scope, performed once by the leader. -/
def State.wideMem (s : State) (sc : Scope) (sset : Nat) (as : List Arr) (m : MemL) : Wide :=
  match as.find? fun a => a.act with
  | none => .done s
  | some ld =>
    let x := s.wave ld.w
    let b := s.arrBundle ld
    let fl := s.wideFlags as m.isLoad
    let ws := (as.map fun a => a.w).eraseDups
    match s.reqOf ld.w b ld.l m with
    | .error f => .fault s f
    | .ok r =>
      match s.checkReq { s.agentOf ld.w with joint := x.taskWave } (s.teamOf ld.w).scratch r with
      | .bad f => .fault s f
      | .walk va n => .wait (s.needWalk ld.w va n)
      | .ok p =>
        if s.flagsFull fl || s.windowLacks (coreOf ld.w) ws.length then .wait s
        else
          let p := ({ p with lane := ld.l, lanes := 1#32 <<< ld.l }).to ld.w m.reg ((as.filter (fun (a : Arr) => a.act)).map (fun (a : Arr) => (a.w, a.l)))
          .done (s.issueMem ld.w ws ld.pc sc sset m [p] fl (if sc == .wave then maskOf (as.map fun a => a.l) else 0xFFFFFFFF#32))

/-- R255: reads the record of a COPY as sixteen 8-byte loads of the leader's lane: the bytes, or a
fault, or a walk. -/
def State.readRecord (s : State) (w : Nat) (va : DWord) : Except FaultInfo (List Byte) × Option DWord :=
  (List.range 16).foldl (fun (r : Except FaultInfo (List Byte) × Option DWord) i =>
    match r with
    | (.error f, o) => (.error f, o)
    | (.ok bs, some k) => (.ok bs, some k)
    | (.ok bs, none) =>
      match s.check (s.agentOf w) .load (va + BitVec.ofNat 64 (8 * i)) 8 with
      | .bad f => (.error f, none)
      | .walk k _ => (.ok bs, some k)
      | .ok a =>
        let (v, bad) := s.readPa (some (coreOf w)) a.pa 8
        if bad then (.error { code := cECCU, addr := a.va.toNat, paddr := a.pa }, none) else (.ok (bs ++ leBytes 8 v), none)) (.ok [], none)

/-- R255, R232: the reads of a record as one operation of the leader's lane: sixteen parts of class PL. -/
def State.recordOp (s : State) (w lane : Nat) (pc va : DWord) : Op :=
  { wave := w, grid := (s.wave w).grid, core := coreOf w, pc := pc, kind := .record, done := true
    parts := (List.range 16).filterMap fun i => match s.check (s.agentOf w) .load (va + BitVec.ofNat 64 (8 * i)) 8 with
      | .ok a => some { wave := w, lane := lane, lanes := 1#32 <<< lane, va := a.va, pa := a.pa, size := 8, dom := a.dom, cache := a.cache }
      | _ => none }

/-- R255, R335: the requests for a record, made together for its wave (DESIGN CHOICE, log 63). -/
def State.recordAsks (s : State) (o : Op) : List Ask := (o.parts.flatMap fun p => s.partAsks o p (askAgent 7 o.wave)).foldl mergeAsk []

/-- R255: the address of the record, in the wave of set rank 0. -/
def State.recordVa (s : State) (w sset : Nat) (a : Ext) : DWord :=
  match a with
  | .s k => (s.wave ((s.setWaves w sset).headD w)).spair k
  | _ => 0#64

/-- R255, R230: the reads of a copy's record take place, each with its own PLT, in ascending address order. -/
def State.noteRecord (s : State) (copy : Nat) (ld : Arr) : State :=
  match ld.op with
  | .copy _ _ a _ _ =>
    let o := s.recordOp ld.w ld.l ld.pc (s.recordVa ld.w (s.copy copy).sset a)
    let s := o.parts.foldl (fun (s : State) p => s.yieldLine (some o.core) (p.pa / 64)) s
    let (id, s) := s.issueOp [ld.w] o
    let s := (List.range o.parts.length).foldl (fun (s : State) i => s.stampRead id i) s
    s.afterPerform id
  | _ => s

/-- R255: COPY executes once for its set. -/
def State.wideCopy (s : State) (sset : Nat) (as : List Arr) (nxt : Bool) (h : Nat) (a : Ext) (dir q : Nat) : Wide :=
  match as.find? fun k => k.act with
  | none => .done s
  | some a0 =>
    let w0 := a0.w
    let ws := s.setWaves w0 sset
    let fl := s.wideFlags as false
    if s.flagsFull fl || s.windowFull (coreOf w0) then .wait s
    else
      let va := s.recordVa w0 sset a
      let r := s.passAsks (s.recordAsks (s.recordOp w0 a0.l a0.pc va))
      if !r.1 then .wait r.2
      else
      let read := s.readRecord w0 va
      let s := r.2.agentDone (askAgent 7 w0)
      match read with
      | (.error f, _) => .fault s f
      | (.ok _, some k) => .wait (s.needWalk w0 k .load)
      | (.ok bs, none) =>
        let tk := s.teamKey w0
        let c : Copy := copyOfRecord bs {
          live := true, team := tk, grid := (s.wave w0).grid, sset := sset, members := ws, pc := a0.pc, next := nxt, h := h, dir := dir,
          flags := fl, order := s.o.next,
          coords := ws.map fun w => (List.range 5).map fun i => ((s.wave w).sreg (8 * q + i)).toInt }
        if s.badShape bs c then .fault s (prot rSHAPE va.toNat)
        else match s.copyFault c with
          | some f => .fault s f
          | none =>
            let id := s.o.next
            let s := { s with o := { s.o with next := id + 1 } }
            let s := fl.foldl (fun s e => s.flagUp e.1 e.2) s
            .copy (s.setCopy id c) id

/-- R121, R123, R156 step 3: the instruction executes once for its group. -/
def State.wideExec (s : State) (v : Lvl) (sc : Scope) (sset : Nat) (as : List Arr) (op : LOp) : Wide :=
  let act := (as.filter fun a => a.act).map fun a => (a.w, s.arrBundle a, a.l)
  match op with
  | .coll c => .done (s.writeAll (s.collWrites (s.positions v as) (sc == .set) c))
  | .mem m => s.wideMem sc sset as m
  | .copy nxt h a dir q => s.wideCopy sset as nxt h a dir q
  | op => .done (s.lanesEffect act op)

/-- R110: waves of a TEAM-scope rendezvous whose SATF is set, while SATCTL.ARM is set. -/
def State.satArmed (s : State) (v : Lvl) : List Nat :=
  match v with
  | .team tk => if (s.team tk).satctl then (s.team tk).waves.filter fun w => (s.wave w).satf && (s.wave w).live != 0#32 else []
  | _ => []

/-- R110: SATARM. -/
def State.satTrap (s : State) (ws : List Nat) (pc : DWord) : State :=
  ws.foldl (fun s w =>
    let x := s.wave w
    s.inWaveTrap w causeSATARM false pc x.live (some (x.clauseOfMask (x.trapLanes x.live))) true) s

/-- Marks the check of R110 as made for the lanes that wait. -/
def State.markChecked (s : State) (as : List Arr) : State :=
  as.foldl (fun s a => s.modWave a.w fun x =>
    let ln := x.lane a.l
    match ln.st with
    | .waiting (.rdv sc i ac op ord _) => x.setLane a.l { ln with st := .waiting (.rdv sc i ac op ord true) }
    | _ => x) s

/-- R222, R232: the ordering of a rendezvous completion, class FB at CORE scope, is met. -/
def State.fbReady (s : State) (ls : List (Nat × Nat)) : Bool :=
  ((ls.map fun e => e.1).eraseDups).all fun w =>
    s.mayPerform { w := w, lanes := maskOf ((ls.filter fun e => e.1 == w).map fun e => e.2), cls := .fb, dom := .core, po := (s.wave w).po, part := {} }

/-- The leader of some arrivals (R193), or the first where none is active. -/
def leaderOf (as : List Arr) : Arr := (as.find? fun a => a.act).getD (as.headD ⟨0, 0, 0#64, false, .nop, 0, false⟩)

/-- R160: a system fault of a wide instruction suspends every member wave and changes no status; the record names a wave and a
lane. -/
def State.wideFaultOf (s : State) (v : Lvl) (as : List Arr) (w lane : Nat) (f : FaultInfo) : State :=
  let pc := (leaderOf as).pc
  match v with
  | .tile w _ =>
    let m := maskOf (as.map fun a => a.l)
    let sp := s.specLanes w m
    let s := if sp == 0#32 then s else s.stopTasks w sp
    if m &&& ~~~sp == 0#32 then s else s.sysFault [w] 0 w (if lane < 32 && hasLane sp lane then lowest (m &&& ~~~sp) else lane) pc f
  | .set .. => s.sysFault ((s.lvlWaves v).map fun e => e.1) 1 w lane pc f
  | .team .. => s.sysFault ((s.lvlWaves v).map fun e => e.1) 2 w lane pc f

/-- R160: a system fault of the leader. -/
def State.wideFault (s : State) (v : Lvl) (as : List Arr) (f : FaultInfo) : State := s.wideFaultOf v as (leaderOf as).w (leaderOf as).l f

/-- R121, R192, R193, R255: the registers that a wide instruction reads as it executes, each with its wave: the leader's for a
memory word, the operands of COPY, else those of every wave with an active arrival. -/
def State.wideReads (s : State) (sset : Nat) (as : List Arr) (op : LOp) : List (Nat × RegClass × Nat) :=
  if as.all fun a => !a.act then []
  else
    let ld := leaderOf as
    match op with
    | .mem m => (m.regs (op.o4 (s.gridOf ld.w))).map fun r => (ld.w, granule ld.l r)
    | .copy _ _ a _ q =>
      let ws := s.setWaves ld.w sset
      ((Ext.regs a true).map fun r => (ws.headD ld.w, r)) ++ ws.flatMap fun w => (List.range 5).map fun i => (w, .s, 8 * q + i)
    | op => (((as.filter fun a => a.act).map fun a => a.w).eraseDups).flatMap fun w =>
        (granules (maskOf ((as.filter fun a => a.act && a.w == w).map fun a => a.l)) (op.regs false)).map fun r => (w, r)

/-- R192: the first of them whose parity check fails. -/
def State.wideParity (s : State) (sset : Nat) (as : List Arr) (op : LOp) : Option (Nat × RegClass × Nat) :=
  (s.wideReads sset as op).find? fun r => (s.wave r.1).parity.contains r.2

/-- R156: completes the rendezvous of a level when every member waits at one address.  The record of a register whose parity check
fails names the wave of the first that fails, in wave and operand order, and its lane, if it is a v-register (DESIGN CHOICE, log 62). -/
def State.tryComplete (s : State) (v : Lvl) (sc : Scope) (sset : Nat) : State :=
  let as := s.arrivals v
  let ms := s.members v
  match as with
  | [] => s
  | a0 :: _ =>
    if !as.all (fun a => a.pc == a0.pc) || as.length != ms.length || (s.lvlWaves v).any fun e => s.suspended e.1 then s
    else
      let sat := if as.all fun a => a.ok then [] else s.satArmed v
      if !sat.isEmpty then s.satTrap sat a0.pc
      else
        let s := if as.all fun a => a.ok then s else s.markChecked as
        if !s.fbReady ms then s
        else match s.wideParity sset as a0.op with
        | some (w, r) => s.wideFaultOf v as w (parityLane r) (parityFault r)
        | none => match s.wideExec v sc sset as a0.op with
          -- the completion performs, and makes no entry: a wide instruction has one (R236)
          | .done s' => ((s'.tickLt (coreOf a0.w)).2).releaseLanes ms
          | .copy s' id =>
            -- the record's reads follow the completion (R255)
            let s' := ((s'.tickLt (coreOf a0.w)).2).noteRecord id (leaderOf as)
            ms.foldl (fun s e => s.modWave e.1 fun x => x.setLane e.2 { x.lane e.2 with st := .waiting (.copySlot id) }) s'
          | .fault s' f => s'.wideFault v as f
          | .wait s' => s'

/-- Every level on which some lane of the team waits. -/
def State.pendingLvls (s : State) (tk : Nat) : List (Lvl × Scope × Nat) :=
  ((s.team tk).waves.flatMap fun w =>
    let x := s.wave w
    (List.range 32).filterMap fun l => match (x.lane l).st with
      | .waiting (.rdv .wave i _ _ _ _) => some (Lvl.tile w (l / 2 ^ x.effTw), Scope.wave, i)
      | .waiting (.rdv .set i _ _ _ _) => some (Lvl.set tk i, Scope.set, i)
      | .waiting (.rdv .team i _ _ _ _) => some (Lvl.team tk, Scope.team, i)
      | _ => none).eraseDups

/-- R232: may an acquire of wave w perform, for some lanes at a scope? -/
def State.acquireReady (s : State) (w : Nat) (m : Mask) (dom : Dom) : Bool :=
  s.mayPerform { w := w, lanes := m, cls := .aq, dom := dom, po := (s.wave w).po, part := {} }

/-- R167: the domain of a route. -/
def Route.dom (r : Route) : Dom :=
  match (r.counts.map fun e => dieOf e.1).eraseDups with
  | [_] => .die
  | _ => .package

/-- R168: a phase is visibly complete, by its number among all phases of the route. -/
def Route.phaseVisible (r : Route) (n : Nat) : Bool := n < r.visible

/-- R168: may WAITB of a route release in this wave? -/
def State.waitbMet (s : State) (w r : Nat) : Bool :=
  let k := (s.wave w).routeRec r
  !k.outstanding || (k.counted && (s.route r).phaseVisible k.seq)

/-- R301: is a finish scope empty?  `n` bounds the depth. -/
def Grid.scopeEmpty (g : Grid) : Nat → Nat → Bool
  | 0, _ => true
  | n + 1, k =>
    (SMap.get {} g.scopes k).live == 0 &&
      g.scopes.all fun e => !(e.2.opened && e.2.parent == some k) || g.scopeEmpty n e.1

/-- The lanes of a wave that wait at something, by a test. -/
def Wave.waitingAt (x : Wave) (p : Wait → Bool) : Mask :=
  maskOf ((List.range 32).filter fun l => match (x.lane l).st with
    | .waiting k => p k
    | _ => false)

/-- R168, R179: WAITB releases the lanes that wait at a route; the record clears. -/
def State.settleWaitb (s : State) (w : Nat) : State :=
  (List.range 8).foldl (fun s r =>
    let x := s.wave w
    let m := x.waitingAt fun k => k == .waitb r
    if m != 0#32 && s.waitbMet w r && s.acquireReady w m (s.route r).dom && !s.windowFull (coreOf w) then
      let pc := (x.lane (lowest m)).pc
      let s := s.noteEvent [w] m .aq (s.route r).dom .waitb .lane pc
      (s.modWave w fun x => x.setRouteRec r {}).releaseLanes ((lanesOf m).map fun l => (w, l))
    else s) s

/-- R307: FSWAIT releases when its scope is empty. -/
def State.settleFswait (s : State) (w : Nat) : State :=
  let x := s.wave w
  let g := s.grid x.grid
  ((List.range 256).filter fun k => (x.waitingAt fun q => q == .fswait k) != 0#32).foldl (fun s k =>
    let m := x.waitingAt fun q => q == .fswait k
    if g.scopeEmpty 257 k && s.acquireReady w m .package && !s.windowFull (coreOf w) then
      let s := s.noteEvent [w] m .aq .package .fswait .lane (x.lane (lowest m)).pc
      s.releaseLanes ((lanesOf m).map fun l => (w, l))
    else s) s

/-- Adds device events that are due and not yet listed. -/
def State.addDue (s : State) (is : List DevEv) : State :=
  { s with sch := { s.sch with due := s.sch.due ++ is.filter fun i => !s.sch.due.contains i } }

/-- R266: the acquire that ends a wait is due as soon as R233 allows, once the awaited state has held. -/
def State.settleHwait (s : State) (w : Nat) : State :=
  let x := s.wave w
  s.addDue (((List.range 32).filter fun l => match (x.lane l).st with
    | .waiting (.hwait _ _ _ true) => ((x.bundleOf l).map fun b => lowest b.lanes) == some l && s.acquireReady w (1#32 <<< l) .core
    | _ => false).map fun l => .handleAcquire w l)

/-- A pending join or rendezvous as a member of R158's set: the lanes that wait at it and those it
still needs. -/
structure Pend where
  join : Option (Nat × Nat)
  lvl : Option (Lvl × DWord)
  waiting : List (Nat × Nat)
  need : List (Nat × Nat)
  deriving DecidableEq, Repr, Inhabited

/-- R158: the pending joins and rendezvous of a team. -/
def State.pends (s : State) (tk : Nat) : List Pend :=
  ((s.team tk).waves.flatMap fun w =>
    let x := s.wave w
    (List.range 16).filterMap fun j =>
      let m := x.joined j
      if m == 0#32 then none
      else some { join := some (w, j), lvl := none, waiting := (lanesOf m).map fun l => (w, l),
                  need := (lanesOf ((x.join j).expect &&& ~~~m &&& x.live)).map fun l => (w, l) }) ++
  ((s.pendingLvls tk).flatMap fun v =>
    let as := s.arrivals v.1
    ((as.map fun a => a.pc).eraseDups).map fun pc =>
      let here := (as.filter fun a => a.pc == pc).map fun a => (a.w, a.l)
      { join := none, lvl := some (v.1, pc), waiting := here, need := (s.members v.1).filter fun m => !here.contains m })

/-- R158, R315: is a lane held by handler mode, or its wave suspended? (DEDUCED, log 27) -/
def State.heldLane (s : State) (e : Nat × Nat) : Bool :=
  let x := s.wave e.1
  s.suspended e.1 || (x.hmode && !hasLane x.hlanes e.2)

/-- R158: removes members with a needed lane that does not wait at a member, until none is left. -/
def State.shrink (s : State) : Nat → List Pend → List Pend
  | 0, b => b
  | n + 1, b =>
    let b' := b.filter fun p => p.need.all fun l => !s.heldLane l && b.any fun q => q.waiting.contains l
    if b'.length == b.length then b else s.shrink n b'

/-- R158: the set B of a team.  A rendezvous that needs no lane any more will complete, and its lanes will move. -/
def State.setB (s : State) (tk : Nat) : List Pend :=
  let p := (s.pends tk).filter fun q => !q.need.isEmpty && !q.waiting.any fun e => s.heldLane e || hasLane (s.putOff e.1) e.2
  s.shrink (p.length + 1) p

/-- R158: resolves the circular waits of a team. -/
def State.resolveWaits (s : State) (tk : Nat) : State :=
  let b := s.setB tk
  if b.any fun p => p.join.isSome then
    b.foldl (fun s p => match p.join with
      | some (w, j) => s.modWave w fun x => x.releaseJoin j true
      | none => s) s
  else
    let due := b.flatMap fun p => p.waiting.map fun e => (e.1, ((p.lvl.map fun v => v.2).getD 0#64, e.2))
    (s.team tk).waves.foldl (fun s w => s.rdvmix w ((due.filter fun e => e.1 == w).map fun e => e.2)) s

/-- R79: the lanes of a bundle whose guard is true. -/
def Wave.guard (x : Wave) (lanes : Mask) (c : Clause) : Mask :=
  if c.ge then maskOf ((lanesOf lanes).filter fun l => x.pred c.gp l != c.gs) else lanes

/-- R78 step 3: a bundle whose flags are clear goes on to issue; the guard is read now (R79). -/
def Bundle.passWait (x : Wave) (b : Bundle) : Bundle :=
  if b.phase == .wait && (List.range 12).all (fun i => b.cl.waitMask / 2 ^ i % 2 == 0 || x.flag i == 0) then
    { b with phase := .body, age := 0, cl := { b.cl with act := x.guard b.lanes b.cl } }
  else b

/-- R78 step 3, for every bundle of a wave. -/
def Wave.passWaits (x : Wave) : Wave := { x with bundles := x.bundles.map (Bundle.passWait x) }

/-- R150: the wave has ended. -/
def Wave.ended (x : Wave) : Bool := x.resident && x.started && x.live == 0#32 && (List.range 12).all fun i => x.flag i == 0

/-- R150: the copies of a team have drained. -/
def State.copiesDrained (s : State) (tk : Nat) : Bool :=
  s.o.copies.all fun e => !e.2.live || (e.2.team != tk && !(e.2.slot.isSome && e.2.dir == 2 && e.2.rteamKey == tk))

/-- R290: a task wave holds a task that runs or has yet to finish. -/
def State.hasTasks (s : State) (w : Nat) : Bool := (s.gridOf w).tasks.any fun e => e.2.st == .running && e.2.wave == some w

/-- Operations of waves that leave their slots keep their program order under keys no later wave has. -/
def State.retire (s : State) (ws : List Nat) : State :=
  let key := fun (w : Nat) => if ws.contains w then w + 2 ^ 20 * (s.o.next + 1) else w
  { s with o := { s.o with
      next := s.o.next + 1
      ops := s.o.ops.map fun (e : Nat × Op) =>
        (e.1, { e.2 with wave := key e.2.wave, pos := e.2.pos.map fun p => (key p.1, p.2), left := e.2.left.map key }) } }

/-- R150, R332: a team whose waves have ended frees its place. -/
def State.endTeam (s : State) (tk : Nat) : State :=
  let t := s.team tk
  if t.resident && t.started && !t.saving && t.waves.all (fun w => (s.wave w).ended && !s.hasTasks w) && s.copiesDrained tk then
    let s := if tk < 2 ^ 16 then s.modGrid t.grid fun g => { g with ended := g.ended ++ [t.num] } else s
    let s := t.waves.foldl (fun s w => s.setWave w {}) s
    let s := { s with x := { s.x with groups := (s.x.groups.map fun (g : Group) => { g with waves := g.waves.filter fun w => !t.waves.contains w }).filter fun g => !g.waves.isEmpty } }
    ((s.dropFailed t.waves).retire t.waves).setTeam tk {}
  else s

/-- R150, R279: has every release of the grid completed and every held contribution been applied? -/
def State.gridQuiet (s : State) (g : Nat) : Bool :=
  (s.o.ops.all fun e => !(e.2.parts.any fun p => p.relOpen) || e.2.grid != g) && s.o.held.all fun c => c.grid != g

/-- R150, R307: the grid has ended. -/
def State.gridEnded (s : State) (g : Nat) : Bool :=
  let x := s.grid g
  x.live && x.ended.length == x.nteams && !x.tasksLive && s.gridQuiet g &&
  !s.x.waves.any fun e => e.2.resident && e.2.grid == g

/-- Judges everything that may go on in a team after a change: joins, rendezvous, waits, flags, ends (DEDUCED, log 27). -/
def State.settle (s : State) (tk : Nat) : State :=
  let t := s.team tk
  let s := t.waves.foldl (fun s w => s.modWave w fun x => (x.judgeJoins).passWaits) s
  let s := s.dissolve tk ((s.pendingLvls tk).map fun v => v.1)
  let s := (s.pendingLvls tk).foldl (fun s v => s.tryComplete v.1 v.2.1 v.2.2) s
  let s := t.waves.foldl (fun s w => if s.suspended w then s else ((s.settleWaitb w).settleFswait w).settleHwait w) s
  let s := t.waves.foldl (fun s w => s.modWave w fun x => x.passWaits) s
  let s := if (s.setB tk).isEmpty then s else s.addDue [.waitCycleResolution tk]
  let s := s.endTeam tk
  if s.gridEnded t.grid && t.resident then s.addDue [.launchComplete t.grid] else s

end Sys2Proof.Machine
end

