-- ==== Sys2Proof/Machine/Flags.lean ====
section
/-! DEFINITION. What is checked before an instruction does anything (R82, R90, R91, R149, R56, R192), and
the completion flags an operation counts (R83). -/

namespace Sys2Proof.Machine

open Sys2Proof

/-- What an instruction brings to the checks of R91. -/
structure Pre where
  bad : Bool := false                     -- ILLOP by its word or by the state (R90)
  last : Bool := false                    -- it ends its clause (R80)
  flag : Option Nat := none               -- the flag field of a long-latency operation (R82)
  set : Bool := false                     -- SET scope (R90)
  role : Option Role := none              -- the role that may issue it (R149)
  top : Nat := 0                          -- one more than its largest v-register index (R56)
  outside : Bool := false                 -- it names an accumulator slot the wave does not have (R56)
  reads : List (RegClass × Nat) := []     -- the register granules it reads (R32, R192)
  perLane : Bool := false                 -- only its active lanes read them (R120)
  deriving DecidableEq, Repr, Inhabited

/-- R90: SET scope with a set not declared, or that does not hold the issuing wave.  In a task wave R290 has its own answer
(DEDUCED, log 23). -/
def Cx.badSet (c : Cx) : Bool := !c.x.taskWave && (c.g.set c.b.cl.sset == 0 || !c.g.inSet c.b.cl.sset c.x.widx)

/-- R90: is the instruction illegal where it stands? (DEDUCED, log 23) -/
def Pre.illop (p : Pre) (c : Cx) : Bool :=
  p.bad || (p.last && !c.isLast) || p.flag == some 15 || (p.set && c.badSet)

/-- R61, R91: the first in-wave cause among ILLOP, ROLE and REGBOUND. -/
def Pre.cause (p : Pre) (c : Cx) : Option Nat :=
  if p.illop c then some causeILLOP
  else if p.role.isSome && p.role != some c.x.role then some causeROLE
  else if c.x.vcount < p.top || p.outside then some causeREGBOUND
  else none

/-- R120, R123: the registers an instruction reads in its active lanes; none where no lane is active. -/
def Cx.inLanes (c : Cx) (rs : List (RegClass × Nat)) : List (RegClass × Nat) := if c.act == 0#32 then [] else granules c.act rs

/-- R192: the first register read whose parity check fails (DEDUCED, log 26). -/
def Pre.parity (p : Pre) (c : Cx) : Option (RegClass × Nat) := p.reads.find? fun r => c.x.parity.contains r

/-- R192, R300: the lanes that read a register whose parity check fails. -/
def Pre.parityLanes (p : Pre) (c : Cx) : Mask :=
  let bad := p.reads.filter fun r => c.x.parity.contains r
  if bad.all fun r => r.1 == .v then maskOf (bad.map fun r => r.2 % 32) else if p.perLane then c.act else c.b.lanes

/-- R192, R300: an instruction whose in-wave traps are past reads its registers. -/
def State.runReads (s : State) (c : Cx) (p : Cx → Pre) (body : Cx → State → State) : State :=
  match (p c).parity c with
  | some r => s.meets c ((p c).parityLanes c) body fun s => s.faultAt c (parityLane r) ((p c).parityLanes c) (parityFault r)
  | none => body c s

/-- Runs an instruction of the issuing bundle: the checks of R91 first, in their order, then its own effect.  `own` gives
the instruction's own in-wave trap: its cause and the lanes that meet it. -/
def State.run (s : State) (p : Cx → Pre) (body : Cx → State → State)
    (own : State → Cx → Option (Nat × Mask) := fun _ _ => none) : State :=
  match s.cx with
  | none => s
  | some c =>
    match (p c).cause c with
    | some k => s.trapAll c k
    | none =>
      match own s c with
      | some k => s.meets c k.2 (fun c s => s.runReads c p body) fun s => s.trapAt c k.1 k.2
      | none => s.runReads c p body

/-- R83: the flags an operation of one bundle counts. -/
def Cx.flags (c : Cx) (load : Bool) : List (Nat × Nat) := [(c.w, c.b.cl.flagFor load)]

/-- R83, R236: an issue that would pass 255 or find the window full has no effect yet. -/
def State.full (s : State) (c : Cx) (fl : List (Nat × Nat)) : Bool := s.flagsFull fl || s.windowFull (coreOf c.w)

/-- Starts the walk a bundle needs, or joins the one on its way, and stalls the bundle on it (R191). -/
def State.stallWalk (s : State) (c : Cx) (va : DWord) (need : Need) : State :=
  match s.m.walks.find? (fun k => k.2.engine.isNone && k.2.wave == c.w && k.2.va.toNat / 2 ^ 16 == va.toNat / 2 ^ 16 && !k.2.drop && k.2.failed.isNone) with
  | some k => s.stall c (.walk k.1)
  | none =>
    let (id, s) := s.startWalk c.w va need
    s.stall c (.walk id)

/-- R191, R300: the fault of the lowest failing lane; in a task wave every failing speculative lane's
task stops instead, and the lanes that do not fail perform the instruction first, as `others` says. -/
def State.faultLanes (s : State) (c : Cx) (bad : List (Nat × FaultInfo)) (others : Cx → State → State) : State :=
  let m := maskOf (bad.map fun e => e.1)
  s.meets c m others fun s =>
    let sp := s.specLanes c.w m
    let s := if sp == 0#32 then s else s.stopTasks c.w sp
    match bad.find? fun e => !hasLane sp e.1 with
    | none => s
    | some (l, f) => s.sysFault [c.w] 0 c.w l c.pc f

end Sys2Proof.Machine
end

