-- ==== Sys2Proof/Machine/Fetch.lean ====
section
/-! DEFINITION. Instruction fetch (R170, R210-R213, R334) and clause starts (R78). -/

namespace Sys2Proof.Machine

open Sys2Proof

/-- R210: a word the wave has run ahead to. -/
def Wave.fetched (x : Wave) (va : DWord) : Option Word := SMap.get none x.ibuf (va.toNat / 4)
/-- Notes a fetched word. -/
def Wave.setFetched (x : Wave) (va : DWord) (v : Option Word) : Wave := { x with ibuf := SMap.set none x.ibuf (va.toNat / 4) v }

/-- R334: a line of a die's instruction cache. -/
def State.icLine (s : State) (die line : Nat) : Line := SMap.get {} s.m.icache (4 * line + die)
/-- Writes it. -/
def State.setIc (s : State) (die line : Nat) (x : Line) : State :=
  { s with m := { s.m with icache := SMap.set {} s.m.icache (4 * line + die) x } }

/-- The answer of a fetch: the word, a stall, or a fault. -/
inductive Fetched where
  | word (v : Word) (s : State)
  | wait (s : State) (why : Stall)
  | bad (f : FaultInfo)
  deriving DecidableEq, Repr, Inhabited

/-- R334: a miss of a wave at a line; slipcnt counts it. -/
def State.startMiss (s : State) (w : Nat) (va : DWord) (pa cache : Nat) : Nat × State :=
  let id := s.o.next
  let t := (s.gridOf w).tenant
  let s := s.modCore (coreOf w) fun k => { k with slip := SMap.set 0#32 k.slip t (SMap.get 0#32 k.slip t + 1#32) }
  (id, { s with m := { s.m with misses := SMap.set {} s.m.misses id { wave := w, pa := pa, va := va, cache := cache } }, o := { s.o with next := id + 1 } })

/-- R170, R334: the fetch of one word that a clause needs: from what the wave has run ahead to, else from the
die's instruction cache. -/
def State.fetch (s : State) (w : Nat) (va : DWord) : Fetched :=
  match (s.wave w).fetched va with
  | some v => .word v s
  | none =>
    match s.check (s.agentOf w) .fetch va 0 with
    | .bad f => .bad f
    | .walk va n => let (id, s) := s.startWalk w va n; .wait s (.walk id)
    | .ok a =>
      let l := s.icLine (dieOf (coreOf w)) (a.pa / 64)
      if l.valid then
        if l.poison.getLsbD (a.pa % 64 / 4) then .bad { code := cECCU, addr := va.toNat, paddr := a.pa }
        else
          .word (BitVec.ofNat 32 (bytesAt l.data (a.pa % 64) 4)) s
      else let (id, s) := s.startMiss w va a.pa a.cache; .wait s (.miss id)

/-- R78, R210: several words in order: the words, and the end or the first that is not there. -/
def State.fetchMany (s : State) (w : Nat) : List DWord → List Word × Fetched
  | [] => ([], .word 0#32 s)
  | va :: rest =>
    match s.fetch w va with
    | .word v s => let r := s.fetchMany w rest; (v :: r.1, r.2)
    | r => ([], r)

/-- R210: the word of the issuing bundle's instruction: from its clause as fetched at its start, else
fetched now (a header; a clause context that came back from a save area). -/
def State.wordAt (s : State) (c : Cx) : Fetched :=
  match (if c.b.phase == .body then c.b.cl.code[(c.pc - c.b.cl.hdr - 8#64).toNat / 4]? else none) with
  | some v => .word v s
  | none => s.fetch c.w c.pc

/-- R77, R78: the extension word breaks R77, or guards by a predicate that does not exist. -/
def badExtension (e : Word) : Bool :=
  e.toNat % 16 != 0 || (!e.getLsbD 15 && e.toNat / 2 ^ 8 % 128 != 0) || (e.getLsbD 15 && 48 ≤ e.toNat / 2 ^ 9 % 64)

/-- R78 step 2: a header fault: ILLOP with HDR = 1 (DEDUCED, log 36). -/
def State.headerTrap (s : State) (c : Cx) : State :=
  let sp := s.specLanes c.w c.b.lanes
  if sp == 0#32 then s.inWaveTrap c.w causeILLOP true c.pc c.b.lanes none false
  else
    let s := s.stopTasks c.w sp
    let rest := c.b.lanes &&& ~~~sp
    if rest == 0#32 then s else s.inWaveTrap c.w causeILLOP true c.pc rest none false

/-- R78 steps 2 and 3, for a bundle past step 1 whose header word is CLAUSE (DEDUCED, log 36). -/
def State.startClause (s : State) (c : Cx) (word : Word) (badFlags : Bool) : State :=
  if badFlags then s.headerTrap c
  else match s.fetch c.w (c.pc + 4#64) with
    | .bad f => s.faultAt c (lowest c.b.lanes) c.b.lanes f
    | .wait s why => s.stall c why
    | .word e s =>
      if badExtension e then s.headerTrap c
      else match s.fetchMany c.w ((List.range (word.toNat % 16 + 1)).map fun i => c.pc + BitVec.ofNat 64 (8 + 4 * i)) with
        | (_, .bad f) => s.faultAt c (lowest c.b.lanes) c.b.lanes f
        | (_, .wait s why) => s.stall c why
        | (code, .word _ s) => s.modWave c.w fun x =>
            let x := x.setPcs c.b.lanes (c.pc + 8#64)
            x.setBundle c.b.lanes (Bundle.passWait x { c.b with cl := { hdr := c.pc, word := word, ext := e, code := code }, phase := .wait, stall := .none, age := 0 })

/-- R78 step 1: the lanes of a wave at a header that a new bundle merges: RUNNING there, not stalled (R296), and in no
bundle that is past this step. -/
def Wave.startable (x : Wave) (pc : DWord) : Mask :=
  maskOf ((List.range 32).filter fun l => (x.lane l).st.isRunning && (x.lane l).pc == pc && (x.bundleOf l).isNone && !hasLane x.stuck l)

/-- R164: in handler mode only the handler's lanes start clauses. -/
def Wave.free (x : Wave) (l : Nat) : Bool := !x.hmode || hasLane x.hlanes l

/-- R78 step 1: a bundle is formed at a header. -/
def Wave.formBundle (x : Wave) (pc : DWord) : Wave :=
  let m := maskOf ((lanesOf (x.startable pc)).filter x.free)
  if m == 0#32 then x else { x with bundles := x.bundles ++ [{ lanes := m, cl := { hdr := pc }, handler := x.hmode }] }

end Sys2Proof.Machine
end

