-- ==== Sys2Proof/Machine/Load.lean ====
section
/-! DEFINITION. A loaded wave in front of one instruction: what a launch leaves (R147, R328-R332), in its
smallest form. -/

namespace Sys2Proof.Machine

open Sys2Proof

/-- Every lane of a wave. -/
def allLanes : Mask := 0xFFFFFFFF#32

/-- R149: a role that may issue the word. -/
def roleFor (v : Word) : Role :=
  let op := v.toNat / 2 ^ 24
  if op == 0x3A then .copy else if 0x7A ≤ op && op ≤ 0x7F then .matrix else .general

/-- The wave: one bundle, at the only instruction of the clause at 0 as fetched, or at the header itself for a
CLAUSE word, which the wave has run ahead to with the words after it. -/
def Wave.loaded (v : Word) : Wave :=
  let hd := v.toNat / 2 ^ 24 == 0x80
  let pc : DWord := if hd then 0#64 else 8#64
  let x : Wave := { resident := true, started := true, role := roleFor v, vcount := 128, slots := 16
                    lanes := (List.range 32).map fun l => (l, { pc := pc, st := .running })
                    bundles := [{ lanes := allLanes, phase := if hd then .header else .body,
                                  cl := { hdr := 0#64, word := 0x80000010#32, act := allLanes, code := [v] } }]
                    ibuf := (List.range 18).map fun i => (i, some 0#32) }
  x.setFetched pc (some v)

/-- The launch: one team of one wave, which is set 0. -/
def Grid.loaded : Grid :=
  { live := true, nteams := 1, nwaves := 1, placed := 1, sets := [1], roles := [.general], consts := List.replicate 32 0#32 }

/-- The state with that launch in wave slot 0 of core 0 and its bundle chosen. -/
def State.loadWord (s : State) (v : Word) : State :=
  let s := ((s.setWave 0 (Wave.loaded v)).setTeam 0 { resident := true, started := true, waves := [0], scratch := 4096 }).setGrid 0 Grid.loaded
  let s := s.modCore 0 fun k => { k with gated := false }
  { s with sch := { s.sch with due := [], issueQ := [(0, allLanes)] }, x := { s.x with groups := [] } }

end Sys2Proof.Machine
end

