-- ==== Sys2Proof/Machine/Sched.lean ====
section
/-! DEFINITION. Which bundles issue (R151-R154, R164, R178), the start of clauses, and the cycle. -/

namespace Sys2Proof.Machine

open Sys2Proof

/-- R152: nothing stalls the bundle, or what stalled it is over. -/
def State.stallOver (s : State) (w : Nat) (b : Bundle) : Bool :=
  match b.stall with
  | .none => true
  | .full fs => !(s.flagsFull fs || s.windowFull (coreOf w))
  | .fence cls dom => !s.windowFull (coreOf w) &&
      s.mayPerform { w := w, lanes := b.lanes, cls := cls, dom := dom, po := (s.wave w).po, part := {}, fence := true }
  | _ => false

/-- R152, R315: nothing stalls the bundle and its lanes are RUNNING at one address. -/
def State.able (s : State) (w : Nat) (b : Bundle) : Bool :=
  let x := s.wave w
  let pc := (x.lane (lowest b.lanes)).pc
  x.resident && x.started && s.reg.warm.isNone && !s.suspended w && !(s.core (coreOf w)).gated && s.stallOver w b && b.phase != .wait &&
  b.lanes != 0#32 && (lanesOf b.lanes).all fun l => (x.lane l).st.isRunning && (x.lane l).pc == pc

/-- R152, R164: the bundle is ready and not held by handler mode. -/
def State.ready (s : State) (w : Nat) (b : Bundle) : Bool := s.able w b && !((s.wave w).hmode && !b.handler)

/-- The ready bundles of a wave that stand at an instruction. -/
def State.readyOf (s : State) (w : Nat) : List Bundle :=
  (s.wave w).bundles.filter fun b => b.phase == .body && s.ready w b

/-- R152: is bundle a chosen before bundle b?  Overdue bundles by age, then population, then the lower
program counter, then the lower lowest lane. -/
def Wave.before (x : Wave) (a b : Bundle) : Bool :=
  let ga := if 32 ≤ a.age then a.age else 0
  let gb := if 32 ≤ b.age then b.age else 0
  let pa := population a.lanes
  let pb := population b.lanes
  let ca := ((x.lane (lowest a.lanes)).pc).toNat
  let cb := ((x.lane (lowest b.lanes)).pc).toNat
  gb < ga || (ga == gb && (pb < pa || (pa == pb && (ca < cb || (ca == cb && lowest a.lanes < lowest b.lanes)))))

/-- The bundle chosen first of a list. -/
def Wave.best (x : Wave) : List Bundle → Option Bundle
  | [] => none
  | b :: bs => match x.best bs with
    | none => some b
    | some k => if x.before b k then some b else some k

/-- R152: the bundles chosen, at most two, first chosen first. -/
def Wave.choice (x : Wave) (bs : List Bundle) : List Bundle :=
  match x.best bs with
  | none => []
  | some a => match x.best (bs.filter fun b => b.lanes != a.lanes) with
    | none => [a]
    | some b => [a, b]

/-- R178: a wave whose YIELD is in force gives way to other waves of its partition with ready bundles. -/
def State.yields (s : State) (core part slot : Nat) : Bool :=
  s.sch.cycle < (s.wave (waveKey core part slot)).yieldUntil &&
  (List.range 16).any fun k => k != slot && !(s.readyOf (waveKey core part k)).isEmpty

/-- R153: of two bundles that need one port, the one with more lanes issues, then the one at the lower program counter, and of two at
one address the one R152 chose first (DESIGN CHOICE, log 62). -/
def Wave.portWinner (x : Wave) (bs : List Bundle) : List Bundle :=
  match bs with
  | [a, b] =>
    let pa := population a.lanes
    let pb := population b.lanes
    let ca := (x.lane (lowest a.lanes)).pc
    let cb := (x.lane (lowest b.lanes)).pc
    if pa < pb || (pa == pb && cb < ca) then [b] else [a]
  | bs => bs

/-- R154: the wave slots of a partition with a bundle ready, each with the cycles, this one among them, in one of which it must
be chosen. -/
def State.dues (s : State) (core part : Nat) : List (Nat × Nat) :=
  ((List.range 16).filter fun k => !(s.readyOf (waveKey core part k)).isEmpty && !s.yields core part k).map fun k =>
    (k, 16 - (s.wave (waveKey core part k)).waited)

/-- R154: the wave slots one of which must be chosen in this cycle, if all are to be chosen in time. -/
def State.tight (s : State) (core part : Nat) : List Nat :=
  let d := s.dues core part
  match (List.range 17).find? fun m => m != 0 && m ≤ (d.filter fun e => e.2 ≤ m).length with
  | some m => (d.filter fun e => e.2 ≤ m).map fun e => e.1
  | none => []

/-- R152: has a partition chosen in this cycle? -/
def State.hasChosen (s : State) (core part : Nat) : Bool := SMap.get 0 (s.core core).chose part == s.sch.cycle + 1

/-- R154: a bundle that must not lose a port again, if all are to issue within 64 choices: 32 bundles issue in 16 (DEDUCED, log 27). -/
def Bundle.pressing (b : Bundle) : Bool := 48 ≤ b.age

/-- R152-R154: a partition chooses a wave in this cycle.  Whether two bundles need one port (R153), for which the spec gives no
pattern, is a free choice (DESIGN CHOICE, log 3).  A bundle held by handler mode ages too. -/
def State.choose (s : State) (core part slot : Nat) : State :=
  let w := waveKey core part slot
  let x := s.wave w
  let k := s.core core
  let bs := s.readyOf w
  if 4 ≤ part || 16 ≤ slot || s.hasChosen core part || bs.isEmpty || s.yields core part slot ||
      (!(s.tight core part).isEmpty && !(s.tight core part).contains slot) then s
  else
    let (n, s) := s.draw
    let pick := if Config.freeBool n || (x.choice bs).any Bundle.pressing then x.choice bs else x.portWinner (x.choice bs)
    let aged := x.bundles.map fun b =>
      if b.phase == .body && s.able w b && !pick.any (fun r => r.lanes == b.lanes) then { b with age := b.age + 1 } else b
    let s := s.setWave w { x with bundles := aged }
    let s := s.setCore core { k with chose := SMap.set 0 k.chose part (s.sch.cycle + 1), picked := SMap.set 0 k.picked part slot }
    { s with sch := { s.sch with issueQ := pick.map fun b => (w, b.lanes) } }

/-- R78 step 1: lanes at a header form a bundle, or the bundle past step 1 there goes on. -/
def State.startAt (s : State) (w : Nat) (pc : DWord) : State :=
  let x := s.wave w
  if !x.resident || !x.started || s.suspended w || (s.teamOf w).saving then s
  else
    let x := if x.bundles.any (fun b => b.phase == .header && b.cl.hdr == pc) then x else x.formBundle pc
    let s := s.setWave w x
    let bs := x.bundles.filter fun b => b.phase == .header && b.cl.hdr == pc && s.ready w b
    { s with sch := { s.sch with issueQ := bs.map fun b => (w, b.lanes) } }

/-- R168: completions that have become visible. -/
def Route.tick (r : Route) (now : Nat) : Route :=
  { r with visible := r.visible + (r.doneAt.filter fun e => e.2 ≤ now).length, doneAt := r.doneAt.filter fun e => now < e.2 }

/-- R154: a partition that must choose before the cycle ends, with the wave slot. -/
def State.mustChoose (s : State) : Option (Nat × Nat × Nat) :=
  s.x.waves.findSome? fun e =>
    let core := coreOf e.1
    let part := e.1 / 16 % 4
    if s.hasChosen core part then none else ((s.tight core part).head?).map fun k => (core, part, k)

/-- R154: the cycles each wave has had a bundle ready without being chosen, as this cycle ends. -/
def State.countWaits (s : State) : State :=
  s.x.waves.foldl (fun (t : State) e =>
    let core := coreOf e.1
    let part := e.1 / 16 % 4
    let slot := e.1 % 16
    if (s.readyOf e.1).isEmpty || (s.hasChosen core part && SMap.get 0 (s.core core).picked part == slot) then t.modWave e.1 fun x => { x with waited := 0 }
    else if s.yields core part slot then t
    else t.modWave e.1 fun x => { x with waited := x.waited + 1 }) s

/-- R228: a clock that has reached 2^47 makes a rebase due. -/
def State.dueRebase (s : State) : State := if 2 ^ 47 ≤ s.maxClock then s.addDue [.ltRebase] else s

/-- A cycle ends: CYCLO counts, what waits is judged, route completions that become visible are due (R168),
and so are the start of a budget period (R335) and a publication (R298) (DESIGN CHOICE, log 9). -/
def State.endCycle (s : State) : State :=
  let s := s.countWaits
  let now := s.sch.cycle + 1
  let s := { s with sch := { s.sch with cycle := now } }
  let s := s.x.teams.foldl (fun (s : State) (e : Nat × Team) => s.settle e.1) s
  let s := s.addDue ((s.pk.routes.filter fun e => e.2.doneAt.any fun d => d.2 ≤ now).map fun e => .phaseComplete e.1)
  let s := if now % 1024 == 0 then s.addDue [.budgetPeriodStart] else s
  let s := s.dueRebase
  if now % 64 == 0 && s.x.grids.any (fun e => e.2.live && e.2.isTask) then s.addDue [.commitPublication] else s

/-- R154: the cycle ends once every partition has chosen that must. -/
def State.tick (s : State) : State :=
  match s.mustChoose with
  | some (core, part, slot) => s.choose core part slot
  | none => s.endCycle

end Sys2Proof.Machine
end

