-- ==== Sys2Proof/Machine/Issue.lean ====
section
/-! DEFINITION. The issue of L-words (R73, R120, R121, R155-R157, R191, R193) and of uniform words (R137,
R138): shared by the meanings of the computation, collective and memory instructions. -/

namespace Sys2Proof.Machine

open Sys2Proof

/-- R199: an odd d through an O4 slot. -/
def LOp.oddO4 (g : Grid) (op : LOp) : Bool :=
  match op with
  | .mem m => op.o4 g && m.reg % 2 == 1
  | _ => false

/-- R82: the flag field of a long-latency L-word. -/
def LOp.flag (cl : Clause) : LOp → Option Nat
  | .mem m => some (cl.flagFor m.isLoad)
  | .copy .. => some cl.second
  | _ => none

/-- The checks of an L-word: `ill` says whether its word is illegal (R90). -/
def LOp.pre (ill : Bool) (sc : Scope) (op : LOp) (c : Cx) : Pre :=
  { bad := ill || op.oddO4 c.g, flag := op.flag c.b.cl, set := sc == .set,
    role := match op with | .copy .. => some .copy | _ => none
    top := op.top (op.o4 c.g)
    -- at a wider scope the group reads its sources when it executes (R156)
    reads := if sc == .lane then c.inLanes (op.regs (op.o4 c.g)) else []
    perLane := true }

/-- R156 step 2: every lane of the bundle arrives at a rendezvous and is WAITING. -/
def State.arriveAll (s : State) (c : Cx) (sc : Scope) (op : LOp) : State :=
  s.modWave c.w fun x =>
    let x := x.forLanes c.b.lanes fun y l =>
      y.setLane l { y.lane l with st := .waiting (.rdv sc (if sc == .set then c.b.cl.sset else 0) (hasLane c.act l) op
        (s.sch.cycle * 1024 + c.x.widx * 32 + lowest c.b.lanes) false) }
    { x.setBundle c.b.lanes { c.b with stall := .none, age := 0 } with mprog := 0 }

/-- R290: every lane of the bundle meets PROT TASK. -/
def State.taskFault (s : State) (c : Cx) : State := s.faultAt c (lowest c.b.lanes) c.b.lanes (prot rTASK 0)

/-- R194: in a task wave lanes are performed in (timestamp, id) order. -/
def Cx.laneOrder (c : Cx) (ls : List Nat) : List Nat :=
  if c.x.taskWave then
    let key := fun (l : Nat) => ((c.x.lane l).task).getD 0
    ls.foldl (fun out l =>
      (out.takeWhile fun k => !c.g.earlier (key l) (key k)) ++ [l] ++ (out.dropWhile fun k => !c.g.earlier (key l) (key k))) []
  else ls

/-- R191: the checks of a memory L-word at LANE scope, in every active lane. -/
def State.chkLane (s : State) (c : Cx) (m : MemL) (l : Nat) : ReqChk :=
  match s.reqOf c.w c.b l m with
  | .error f => .bad f
  | .ok r => s.checkReq (s.agentOf c.w) (s.teamOf c.w).scratch r

/-- R194: the parts that passed their checks are issued, and the bundle moves on. -/
def State.memIssue (s : State) (m : MemL) (ps : List Part) (c : Cx) : State :=
  (s.issueMem c.w [c.w] c.pc .lane 0 m (ps.map fun p => p.to c.w m.reg [(c.w, p.lane)]) (c.flags m.isLoad)).advance c

/-- R191, R194: a memory L-word at LANE scope: every active lane is checked, then the operation is
issued with one part for each. -/
def State.memLane (s : State) (c : Cx) (m : MemL) : State :=
  let ls := lanesOf c.act
  if ls.isEmpty then s.advance c
  else if s.full c (c.flags m.isLoad) then s.stall c (.full (c.flags m.isLoad))
  else
    let k := checkLanes (c.laneOrder ls) (s.chkLane c m)
    match k.walk with
    | some (_, va, need) => s.stallWalk c va need
    | none =>
      match k.bad with
      | [] => s.memIssue m k.parts c
      | bad => s.faultLanes c ((List.range 32).filterMap fun l => bad.find? fun e => e.1 == l) fun c s => s.memIssue m k.parts c

/-- R120: an operation of the computation class at LANE scope. -/
def State.lanesNow (s : State) (c : Cx) (op : LOp) : State :=
  (s.lanesEffect ((lanesOf c.act).map fun l => (c.w, c.b, l)) op).advance c

/-- R290: what raises PROT TASK in a task wave: SET and TEAM scope, LDH and STH. -/
def LOp.noTask (sc : Scope) : LOp → Bool
  | .mem (.ldh ..) | .mem (.sth ..) => true
  | _ => sc == .set || sc == .team

/-- R73, R120, R121, R290: an L-word at its scope. -/
def State.lword (s : State) (c : Cx) (sc : Scope) (op : LOp) : State :=
  if c.x.taskWave && op.noTask sc then s.taskFault c
  else if sc == .lane then
    match op with
    | .mem m => s.memLane c m
    | op => s.lanesNow c op
  else s.arriveAll c sc op

/-- An L-word of the issuing bundle. -/
def State.execL (s : State) (ill : Bool) (sc : Scope) (op : LOp) : State := s.run (op.pre ill sc) fun c s => s.lword c sc op

/-- R66: a uniform word that writes uniform registers once for the bundle. -/
def State.execU (s : State) (ill : Bool) (reads : List Nat) (f : Cx → Wave → Wave) : State :=
  s.run (fun _ => { bad := ill, reads := reads.map fun n => (.s, n) }) fun c s => (s.modWave c.w (f c)).advance c

/-- R137: a uniform word with the value of a 32-bit operation. -/
def State.execUAlu (s : State) (ill : Bool) (op : AluOp) (d a b : Nat) : State :=
  s.execU ill ([a] ++ (if op.usesB then [b] else []) ++ (if op.usesD then [d] else []))
    fun _ x => x.setS d (aluVal op (x.sreg a) (x.sreg b) (x.sreg d))

/-- R138: a uniform word with an immediate. -/
def State.execUImm (s : State) (ill : Bool) (op : AluOp) (d a : Nat) (y : Word) : State :=
  s.execU ill [a] fun _ x => x.setS d (aluVal op (x.sreg a) y (x.sreg d))

/-- R137, R138: a uniform compare writes 1 or 0. -/
def State.execUCmp (s : State) (ill : Bool) (op : CmpOp) (d a : Nat) (reads : List Nat) (y : Wave → Word) : State :=
  s.execU ill (a :: reads) fun _ x => x.setS d (if cmpVal op (x.sreg a) (y x) then 1#32 else 0#32)

/-- R69, R74: an 8-bit immediate, sign-extended. -/
def immS (i : Nat) : Word := (BitVec.ofNat 8 i).signExtend 32
/-- R69, R74: an 8-bit immediate, zero-extended. -/
def immZ (i : Nat) : Word := BitVec.ofNat 32 (i % 256)

end Sys2Proof.Machine
end

