-- ==== Sys2Proof/Machine/Control.lean ====
section
/-! DEFINITION. The meanings of the control instructions (R169-R181) and of CLAUSE (R75-R81). -/

namespace Sys2Proof.Machine

open Sys2Proof

/-- R170: a PC-relative target. -/
def relTarget (pc : DWord) (disp : Nat) : DWord := pc + ((BitVec.ofNat 16 disp).signExtend 64 <<< 2)
/-- R170: an indirect target. -/
def indTarget (v : DWord) : DWord := v &&& ~~~3#64

/-- R170: the lanes of a mask whose target is not canonical, with their faults. -/
def badTargets (m : Mask) (target : Nat → DWord) : List (Nat × FaultInfo) :=
  ((lanesOf m).filter fun l => !canonical (target l)).map fun l => (l, pageFault 0 0 (target l))

/-- R170, R171: the lanes of `taken` go to their targets, the others of the bundle to the next header; `link` runs, for those that go,
before any lane moves. -/
def State.transfer (s : State) (c : Cx) (taken : Mask) (target : Nat → DWord) (link : Mask → Wave → Wave) : State :=
  let go := fun (m : Mask) (c : Cx) (s : State) => (s.modWave c.w (link m)).leave c fun l => if hasLane m l then target l else c.pc + 4#64
  match badTargets taken target with
  | [] => go taken c s
  | bad => s.faultLanes c bad (go (taken &&& ~~~maskOf (bad.map fun e => e.1)))

/-- R171: the active lanes whose predicate holds. -/
def Cx.takes (c : Cx) (sense : Bool) (pred : Nat) : Mask :=
  maskOf ((lanesOf c.act).filter fun l => pred == 63 || c.x.pred pred l != sense)

/-- Links the lanes of a mask: the address of the next header into a pair. -/
def Wave.linkLanes (x : Wave) (m : Mask) (d : Nat) (pc : DWord) : Wave := x.forLanes m fun y l => y.setVpair d l (pc + 4#64)

/-- R171: the predicate a lane branch reads. -/
def predReads (pred : Nat) : List (RegClass × Nat) := if pred < 48 then [(.p, pred)] else []

/-- R171: BP. -/
def execBp (sense : Bool) (pred : Nat) (disp : Nat) (s : State) : Outcome :=
  .next (s.run (fun c => { bad := (Instr.bp sense pred disp).illegal.isSome, last := true, reads := c.inLanes (predReads pred), perLane := true }) fun c s =>
    s.transfer c (c.takes sense pred) (fun _ => relTarget c.pc disp) fun _ => id)

/-- R171: CALL. -/
def execCall (sense : Bool) (pred : Nat) (disp : Nat) (s : State) : Outcome :=
  .next (s.run (fun c => { bad := (Instr.call sense pred disp).illegal.isSome, last := true, top := 2, reads := c.inLanes (predReads pred), perLane := true }) fun c s =>
    s.transfer c (c.takes sense pred) (fun _ => relTarget c.pc disp) fun m x => x.linkLanes m 0 c.pc)

/-- R172: BRX. -/
def execBrx (d : Nat) (a : Ext) (s : State) : Outcome :=
  .next (s.run (fun c => { bad := (Instr.brx d a).illegal.isSome, last := true, top := Nat.max (d + 2) (extTop a true), reads := c.inLanes (Ext.regs a true), perLane := true }) fun c s =>
    s.transfer c c.act (fun l => indTarget (s.extVal64 c.w c.b a l)) fun m x => x.linkLanes m d c.pc)

/-- R172: RET. -/
def execRet (a : Ext) (s : State) : Outcome :=
  .next (s.run (fun c => { bad := (Instr.ret a).illegal.isSome, last := true, top := extTop a true, reads := c.inLanes (Ext.regs a true), perLane := true }) fun c s =>
    s.transfer c c.act (fun l => indTarget (s.extVal64 c.w c.b a l)) fun _ => id)

/-- R173: BRA. -/
def execBra (disp : Nat) (s : State) : Outcome :=
  .next (s.run (fun _ => { last := true }) fun c s => s.transfer c c.b.lanes (fun _ => relTarget c.pc disp) fun _ => id)

/-- R173: BC. -/
def execBc (sense : Bool) (r : Nat) (disp : Nat) (s : State) : Outcome :=
  .next (s.run (fun _ => { last := true, reads := [(.s, r)] }) fun c s =>
    s.transfer c (if (c.x.sreg r != 0#32) != sense then c.b.lanes else 0#32) (fun _ => relTarget c.pc disp) fun _ => id)

/-- R173: UCALL. -/
def execUcall (r : Nat) (disp : Nat) (s : State) : Outcome :=
  .next (s.run (fun _ => { bad := (Instr.ucall r disp).illegal.isSome, last := true }) fun c s =>
    s.transfer c c.b.lanes (fun _ => relTarget c.pc disp) fun _ x => x.setSpair r (c.pc + 4#64))

/-- R173: URET. -/
def execUret (a : Nat) (s : State) : Outcome :=
  .next (s.run (fun _ => { bad := (Instr.uret a).illegal.isSome, last := true, reads := [(.s, a), (.s, a + 1)] }) fun c s =>
    s.transfer c c.b.lanes (fun _ => indTarget (c.x.spair a)) fun _ => id)

/-- R174: the table read of a lane. -/
def State.jtabReq (s : State) (c : Cx) (a : Ext) (b l : Nat) : Req :=
  { va := s.extVal64 c.w c.b a l + BitVec.ofNat 64 (4 * (c.x.vreg b l).toNat) }

/-- R174: the table reads that passed their checks are issued and the bundle waits for them. -/
def State.jtabReads (s : State) (ps : List Part) (a : Ext) (c : Cx) : State :=
  let ps := ps.map fun p => { p.to c.w 0 [] with data := (s.extVal64 c.w c.b a p.lane).toNat }
  let (id, s) := s.issueOp [c.w] { wave := c.w, core := coreOf c.w, pc := c.pc, kind := .jtab, parts := ps }
  s.stall c (.op id)

/-- R174: the lanes' table reads are issued and the bundle waits for them; with no active lane it goes on. -/
def State.jtabIssue (s : State) (c : Cx) (a : Ext) (b : Nat) : State :=
  let ls := lanesOf c.act
  if ls.isEmpty then s.leave c fun _ => c.pc + 4#64
  else if s.windowFull (coreOf c.w) then s.stall c (.full [])
  else
    let k := checkLanes ls fun l => s.checkReq (s.agentOf c.w) 0 (s.jtabReq c a b l)
    match k.walk with
    | some (_, va, need) => s.stallWalk c va need
    | none =>
      match k.bad with
      | [] => s.jtabReads k.parts a c
      | bad => s.faultLanes c bad fun c s => s.jtabReads k.parts a c

/-- R174: the active lanes whose index is not below the count. -/
def Cx.tableOut (c : Cx) (cnt b : Nat) : Mask := maskOf ((lanesOf c.act).filter fun l => c.x.sreg cnt ≤ c.x.vreg b l)

/-- R174: JTAB. -/
def execJtab (cnt : Nat) (a : Ext) (b : Nat) (s : State) : Outcome :=
  .next (s.run (fun c => { bad := (Instr.jtab cnt a b).illegal.isSome, last := true, top := Nat.max (b + 1) (extTop a true),
                           reads := c.inLanes ([(.s, cnt), (.v, b)] ++ Ext.regs a true), perLane := true }) (fun c s => s.jtabIssue c a b)
    (own := fun _ c => if c.tableOut cnt b == 0#32 then none else some (causeJTBOUND, c.tableOut cnt b)))

/-- R174: the target of a lane whose table word has arrived. -/
def Part.target (p : Part) : DWord :=
  BitVec.ofNat 64 p.data + ((BitVec.ofNat 32 (p.val.getD 0)).signExtend 64 <<< 2)

/-- R174: every table word has arrived: the lanes leave, or the JTAB has changed nothing and stands to
be executed again.  Lanes of a task wave whose entry was not read stay (R300). -/
def State.jtabDone (s : State) (id : Nat) : State :=
  let o := s.op id
  let x := s.wave o.wave
  let s := (s.setOp id { o with done := true }).sweepOps
  match x.bundles.find? fun b => b.stall == .op id with
  | none => s
  | some b =>
    let c : Cx := { w := o.wave, x := x, b := { b with stall := .none }, pc := o.pc, act := b.cl.act &&& b.lanes, g := s.grid x.grid }
    let c := c.without (c.act &&& ~~~maskOf (o.parts.map fun p => p.lane))
    let s := s.modWave o.wave fun y => y.setBundle b.lanes c.b
    if o.parts.any fun p => p.hurt then s
    -- R337: the shadow would read another table
    else if o.odd then s.containShadow [o.wave] none 0 0 o.pc
    else s.transfer c c.act (fun l => ((o.parts.find? fun p => p.lane == l).map Part.target).getD (c.pc + 4#64)) fun _ y => y

/-- R175, R162: JOINSET. -/
def execJoinset (j : Nat) (a : Nat) (x : Bool) (s : State) : Outcome :=
  .next (s.run (fun _ => { bad := (Instr.joinset j a x).illegal.isSome, reads := if x then [] else [(.s, a)] }) fun c s =>
    (s.modWave c.w fun y =>
      (y.setJoin j { expect := (if x then c.b.lanes else y.sreg a) &&& y.live, lost := false }).judgeJoins).advance c)

/-- R162: the active lanes arrive at a join where their EXPECT bit is set; every other lane goes on. -/
def Wave.arriveJoin (x : Wave) (lanes act : Mask) (j : Nat) (pc : DWord) : Wave :=
  let stay := act &&& (x.join j).expect
  (((x.unbundle lanes).setPcs (lanes &&& ~~~stay) (pc + 4#64)).setStatus stay (.waiting (.join j))).judgeJoins

/-- R175, R162: JOIN. -/
def execJoin (j : Nat) (s : State) : Outcome :=
  .next (s.run (fun _ => { last := true }) fun c s => (s.modWave c.w fun x => x.arriveJoin c.b.lanes c.act j c.pc).clearMprog c.w)

/-- R175, R162: JOINLEAVE. -/
def execJoinleave (j : Nat) (s : State) : Outcome :=
  .next (s.run (fun _ => {}) fun c s =>
    (s.modWave c.w fun x => (x.setJoin j { x.join j with expect := (x.join j).expect &&& ~~~c.act }).judgeJoins).advance c)

/-- R176: EXIT. -/
def execExit (s : State) : Outcome :=
  .next (s.run (fun _ => { last := true }) fun c s => (s.leave c fun _ => c.pc + 4#64).modWave c.w fun x => x.exitLanes c.act)

/-- R177, R63: PART. -/
def execPart (r : Nat) (s : State) : Outcome :=
  .next (s.run (fun _ => { bad := (Instr.part r).illegal.isSome }) fun c s => (s.modWave c.w fun x => { x with tw := r }).advance c)

/-- R178: YIELD, in force for 64 cycles (DESIGN CHOICE, log 55). -/
def execYield (s : State) : Outcome :=
  .next (s.run (fun _ => {}) fun c s => (s.modWave c.w fun x => { x with yieldUntil := s.sch.cycle + 64 }).advance c)

/-- R168: the core is a member of the route and the route is the tenant's. -/
def State.routeOk (s : State) (c : Cx) (r : Nat) : Bool :=
  SMap.get 0 (s.route r).counts (coreOf c.w) != 0 && (s.route r).owner == c.g.tenant

/-- R168: PROT ROUTE. -/
def State.routeFault (s : State) (c : Cx) : State := s.faultAt c (lowest c.b.lanes) c.b.lanes (prot rROUTE 0)

/-- R179, R168: ARRIVE. -/
def execArrive (r : Nat) (s : State) : Outcome :=
  .next (s.run (fun _ => {}) fun c s =>
    if !s.routeOk c r then s.routeFault c
    else if s.windowFull (coreOf c.w) then s.stall c (.full [])
    else
      let p : Part := { wave := c.w, lane := lowest c.b.lanes, lanes := c.b.lanes, dom := (s.route r).dom }
      let s := (s.issueOp [c.w] { wave := c.w, core := coreOf c.w, pc := c.pc, cls := .rl, kind := .arrive r, parts := [p] }).2
      (s.modWave c.w fun x => x.setRouteRec r { outstanding := true }).advance c)

/-- R179, R168: WAITB. -/
def execWaitb (r : Nat) (s : State) : Outcome :=
  .next (s.run (fun _ => {}) fun c s =>
    if !s.routeOk c r then s.routeFault c
    else if s.waitbMet c.w r && s.acquireReady c.w c.b.lanes (s.route r).dom && !s.windowFull (coreOf c.w) then
      let s := s.noteEvent [c.w] c.b.lanes .aq (s.route r).dom .waitb .lane c.pc
      (s.modWave c.w fun x => x.setRouteRec r {}).advance c
    else s.waitAt c (.waitb r))

/-- R180: TRAP. -/
def execTrap (n : Nat) (s : State) : Outcome :=
  .next (s.run (fun _ => { last := true }) fun c s =>
    let sp := s.specLanes c.w c.b.lanes
    let s := if sp == 0#32 then s else s.stopTasks c.w sp
    let rest := c.b.lanes &&& ~~~sp
    if rest == 0#32 then s else s.inWaveTrap c.w (0x80 + n) false (c.pc + 4#64) rest none false)

/-- R181: RETT. -/
def execRett (s : State) : Outcome :=
  .next (s.run (fun c => { bad := !c.x.hmode, last := true }) fun c s => (s.modWave c.w Wave.returnTrap).clearMprog c.w)

/-- R78, R80: CLAUSE, at a header; at an instruction position it traps ILLOP. -/
def execClause (wait : Nat) (first : Nat) (second : Nat) (len : Nat) (s : State) : Outcome :=
  .next (match s.cx with
    | none => s
    | some c =>
      if c.b.phase == .header then
        s.startClause c (BitVec.ofNat 32 (2 ^ 31 + wait % 2 ^ 12 * 2 ^ 12 + first % 16 * 2 ^ 8 + second % 16 * 2 ^ 4 + len % 16))
          (Instr.clause wait first second len).illegal.isSome
      else s.trapAll c causeILLOP)

end Sys2Proof.Machine
end

