-- ==== Sys2Proof/Machine/MemOps.lean ====
section
/-! DEFINITION. What the memory words beside the LM forms do: uniform loads and stores (R198), LDM and STM
(R202, R203), fences (R207), cache maintenance (R208, R209) and instruction-fetch maintenance (R210, R211). -/

namespace Sys2Proof.Machine

open Sys2Proof

/-- R198: the words of consecutive uniform registers, the lowest first. -/
def Wave.sregsVal (x : Wave) (d n : Nat) : Nat := (List.range n).foldl (fun v k => v + (x.sreg (d + k)).toNat * 2 ^ (32 * k)) 0

/-- R198: ULD and UST: one access for the bundle, whatever the guard. -/
def State.uniformMem (s : State) (c : Cx) (load : Bool) (z d a imm : Nat) : State :=
  let r : Req := { va := c.x.spair a + BitVec.ofNat 64 (imm * z), size := z, align := z, need := if load then .load else .store,
                   data := if load then 0 else c.x.sregsVal d (z / 4) }
  if s.full c (c.flags load) then s.stall c (.full (c.flags load))
  else match s.checkReq { s.agentOf c.w with joint := c.x.taskWave } 0 r with
    | .bad f => s.faultAt c (lowest c.b.lanes) c.b.lanes f
    | .walk va n => s.stallWalk c va n
    | .ok p =>
      let p := ({ p with lane := lowest c.b.lanes, lanes := c.b.lanes }).to c.w d (if load then [(c.w, 32)] else [])
      (s.issueRel [c.w] { wave := c.w, core := coreOf c.w, pc := c.pc, cls := if load then .pl else .pw,
                          kind := if load then .uld else .ust, flags := c.flags load, parts := [p] }).advance c

/-- R82: the checks of a uniform memory word. -/
def uniformPre (ill load : Bool) (z d a : Nat) (c : Cx) : Pre :=
  { bad := ill, flag := some (c.b.cl.flagFor load),
    reads := [(.s, a), (.s, a + 1)] ++ (if load then [] else (List.range (z / 4)).map fun k => (.s, d + k)) }

/-- R202: the request of lane l at step i. -/
def Cx.stepReq (c : Cx) (load : Bool) (d base n l i : Nat) : Req :=
  { va := c.x.vpair base l + BitVec.ofNat 64 (64 * n + 4 * i), need := if load then .load else .store,
    data := if load then 0 else (c.x.vreg (d + i) l).toNat }

/-- What the steps of LDM or STM come to: the parts so far, and a walk or the failing lanes of the first step at which one fails. -/
structure Steps where
  parts : List Part := []
  walk : Option (DWord × Need) := none
  bad : List (Nat × FaultInfo) := []
  stop : Nat := 0
  deriving DecidableEq, Repr, Inhabited

/-- R202: checks `n` steps from step i in some lanes, up to the first that fails. -/
def State.stepsFrom (s : State) (c : Cx) (load : Bool) (d base off : Nat) (act : Mask) : Nat → Nat → Steps → Steps
  | 0, i, r => { r with stop := i }
  | n + 1, i, r =>
    let k := checkLanes (lanesOf act) fun l => s.checkReq (s.agentOf c.w) 0 (c.stepReq load d base off l i)
    match k.walk, k.bad with
    | some (_, va, need), _ => { r with walk := some (va, need), stop := i }
    | none, [] => s.stepsFrom c load d base off act n (i + 1)
        { r with parts := r.parts ++ k.parts.map fun p => p.to c.w (d + i) (if load then [(c.w, p.lane)] else []) }
    | none, bad => { r with bad := bad, stop := i }

/-- R202: issues the steps that passed. -/
def State.issueSteps (s : State) (c : Cx) (load : Bool) (ps : List Part) : State :=
  if ps.isEmpty then s
  else s.issueRel [c.w] { wave := c.w, core := coreOf c.w, pc := c.pc, cls := if load then .pl else .pw,
                          kind := if load then .ldm else .stm, flags := c.flags load, parts := ps }

/-- R202: the step from which an LDM or STM goes on: MPROG where it counts the steps of this one. -/
def Cx.firstStep (c : Cx) : Nat := if c.x.mpc == c.pc && c.x.mlanes == c.b.lanes then c.x.mprog else 0

/-- R300: the other lanes of a task wave perform the steps of an LDM or STM at which lane l meets a fault of step `stop`. -/
def State.multiOthers (s : State) (load : Bool) (d base cnt off : Nat) (c : Cx) : State :=
  let r := s.stepsFrom c load d base off c.act (cnt - c.firstStep) c.firstStep {}
  match r.walk, r.bad with
  | some (va, n), _ => s.stallWalk c va n
  | none, [] => (s.issueSteps c load r.parts).advance c
  | none, bad => s.stopTasks c.w (s.specLanes c.w (maskOf (bad.map fun e => e.1)))

/-- R202, R203: LDM and STM: steps from MPROG; a failing step leaves the count in MPROG. -/
def State.multiMem (s : State) (c : Cx) (load : Bool) (d base cnt off : Nat) : State :=
  if s.full c (c.flags load) then s.stall c (.full (c.flags load))
  else
    let r := s.stepsFrom c load d base off c.act (cnt - c.firstStep) c.firstStep {}
    match r.walk with
    | some (va, n) => s.stallWalk c va n
    | none =>
      match r.bad with
      | [] => (s.issueSteps c load r.parts).advance c
      | (l, f) :: _ =>
        let m := maskOf (r.bad.map fun e => e.1)
        s.meets c m (fun c s => s.multiOthers load d base cnt off c) fun s =>
          let sp := s.specLanes c.w m
          if sp != 0#32 then s.stopTasks c.w sp
          else
            let s := (s.issueSteps c load r.parts).modWave c.w fun x => { x with mprog := r.stop, mpc := c.pc, mlanes := c.b.lanes }
            s.sysFault [c.w] 0 c.w l c.pc { f with info := if f.code == cECCU then f.info else r.stop }

/-- R203: the checks of LDM and STM (DEDUCED, log 23). -/
def multiPre (ill load : Bool) (d base cnt : Nat) (c : Cx) : Pre :=
  { bad := ill, flag := some (c.b.cl.flagFor load), top := Nat.max (base + 2) (d + cnt),
    reads := c.inLanes (vRange base 2 ++ (if load then [] else vRange d cnt)), perLane := true }

/-- R207: a fence of a class; the bundle goes on once its ordering is met (DEDUCED, log 28). -/
def State.fence (s : State) (c : Cx) (cls : Cls) (kind : OpKind) (a : Nat) : State :=
  let va := c.x.spair a
  if !canonical va then s.faultAt c (lowest c.b.lanes) c.b.lanes (pageFault 0 0 va)
  else
    let dom := (s.regionOf (some (coreOf c.w)) c.g.asid va).dom
    if s.windowFull (coreOf c.w) || !s.mayPerform { w := c.w, lanes := c.b.lanes, cls := cls, dom := dom, po := c.x.po, part := {}, fence := true } then s.stall c (.fence cls dom)
    else
      let s := s.noteEvent [c.w] c.b.lanes cls dom kind .lane c.pc
      let s := if cls == .fa then s else s.modWave c.w fun x =>
        { x with frel := x.frel ||| c.b.lanes, frelDom := (lanesOf c.b.lanes).foldl (fun m l => SMap.set .package m l dom) x.frelDom }
      s.advance c

/-- R208: the lines of a range that overlap [base, base + len). -/
def rangeLines (base : DWord) (len : Nat) : List DWord :=
  if len == 0 then []
  else (List.range ((base.toNat % 64 + len + 63) / 64)).map fun i => (base &&& ~~~63#64) + BitVec.ofNat 64 (64 * i)

/-- R208: 16 MiB. -/
def maxRange : Nat := 2 ^ 24

/-- R210, R292: the checks of a line of ICINV: canonical, translated with X, and no TASK region of a live grid (DEDUCED, log 38). -/
def State.checkX (s : State) (ag : Agent) (va : DWord) : Chk :=
  if !canonical va then .bad (pageFault 0 0 va)
  else match s.tlbLook (ag.core.getD 0) ag.asid va .fetch with
    | none => match s.failedWalk ag va with
      | some f => .bad f
      | none => .walk va .fetch
    | some (.error f) => .bad f
    | some (.ok pa) =>
      let r := s.regionOf ag.core ag.asid va
      if r.task && !s.taskRule ag r .fetch then .bad { code := cPROT, reason := rTASK, addr := va.toNat, paddr := pa } else .ok { va := va, pa := pa }

/-- The first line of a range that does not pass, or all accesses (DEDUCED, log 38). -/
def checkRange (chk : DWord → Chk) : List DWord → List Access → Except Chk (List Access)
  | [], acc => .ok acc.reverse
  | va :: rest, acc =>
    match chk va with
    | .ok a => checkRange chk rest (a :: acc)
    | r => .error r

/-- R208: INVN is refused outside CORE and DIE regions. -/
def invnBad (as : List Access) : Option Access := as.find? fun a => a.dom != .core && a.dom != .die

/-- R208-R210: WB, INV, INVN, ICINV over a range: every line is checked before any is touched. -/
def State.maintain (s : State) (c : Cx) (kind : OpKind) (d a b : Nat) : State :=
  let len := (c.x.sreg b).toNat
  let fail := fun (s : State) (f : FaultInfo) => s.faultAt c (lowest c.b.lanes) c.b.lanes f
  let ag : Agent := { s.agentOf c.w with maint := true }
  let need : Need := if kind == .invn then .store else .load
  if maxRange < len then fail s (prot rLENGTH (c.x.spair a).toNat)
  else if len == 0 then (if kind == .invn then s.modWave c.w fun x => x.setS d 0#32 else s).advance c
  else if s.full c (c.flags false) then s.stall c (.full (c.flags false))
  else match checkRange (fun va => if kind == .icinv then s.checkX ag va else s.check ag need va 0) (rangeLines (c.x.spair a) len) [] with
    | .error (.bad f) => fail s f
    | .error (.walk va n) => s.stallWalk c va n
    | .error (.ok _) => s
    | .ok as =>
      match (if kind == .invn then invnBad as else none) with
      | some x => fail s { code := cDOMAIN, addr := x.va.toNat, paddr := x.pa }
      | none =>
        let part := fun (x : Access) => ({ wave := c.w, lane := lowest c.b.lanes, lanes := c.b.lanes, va := x.va, pa := x.pa / 64 * 64, size := 64, dom := x.dom, cache := x.cache } : Part)
        ((s.issueOp [c.w] { wave := c.w, core := coreOf c.w, pc := c.pc, cls := .pw, kind := kind, flags := c.flags false, parts := as.map part, reg := d }).2).advance c

/-- The checks of a range word that sets the second flag. -/
def rangePre (ill : Bool) (a b : Nat) (c : Cx) : Pre :=
  { bad := ill, flag := some c.b.cl.second, reads := [(.s, a), (.s, a + 1), (.s, b)] }

/-- R208, R187: the cores whose L1 holds a line, on the die of a core.  A wave accesses a DIE region on its home die only. -/
def State.dieHolders (s : State) (core line : Nat) : List Nat := (s.holders line).filter fun k => dieOf k == dieOf core

/-- R208: is a line dirty in at least one of the copies INVN discards? -/
def State.anyDirty (s : State) (core line : Nat) (dom : Dom) : Bool :=
  if dom == Dom.core then (s.l1Line core line).dirty
  else (s.dieHolders core line).any (fun k => (s.l1Line k line).dirty) || ((s.llcLine line).valid && (s.llcLine line).dirty)

/-- R208, R210: one line of a range is processed. -/
def State.maintainLine (s : State) (id i : Nat) : State :=
  let o := s.op id
  let p := o.parts.getD i {}
  let line := p.pa / 64
  let s : State := match o.kind with
    | .wb => let s := s.cleanL1 o.core line; if p.dom == Dom.host then s.cleanLlc line else s
    | .inv => let s := s.evictL1 o.core line; if p.dom == Dom.host then (s.cleanLlc line).dropLlc line else s
    | .invn =>
      let n := if s.anyDirty o.core line p.dom then 1 else 0
      let s := s.setOp id { s.op id with count := (s.op id).count + n }
      if p.dom == Dom.core then s.dropL1 o.core line
      else ((s.dieHolders o.core line).foldl (fun (s : State) k => s.dropL1 k line) s).dropLlc line
    | _ => (List.range 4).foldl (fun (s : State) die => s.setIc die line {}) s
  let s := if o.kind == .invn && ((s.op id).parts.set i { p with plt := some 0 }).all (fun q => q.plt.isSome)
    then s.modWave o.wave fun x => x.setS o.reg (BitVec.ofNat 32 (s.op id).count) else s
  s.finishWrite id i

/-- R211, R213: PFI brings the lines of its range into the die's instruction cache, as far as the TLB and
the regions let it go; what is not at hand comes later, and no bundle waits for it.  It never faults. -/
def State.prefetch (s : State) (c : Cx) : List DWord → State
  | [] => s
  | va :: rest =>
    match s.check (s.agentOf c.w) .fetch va 0 with
    | .ok a =>
      let k : Miss := { wave := c.w, pa := a.pa, va := va, cache := a.cache }
      let id := s.o.next
      let q := s.missAsk id k
      if s.askReady q then
        let s := s.askGo q
        let (d, p) := s.below (a.pa / 64)
        (s.setIc (dieOf (coreOf c.w)) (a.pa / 64) { valid := true, data := d, poison := p }).prefetch c rest
      else ({ s with m := { s.m with misses := SMap.set {} s.m.misses id k }, o := { s.o with next := id + 1 } } : State).prefetch c rest
    | _ => s

end Sys2Proof.Machine
end

