-- ==== Sys2Proof/Machine/Matrix.lean ====
section
/-! DEFINITION. Matrix operations (R268-R284): quarters, tiles, the matrix allowance, and the meanings of the
matrix words and of the events that write slots and apply flushed elements. -/

namespace Sys2Proof.Machine

open Sys2Proof

/-- R268, R338: the quarters that take part, each with the quarter whose registers it uses.  Under SPLITWAVE
quarters 2 and 3 repeat 0 and 1. -/
def Cx.quarters (c : Cx) : List (Nat × Nat) :=
  let qs := (List.range 4).filter fun q => c.act.extractLsb' (8 * q) 8 != 0#8
  qs.map (fun q => (q, q)) ++ (if c.x.redun == 2 then qs.map fun q => (q + 2, q) else [])

/-- R338: the quarters that access memory; a repeated quarter only compares. -/
def Cx.storing (c : Cx) : List (Nat × Nat) := c.quarters.filter fun q => q.1 == q.2

/-- The lanes of a quarter. -/
def quarterLanes (q : Nat) : Mask := 0xFF#32 <<< (8 * q)

/-- R268: the 32-bit operand of a quarter. -/
def Cx.qreg (c : Cx) (r q : Nat) : Nat := (c.x.sreg ((r + q) % 64)).toNat
/-- R268: the 64-bit operand of a quarter. -/
def Cx.qpair (c : Cx) (r q : Nat) : DWord := c.x.spair ((r + 2 * q) % 64)

/-- R269: the number of elements in 512 bits. -/
def FmtSlot.k (f : FmtSlot) : Nat := 512 / fmtWidth f.fmt

/-- R56, R272: a slot at or above the wave's slot count. -/
def Cx.slotsOut (c : Cx) (acc : Nat) : Bool := c.quarters.any fun q => c.x.slots ≤ acc + q.1

/-- R272: the A slots of a quarter: the first and how many. -/
def Cx.aSlots (c : Cx) (areg fmt q : Nat) : Nat × Nat := (c.qreg areg q, (c.g.slot fmt).k / 16)

/-- R270: the format pairs an MMA accepts. -/
def fmtPair (a b : Nat) : Bool :=
  ((a == 3 || a == 4) && (b == 3 || b == 4)) || (a == 5 && b == 5) || ((a == 1 || a == 2) && (b == 1 || b == 2))

/-- R270-R272: the slots' conditions on an MMA. -/
def badSlots (fa fb : FmtSlot) (atam : Bool) : Bool :=
  !fmtPair fa.fmt fb.fmt || (fb.sk == 1 && !fb.ssp) || (fa.sk == 1 && (atam || !fa.ssp)) || (!fa.map.isEmpty && !fb.map.isEmpty)

/-- R105, R271: the channel an operand reads for stored channel k of the other, whose slot is `other`. -/
def channel (other : FmtSlot) (k : Nat) : Nat := if other.map.isEmpty then k else partnerRow other.map k

/-- R269: the bit position of element (vector, channel) of the tile at a CLM address. -/
def tileBit (f : FmtSlot) (base vec ch : Nat) : Nat := 8 * base + fmtWidth f.fmt * (f.k * vec + ch)

/-- R104: the scale bytes of a tile's elements, each once. -/
def tileScales (f : FmtSlot) (other : FmtSlot) (base : Nat) : List DWord :=
  if f.sk == 1 then
    ((List.range 16).flatMap fun i => (List.range f.k).map fun k => f.scaleAddr (tileBit f base i (channel other k) : Nat)).eraseDups
  else []

/-- R191: the CLM check of a register value as an address. -/
def clmCheck (scratch v size align : Nat) : Option FaultInfo :=
  checkClm scratch (v % 2 ^ 20) size align (v / 2 ^ 20 != 0)

/-- The first fault of a list of checks. -/
def firstFault : List (Option FaultInfo) → Option FaultInfo
  | [] => none
  | some f :: _ => some f
  | none :: rest => firstFault rest

/-- R282: the system-fault checks of one quarter of an MMA. -/
def mmaFault (fa fb : FmtSlot) (atam : Bool) (scratch ea eb : Nat) : Option FaultInfo :=
  if badSlots fa fb atam then some (prot rFMT 0)
  else firstFault
    ([if atam then none else clmCheck scratch ea 1024 64, clmCheck scratch eb 1024 64] ++
      (if atam then [] else (tileScales fa fb ea).map fun v => clmCheck scratch v.toNat 1 1) ++
      (tileScales fb fa eb).map fun v => clmCheck scratch v.toNat 1 1)

/-- R276: the period's refill of a tenant. -/
def State.refill (s : State) (t : Nat) : Nat := Nat.max 1 ((s.tenant t).mat.allow * (s.dev 0x41E).toNat / 64)
/-- R276: REMAIN of a core and tenant. -/
def State.remain (s : State) (core t : Nat) : Nat := s.refill t - SMap.get 0 (s.core core).spent t
/-- R276: may an MMA of a cost issue? -/
def State.mayIssue (s : State) (core t cost : Nat) : Bool := cost ≤ s.remain core t || s.remain core t == s.refill t
/-- R276: the debit. -/
def State.debit (s : State) (core t cost : Nat) : State :=
  s.modCore core fun k => { k with spent := SMap.set 0 k.spent t (SMap.get 0 k.spent t + cost) }

/-- The lowest active lane of a quarter, for a record. -/
def Cx.qlane (c : Cx) (q : Nat) : Nat := lowest (c.act &&& quarterLanes q)

/-- The faults of the taking-part quarters, the lowest quarter's first. -/
def Cx.qfault (c : Cx) (qs : List (Nat × Nat)) (chk : Nat → Option FaultInfo) : Option (Nat × FaultInfo) :=
  (qs.filterMap fun q => (chk q.2).map fun f => (c.qlane q.2, f)).head?

/-- A part of a quarter's access: a slot's turn, or a range of CLM. -/
def Cx.qpart (c : Cx) (q reg pa size : Nat) : Part :=
  { wave := c.w, lane := 8 * q, lanes := c.b.lanes &&& quarterLanes q, va := BitVec.ofNat 64 pa, pa := pa, clm := true, size := size, dom := .core, reg := reg }

/-- R104, R275: the range of CLM that holds some scale bytes, as (first, size). -/
def scaleRange (vs : List DWord) : Nat × Nat :=
  match vs with
  | [] => (0, 0)
  | v :: _ =>
    let lo := vs.foldl (fun a x => Nat.min a x.toNat) v.toNat
    (lo, vs.foldl (fun a x => Nat.max a x.toNat) v.toNat + 1 - lo)

/-- R275, R282: the five parts of a quarter of an MMA: its slot, A, B, the scale bytes of A and of B.  The slot's
part keeps the first A slot and the operands' addresses. -/
def Cx.mmaParts (c : Cx) (acc : Nat) (atam : Bool) (areg breg fmt : Nat) (q : Nat × Nat) : List Part :=
  let fa := c.g.slot fmt
  let fb := c.g.slot ((fmt + 1) % 8)
  let ea := c.qreg areg q.2
  let eb := c.qreg breg q.2
  let ra := scaleRange (if atam then [] else tileScales fa fb ea)
  let rb := scaleRange (tileScales fb fa eb)
  [{ c.qpart q.2 (acc + q.1) 0 0 with data2 := if atam then ea else 0 },
   c.qpart q.2 0 (if atam then 0 else ea) (if atam then 0 else 1024), c.qpart q.2 0 eb 1024,
   c.qpart q.2 0 ra.1 ra.2, c.qpart q.2 0 rb.1 rb.2]

/-- The checks of a matrix word (R90, R149, R56, R192). -/
def Cx.lxPre (c : Cx) (ill load : Bool) (out : Bool) (acc : Nat) (slotRead : Bool) (regs : Nat → List Nat) : Pre :=
  { bad := ill, flag := some (c.b.cl.flagFor load), role := some .matrix, outside := c.slotsOut acc || out,
    reads := (c.quarters.flatMap fun q => (regs q.2).map fun r => (.s, r % 64)) ++
      (if slotRead then c.quarters.flatMap fun q => slotGranules (acc + q.1) else []) }

/-- R82: issues a matrix operation of the bundle and moves on. -/
def State.lxIssue (s : State) (c : Cx) (ws : List Nat) (o : Op) (load : Bool) : State :=
  (s.issueOp ws { o with wave := c.w, core := coreOf c.w, pc := c.pc, flags := c.flags load }).2.advance c

/-- R282: MMA. -/
def execMma (ec acc : Nat) (atam : Bool) (areg breg fmt : Nat) (s : State) : Outcome :=
  .next (s.run (fun c =>
      let aOut := atam && c.quarters.any fun q => c.x.slots < (c.aSlots areg fmt q.2).1 + (c.aSlots areg fmt q.2).2
      let p := c.lxPre false true aOut acc true fun q => [areg + q, breg + q]
      { p with reads := p.reads ++ (if atam then c.quarters.flatMap fun q =>
          (List.range (c.aSlots areg fmt q.2).2).flatMap fun k => slotGranules ((c.aSlots areg fmt q.2).1 + k) else []) }) fun c s =>
    let qs := c.quarters
    if qs.isEmpty then s.advance c
    else if s.full c (c.flags true) then s.stall c (.full (c.flags true))
    else match c.qfault qs fun q => mmaFault (c.g.slot fmt) (c.g.slot ((fmt + 1) % 8)) atam (s.teamOf c.w).scratch (c.qreg areg q) (c.qreg breg q) with
      | some (l, f) => s.faultAt c l c.b.lanes f
      | none =>
        let core := coreOf c.w
        let cost := qs.length * 2 ^ ec
        if !s.mayIssue core c.g.tenant cost then s.stall c .budget
        else (s.debit core c.g.tenant cost).lxIssue c [c.w]
          { kind := .mma, fmt := fmt, atam := atam, parts := qs.flatMap (c.mmaParts acc atam areg breg fmt) } true)

/-- R283: ACCZ. -/
def execAccz (acc : Nat) (s : State) : Outcome :=
  .next (s.run (fun c => c.lxPre false true false acc false fun _ => []) fun c s =>
    let qs := c.quarters
    if qs.isEmpty then s.advance c
    else if s.full c (c.flags true) then s.stall c (.full (c.flags true))
    else s.lxIssue c [] { kind := .accz, parts := qs.flatMap fun q => c.qpart q.2 (acc + q.1) 0 0 :: List.replicate 4 (c.qpart q.2 0 0 0) } true)

/-- R283: ACCLD. -/
def execAccld (acc areg : Nat) (s : State) : Outcome :=
  .next (s.run (fun c => c.lxPre false true false acc false fun q => [areg + q]) fun c s =>
    let qs := c.quarters
    if qs.isEmpty then s.advance c
    else if s.full c (c.flags true) then s.stall c (.full (c.flags true))
    else match c.qfault qs fun q => clmCheck (s.teamOf c.w).scratch (c.qreg areg q) 1024 64 with
      | some (l, f) => s.faultAt c l c.b.lanes f
      | none => s.lxIssue c [c.w]
          { kind := .accld, parts := qs.flatMap fun q =>
              [c.qpart q.2 (acc + q.1) 0 0, c.qpart q.2 0 (c.qreg areg q.2) 1024] ++ List.replicate 3 (c.qpart q.2 0 0 0) } true)

/-- R283: the bytes ACCST stores. -/
def FmtSlot.tileBytes (f : FmtSlot) : Nat := 32 * fmtWidth f.fmt

/-- R104: the scale bytes of a slot's elements as ACCST stores them at e, each once. -/
def FmtSlot.accstScales (f : FmtSlot) (e : Nat) : List DWord :=
  if f.sk == 1 then ((List.range 256).map fun n => f.scaleAddr (8 * e + fmtWidth f.fmt * n : Nat)).eraseDups else []

/-- R283: the system-fault checks of one quarter of ACCST, that of its format first (R104) (DESIGN CHOICE, log 62). -/
def accstFault (f : FmtSlot) (scratch e : Nat) : Option FaultInfo :=
  if f.sk == 1 && !f.ssp then some (prot rFMT (e % 2 ^ 20))
  else firstFault (clmCheck scratch e f.tileBytes 64 ::
    (f.accstScales e).map fun v => clmCheck scratch v.toNat 1 1)

/-- R283: ACCST. -/
def execAccst (acc areg fmt : Nat) (s : State) : Outcome :=
  .next (s.run (fun c => c.lxPre false false false acc true fun q => [areg + q]) fun c s =>
    if c.quarters.isEmpty then s.advance c
    else if s.full c (c.flags false) then s.stall c (.full (c.flags false))
    else match c.qfault c.quarters fun q => accstFault (c.g.slot fmt) (s.teamOf c.w).scratch (c.qreg areg q) with
      | some (l, f) => s.faultAt c l c.b.lanes f
      | none =>
        let ps := c.storing.map fun q =>
          let r := scaleRange ((c.g.slot fmt).accstScales (c.qreg areg q.2))
          { c.qpart q.2 (acc + q.1) (c.qreg areg q.2) (c.g.slot fmt).tileBytes with scalePa := r.1, scaleN := r.2 }
        (s.issueRel [c.w] { wave := c.w, core := coreOf c.w, pc := c.pc, cls := .pw, kind := .accst, flags := c.flags false, fmt := fmt, parts := ps }).advance c)

/-- R284: the 16 lines of a flush. -/
def flushLines (base : DWord) : List DWord := (List.range 16).map fun i => base + BitVec.ofNat 64 (64 * i)

/-- R191: which step a fault found after translation belongs to. -/
def stepRank (f : FaultInfo) : Nat :=
  if f.code == cDOMAIN then 3
  else if f.reason == rWINDOW then 0 else if f.reason == rRESERVEDPA then 1 else if f.reason == rNOPKG then 2 else 4

/-- R284: the checks of one line after translation; only lines homed in this package and cached by no outside
agent pass. -/
def State.flushPa (s : State) (ag : Agent) (va : DWord) (pa : Nat) : Chk :=
  let r := s.regionOf ag.core ag.asid va
  match s.checkPa ag r .store va pa with
  | .ok a => if a.dom == Dom.domain || a.dom == Dom.host then .bad { code := cDOMAIN, addr := va.toNat, paddr := pa } else .ok a
  | .bad f =>
    if stepRank f == 4 && (r.dom == Dom.domain || r.dom == Dom.host) then .bad { code := cDOMAIN, addr := va.toNat, paddr := pa } else .bad f
  | k => k

/-- The accesses that passed. -/
def passed (ks : List Chk) : List Access := ks.filterMap fun k => match k with | .ok a => some a | _ => none

/-- The fault of lowest step among some checks, the first of those. -/
def lowestStep (ks : List Chk) : Option FaultInfo :=
  ks.foldl (fun (b : Option FaultInfo) k => match k, b with
    | .bad f, none => some f
    | .bad f, some g => if stepRank f < stepRank g then some f else some g
    | _, b => b) none

/-- R284: the checks of one quarter's flush, step by step over its 16 lines. -/
def State.flushCheck (s : State) (ag : Agent) (base : DWord) : Except Chk (List Access) :=
  let vas := flushLines base
  if !canonical base then .error (.bad (pageFault 0 0 base))
  else if base.toNat % 64 != 0 then .error (.bad (prot rALIGN base.toNat))
  else match vas.find? fun va => !scopeValid ag (s.regionOf ag.core ag.asid va) with
    | some va => .error (.bad { code := cDOMAIN, addr := va.toNat })
    | none =>
      match checkRange (fun va => match s.tlbLook (ag.core.getD 0) ag.asid va .store with
          | none => match s.failedWalk ag va with
            | some f => .bad f
            | none => .walk va .store
          | some (.error f) => .bad f
          | some (.ok pa) => .ok { va := va, pa := pa }) vas [] with
      | .error k => .error k
      | .ok as =>
        let ks := as.map fun a => s.flushPa ag a.va a.pa
        match lowestStep ks with
        | some f => .error (.bad f)
        | none => .ok (passed ks)

/-- R284: the 256 element parts of a quarter's flush. -/
def Cx.flushParts (c : Cx) (q slot : Nat) (as : List Access) : List Part :=
  as.flatMap fun a => (List.range 16).map fun j =>
    { wave := c.w, lane := 8 * q, lanes := c.b.lanes &&& quarterLanes q, va := a.va + BitVec.ofNat 64 (4 * j), pa := a.pa + 4 * j, size := 4,
      dom := a.dom, cache := a.cache, task := a.task, reg := slot }

/-- R284: every quarter's checks, then its parts; the lowest failing quarter decides. -/
def State.flushAll (s : State) (c : Cx) (acc areg : Nat) : List (Nat × Nat) → Except (Nat × Chk) (List Part)
  | [] => .ok []
  | q :: rest =>
    match s.flushCheck (s.agentOf c.w) (c.qpair areg q.2) with
    | .error k => .error (c.qlane q.2, k)
    | .ok as =>
      match s.flushAll c acc areg rest with
      | .error k => .error k
      | .ok ps => .ok (c.flushParts q.2 (acc + q.1) as ++ ps)

/-- R279: the next round of a team's contributions to a word. -/
def Grid.nextRound (g : Grid) (team word : Nat) : Nat := SMap.get 0 g.det (team * 2 ^ 50 + word)

/-- R279: gives the parts of a DET flush their rounds: one round for each word, whichever quarters cover it. -/
def giveRounds (team : Nat) (g : Grid) (ps : List Part) : Grid × List Part :=
  (ps.foldl (fun h p => { h with det := SMap.set 0 h.det (team * 2 ^ 50 + p.pa / 4) (g.nextRound team (p.pa / 4) + 1) }) g,
    ps.map fun p => { p with data2 := g.nextRound team (p.pa / 4) })

/-- R217: the elements of a flush that follows FENCE.REL are releases together. -/
def State.flushIssue (s : State) (c : Cx) (det : Bool) (ps : List Part) : State :=
  let ps := ps.map fun p => { p with rel := relState c.x.frel .pw p }
  let s := s.modWave c.w fun x => { x with frel := x.frel &&& ~~~(ps.foldl (fun m p => m ||| p.lanes) 0#32) }
  let (g, ps) := if det then giveRounds (s.teamOf c.w).num c.g ps else (c.g, ps)
  let s := if det then s.setGrid c.x.grid g else s
  s.lxIssue c [c.w] { cls := .pw, kind := if det then .accdet else .accflush, parts := ps } false

/-- R284: ACCFLUSH and ACCFLUSH.DET. -/
def State.flush (s : State) (c : Cx) (det : Bool) (acc areg : Nat) : State :=
  if c.quarters.isEmpty then s.advance c
  else if s.full c (c.flags false) then s.stall c (.full (c.flags false))
  else match s.flushAll c acc areg c.storing with
    | .ok ps => s.flushIssue c det ps
    | .error (_, .walk va n) => s.stallWalk c va n
    | .error (l, .bad f) => s.faultAt c l c.b.lanes f
    | .error (_, .ok _) => s

/-- R284: ACCFLUSH. -/
def execAccflush (acc areg : Nat) (s : State) : Outcome :=
  .next (s.run (fun c => c.lxPre (Instr.accflush acc areg).illegal.isSome false false acc true fun q => [areg + 2 * q, areg + 2 * q + 1]) fun c s =>
    s.flush c false acc areg)

/-- R279, R284: ACCFLUSH.DET. -/
def execAccflushDet (acc areg : Nat) (s : State) : Outcome :=
  .next (s.run (fun c => c.lxPre (Instr.accflushDet acc areg).illegal.isSome false false acc true fun q => [areg + 2 * q, areg + 2 * q + 1]) fun c s =>
    s.flush c true acc areg)

/-- Is it an operation on slots whose turn R273 orders? -/
def OpKind.matrix : OpKind → Bool
  | .mma | .accz | .accld | .accst | .accflush | .accdet => true
  | _ => false

/-- R273: has a part of an earlier matrix operation had its effect on the slot? -/
def Part.slotPast (o : Op) (p : Part) (slot k : Nat) : Bool :=
  match o.kind with
  | .accflush | .accdet => p.reg != slot || p.bound == 1
  | .accst => p.reg != slot || p.plt.isSome
  | .mma => p.size != 0 || (p.reg != slot || p.plt.isSome) && (!o.atam || slot < p.data2 || p.data2 + k ≤ slot || p.bound == 1)
  | _ => p.size != 0 || p.reg != slot || p.plt.isSome

/-- R272: the number of slots an MMA's A takes. -/
def State.aCount (s : State) (o : Op) : Nat := ((s.grid o.grid).slot o.fmt).k / 16

/-- The parts of an operation that stand for slots: one in five, or every part of a store or flush. -/
def Op.slotParts (o : Op) : List Part :=
  match o.kind with
  | .mma | .accz | .accld => (List.range (o.parts.length / 5)).map fun k => o.parts.getD (5 * k) {}
  | _ => o.parts

/-- R273: may operation `id` read and write the slot now? -/
def State.slotFree (s : State) (id slot : Nat) : Bool :=
  let w := (s.op id).wave
  s.o.ops.all fun e => id ≤ e.1 || e.2.wave != w || !e.2.kind.matrix || e.2.slotParts.all fun p => p.slotPast e.2 slot (s.aCount e.2)

/-- R269, R104: an element of a tile in CLM, with the address of poisoned data it meets. -/
def Team.tileElem (t : Team) (f : FmtSlot) (base vec ch : Nat) : Num × Option Nat :=
  let b := tileBit f base vec ch
  let (v, bad) := t.readClm (b / 8) ((fmtWidth f.fmt + 7) / 8)
  let n := if f.fmt == 5 then o4Elem v (b % 8 / 4) else value (fmtOf f.fmt) v
  if f.sk == 1 then
    let sa := (f.scaleAddr b).toNat
    let (e, sbad) := t.readClm sa 1
    (n.mul (e8m0 e), if bad then some (b / 8) else if sbad then some sa else none)
  else (n, if bad then some (b / 8) else none)

/-- R272: a row of A from the wave's slots, down-converted. -/
def Wave.tamRow (x : Wave) (f : FmtSlot) (t i : Nat) : List Num :=
  let el := fun k => f32 (x.accElem (t + k / 16) (16 * i + k % 16))
  (List.range f.k).map fun k =>
    if f.fmt == 5 then
      let m := k / 2 * 2
      o4Elem (o4Byte (el m) (el (m + 1))).1 (k % 2)
    else value (fmtOf f.fmt) (convert (fmtOf f.fmt) .rne (el k)).1

/-- R33: does a granule of the wave's slots that channel k of a row of A is made of fail its check? -/
def Wave.tamBad (x : Wave) (f : FmtSlot) (t i k : Nat) : Bool :=
  let el := fun (k : Nat) => x.parity.contains (.acc, 256 * (t + k / 16) + 16 * i + k % 16)
  if f.fmt == 5 then el (k / 2 * 2) || el (k / 2 * 2 + 1) else el k

/-- R282: the rows of an operand in CLM in the order of the stored channels. -/
def Team.tileRows (t : Team) (f other : FmtSlot) (base : Nat) : List (List (Num × Option Nat)) :=
  (List.range 16).map fun i => (List.range f.k).map fun k => t.tileElem f base i (channel other k)

/-- The first poisoned address of some rows. -/
def rowsHurt (rs : List (List (Num × Option Nat))) : Option Nat := (rs.flatMap fun r => r.filterMap fun e => e.2).head?

/-- 256 words as one number, element 0 lowest. -/
def packWords (ws : List Word) : Nat := ws.foldr (fun w n => w.toNat + 2 ^ 32 * n) 0

/-- R111, R282: the new elements of a slot. -/
def mmaWords (as bs : List (List Num)) (old : Nat → Word) : List Word :=
  (List.range 256).map fun n => dot ((as.getD (n / 16) []).zip (bs.getD (n % 16) [])) (old n)

/-- R282: the product of quarter k of an MMA, and the address of poisoned data, zero where it lies in a slot (DEDUCED, log 25). -/
def State.mmaQuarter (s : State) (o : Op) (k : Nat) : Nat × Option Nat :=
  let x := s.wave o.wave
  let t := s.teamOf o.wave
  let g := s.grid o.grid
  let fa := g.slot o.fmt
  let fb := g.slot ((o.fmt + 1) % 8)
  let part := fun i => o.parts.getD (5 * k + i) {}
  let tam := (List.range 16).map fun i =>
    let row := x.tamRow fa (part 0).data2 i
    (List.range fa.k).map fun ch => (row.getD (channel fb ch) (.fin false 0 0),
      if x.tamBad fa (part 0).data2 i (channel fb ch) then some 0 else none)
  let as := if o.atam then tam else t.tileRows fa fb (part 1).pa
  let bs := t.tileRows fb fa (part 2).pa
  (packWords (mmaWords (as.map fun r => r.map fun e => e.1) (bs.map fun r => r.map fun e => e.1) fun n => x.accElem (part 0).reg n),
   rowsHurt as <|> rowsHurt bs <|> if (slotGranules (part 0).reg).any x.parity.contains then some 0 else none)

/-- R282, R283: what quarter k of the operation writes into its slot. -/
def State.slotValue (s : State) (o : Op) (k : Nat) : Nat × Option Nat :=
  match o.kind with
  | .mma => s.mmaQuarter o k
  | .accld =>
    let p := o.parts.getD (5 * k + 1) {}
    let (v, bad) := (s.teamOf o.wave).readClm p.pa 1024
    (v, if bad then some (((List.range 256).find? fun i => SMap.get false (s.teamOf o.wave).clmPoison (p.pa / 4 + i)).getD 0 * 4 + p.pa) else none)
  | _ => (0, none)

/-- R268, R273, R235: all sources of the operation may be read now. -/
def State.slotsReady (s : State) (id : Nat) : Bool :=
  let o := s.op id
  (List.range o.parts.length).all (fun i => s.partReady id i) &&
  o.slotParts.all fun p => s.slotFree id p.reg &&
    (!(o.kind == .mma && o.atam) || (List.range (s.aCount o)).all fun k => s.slotFree id (p.data2 + k))

/-- R268, R274: every source of the operation is read, in one moment for all its quarters; the results wait (DEDUCED, log 25). -/
def State.readSlots (s : State) (id : Nat) : State :=
  let o := s.op id
  (List.range (o.parts.length / 5)).foldl (fun (s : State) k =>
    let (v, hurt) := s.slotValue o k
    let s := s.modPart id (5 * k) fun p => { p with data := v, bound := 1, hurt := hurt.isSome, va := BitVec.ofNat 64 (hurt.getD 0) }
    [1, 2, 3, 4].foldl (fun (s : State) i => if (o.parts.getD (5 * k + i) {}).size == 0 then s.markSilent id (5 * k + i) else s.stamp id (5 * k + i) none) s) s

/-- The elements of a slot from one number. -/
def Wave.setSlot (x : Wave) (slot v : Nat) : Wave :=
  (List.range 256).foldl (fun x i => x.setAcc slot i (BitVec.ofNat 32 (v / 2 ^ (32 * i)))) x

/-- R82: ACCUMULATOR_SLOT_WRITTEN. -/
def execAccumulatorSlotWritten (op part : Nat) (s : State) : Outcome :=
  .next (
    let o := s.op op
    if !(o.kind == .mma || o.kind == .accz || o.kind == .accld) || o.parts.length / 5 ≤ part || (o.parts.getD (5 * part) {}).plt.isSome then s
    else if (o.parts.getD (5 * part) {}).bound != 1 && !s.slotsReady op then s
    else
      let s := if (o.parts.getD (5 * part) {}).bound == 1 then s else s.readSlots op
      let p := (s.op op).parts.getD (5 * part) {}
      let s := if p.hurt then s else s.modWave o.wave fun x => x.setSlot p.reg p.data
      s.endSilent op (5 * part))

/-- R283: element n of a slot as ACCST stores it: the number and its saturation, and the poison of its scale or of the slot (R33). -/
def State.accstElem (s : State) (o : Op) (p : Part) (n : Nat) : (Nat × Bool) × Bool :=
  let f := (s.grid o.grid).slot o.fmt
  let x := s.wave o.wave
  let scale := if f.sk == 1 then
      let (e, bad) := (s.teamOf o.wave).readClm (f.scaleAddr (8 * p.pa + fmtWidth f.fmt * n : Nat)).toNat 1
      (some e, bad)
    else (none, false)
  (storeElem f (x.accElem p.reg n) (x.accElem p.reg (n + 1)) scale.1, scale.2 || x.parity.contains (.acc, 256 * p.reg + n) || (f.fmt == 5 && x.parity.contains (.acc, 256 * p.reg + n + 1)))

/-- R283: what ACCST stores at once: how many elements, and of how many bytes. -/
def FmtSlot.accstStep (f : FmtSlot) : Nat × Nat := (if f.fmt == 5 then 2 else 1, Nat.max 1 (fmtWidth f.fmt / 8))

/-- R283, R108: a quarter's slot and scale bytes are read and its elements converted; bit m of `data2` marks what a poisoned scale
byte made poisoned, which is no saturation event (DESIGN CHOICE, log 51). -/
def State.accstConvert (s : State) (id i : Nat) : State :=
  let o := s.op id
  let p := o.parts.getD i {}
  let k := ((s.grid o.grid).slot o.fmt).accstStep
  if p.bound == 1 then s
  else
    let es := (List.range (256 / k.1)).map fun m => s.accstElem o p (k.1 * m)
    let s := s.modPart id i fun q => { q with
      bound := 1
      data := es.foldr (fun e n => e.1.1 % 2 ^ (8 * k.2) + 2 ^ (8 * k.2) * n) 0
      data2 := es.foldr (fun e n => e.2.toNat + 2 * n) 0 }
    if es.any fun e => e.1.2 && !e.2 then s.modWave o.wave fun x => { x with satf := true } else s

/-- R283, R268: ACCST of a quarter performs, once every quarter has read its sources. -/
def State.performAccst (s : State) (id i : Nat) : State :=
  let s := s.accstConvert id i
  let o := s.op id
  let p := o.parts.getD i {}
  let k := ((s.grid o.grid).slot o.fmt).accstStep
  if !o.parts.all fun q => q.bound == 1 then s
  else
    (s.modTeam (s.teamKey o.wave) fun t => (List.range (256 / k.1)).foldl (fun t m =>
      t.writeClm (p.pa + k.2 * m) k.2 (p.data / 2 ^ (8 * k.2 * m) % 2 ^ (8 * k.2)) (hasBit p.data2 m)) t).finishWrite id i

/-- R273, R33: a flush takes its slot's elements, once its turn has come; those of a slot that fails its check travel on poisoned. -/
def State.takeSlot (s : State) (id q : Nat) : State :=
  let o := s.op id
  let x := s.wave o.wave
  (List.range 256).foldl (fun (s : State) k => s.modPart id (256 * q + k) fun p => { p with
    data := (x.accElem p.reg k).toNat, bound := 1, scaleBad := x.parity.contains (.acc, 256 * p.reg + k) }) s

/-- R278, R279: may element `i` of a flush go to its slice now?  What a slice holds has not performed, so only its
application waits for order. -/
def State.flushReady (s : State) (id i : Nat) : Bool :=
  let o := s.op id
  let p := o.parts.getD i {}
  i < o.parts.length && p.plt.isNone && (p.bound == 1 || s.slotFree id p.reg) && s.canPay (s.grid o.grid).tenant 5 1 && s.linkFree id i

/-- R284, R335: the element goes to its slice: its slot is read where it was not, and its units are debited. -/
def State.flushSend (s : State) (id i : Nat) : State :=
  let s := if ((s.op id).parts.getD i {}).bound == 1 then s else s.takeSlot id (i / 256)
  let o := s.op id
  (s.pay (s.grid o.grid).tenant 5 1).linkPay id i

/-- R278: the near-cache adders apply an element; poison in the word stays in the sum (R33). -/
def State.applyElem (s : State) (id i : Nat) : State :=
  let p := (s.op id).parts.getD i {}
  if p.rel == .todo then s.performProvisional id i
  else
    let s := s.yieldLine none (p.pa / 64)
    let (old, bad) := s.readPa none p.pa 4
    (s.writeHome p.pa 4 (addF32 (BitVec.ofNat 32 old) (BitVec.ofNat 32 p.data)).toNat p.cache (bad || p.scaleBad)).finishWrite id i

/-- R279: has every element been held or applied? -/
def Op.allHeld (o : Op) : Bool := o.parts.all fun p => p.landed == 1 || p.plt.isSome

/-- R279: a DET contribution arrives at its slice and is held. -/
def State.holdElem (s : State) (id i : Nat) : State :=
  let o := s.op id
  let p := o.parts.getD i {}
  let s := s.modPart id i fun q => { q with landed := 1 }
  let s := { s with o := { s.o with held := s.o.held ++ [({ grid := o.grid, team := o.team, word := p.pa / 4, round := p.data2, op := id, part := i } : Contribution)] } }
  if (s.op id).allHeld then s.completeOp id else s

/-- R278: ACCUMULATE_APPLY: an element of a flush reaches its slice; a plain one is applied, a DET one held. -/
def execAccumulateApply (op part elem : Nat) (s : State) : Outcome :=
  .next (
    let o := s.op op
    let i := 256 * part + elem
    let p := o.parts.getD i {}
    if 256 ≤ elem || !s.flushReady op i || p.landed == 1 then s
    else match o.kind with
      | .accflush => if s.provHeld p.pa 4 || !s.partReady op i then s else s.compared op i fun s => (s.flushSend op i).applyElem op i
      | .accdet => s.compared op i fun s => (s.flushSend op i).holdElem op i
      | _ => s)

/-- R279: has team t had its round-r contribution to the word applied, all its quarters, or ended with none to come? -/
def State.detPast (s : State) (g word r t : Nat) : Bool :=
  let gr := s.grid g
  (gr.ended.contains t || gr.detDone.any fun c => c.word == word && c.round == r && c.team == t) &&
  s.o.ops.all fun e => !(e.2.kind == .accdet && e.2.grid == g && e.2.team == t) ||
    e.2.parts.all fun p => p.plt.isSome || p.pa / 4 != word || p.data2 != r

/-- R279: may a contribution be applied: every lower team past this round, and the round before closed? -/
def State.detReady (s : State) (c : Contribution) : Bool :=
  (List.range c.team).all (fun t => s.detPast c.grid c.word c.round t) &&
  (c.round == 0 || (List.range (s.grid c.grid).nteams).all fun t => s.detPast c.grid c.word (c.round - 1) t)

/-- R279, R30: what a slice that applies a held contribution asks for: its line may have left it meanwhile. -/
def State.sliceAsks (s : State) (id i : Nat) : List Ask := (s.asksOf id i).map fun a => { a with die := s.homeDie a.line, core := none }

/-- R279: DET_CONTRIBUTION_APPLY. -/
def execDetContributionApply (op part elem : Nat) (s : State) : Outcome :=
  .next (
    let i := 256 * part + elem
    match s.o.held.find? fun c => c.op == op && c.part == i with
    | none => s
    | some c =>
      let p := (s.op op).parts.getD i {}
      if 256 ≤ elem || !s.detReady c || !s.partReady op i || s.provHeld p.pa 4 || !(s.sliceAsks op i).all s.askReady then s
      else
        let s := s.asksGo (s.sliceAsks op i)
        let s := { s with o := { s.o with held := s.o.held.filter fun d => d != c } }
        (s.modGrid c.grid fun g => { g with detDone := g.detDone ++ [c] }).applyElem op i)

end Sys2Proof.Machine
end

