-- ==== Sys2Proof/Machine/MemEvents.lean ====
section
/-! DEFINITION. The events of memory operations (R192, R225-R227, R240, R246, R323, R334): data arrives, a
write or RMW performs, a release performs and completes, a walk or an instruction-cache miss ends.  An
event whose conditions do not hold changes nothing. -/

namespace Sys2Proof.Machine

open Sys2Proof

/-- R192: LOAD_DATA_ARRIVE. -/
def execLoadDataArrive (op part word : Nat) (s : State) : Outcome :=
  .next (
    let o := s.op op
    let p := o.parts.getD part {}
    if o.kind.isLoad && part < o.parts.length && p.plt.isSome && !p.arrived o.kind then s.arrive op part word
    else if !s.partReady op part || !(p.bound != 0 || s.linkFree op part) then s
    else if o.kind == .ldf then (s.linkPay op part).arriveElem op part
    else if o.kind.isLoad then
      let s := if p.bound == 0 then s.linkPay op part else s
      let s := s.arrive op part word
      if o.kind == .jtab && (s.op op).arrived then s.jtabDone op else s
    else s)

/-- R246, R311: does the injection register, as it stood when the store was issued, match this part's write?  One store is delayed at a time (DEDUCED, log 47). -/
def State.firMatches (s : State) (o : Op) (p : Part) : Bool :=
  let c := o.firctl
  c.getLsbD 0 && s.reg.firFired < o.arm && !p.clm && p.ready == 0 && (o.kind == .st || o.kind == .stf || o.kind == .ust || o.kind == .stm) &&
  o.cls == .pw && o.core == c.toNat / 2 ^ 8 % 256 && p.pa / 64 == o.firaddr.toNat / 64 &&
  !s.o.ops.any fun e => e.2.parts.any fun q => q.ready != 0 && q.plt.isNone

/-- R246: the store that matches becomes the delayed store (DEDUCED, log 47). -/
def State.firDelay (s : State) (id i : Nat) : State :=
  s.modPart id i fun p => { p with ready := s.sch.cycle + (s.op id).firctl.toNat / 2 ^ 16 * 16 }

/-- R225: a write or RMW that is no release performs. -/
def State.performPlain (s : State) (id i : Nat) : State :=
  match (s.op id).kind with
  | .st | .stf | .sts | .ust | .stm => s.performStore id i
  | .atom _ opc | .batom opc => s.performAtom id i opc
  | .wb | .inv | .invn | .icinv => s.maintainLine id i
  | .accst => if s.slotFree id ((s.op id).parts.getD i {}).reg then s.performAccst id i else s
  | .hfree h p => (s.modHandles (s.teamKey (s.op id).wave) fun t => t.freeHandle h p).finishWrite id i
  | _ => s

/-- R205, R226: an atomic that takes its line for its core's L1 waits for a provisional release of the line. -/
def State.ownWaits (s : State) (o : Op) (p : Part) : Bool :=
  (match o.kind with | .atom _ _ => true | _ => false) && p.rel == .none && !p.clm && p.cache == 0 && (s.partTask o p).isNone &&
  s.owner (p.pa / 64) != some o.core && s.provLine (p.pa / 64)

/-- R225: the part may perform now, as far as order and provisional releases go. -/
def State.canPerform (s : State) (id i : Nat) : Bool :=
  let p := (s.op id).parts.getD i {}
  s.partReady id i && (p.clm || !s.provHeld p.pa p.size) && !s.ownWaits (s.op id) p && s.linkFree id i

/-- R225: MEMORY_EVENT_PERFORM. -/
def execMemoryEventPerform (op part : Nat) (s : State) : Outcome :=
  .next (
    let o := s.op op
    let p := o.parts.getD part {}
    if !s.canPerform op part || p.rel != .none || p.ready != 0 then s
    else if s.firMatches o p then s.firDelay op part
    else s.compared op part fun s => (s.linkPay op part).performPlain op part)

/-- R226: RELEASE_PROVISIONAL_PERFORM. -/
def execReleaseProvisionalPerform (op part : Nat) (s : State) : Outcome :=
  .next (
    let o := s.op op
    let p := o.parts.getD part {}
    if !s.canPerform op part || p.rel != .todo || p.ready != 0 || o.kind == .accflush || o.kind == .accdet then s
    else if s.firMatches o p then s.firDelay op part
    else s.compared op part fun s => (s.linkPay op part).performProvisional op part)

/-- R246: FIR_DELAYED_STORE. -/
def execFirDelayedStore (s : State) : Outcome :=
  .next (
    match s.o.ops.find? fun e => e.2.parts.any fun q => q.ready != 0 && q.plt.isNone with
    | none => s
    | some (id, o) =>
      let i := o.parts.findIdx fun q => q.ready != 0 && q.plt.isNone
      let p := o.parts.getD i {}
      if s.sch.cycle < p.ready || !s.canPerform id i then s
      else s.compared id i fun s =>
        let s := s.linkPay id i
        if p.rel == .todo then s.performProvisional id i else s.performPlain id i)

/-- R227: RELEASE_COMPLETE. -/
def execReleaseComplete (op part : Nat) (s : State) : Outcome :=
  .next (
    let p := (s.op op).parts.getD part {}
    if p.rel == .prov && s.mayComplete op part then s.completeRelease op part else s)

/-- R323: a walk's answer enters the TLB of its core. -/
def State.fillTlb (s : State) (k : Walk) (r : WalkOk) (a d : Bool) : State :=
  let vpn := k.va.toNat / 2 ^ 16
  let t : Tlb := { core := k.core, asid := k.asid, vpn := vpn, frame := r.frame, x := r.x, w := r.w, rd := r.rd, a := a, d := d }
  let old := s.m.tlb.filter fun e => !(e.core == k.core && e.asid == k.asid && e.vpn == vpn)
  { s with m := { s.m with tlb := t :: old } }

/-- R191, R323: the bundles that wait for a walk go on. -/
def State.endWalk (s : State) (id w : Nat) : State :=
  s.modWave w fun x => { x with bundles := x.bundles.map fun b => if b.stall == .walk id then { b with stall := .none } else b }

/-- R323: does a walk find the permission it is for?  A and D are set only then. -/
def Walk.marks (k : Walk) (r : WalkOk) : Bool := grants r.x r.w r.rd (if k.write then .store else if k.fetch then .fetch else .load)

/-- R323, R226, R40: the walker's write of a leaf waits for a provisional release there, and for the host. -/
def State.leafWaits (s : State) (k : Walk) : Bool :=
  match s.walkNow k.asid k.va with
  | .ok r => k.marks r && !s.leafMarked r.pte k.write && (s.provHeld r.pte 1 || s.m.hostLines.contains (r.pte / 64))
  | .error _ => false

/-- R323: a walk fails, by its own entries or with poisoned ones. -/
def State.failWalk (s : State) (walk : Nat) (k : Walk) (f : FaultInfo) : State :=
  { s with m := { s.m with walks := SMap.set {} s.m.walks walk { k with failed := some (f.code, f.reason, f.info, f.paddr) } } }

/-- R323, R324, R322: PAGE_WALK: a walk that has a walker, and whose reads have reached the tables, ends. -/
def execPageWalk (walk : Nat) (s : State) : Outcome :=
  .next (
    match s.m.walks.find? fun e => e.1 == walk && e.2.failed.isNone with
    | none => s
    | some (_, k) =>
      let as := s.walkAsks walk k
      if !s.hasWalker walk k || !as.all s.askReady || s.leafWaits k then s
      else
      let s := as.foldl (fun (s : State) a => s.yieldLine none a.line) (s.asksGo as)
      let s := s.endWalk walk k.wave
      let gone := { s with m := { s.m with walks := s.m.walks.filter fun e => e.1 != walk } }
      if k.drop then gone
      else match s.walkNow k.asid k.va with
        | .error f => s.failWalk walk k f
        | .ok r =>
          let s := if k.marks r && !s.leafMarked r.pte k.write then gone.markLeaf r.pte k.write else gone
          s.fillTlb k r (k.marks r) (k.marks r && k.write))

/-- R334: a miss ends with a line: the words come into the die's instruction cache, and the bundle that needs them goes on. -/
def State.missFilled (s : State) (miss : Nat) (k : Miss) (x : Line) : State :=
  let s := s.setIc (dieOf (coreOf k.wave)) (k.pa / 64) x
  let s := { s with m := { s.m with misses := s.m.misses.filter fun e => e.1 != miss } }
  s.modWave k.wave fun x => { x with bundles := x.bundles.map fun b => if b.stall == .miss miss then { b with stall := .none } else b }

/-- R334: ICACHE_MISS_FILL. -/
def execIcacheMissFill (miss : Nat) (s : State) : Outcome :=
  .next (
    match s.m.misses.find? fun e => e.1 == miss with
    | none => s
    | some (_, k) =>
      let line := k.pa / 64
      if !s.askReady (s.missAsk miss k) then s
      else
      let s := s.askGo (s.missAsk miss k)
      let (d, p) := s.below line
      s.missFilled miss k { valid := true, data := d, poison := p })

end Sys2Proof.Machine
end

