-- ==== Sys2Proof/Machine/Report.lean ====
section
/-! DEFINITION. What is reported and commanded (R42, R241, R315-R319): interrupts, fault records as they are
posted, resuming and killing a suspended group. -/

namespace Sys2Proof.Machine

open Sys2Proof

/-- R345: the write that a vector's message makes. -/
def Port.msi (p : Port) (vec : Nat) : Nat × Word := SMap.get (0, 0#32) p.table vec
/-- R42, R345: a port delivers messages, in order. -/
def Port.deliver (p : Port) (vs : List Nat) : Port := { p with sent := p.sent ++ vs, wrote := p.wrote ++ vs.map p.msi }

/-- R42: a message goes to a port; one that is not enumerated keeps it. -/
def State.sendMsi (s : State) (port vec : Nat) : State :=
  let p := s.port port
  s.setPort port (if p.enumerated && !p.ioOnly && p.pending.isEmpty then p.deliver [vec] else { p with pending := p.pending ++ [vec] })

/-- R42: MSI_DELIVER_PENDING. -/
def execMsiDeliverPending (port : Nat) (s : State) : Outcome :=
  .next (
    let p := s.port port
    if p.enumerated && !p.ioOnly then s.setPort port { p.deliver p.pending with pending := [] } else s)

/-- R319: the answer to a command on a wave of a tenant. -/
def State.wcmdRes (s : State) (tenant wid : Nat) : Nat :=
  let w := waveOfId wid
  if !(s.wave w).resident || s.waveId w != wid then 2
  else if (s.gridOf w).tenant != tenant then 3
  else if !s.suspended w then 1
  else 0

/-- R319: RES of wcmd. -/
def State.setRes (s : State) (tenant res : Nat) : State :=
  s.modTenant tenant fun t => { t with wcmd := (t.wcmd &&& ~~~0x03000000#32) ||| BitVec.ofNat 32 (res * 2 ^ 24) }

/-- R319: the waves of every group that holds a wave. -/
def State.groupWaves (s : State) (w : Nat) : List Nat :=
  ((s.x.groups.filter fun g => g.waves.contains w).flatMap fun g => g.waves).eraseDups

/-- R317: does the record of a group wait to be posted? -/
def State.recordWaits (s : State) (g : Group) : Bool :=
  match g.seq with
  | none => false
  | some n => (s.tenant g.tenant).nrec ≤ n + (s.tenant g.tenant).records.length

/-- R318, R264: the copy whose fault suspended a group goes on. -/
def State.resumeCopy (s : State) (g : Group) : State :=
  match g.copy with
  | none => s
  | some k => let c := s.copy k; if c.live then s.setCopy k { c with stopped := false, failed := false } else s

/-- R317-R319, R244: groups that are to resume and whose records have been posted go on from where their faults
leave them; the discarded releases of a wave that is no longer suspended count as complete. -/
def State.goOn (s : State) : State :=
  let gs := s.x.groups.filter fun g => g.resumed && !s.recordWaits g
  let s := gs.foldl (fun (s : State) g => s.resumeCopy g) ({ s with x := { s.x with groups := s.x.groups.filter fun g => !(g.resumed && !s.recordWaits g) } })
  (gs.flatMap fun g => g.waves).eraseDups.foldl (fun (s : State) w => if s.suspended w then s else s.modWave w fun x => { x with discard := false }) s

/-- R317: FAULT_RECORD_POST: a waiting record is written, then its interrupt is sent; a group that was to
resume goes on. -/
def execFaultRecordPost (tenant : Nat) (s : State) : Outcome :=
  .next (
    let t := s.tenant tenant
    match t.records with
    | [] => s
    | r :: rest =>
      if !t.canPost then s
      else
        let key := askAgent 4 tenant
        let a := t.fqbase.toNat + 64 * (t.fqprod.toNat % 2 ^ (t.fqctl.toNat % 32))
        -- the device's records are nobody's traffic, and leave from die 0 (DESIGN CHOICE, log 63)
        s.act key (physAsks key 0 32 a 64 true) fun s =>
          let s := if s.lostAny key then s else s.writeRange a r
          let s := s.modTenant tenant fun x => ({ x with records := rest, fqprod := x.fqprod + 1#32 } : Tenant).noteOvf
          (s.sendMsi t.msiport (32 * tenant + t.fqctl.toNat / 2 ^ 8 % 32)).goOn)

/-- R319: the faults for which waves are suspended are cleared (DEDUCED, log 37). -/
def State.clearGroups (s : State) (w : Nat) : State := { s with x := { s.x with groups := s.x.groups.filter fun g => !g.waves.contains w } }

/-- R319, R317: RESUME: every group that holds the wave goes on, once its record has been posted (DEDUCED, log 37). -/
def State.resume (s : State) (w : Nat) : State :=
  ({ s with x := { s.x with groups := s.x.groups.map fun g => if g.waves.contains w then { g with resumed := true } else g } } : State).goOn

/-- R319: a RESUME command of a tenant on a wave. -/
def State.wcmdResume (s : State) (tenant wid : Nat) : State :=
  let r := s.wcmdRes tenant wid
  (if r == 0 then s.resume (waveOfId wid) else s).setRes tenant r

/-- R319: WCMD_RESUME. -/
def execWcmdResume (tenant wid : Nat) (s : State) : Outcome := .next (s.wcmdResume tenant wid)

/-- R300, R319: the tasks of a killed wave count as committed at the next publication. -/
def State.finishKilled (s : State) (w : Nat) : State :=
  let x := s.wave w
  if x.taskWave then
    s.modGrid x.grid fun g => { g with tasks := (List.range 32).foldl (fun ts l =>
      match (x.lane l).task with
      | none => ts
      | some id =>
        let t := SMap.get {} ts id
        if t.st == .running then SMap.set {} ts id { t with st := .finished, wave := none } else ts) g.tasks }
  else s

/-- R319, R176: KILL of one wave: every lane EXITED, HMODE clear. -/
def State.killWave (s : State) (w : Nat) : State :=
  let s := s.finishKilled w
  let s := s.modWave w fun x =>
    let x := x.exitLanes x.live
    let x := x.forLanes 0xFFFFFFFF#32 fun y l => y.setLane l { y.lane l with task := none }
    { x with hmode := false, hlanes := 0#32, saved := none, discard := false }
  (s.dropFailed [w]).modGrid (s.wave w).grid fun g => { g with killed := true }

/-- R319: KILL. -/
def State.kill (s : State) (w : Nat) : State :=
  let ws := s.groupWaves w
  let s := s.clearGroups w
  let ids := (s.o.copies.filter fun e => e.2.live && e.2.members.any fun k => ws.contains k).map fun e => e.1
  let s := ids.foldl (fun (s : State) k => s.dropCopy k) s
  ws.foldl (fun (s : State) k => s.killWave k) s

/-- R319: a KILL command of a tenant on a wave. -/
def State.wcmdKill (s : State) (tenant wid : Nat) : State :=
  let r := s.wcmdRes tenant wid
  (if r == 0 then s.kill (waveOfId wid) else s).setRes tenant r

/-- R319: WCMD_KILL. -/
def execWcmdKill (tenant wid : Nat) (s : State) : Outcome := .next (s.wcmdKill tenant wid)

end Sys2Proof.Machine
end

