-- ==== Sys2Proof/Machine/Place.lean ====
section
/-! DEFINITION. Room on a core and the start of a wave (R54, R55, R60, R147, R183-R185, R332), shared by
placement, the shuttle and the return of a saved team. -/

namespace Sys2Proof.Machine

open Sys2Proof

/-- R55: the register-file rows a wave occupies. -/
def rowsOf (vcount : Nat) : Nat := (vcount + 7) / 8 * 8 + 8

/-- R337: a wave and its shadow count twice. -/
def copiesOf (redun : Nat) : Nat := if redun == 1 then 2 else 1

/-- The resident waves of a partition (DEDUCED, log 45). -/
def State.partWaves (s : State) (core part : Nat) : List Wave :=
  ((List.range 16).map fun k => s.wave (waveKey core part k)).filter fun x => x.resident

/-- R55: does one more wave fit in a partition? (DEDUCED, log 45) -/
def State.fitsWave (s : State) (core part redun vcount slots : Nat) : Bool :=
  let xs := s.partWaves core part
  let n := copiesOf redun
  (xs.map fun x => copiesOf x.redun).foldl (· + ·) n ≤ 16 &&
  (xs.map fun x => copiesOf x.redun * rowsOf x.vcount).foldl (· + ·) (n * rowsOf vcount) ≤ 2048 &&
  (xs.map fun x => copiesOf x.redun * x.slots).foldl (· + ·) (n * slots) ≤ 64

/-- A free wave slot of a partition. -/
def State.freeWave (s : State) (core part : Nat) : Option Nat :=
  ((List.range 16).find? fun k => !(s.wave (waveKey core part k)).resident).map fun k => waveKey core part k

/-- Is a team or a task wave resident on the core? -/
def State.occupied (s : State) (core : Nat) : Bool :=
  (s.x.waves.any fun e => coreOf e.1 == core && e.2.resident) || (List.range 8).any fun k => (s.team (8 * core + k)).resident

/-- R183: the scratch of a carve-out entry, in bytes. -/
def carveScratch (carve : Nat) : Nat := (768 + 64 * carve) * 1024

/-- R183, R185: does a team of this entry and scratch size fit beside the teams of the core? -/
def State.fitsScratch (s : State) (core carve scratch : Nat) : Bool :=
  (!s.occupied core || (s.core core).carve == carve) &&
  ((List.range 8).map fun k => (s.team (8 * core + k)).scratch).foldl (· + ·) scratch ≤ carveScratch carve

/-- Writes back and drops every line of a core's L1 (R46, R48, R184). -/
def State.flushL1 (s : State) (core : Nat) : State :=
  (s.m.l1.filter fun e => e.1 % 256 == core).foldl (fun (s : State) (e : Nat × Line) => s.evictL1 core (e.1 / 256)) s

/-- R184, R344: a core is chosen for placement: it wakes, and takes the entry where it has another. -/
def State.readyCore (s : State) (core carve : Nat) : State :=
  let s := if (s.core core).carve == carve then s else s.flushL1 core
  s.modCore core fun k => { k with carve := carve, gated := false }

/-- R54, R60: a wave as it starts; under SPLITWAVE lanes 16 to 31 are not the program's (R338). -/
def Grid.newWave (g : Grid) (gk tslot widx : Nat) (role : Role) (vcount slots : Nat) : Wave :=
  let x : Wave := { resident := true, grid := gk, tslot := tslot, widx := widx, role := role, vcount := vcount, slots := slots, redun := g.redun, rngkey := g.rngkey }
  let x := (List.range (if g.redun == 2 then 16 else 32)).foldl (fun (x : Wave) l => x.setLane l { pc := g.entry, st := .running }) x
  (List.range 32).foldl (fun (x : Wave) i => x.setS i (g.consts.getD i 0#32)) x

end Sys2Proof.Machine
end

