-- ==== Sys2Proof/Machine/Launch.lean ====
section
/-! DEFINITION. Launches (R326-R333, R357, R147, R148, R102, R103): taking a launch record, refusing or accepting
it, placing and staging its teams, and the end of the launch. -/

namespace Sys2Proof.Machine

open Sys2Proof

/-- R357: the launch processor of a die, for a launch's context; `key` names what it does (DESIGN CHOICE, log 63). -/
def lpAgent (die asid tenant key : Nat) : Agent := { die := die, asid := asid, tenant := tenant, key := key }

/-- What a launch processor does: an answer, none where a read has failed, and the state with what it has asked for. -/
abbrev Lp (α : Type) := State → Option α × State
/-- An answer without an access. -/
def lpRet {α : Type} (a : α) : Lp α := fun s => (some a, s)
/-- One action after another; a failed read ends them. -/
def Lp.andThen {α β : Type} (m : Lp α) (f : α → Lp β) : Lp β := fun s =>
  match m s with
  | (none, s) => (none, s)
  | (some a, s) => f a s

/-- R357: n bytes of one line read by a launch processor; poisoned data is a failed read. -/
def lpLine (ag : Agent) (va : DWord) (n : Nat) : Lp (List Byte) := fun s =>
  match s.checkNow ag .load va 0 with
  | (.error _, s) => (none, s)
  | (.ok a, s) =>
    let s := (s.note ag [(a.pa, n, false)]).yieldLine none (a.pa / 64)
    let r := s.readPa none a.pa n
    (if r.2 || s.lostTo ag a.pa then none else some (leBytes n r.1), s)

/-- The pieces of n bytes at an address, one for each line they touch: where it begins and how long it is. -/
def pieces (va n : Nat) : List (Nat × Nat) :=
  if n == 0 then [] else (List.range ((va + n - 1) / 64 + 1 - va / 64)).map fun i =>
    let lo := Nat.max va (64 * (va / 64 + i))
    (lo, Nat.min (va + n) (64 * (va / 64 + i + 1)) - lo)

/-- R357: the bytes of a list of pieces, read by a launch processor. -/
def lpRead (ag : Agent) : List (Nat × Nat) → Lp (List Byte)
  | [] => lpRet []
  | e :: es => (lpLine ag (BitVec.ofNat 64 e.1) e.2).andThen fun b => (lpRead ag es).andThen fun bs => lpRet (b ++ bs)

/-- R328: a launch record, its fields by name. -/
structure LRec where
  bytes : List Byte := []
  deriving DecidableEq, Repr, Inhabited

/-- A field of the record. -/
def LRec.at (r : LRec) (off n : Nat) : Nat := recField r.bytes off n
/-- R328: FLAGS.TASK. -/
def LRec.task (r : LRec) : Bool := r.at 4 2 % 2 == 1
/-- R328: a control team is present. -/
def LRec.control (r : LRec) : Bool := r.at 4 2 / 2 % 2 == 1
/-- R328: REDUN. -/
def LRec.redun (r : LRec) : Nat := r.at 4 2 / 4 % 4
/-- R328: SERIAL. -/
def LRec.serial (r : LRec) : Bool := r.at 4 2 / 16 % 2 == 1
/-- R328: the role field of wave w. -/
def LRec.roleField (r : LRec) (w : Nat) : Nat := r.at 0x18 8 / 4 ^ w % 4
/-- R149: the role of a field. -/
def roleOf : Nat → Role
  | 0 => .general | 1 => .copy | _ => .matrix
/-- R328: the declared count of a role, 0 GENERAL to 2 MATRIX; 3 is the slot count. -/
def LRec.count (r : LRec) (k : Nat) : Nat := r.at (0x20 + k) 1
/-- R328: the waves of a team. -/
def LRec.nwaves (r : LRec) : Nat := r.at 0x14 1
/-- R328: the set masks. -/
def LRec.sets (r : LRec) : List Nat := (List.range 8).map fun i => r.at (0x28 + 4 * i) 4
/-- Are some bytes of a record zero? -/
def LRec.zero (r : LRec) (off n : Nat) : Bool := r.at off n == 0

/-- R328: FORMAT, a reserved byte or a field out of range (DEDUCED, log 40). -/
def LRec.bad (r : LRec) : Bool :=
  r.at 0 4 != 0x4C520001 || r.at 4 2 / 32 != 0 || !r.zero 0x24 4 || !r.zero 0x97 1 || !r.zero 0xC8 56 ||
  r.redun == 3 || 1024 ≤ r.at 6 2 ||
  (if r.task then r.at 0x10 4 != (if r.control then 1 else 0) else r.at 0x10 4 == 0 || 65535 < r.at 0x10 4) ||
  r.nwaves == 0 || 32 < r.nwaves || 3 < r.at 0x15 1 || 240 < r.at 0x16 2 ||
  (List.range r.nwaves).any (fun w => r.roleField w == 3 || r.count (r.roleField w) == 0) ||
  [0, 1, 2].any (fun k => 128 < r.count k) || 16 < r.count 3 ||
  r.at 0x58 2 < 32 || 256 < r.at 0x58 2 || 16 < r.at 0x5A 2 || 16 < r.at 0x5C 2 || (31 < r.at 0x5E 2 && r.at 0x5E 2 != 0xFFFF) ||
  (r.task && (r.at 0x90 4 == 0 || 2 ^ 24 < r.at 0x90 4 || r.at 0x94 1 == 0 || 16 < r.at 0x94 1 || 128 < r.at 0x95 1 ||
    r.at 0x96 1 == 0 || 64 < r.at 0x96 1 || r.zero 0xA0 32))

/-- R323: the context is not valid, or another tenant's. -/
def State.badCtx (s : State) (asid tenant : Nat) : Bool := s.ctxRoot asid % 2 == 0 || s.ctxTenant asid != tenant

/-- R102: a format slot from its 32 bytes; its map is read apart. -/
def slotOf (bs : List Byte) : FmtSlot :=
  { fmt := recField bs 0 4 % 16, sk := recField bs 0 4 / 2 ^ 4 % 16, blk := recField bs 0 4 / 2 ^ 8 % 8,
    ssp := recField bs 0 4 / 2 ^ 11 % 2 == 1, dbase := BitVec.ofNat 64 (recField bs 8 8), sbase := BitVec.ofNat 64 (recField bs 0x10 8) }

/-- R102: DUPN. -/
def dupn (bs : List Byte) : Nat := recField bs 4 2
/-- R102: DMAP. -/
def dmap (bs : List Byte) : Nat := recField bs 0x18 8
/-- R103: a map that is there to be read. -/
def hasMap (bs : List Byte) : Bool := dupn bs != 0 && dupn bs ≤ 64 && dmap bs % 2 == 0

/-- Are numbers strictly rising? -/
def risingNat : List Nat → Bool
  | a :: b :: rest => a < b && risingNat (b :: rest)
  | _ => true

/-- R103: a slot that is refused. -/
def badFmt (bs : List Byte) (map : List Nat) : Bool :=
  let f := slotOf bs
  recField bs 0 4 / 2 ^ 12 != 0 || recField bs 6 2 != 0 || 5 < f.fmt || 1 < f.sk || (f.sk == 1 && (3 < f.blk || f.fmt < 3)) ||
  64 < dupn bs || (dupn bs != 0 && (f.fmt != 5 || dmap bs % 2 != 0)) || !risingNat map ||
  (f.sk == 1 && f.ssp && (2 ^ 20 ≤ f.dbase.toNat || 2 ^ 20 ≤ f.sbase.toNat))

/-- What a launch processor has read for a record: constants, slots with their maps, hamper entries, buffer list,
variant header, descriptors, entry table.  `hampers` is none where a read failed. -/
structure Tables where
  consts : List Word := []
  slots : List (List Byte) := []
  maps : List (List Nat) := []
  hampers : Option (List (List Byte)) := none
  bufs : List (List Byte) := []
  variants : List (List Byte) := []
  tasks : List (List Byte) := []
  entries : List DWord := []
  deriving DecidableEq, Repr, Inhabited

/-- The records of n bytes in a run of bytes. -/
def chop (n : Nat) (bs : List Byte) : List (List Byte) :=
  (List.range (bs.length / n)).map fun i => (bs.drop (n * i)).take n

/-- A read of n bytes that refuses the launch where it fails. -/
def lpTake (ag : Agent) (va n : Nat) : Lp (List Byte) := lpRead ag (pieces (va % 2 ^ 64) n)

/-- R102: reads the duplication maps of the slots. -/
def lpMaps (ag : Agent) : List (List Byte) → Lp (List (List Nat))
  | [] => lpRet []
  | b :: bs => (if hasMap b then lpTake ag (dmap b) (2 * dupn b) else lpRet []).andThen fun m =>
      (lpMaps ag bs).andThen fun ms => lpRet ((chop 2 m).map leNat :: ms)

/-- R330: the variant entries; none where the header is no header.  The 8 reserved bytes of an entry are not looked at (DESIGN
CHOICE, log 54). -/
def lpVariants (ag : Agent) (r : LRec) : Lp (List (List Byte)) :=
  (lpTake ag (r.at 8 8) 8).andThen fun h =>
    let n := recField h 4 4
    if recField h 0 4 != 0x56415201 || n == 0 || 8 < n then lpRet []
    else (lpTake ag (r.at 8 8 + 8) (32 * n)).andThen fun bs => lpRet (chop 32 bs)

/-- R328, R357: reads the record's tables; none where a read other than the hamper entries' fails. -/
def lpTables (ag : Agent) (r : LRec) : Lp Tables :=
  (lpTake ag (r.at 0x50 8) (4 * r.at 0x58 2)).andThen fun cs =>
  (lpTake ag (r.at 0x60 8) 256).andThen fun fs =>
  (lpMaps ag (chop 32 fs)).andThen fun ms =>
  (lpTake ag (r.at 0x70 8) (32 * r.at 0x5C 2)).andThen fun bs =>
  (lpVariants ag r).andThen fun vs =>
  (if r.task then lpTake ag (r.at 0x88 8) (48 * r.at 0x90 4) else lpRet []).andThen fun ts =>
  (if r.task then lpTake ag (r.at 0x98 8) 128 else lpRet []).andThen fun es => fun s =>
    let t : Tables := { consts := (chop 4 cs).map fun b => BitVec.ofNat 32 (leNat b), slots := chop 32 fs, maps := ms, bufs := chop 32 bs,
                        variants := vs, tasks := chop 48 ts, entries := (chop 8 es).map fun b => BitVec.ofNat 64 (leNat b) }
    let r := lpTake ag (r.at 0x68 8) (32 * r.at 0x5A 2) s
    (some { t with hampers := r.1.map (chop 32) }, r.2)

/-- R329: a buffer entry out of range. -/
def badBuf (b : List Byte) : Bool := recField b 0 4 == 0 || 4095 < recField b 0 4 || recField b 4 4 / 8 != 0 || recField b 0x18 8 != 0

/-- R286: a descriptor that refuses the launch. -/
def badDesc (n : Nat) (b : List Byte) : Bool := recField b 6 2 != 0 || n ≤ recField b 0 4 || 256 ≤ recField b 4 2

/-- R286: BADTASK. -/
def LRec.badTask (r : LRec) (t : Tables) : Bool := r.task && (r.at 0x95 1 < 8 || t.tasks.any (badDesc (r.at 0x94 1)))

/-- R148: BADSET. -/
def LRec.badSet (r : LRec) : Bool :=
  r.sets.any fun m =>
    let ws := (List.range 32).filter fun w => m / 2 ^ w % 2 == 1
    ws.any (fun w => r.nwaves ≤ w) || ws.any fun w => r.roleField w != r.roleField (ws.headD 0)

/-- R247, R285: BADROLE.  The record has no slot count for GENERAL and COPY waves; a control team is of GENERAL waves. -/
def LRec.badRole (r : LRec) : Bool := r.task && r.control && (List.range r.nwaves).any fun w => r.roleField w != 0

/-- R333: a hamper entry by name. -/
def hamperOf (b : List Byte) : Hamper :=
  { va := BitVec.ofNat 64 (recField b 0 8), len := recField b 8 8, scratch := recField b 0x10 4 % 2 == 1, cdst := recField b 0x14 4 }

/-- R333: two ranges of scratch meet. -/
def Hamper.meets (a b : Hamper) : Bool := a.scratch && b.scratch && a.cdst < b.cdst + b.len && b.cdst < a.cdst + a.len

/-- Does any entry meet a later one? -/
def anyMeet : List Hamper → Bool
  | [] => false
  | h :: hs => hs.any h.meets || anyMeet hs

/-- R333: the conditions of the entries beside those on their bytes. -/
def badHamper (scratch : Nat) (bs : List (List Byte)) : Bool :=
  bs.any (fun b => recField b 0x10 4 / 2 != 0 || recField b 0x18 8 != 0 || 2 ^ 24 < recField b 8 8) ||
  (bs.map hamperOf).any (fun h => h.scratch && scratch < h.cdst + h.len) || anyMeet (bs.map hamperOf)

/-- R333: every piece is checked as a load, by all of R191 but step 2 and the task rule; the bytes themselves are not read. -/
def lpChecks (ag : Agent) : List (Nat × Nat) → Lp Unit
  | [] => lpRet ()
  | e :: es => fun s => match s.checkNow ag .load (BitVec.ofNat 64 e.1) 0 false with
    | (.error _, s) => (none, s)
    | (.ok _, s) => lpChecks ag es s

/-- R333: checks every byte of every entry. -/
def lpHampers (ag : Agent) : List Hamper → Lp Unit
  | [] => lpRet ()
  | h :: hs => (lpChecks ag (pieces h.va.toNat h.len)).andThen fun _ => lpHampers ag hs

/-- R330: the 32-byte map of cores in service. -/
def State.coreMap (s : State) : List Byte :=
  (List.range 32).map fun b => BitVec.ofNat 8 ((List.range 8).foldl (fun n i => if (s.core (8 * b + i)).out then n else n + 2 ^ i) 0)
/-- R330: the defect-map signature. -/
def State.signature (s : State) : Nat := leNat ((sha256 s.coreMap).take 8)

/-- R330: the variant taken: its index and entry. -/
def State.variant (s : State) (vs : List (List Byte)) : Option (Nat × List Byte) :=
  let es := (List.range vs.length).zip vs
  match es.find? fun e => recField e.2 0 8 == s.signature with
  | some e => some e
  | none => es.find? fun e => recField e.2 0 8 == 0 && recField e.2 0x10 8 == 0

/-- R328, R339: the redundancy of a launch, never below the tenant's policy; task waves run without. -/
def State.launchRedun (s : State) (tenant : Nat) (r : LRec) : Nat := Nat.min 2 (Nat.max r.redun (s.tenant tenant).redpol)

/-- The role of a wave of a launch, its register count and its slots. -/
def LRec.wave (r : LRec) (w : Nat) : Role × Nat × Nat :=
  let k := r.roleField w
  (roleOf k, r.count k, if k == 2 then r.count 3 else 0)

/-- R328: NOROOM: a team does not fit one empty core. -/
def LRec.noRoom (r : LRec) (redun : Nat) : Bool :=
  let n := copiesOf redun
  let sum := fun (p : Nat) (f : Nat → Nat) => (((List.range r.nwaves).filter fun w => w % 4 == p).map f).foldl (· + ·) 0
  carveScratch (r.at 0x15 1) < 4096 * r.at 0x16 2 ||
  (!(r.task && !r.control) && (List.range 4).any fun p =>
    16 < n * sum p (fun _ => 1) || 2048 < n * sum p (fun w => rowsOf (r.wave w).2.1) || 64 < n * sum p (fun w => (r.wave w).2.2))

/-- R329, R43: the uses of an ID by a tenant. -/
def Tenant.buf (t : Tenant) (id : Nat) : BufUse := SMap.get {} t.bufs id

/-- R329: a launch takes its position for one buffer: the grids it depends on, and the table. -/
def Tenant.takeBuf (t : Tenant) (g : Nat) (b : Buf) : List Nat × Tenant :=
  let u := t.buf b.id
  let rd := b.acc % 2 == 1 || b.acc / 4 % 2 == 1
  let wr := b.acc / 2 % 2 == 1
  let deps := (if rd || wr then u.writer.toList else []) ++ (if wr then u.readers else [])
  let u : BufUse := if wr then { writer := some g, readers := [] } else if rd then { u with readers := u.readers ++ [g] } else u
  (deps, { t with bufs := SMap.set {} t.bufs b.id u })

/-- R329: all its positions. -/
def Tenant.takeBufs (t : Tenant) (g : Nat) : List Buf → List Nat × Tenant
  | [] => ([], t)
  | b :: bs =>
    let (d, t) := t.takeBuf g b
    let (ds, t) := t.takeBufs g bs
    (d ++ ds, t)

/-- R286, R288: the tasks of a launch, on its task cores in turn. -/
def taskOf (cores : List Nat) (i : Nat) (b : List Byte) : Task :=
  { ts := BitVec.ofNat 64 (recField b 8 8), entry := recField b 0 4, scope := recField b 4 2, st := .queued, core := cores.getD (i % cores.length) 0
    arg := (List.range 8).map fun k => BitVec.ofNat 32 (recField b (0x10 + 4 * k) 4) }

/-- R288: scope 0 is the root; every other scope named by a descriptor is opened under it. -/
def Grid.openScope (g : Grid) (k : Nat) : Grid :=
  let f := SMap.get {} g.scopes k
  { g with scopes := SMap.set {} g.scopes k { opened := true, parent := if k == 0 then none else some 0, live := f.live } }

/-- R288, R301: queues the tasks of a launch and counts them in their scopes. -/
def Grid.withTasks (g : Grid) (bs : List (List Byte)) : Grid :=
  let g := g.openScope 0
  let g := ((List.range bs.length).zip bs).foldl (fun (g : Grid) e =>
    let t := taskOf g.tcores e.1 e.2
    let g := g.openScope t.scope
    let f := SMap.get {} g.scopes t.scope
    { g with tasks := SMap.set {} g.tasks e.1 t, scopes := SMap.set {} g.scopes t.scope { f with live := f.live + 1 } }) g
  { g with nextId := bs.length, frontier := g.front.map fun id => ((g.task id).ts.toNat, id) }

/-- R147, R328: the grid an accepted record makes. -/
def State.gridFrom (s : State) (tenant q prio lp seq : Nat) (r : LRec) (t : Tables) (v : Nat × List Byte) (place : List Nat) : Grid :=
  let g : Grid :=
    { live := true, tenant := tenant, queue := q, prio := prio, lp := lp, seq := seq, asid := r.at 6 2, accepted := s.x.nextGrid, serial := r.serial
      redun := s.launchRedun tenant r, nteams := r.at 0x10 4, nwaves := r.nwaves, carve := r.at 0x15 1, scratch := 4096 * r.at 0x16 2
      roles := (List.range r.nwaves).map fun w => (r.wave w).1, decl := [r.count 0, r.count 1, r.count 2], slots := r.count 3, sets := r.sets
      trapvec := BitVec.ofNat 64 (r.at 0x48 8), consts := t.consts
      fmts := (t.slots.zip t.maps).map fun e => { slotOf e.1 with map := e.2 }
      hampers := (t.hampers.getD []).map hamperOf
      bufs := t.bufs.map fun b => { id := recField b 0 4, acc := recField b 4 4, base := BitVec.ofNat 64 (recField b 8 8), len := BitVec.ofNat 64 (recField b 0x10 8) }
      cmplvec := r.at 0x5E 2, cmpl := BitVec.ofNat 64 (r.at 0xC0 8), rngkey := BitVec.ofNat 64 (r.at 0x78 8), ltstart := BitVec.ofNat 64 (r.at 0x80 8)
      entry := BitVec.ofNat 64 (recField v.2 8 8), variant := v.1, place := place, isTask := r.task, control := r.control }
  if r.task then
    ({ g with entries := t.entries.take (r.at 0x94 1), tvcount := r.at 0x95 1, tslots := r.at 0x96 1,
              tcores := (List.range 256).filter fun c => r.at (0xA0 + c / 8) 1 / 2 ^ (c % 8) % 2 == 1 } : Grid).withTasks t.tasks
  else g

/-- R331, R357: the record an end or a refusal reports in, where its write fails a check. -/
def State.cmplFault (s : State) (tenant asid status seq : Nat) (cmpl : DWord) (f : FaultInfo) : State :=
  let (n, s) := s.draw
  s.queueRecord tenant (recordBytes { f with addr := cmpl.toNat, info := status + 2 ^ 32 * seq } 3 255 (ctxWord tenant asid) 0 0xFFFFFFFF
    (Config.freeKey n).toNat (s.tenant tenant).nrec)

/-- R357: the bytes of a completion record, each piece checked; their physical addresses. -/
def State.cmplCheck (s : State) (ag : Agent) : List (Nat × Nat) → Except FaultInfo (List Nat) × State
  | [] => (.ok [], s)
  | e :: es =>
    match s.checkNow ag .store (BitVec.ofNat 64 e.1) 0 with
    | (.error f, s) => (.error f, s)
    | (.ok a, s) =>
      match (s.note ag [(a.pa, e.2, true)]).cmplCheck ag es with
      | (.error f, s) => (.error f, s)
      | (.ok ps, s) => (if s.lostTo ag a.pa then .error { code := cECCU, paddr := a.pa } else .ok ((List.range e.2).map (fun i => a.pa + i) ++ ps), s)

/-- R331: then CMPLVEC is sent, where it names a vector. -/
def State.sendCmpl (s : State) (tenant vec : Nat) : State := if vec < 32 then s.sendMsi (s.tenant tenant).msiport (32 * tenant + vec) else s

/-- R331: writes the completion record, or posts the fault of its write. -/
def State.complete (s : State) (ag : Agent) (status seq vec : Nat) (cmpl : DWord) : State :=
  (match s.cmplCheck ag (pieces cmpl.toNat 16) with
    | (.error f, s) => s.cmplFault ag.tenant ag.asid status seq cmpl f
    | (.ok ps, s) =>
      (ps.zip (leBytes 4 status ++ leBytes 4 seq ++ leBytes 8 0)).foldl (fun (s : State) (e : Nat × Byte) => s.writeHome e.1 1 e.2.toNat 0 false) s).sendCmpl ag.tenant vec

/-- R326: a queue that is served and holds a record. -/
def Queue.ready (q : Queue) : Bool :=
  let n := q.ctl.toNat / 2 ^ 8 % 16
  q.ctl.getLsbD 31 && 1 ≤ n && n ≤ 12 && q.head.toNat % 2 ^ n != q.tail.toNat % 2 ^ n

/-- R326: the address of the record at a queue's head. -/
def Queue.record (q : Queue) : Nat := q.base.toNat + 256 * (q.head.toNat % 2 ^ (q.ctl.toNat / 2 ^ 8 % 16))

/-- R327: the head of a queue may be taken: inside the tenant's windows, and not held back by SERIAL. -/
def State.headReady (s : State) (t : Nat) (q : Queue) : Bool :=
  q.ready && s.inWindow t q.record && s.inWindow t (q.record + 255) &&
  !((⟨s.readRange q.record 256⟩ : LRec).serial && (match q.last with | some n => (s.grid n).live | none => false))

/-- R327: the queues whose heads may be taken: (tenant, queue, the queue). -/
def State.heads (s : State) : List (Nat × Nat × Queue) :=
  s.x.tenants.flatMap fun t => (t.2.queues.filter fun q => t.1 < 32 && q.1 < 64 && s.headReady t.1 q.2).map fun q => (t.1, q.1, q.2)

/-- R327: is head a taken before head b?  PRIO, then round-robin among tenants, then the queue number. -/
def headBefore (rr : Nat) (a b : Nat × Nat × Queue) : Bool :=
  let pa := a.2.2.ctl.toNat % 8
  let pb := b.2.2.ctl.toNat % 8
  let ta := (a.1 + 32 - rr) % 32
  let tb := (b.1 + 32 - rr) % 32
  pb < pa || (pa == pb && (ta < tb || (ta == tb && a.2.1 < b.2.1)))

/-- The head taken next. -/
def bestHead (rr : Nat) : List (Nat × Nat × Queue) → Option (Nat × Nat × Queue)
  | [] => none
  | h :: hs => match bestHead rr hs with
    | none => some h
    | some k => if headBefore rr h k then some h else some k

/-- R328: PLACE words, of the variant taken, where it has them. -/
def lpPlace (ag : Agent) (r : LRec) (vs : List (List Byte)) : Lp (List Nat) := fun s =>
  match s.variant vs with
  | none => (some [], s)
  | some v =>
    if recField v.2 0x10 8 == 0 || r.at 0x10 4 == 0 then (some [], s)
    else ((lpTake ag (recField v.2 0x10 8) (4 * r.at 0x10 4)).andThen fun bs => lpRet ((chop 4 bs).map leNat)) s

/-- R328: the refusals after the record's tables have been read, in their order, up to the hampers' bytes. -/
def LRec.refusal (r : LRec) (t : Tables) (place : List Nat) : Option Nat :=
  if t.bufs.any badBuf || place.any (fun p => 1024 ≤ p) then some 1
  else if r.badTask t then some 5
  else if (t.slots.zip t.maps).any fun e => badFmt e.1 e.2 then some 2
  else if r.badSet then some 3
  else if r.badRole then some 4
  else match t.hampers with
    | none => some 8
    | some hs => if badHamper (4096 * r.at 0x16 2) hs then some 8 else none

/-- R328, R333, R330: the refusals after those, and the grid where there is none. -/
def State.judgeRest (s : State) (ag : Agent) (q prio seq : Nat) (r : LRec) (t : Tables) (place : List Nat) : Except Nat Grid × State :=
  match lpHampers ag ((t.hampers.getD []).map hamperOf) s with
  | (none, s) => (.error 8, s)
  | (some _, s) => match s.variant t.variants with
    | none => (.error 6, s)
    | some v =>
      if r.noRoom (s.launchRedun ag.tenant r) then (.error 7, s)
      else (.ok (s.gridFrom ag.tenant q prio ag.die seq r t v place), s)

/-- R328: what a launch processor answers to a record: a refusal code, or the grid (DEDUCED, log 40). -/
def State.judge (s : State) (ag : Agent) (q prio seq : Nat) (r : LRec) : Except Nat Grid × State :=
  if r.bad then (.error 1, s)
  else
    let s := s.note ag [(s.ctxEntry ag.asid, 24, false)]
    if (s.readPa none (s.ctxEntry ag.asid) 24).2 || s.lostTo ag (s.ctxEntry ag.asid) then (.error 1, s)
    else if s.badCtx ag.asid ag.tenant then (.error 9, s)
    else match ((lpTables ag r).andThen fun t => (lpPlace ag r t.variants).andThen fun p => lpRet (t, p)) s with
      | (none, s) => (.error 1, s)
      | (some (t, place), s) =>
        match r.refusal t place with
        | some code => (.error code, s)
        | none => s.judgeRest ag q prio seq r t place

/-- R326: the record at a queue's head as its launch processor reads it, and whether it is poisoned (R33). -/
def State.readRec (s : State) (ag : Agent) (a : Nat) : (LRec × Bool) × State :=
  let s := s.note ag ((List.range 4).map fun i => (a + 64 * i, 64, false))
  ((⟨s.readRange a 256⟩, (List.range 4).any fun i => (s.readPa none (a + 64 * i) 64).2 || s.lostTo ag (a + 64 * i)), s)

/-- R326, R327: a record has been taken from a queue: the next of the tenant's numbers is used, and the queue moves on. -/
def State.tookRecord (s : State) (t k : Nat) (q : Queue) (last : Option Nat) : State :=
  ({ s with x := { s.x with rrTenant := (t + 1) % 32 } } : State).modTenant t fun x =>
    { x with seq := (x.seq + 1) % 2 ^ 32, queues := SMap.set {} x.queues k { q with head := q.head + 1#32, last := last } }

/-- R327-R331: a record is taken: refused with its completion record, or accepted.  One that is poisoned is refused, and as its CMPL is
not known the fault of R331 is posted (DESIGN CHOICE, log 62). -/
def State.takeRecord (s : State) (h : Nat × Nat × Queue) : State :=
  let (t, k, q) := h
  let lp := q.ctl.toNat / 2 ^ 12 % 4
  let rd := s.readRec (lpAgent lp 0 t (askAgent 0 lp)) q.record
  let r := rd.1.1
  let seq := (s.tenant t).seq
  let ag := lpAgent lp (r.at 6 2) t (askAgent 0 lp)
  if rd.1.2 then (rd.2.tookRecord t k q q.last).cmplFault t 0 1 seq 0#64 { code := cECCU, paddr := q.record }
  else match rd.2.judge ag k (q.ctl.toNat % 8) seq r with
  | (.error code, s) => (s.tookRecord t k q q.last).complete ag code seq (r.at 0x5E 2) (BitVec.ofNat 64 (r.at 0xC0 8))
  | (.ok g, s) =>
    let n := s.x.nextGrid
    let (deps, x) := (s.tenant t).takeBufs n g.bufs
    let s := s.setTenant t (if g.isTask then { x with lastTask := some n } else x)
    (({ s with x := { s.x with nextGrid := n + 1 } } : State).setGrid n { g with deps := deps.filter fun d => d != n }).tookRecord t k q (some n)

/-- R327: LAUNCH_ACCEPT, once the device is up. -/
def execLaunchAccept (s : State) : Outcome :=
  .next (
    if s.pk.boot != .up then s
    else match bestHead s.x.rrTenant s.heads with
      | none => s
      | some h => s.tryAct (askAgent 0 (h.2.2.ctl.toNat / 2 ^ 12 % 4)) fun s => s.takeRecord h)

/-- R329: a launch waits for the launches it depends on. -/
def State.depsMet (s : State) (g : Grid) : Bool := g.deps.all fun d => !(s.grid d).live

/-- The role, register count and slots of wave w of a grid's teams. -/
def Grid.waveKind (g : Grid) (w : Nat) : Role × Nat × Nat :=
  match g.roles.getD w .general with
  | .general => (.general, g.decl.getD 0 8, 0)
  | .copy => (.copy, g.decl.getD 1 8, 0)
  | .matrix => (.matrix, g.decl.getD 2 8, g.slots)

/-- R55: puts waves w to w + n - 1 of a team into partitions, wave w in (p0 + w) mod 4: the keys and the state, or
none where one does not fit. -/
def State.putWaves (s : State) (gk : Nat) (g : Grid) (core tslot p0 : Nat) : Nat → Nat → Option (List Nat × State)
  | 0, _ => some ([], s)
  | n + 1, w =>
    let part := (p0 + w) % 4
    let k := g.waveKind w
    match s.freeWave core part with
    | none => none
    | some key =>
      if !s.fitsWave core part g.redun k.2.1 k.2.2 then none
      else match (s.setWave key (g.newWave gk tslot w k.1 k.2.1 k.2.2)).putWaves gk g core tslot p0 n (w + 1) with
        | none => none
        | some (ks, s) => some (key :: ks, s)

/-- A free team slot of a core. -/
def State.freeTeam (s : State) (core : Nat) : Option Nat := (List.range 8).find? fun k => !(s.team (8 * core + k)).resident

/-- R332: team `num` of a grid on a core, wave 0 in a partition: the state with it, its team slot; none where it
does not fit. -/
def State.place (s : State) (gk core p0 num : Nat) : Option (Nat × State) :=
  let g := s.grid gk
  if 256 ≤ core || 4 ≤ p0 || (s.core core).out || !s.fitsScratch core g.carve g.scratch then none
  else match s.freeTeam core with
    | none => none
    | some ts =>
      match (s.readyCore core g.carve).putWaves gk g core ts p0 g.nwaves 0 with
      | none => none
      | some (ks, s) =>
        some (ts, s.setTeam (8 * core + ts) { resident := true, grid := gk, num := num, waves := ks, scratch := g.scratch })

/-- R330: where the next team may stand. -/
def Grid.mayStand (g : Grid) (core part : Nat) : Bool :=
  match g.place with
  | [] => true
  | ps => let p := ps.getD g.placed 0; p % 256 == core && p / 256 % 4 == part

/-- R332: a launch has a team to place, and its dependences are met. -/
def State.wantsPlace (s : State) (gk : Nat) : Bool :=
  let g := s.grid gk
  g.live && g.placed < g.nteams && s.depsMet g

/-- R332: the next team of a launch fits somewhere. -/
def State.fitsNow (s : State) (gk : Nat) : Bool :=
  s.wantsPlace gk && (List.range 1024).any fun k =>
    (s.grid gk).mayStand (k / 4) (k % 4) && (s.place gk (k / 4) (k % 4) (s.grid gk).placed).isSome

/-- R332: launch a is served before launch b. -/
def State.servedBefore (s : State) (a b : Nat) : Bool :=
  let x := s.grid a
  let y := s.grid b
  y.prio < x.prio || (x.prio == y.prio && x.accepted < y.accepted)

/-- R329: for a code use, WB and then ICINV over its lines. -/
def State.codeLines (s : State) (ag : Agent) (b : Buf) : State :=
  (List.range ((b.base.toNat % 64 + b.len.toNat + 63) / 64)).foldl (fun (s : State) i =>
    match s.checkNow ag .load (BitVec.ofNat 64 (b.base.toNat / 64 * 64 + 64 * i)) 0 with
    | (.error _, s) => s
    | (.ok a, s) =>
      let line := a.pa / 64
      let s := (s.note ag [(a.pa, 64, false)]).recall line none
      let s := if a.dom == .host then s.cleanLlc line else s
      { s with m := { s.m with icache := (List.range 4).foldl (fun m die => SMap.set {} m (4 * line + die) {}) s.m.icache } }) s

/-- R329: makes a launch's code fetchable, once. -/
def State.codeUses (s : State) (gk : Nat) : State :=
  let g := s.grid gk
  if g.icDone then s
  else ((g.bufs.filter fun b => b.acc / 4 % 2 == 1).foldl (fun (s : State) b => s.codeLines (lpAgent g.lp g.asid g.tenant (askAgent 1 gk)) b) s).modGrid gk fun g => { g with icDone := true }

/-- R332, R228: the next team of a launch is placed: its core's clock takes LT start (R231). -/
def State.placeNext (s : State) (gk core part : Nat) : State :=
  match (s.codeUses gk).place gk core part (s.grid gk).placed with
  | none => s
  | some (_, s) =>
    let s := s.modGrid gk fun g => { g with placed := g.placed + 1 }
    s.modCore core fun k => { k with lt := Nat.max k.lt (s.grid gk).ltstart.toNat }

/-- R332, R228: TEAM_PLACE. -/
def execTeamPlace (grid core part : Nat) (s : State) : Outcome :=
  .next (
    if !s.wantsPlace grid || !(s.grid grid).mayStand core part || 2 ^ 47 ≤ s.maxClock || s.pk.rebase then s
    else if s.x.grids.any fun e => e.1 != grid && s.servedBefore e.1 grid && s.fitsNow e.1 then s
    else s.tryAct (askAgent 1 grid) fun s => s.placeNext grid core part)

/-- R333: copies the SCRATCH entries into a team's scratch. -/
def stage (tk : Nat) (ag : Agent) : List Hamper → Lp Unit
  | [] => lpRet ()
  | h :: hs =>
    if h.scratch then (lpTake ag h.va.toNat h.len).andThen fun bs => fun s =>
      stage tk ag hs (s.modTeam tk fun t => (bs.zip (List.range bs.length)).foldl (fun (t : Team) e => t.writeClm (h.cdst + e.2) 1 e.1.toNat false) t)
    else stage tk ag hs

/-- R333, R332: a team is staged and its waves start together. -/
def State.stageTeam (s : State) (tk : Nat) (ag : Agent) (hs : List Hamper) : State :=
  match stage tk ag hs s with
  | (none, _) => s
  | (some _, s) => (s.team tk).waves.foldl (fun (s : State) w => s.modWave w fun x => { x with started := true }) (s.modTeam tk fun t => { t with started := true })

/-- R333, R332: HAMPER_STAGE. -/
def execHamperStage (grid team : Nat) (s : State) : Outcome :=
  .next (
    match s.findTeam grid team with
    | none => s
    | some tk =>
      let g := s.grid grid
      if (s.team tk).started || 2 ^ 16 ≤ tk then s
      else s.tryAct (askAgent 2 tk) fun s => s.stageTeam tk (lpAgent g.lp g.asid g.tenant (askAgent 2 tk)) g.hampers)

/-- R331: LAUNCH_COMPLETE: the status and sequence number are written at CMPL and CMPLVEC is sent. -/
def execLaunchComplete (grid : Nat) (s : State) : Outcome :=
  .next (
    let g := s.grid grid
    if !s.gridEnded grid then s
    else s.tryAct (askAgent 3 grid) fun s =>
      (s.complete (lpAgent g.lp g.asid g.tenant (askAgent 3 grid)) (if g.killed then 0x10 else 0) g.seq g.cmplvec g.cmpl).setGrid grid {})

end Sys2Proof.Machine
end

