-- ==== Sys2Proof/Machine/AddrMap.lean ====
section
/-! DEFINITION. The address maps as they are loaded (R28, R29, R340, R341), the package's number (R342) and the
barrier routes as they are configured (R167). -/

namespace Sys2Proof.Machine

open Sys2Proof

/-- R340: a staged row. -/
def State.stagedRow (s : State) (k i : Nat) : Nat := SMap.get 0 s.reg.rows (64 * k + i)

/-- R28: Gaussian elimination over the columns n - 1 down to 0. -/
def rankGo : Nat → List Nat → Nat
  | 0, _ => 0
  | n + 1, rows =>
    match rows.find? fun r => hasBit r n with
    | none => rankGo n rows
    | some p => 1 + rankGo n ((rows.erase p).map fun r => if hasBit r n then Nat.xor r p else r)

/-- R28: the code of a candidate (DEDUCED, log 41). -/
def mapCode (rows : List Nat) : Nat :=
  if rankGo 33 rows < 33 then 1
  else if rows.getD 13 0 != 2 ^ 32 || rows.getD 12 0 != 2 ^ 31 || rows.getD 11 0 != 2 ^ 30 then 2
  else 0

/-- R341: mapstat. -/
def State.setMapstat (s : State) (code : Nat) (busy : Bool) : State := s.setDev 0x412 (BitVec.ofNat 32 (code + busy.toNat * 2 ^ 31))

/-- R341: the staged matrix of region mapsel is submitted. -/
def State.mapSubmit (s : State) : State :=
  let k := (s.dev 0x40D).toNat % 8
  let rows := (List.range 33).map (s.stagedRow k)
  if s.reg.mapLoad.isSome then s.setMapstat 3 true
  else
    let code := mapCode rows
    if code != 0 then s.setMapstat code false
    else ({ s with reg := { s.reg with mapLoad := some { region := k, rows := rows } } } : State).setMapstat ((s.dev 0x412).toNat % 4) true

/-- R341: MAPCMD_SUBMIT. -/
def execMapcmdSubmit (s : State) : Outcome := .next s.mapSubmit

/-- The lines that some L1 or slice holds. -/
def State.heldLines (s : State) : List Nat := (s.m.l1.map fun (e : Nat × Line) => e.1 / 256) ++ s.m.llc.map fun (e : Nat × Line) => e.1

/-- R29: every line of a region leaves the caches, dirty data written back under the old map. -/
def State.flushRegion (s : State) (k : Nat) : State :=
  (s.heldLines.filter (s.inRegion k)).foldl (fun (s : State) line => s.flushLine line) s

/-- R29: the contents of a region are undefined: free bytes of a fresh draw (DESIGN CHOICE, log 8). -/
def State.scramble (s : State) (k : Nat) : State :=
  let (n, s) := s.draw
  let r := s.pkgnum * 8 + k
  { s with m := { s.m with
      mem := s.m.mem.filter (fun e => e.1 / 2 ^ 36 != r), scrambled := SMap.set 0 s.m.scrambled r (n + 1)
      -- the checkers start anew with the new contents (DESIGN CHOICE, log 8)
      held := s.m.held.filter fun e => !s.inRegion k (e.1 / 2 ^ 32)
      intervals := s.m.intervals.filter fun v => !s.inRegion k v.line
      history := s.m.history.filter fun v => !s.inRegion k v.line } }

/-- R29: a matrix is the map of a region. -/
def State.setMap (s : State) (k : Nat) (rows : List Nat) : State :=
  { s with reg := { s.reg with maps := (List.range 33).foldl (fun m i =>
      SMap.set none m (64 * k + i) (if rows.getD i 0 == resetRow i then none else some (rows.getD i 0))) s.reg.maps } }

/-- R29: an access to the region that a controller has accepted and that is not done. -/
def State.acceptedIn (s : State) (k : Nat) : Bool :=
  (s.pk.ctrls.any fun e => e.2.queue.any fun q => s.inRegion k q.line) || s.m.served.any fun e => e.1 != askAgent 12 0 && s.inRegion k e.2 && (s.askOf e.1 e.2).isSome

/-- R29: what agents had been answered in a region they ask for anew under the new map (DESIGN CHOICE, log 63). -/
def State.forgetGot (s : State) (k : Nat) : State := { s with m := { s.m with got := s.m.got.filter fun e => !s.inRegion k (e.2 / 2) } }

/-- R29: MAP_INSTALL, once the accesses that the controllers accepted are complete and the dirty lines may go to their homes. -/
def execMapInstall (s : State) : Outcome :=
  .next (
    match s.reg.mapLoad with
    | none => s
    | some v =>
      if s.acceptedIn v.region then s
      else
        s.act (askAgent 12 0) (s.backAsks (askAgent 12 0) ((s.heldLines.filter (s.inRegion v.region)).eraseDups)) fun s =>
          let s := (((s.flushRegion v.region).scramble v.region).setMap v.region v.rows).forgetGot v.region
          ({ s with reg := { s.reg with mapLoad := none } } : State).setMapstat v.code false)

/-- R24: an HBM address of this package under another number, and one of that number's under this. -/
def swapPkg (old new a unit : Nat) : Nat :=
  if a / unit == old then a - old * unit + new * unit else if a / unit == new then a - new * unit + old * unit else a

/-- R24, R342: the package's HBM moves to its number × 512 GiB. -/
def State.renumber (s : State) (new : Nat) : State :=
  let old := s.pkgnum
  let s := (s.heldLines.filter fun l => 64 * l < hbmEnd).foldl (fun (s : State) line => s.flushLine line) s
  let s := s.setDev 0x430 (BitVec.ofNat 32 new)
  let ln := fun (l : Nat) => swapPkg old new l (2 ^ 33)
  { s with m := { s.m with
      mem := SMap.setAll memDefault [] (s.m.mem.map fun (e : Nat × Byte) => (swapPkg old new e.1 (2 ^ 39), e.2))
      memPoison := SMap.setAll false [] (s.m.memPoison.map fun (e : Nat × Bool) => (ln e.1, e.2))
      tags := SMap.setAll 0 [] (s.m.tags.map fun (e : Nat × Nat) => (ln e.1, e.2))
      scrambled := SMap.setAll 0 [] (s.m.scrambled.map fun (e : Nat × Nat) => (swapPkg old new e.1 8, e.2))
      held := SMap.setAll {} [] (s.m.held.map fun (e : Nat × Hold) => (2 ^ 32 * ln (e.1 / 2 ^ 32) + e.1 % 2 ^ 32, e.2))
      intervals := s.m.intervals.map fun (v : Interval) => { v with line := ln v.line }
      history := s.m.history.map fun (v : Interval) => { v with line := ln v.line } } }

/-- R342: a write of pkgnum (DEDUCED, log 41). -/
def State.writePkgnum (s : State) (v : Word) : State :=
  if (List.range 12).any fun l => SMap.get false s.pk.links l then s else s.renumber (v.toNat % 64)

/-- R342: PKGNUM_WRITE. -/
def execPkgnumWrite (v : Word) (s : State) : Outcome := .next (s.writePkgnum v)

/-- R167: the staged configuration becomes the route's: phase 0, no arrivals. -/
def Route.apply (r : Route) : Route := { owner := r.newOwner, counts := r.newCounts, newOwner := r.newOwner, newCounts := r.newCounts }

/-- R309: the route of rtsel. -/
def State.rtsel (s : State) : Nat := (s.dev 0x417).toNat % 8

/-- R167: a write of rtapply. -/
def State.rtapply (s : State) : State := s.setRoute s.rtsel (s.route s.rtsel).apply

/-- R167: RTAPPLY. -/
def execRtapply (s : State) : Outcome := .next s.rtapply

end Sys2Proof.Machine
end

