-- ==== Sys2Proof/Machine/Checkers.lean ====
section
/-! DEFINITION. The coherence checkers (R238-R244) and the logical clocks (R228-R231). -/

namespace Sys2Proof.Machine

open Sys2Proof

/-- R240: two closed ranges of LT meet. -/
def Interval.meets (a b : Interval) : Bool := Nat.max a.start b.start ≤ Nat.min a.fin b.fin

/-- R240: the received intervals of other holders that meet one, either being a single writer's. -/
def State.swmr (s : State) (v : Interval) : List Interval :=
  s.m.history.filter fun h => h.line == v.line && h.holder != v.holder && (h.sw || v.sw) && h.meets v

/-- R240: the predecessor: the interval of the line with the greatest END below the START. -/
def State.predecessor (s : State) (v : Interval) : Option Interval :=
  s.m.history.foldl (fun (b : Option Interval) h =>
    if h.line == v.line && h.fin < v.start then
      match b with
      | none => some h
      | some k => if k.fin < h.fin then some h else b
    else b) none

/-- R240: an interval breaks the hash chain: with its predecessor, or, for readers, in itself.  A poisoned line is exempt (R239). -/
def State.chainBreak (s : State) (v : Interval) : Option (Nat × Nat × Nat) :=
  let p := s.predecessor v
  let bad := match p with
    | some h => !h.poisoned && h.hend != v.hstart
    | none => false
  if !v.poisoned && (bad || (!v.sw && v.hstart != v.hend)) then some (3, (p.map fun h => h.fin).getD 0, v.start) else none

/-- R240: the received intervals whose predecessor an interval becomes. -/
def State.successors (s : State) (v : Interval) : List Interval :=
  s.m.history.filter fun h => h.line == v.line && v.fin < h.start && ((s.predecessor h).all fun p => p.fin < v.fin)

/-- R240: the violations that an interval shows when it is received: kind 2 SWMR with every interval it meets, kind 3 HASHCHAIN of
itself and of those it becomes the predecessor of; and the interval recorded (DEDUCED, log 29). -/
def State.violations (s : State) (v : Interval) : List (Nat × Nat × Nat) :=
  (s.swmr v).map (fun h => (2, Nat.max h.start v.start, Nat.min h.fin v.fin)) ++ (s.chainBreak v).toList ++
  (s.successors v).filterMap fun h => if !v.poisoned && !h.poisoned && v.hend != h.hstart then some (3, v.fin, h.start) else none

/-- R241: the incomplete releases whose core's window still holds an access to the line. -/
def State.relsOnLine (s : State) (line : Nat) : List (Nat × Nat) :=
  (s.m.prov.filter fun q => s.o.ops.any fun e => e.2.core == q.core && e.2.left.length < e.2.pos.length &&
    e.2.parts.any fun p => !p.clm && p.size != 0 && p.pa / 64 == line).map fun q => (q.op, q.part)

/-- R189, R242: the scope a line is held under (DEDUCED, log 29). -/
def State.lineScope (s : State) (line : Nat) : Dom :=
  if isHostPa (64 * line) then .host else if s.ownHbm (64 * line) then .package else .domain

/-- R241: containment of an SWMR or HASHCHAIN violation; NDISC counts every release discarded, whichever tenant's (DESIGN CHOICE,
log 60); a tenant's first is the one performed first provisionally (DESIGN CHOICE, log 62). -/
def State.containLine (s : State) (line kind lo hi : Nat) : State :=
  let qs := s.relsOnLine line
  let s := s.poisonLine line
  let ck := sliceChecker ((s.homeSlice line).getD 0)
  let sc := (s.lineScope line).code
  if qs.isEmpty then s.postViolation { tenant := 0 } ck (containBytes kind sc 2 0 (64 * line) lo hi ck 0xFFFFFFFF 0 0 0 0)
  else
    let s := s.discardRels qs
    let wavesOf := fun (q : Nat × Nat) => s.containWaves [(s.op q.1).wave] [q]
    let tenants := ((qs.map fun q => (s.grid (s.op q.1).grid).tenant)).eraseDups
    tenants.foldl (fun s t =>
      let mine := qs.filter fun q => (s.grid (s.op q.1).grid).tenant == t
      let f := mine.headD (0, 0)
      let r := containBytes kind sc 3 qs.length (64 * line) lo hi ck (s.waveId (s.op f.1).wave) (s.op f.1).pc.toNat 0 0 (s.partLine f)
      s.postViolation { tenant := t, waves := (mine.flatMap wavesOf).eraseDups } ck r) s

/-- R240: the home checker of a line checks a record it has received. -/
def State.checkInterval (s : State) (v : Interval) : State :=
  let bad := s.violations v
  let s := { s with m := { s.m with history := s.m.history ++ [{ v with waiting := false }] } }
  bad.foldl (fun (s : State) b => s.containLine v.line b.1 b.2.1 b.2.2) s

/-- R240: the records of a line that wait for the one just received are checked in their order, up to the next that has not come. -/
def State.checkWaiting (s : State) (line : Nat) : Nat → State
  | 0 => s
  | n + 1 =>
    match s.m.intervals.find? fun v => v.line == line with
    | none => s
    | some v =>
      if v.waiting then
        let s := { s with m := { s.m with intervals := s.m.intervals.erase v } }
        (s.checkInterval v).checkWaiting line n
      else s

/-- R240: the home checker receives record `idx` of those on their way; a record whose line's previous record has not come waits.
A record of another package's line leaves the package. -/
def State.receiveInterval (s : State) (idx : Nat) : State :=
  match s.m.intervals[idx]? with
  | none => s
  | some v =>
    match s.homeSlice v.line with
    | none => { s with m := { s.m with intervals := s.m.intervals.eraseIdx idx } }
    | some k =>
      if v.waiting then s
      else
        let s := s.setClock (sliceChecker k) (Nat.max (s.sliceLt k) v.fin + 1)
        let s := { s with m := { s.m with intervals := s.m.intervals.set idx { v with waiting := true } } }
        s.checkWaiting v.line s.m.intervals.length

/-- R240: INTERVAL_RECORD. -/
def execIntervalRecord (idx : Nat) (s : State) : Outcome := .next (s.receiveInterval idx)

/-- R147: a launch is resident. -/
def State.anyLaunch (s : State) : Bool := s.x.grids.any fun e => e.2.live

/-- R228, R231: every open interval is closed, its END taken now, and every record is checked. -/
def State.closeAll (s : State) : State :=
  let s := (s.m.held.filter fun e => e.2.opened).foldl (fun (s : State) e => s.closeAt (e.1 / 2 ^ 32) (e.1 % 2 ^ 32)) s
  (List.range s.m.intervals.length).foldl (fun (s : State) _ =>
    match s.m.intervals.findIdx? fun v => !v.waiting with
    | some i => s.receiveInterval i
    | none => s) s

/-- R228: an open interval as it opens anew at LT zero. -/
def State.reopen (s : State) (e : Nat × Hold) : Nat × Hold :=
  if e.2.opened then (e.1, { e.2 with start := 0, hstart := s.lineHashOf (s.heldData (e.1 / 2 ^ 32) (e.1 % 2 ^ 32)).1 }) else e

/-- R228: every clock is zero and new intervals open at zero. -/
def State.zeroClocks (s : State) : State :=
  { s with
    x := { s.x with cores := s.x.cores.map fun (e : Nat × Core) => (e.1, { e.2 with lt := 0 }) }
    pk := { s.pk with
      slices := s.pk.slices.map fun (e : Nat × Slice) => (e.1, { e.2 with lt := 0 })
      ctrls := s.pk.ctrls.map fun (e : Nat × Ctrl) => (e.1, { e.2 with lt := 0 })
      ports := s.pk.ports.map fun (e : Nat × Port) => (e.1, { e.2 with lt := 0 })
      arbLt := 0 }
    m := { s.m with held := s.m.held.map s.reopen, intervals := [], history := [] } }

/-- R228, R231: the open intervals are closed and checked, the clocks set to zero, and the same intervals open anew. -/
def State.restartClocks (s : State) : State :=
  let was := s.m.held
  let s := s.closeAll
  ({ s with m := { s.m with held := was } } : State).zeroClocks

/-- R231: a write of ltreset. -/
def State.ltreset (s : State) : State := if s.anyLaunch then s else s.restartClocks

/-- R231: LTRESET. -/
def execLtreset (s : State) : Outcome := .next s.ltreset

/-- R228: every window is empty and every release complete or discarded. -/
def State.drained (s : State) : Bool :=
  s.m.prov.isEmpty && s.o.ops.all fun e => e.2.left.length == e.2.pos.length

/-- R228: LT_REBASE. -/
def execLtRebase (s : State) : Outcome :=
  .next (
    if s.maxClock < 2 ^ 47 then s
    else
      let s := { s with pk := { s.pk with rebase := true } }
      if (!s.anyLaunch || s.rebasing) && s.drained then
        let s := s.restartClocks
        { s with pk := { s.pk with rebase := false } }
      else s)

end Sys2Proof.Machine
end

