-- ==== Sys2Proof/Machine/Copies.lean ====
section
/-! DEFINITION. The meanings of COPY and the handle instructions (R247-R267) and the events of copies,
handles and barrier routes. -/

namespace Sys2Proof.Machine

open Sys2Proof

/-- R255: COPY. -/
def execCopy (nxt : Bool) (h : Nat) (a : Ext) (dir : Nat) (q : Nat) (s : State) : Outcome :=
  .next (s.execL (Instr.copy nxt h a dir q).illegal.isSome .set (.copy nxt h a dir q))

/-- R290: a handle word; in a task wave PROT TASK. -/
def State.handleWord (s : State) (reads : List Nat) (body : Cx → State → State) : State :=
  s.run (fun _ => { reads := reads.map fun n => (.s, n) }) fun c s => if c.x.taskWave then s.taskFault c else body c s

/-- A fault of a handle word. -/
def State.handleFault (s : State) (c : Cx) (reason addr : Nat) : State := s.faultAt c (lowest c.b.lanes) c.b.lanes (prot reason addr)

/-- R265: the range of a BIND overlaps that of another bound handle. -/
def Team.overlaps (t : Team) (h hb hlen : Nat) : Bool :=
  (List.range 64).any fun k => k != h && (t.handle k).st != .unbound && hb < (t.handle k).hb + (t.handle k).hlen && (t.handle k).hb < hb + hlen

/-- R265: BIND's effect. -/
def Team.bind (t : Team) (h hb hlen : Nat) : Team :=
  (t.breakRing h).setHandle h { st := .free, hb := hb, hlen := hlen, fph := true, first := none, count := 1, pcur := 0, pph := false }

/-- R265, R250: HCFG.BIND; HANDLE is judged before HSTATE (DESIGN CHOICE, log 57). -/
def execHcfgBind (h : Nat) (a : Nat) (b : Nat) (s : State) : Outcome :=
  .next (s.handleWord [a, b] fun c s =>
    let t := s.teamOf c.w
    let st := (t.handle h).st
    let x := (c.x.sreg a).toNat
    let hb := x % 2 ^ 20
    let hlen := (c.x.sreg b).toNat
    if x / 2 ^ 20 != 0 || hb % 4 != 0 || hlen % 4 != 0 || hlen == 0 || t.scratch < hb + hlen || t.overlaps h hb hlen then s.handleFault c rHANDLE hb
    else if st != .unbound && st != .free then s.handleFault c rHSTATE hb
    else (s.modTeamOf c.w fun t => t.bind h hb hlen).advance c)

/-- R265: RING's effect. -/
def Team.formRing (t : Team) (h m : Nat) : Team :=
  (List.range m).foldl (fun t k => t.setHandle (h + k) { t.handle (h + k) with fph := true, first := some h, count := m, pcur := 0, pph := false }) t

/-- R265, R250: HCFG.RING. -/
def execHcfgRing (h : Nat) (a : Nat) (s : State) : Outcome :=
  .next (s.handleWord [a] fun c s =>
    let t := s.teamOf c.w
    let m := (c.x.sreg a).toNat % 32
    if m == 0 || m == 1 || 17 ≤ m || 64 < h + m then s.handleFault c rHANDLE 0
    else if !(List.range m).all fun k => (t.handle (h + k)).st == .free && t.ringOne (h + k) then s.handleFault c rHSTATE 0
    else (s.modTeamOf c.w fun t => t.formRing h m).advance c)

/-- R265, R232: an operation of class RL at CORE scope on a handle. -/
def State.handleOp (s : State) (c : Cx) (kind : OpKind) : State :=
  (s.issueOp [c.w] { wave := c.w, core := coreOf c.w, pc := c.pc, cls := .rl, kind := kind,
                     parts := [{ wave := c.w, lane := lowest c.b.lanes, lanes := c.b.lanes, dom := .core }] }).2

/-- R265, R250: HCFG.MARK: checked at issue; the handle counts as FILLING until the release performs. -/
def execHcfgMark (h : Nat) (s : State) : Outcome :=
  .next (s.handleWord [] fun c s =>
    let t := s.teamOf c.w
    if (t.handle h).st != .free || !t.ringOne h then s.handleFault c rHSTATE 0
    else if s.windowFull (coreOf c.w) then s.stall c (.full [])
    else ((s.modTeamOf c.w fun t => t.setState h .filling).handleOp c (.mark h)).advance c)

/-- R265, R250: HCFG.UNBIND. -/
def execHcfgUnbind (h : Nat) (s : State) : Outcome :=
  .next (s.handleWord [] fun c s =>
    let t := s.teamOf c.w
    match (t.handle h).st with
    | .unbound => s.advance c
    | .free => (s.modTeamOf c.w fun t => (t.breakRing h).setHandle h {}).advance c
    | _ => s.handleFault c rHSTATE 0)

/-- R266: HWAIT: where the handle's state holds and R233 lets the acquire perform, the bundle goes on; else every lane of the bundle
waits. -/
def State.hwait (s : State) (c : Cx) (h : Nat) (full p : Bool) : State :=
  let hd := (s.teamOf c.w).handle h
  if hd.st == .unbound then s.handleFault c rHANDLE 0
  else
    let met := if full then hd.st == .full && hd.fph == p else hd.st == .free
    if met && s.acquireReady c.w c.b.lanes .core && !s.windowFull (coreOf c.w) then (s.noteEvent [c.w] c.b.lanes .aq .core .hacquire .lane c.pc).advance c
    else s.waitAt c (.hwait h full p met)

/-- R266: HWAIT in FULL mode. -/
def execHwaitFull (h : Nat) (p : Bool) (s : State) : Outcome := .next (s.handleWord [] fun c s => s.hwait c h true p)

/-- R266: HWAIT in FREE mode. -/
def execHwaitFree (h : Nat) (s : State) : Outcome := .next (s.handleWord [] fun c s => s.hwait c h false false)

/-- R267, R250: HFREE; a transition to FREE is a release, made when it performs in its order (R232). -/
def execHfree (h : Nat) (p : Bool) (s : State) : Outcome :=
  .next (s.handleWord [] fun c s =>
    let hd := (s.teamOf c.w).handle h
    if hd.st == .unbound then s.handleFault c rHSTATE 0
    else if hd.st == .full && hd.fph == p then
      if s.windowFull (coreOf c.w) then s.stall c (.full []) else (s.handleOp c (.hfree h p)).advance c
    else s.advance c)

/-- R265: MARK_PERFORM. -/
def execMarkPerform (op : Nat) (s : State) : Outcome :=
  .next (
    let o := s.op op
    match o.kind with
    | .mark h =>
      if !s.partReady op 0 then s
      else
        let s := s.modHandles (s.teamKey o.wave) fun t => (t.assignFill h).setState h .full
        ((s.setOp op { s.op op with done := true }).stamp op 0 none).afterPerform op
    | _ => s)

/-- R266: HANDLE_ACQUIRE: the wait was satisfied, the acquire performs and the bundle's lanes run. -/
def execHandleAcquire (wave lane : Nat) (s : State) : Outcome :=
  .next (
    let x := s.wave wave
    match x.bundleOf lane, (x.lane lane).st with
    | some b, .waiting (.hwait _ _ _ true) =>
      if !s.acquireReady wave b.lanes .core || s.windowFull (coreOf wave) then s
      else
        let s := s.noteEvent [wave] b.lanes .aq .core .hacquire .lane (x.lane lane).pc
        s.releaseLanes ((lanesOf b.lanes).map fun l => (wave, l))
    | _, _ => s)

/-- R158: WAIT_CYCLE_RESOLUTION. -/
def execWaitCycleResolution (team : Nat) (s : State) : Outcome := .next (s.resolveWaits team)

/-- The lanes that wait for a copy's slot. -/
def State.slotWaiters (s : State) (id : Nat) : List (Nat × Nat) :=
  (s.copy id).members.flatMap fun w => (lanesOf ((s.wave w).waitingAt fun k => k == .copySlot id)).map fun l => (w, l)

/-- R260, R255 step 5: COPY_TAKE_SLOT; handle checks that fail now are a fault of the set (R256). -/
def execCopyTakeSlot (copy : Nat) (s : State) : Outcome :=
  .next (
    let c := s.copy copy
    if !c.live || c.slot.isSome || c.failed then s
    else if !s.copyHandlesOk c then (s.copySetFault copy (prot rHANDLE 0)).setCopy copy { c with failed := true }
    else if !s.copyReady c || !s.copyFirst copy then s
    else match s.freeSlot (c.team / 8) with
      | none => s
      | some k =>
        let ls := s.slotWaiters copy
        let ws := (ls.map fun e => e.1).eraseDups
        -- R337, R339: the shadow issues another copy
        if c.odd then (s.containShadow c.members (some copy) 0 0 c.pc).setCopy copy { c with failed := true }
        else if s.windowLacks (c.team / 8) (2 * ws.length) then s
        else
        -- R220: the copy waited on a FULL handle
        let s := if ws.isEmpty || c.dir == 0 then s else s.noteEvent ws 0xFFFFFFFF#32 .aq .core .hacquire .set c.pc
        let s := if ws.isEmpty then s else s.noteEvent ws 0xFFFFFFFF#32 .ci .core .copyIssue .set c.pc
        (((s.takeHandles copy k).flagsDown c.flags).releaseLanes ls))

/-- R262: the engine of a copy in a slot goes on. -/
def State.copyMove (s : State) (id : Nat) : State :=
  let c := s.copy id
  if !c.live || c.slot.isNone || c.stopped then s else s.copyStepOn id

/-- R264: COPY_TRANSFER_FAULT: the next element faults: the copy stops and its set is suspended. -/
def execCopyTransferFault (copy : Nat) (s : State) : Outcome :=
  .next (
    let c := s.copy copy
    if !c.live || c.slot.isNone || c.stopped || c.total ≤ c.moved || s.movesNow copy != 0 then s
    else match s.stepFault copy 0 with
      | none => s
      | some f => ((s.dropWalks copy false).copySetFault copy { f with info := c.slot.getD 0 * 2 ^ 48 + c.moved }).setCopy copy { c with stopped := true })

/-- R263, R250: COPY_COMPLETE. -/
def execCopyComplete (copy : Nat) (s : State) : Outcome :=
  .next (
    let c := s.copy copy
    if c.live && c.slot.isSome && c.total ≤ c.moved then ((s.dropWalks copy true).releaseHandles c).setCopy copy {} else s)

/-- R168: has every memory operation of the wave before an ARRIVE performed, and is every release among them complete? -/
def State.relsBefore (s : State) (o : Op) : Bool :=
  o.pos.all fun k => !(s.wave k.1).discard && s.o.ops.all fun e =>
    match e.2.poIn k.1 with
    | none => true
    | some po => !poBefore po k.2 || e.2.parts.all fun p => p.plt.isSome && !p.relOpen

/-- R168: no later ARRIVE of the wave on the route has been issued. -/
def State.latestArrive (s : State) (o : Op) (r : Nat) : Bool :=
  let po := (o.poIn o.wave).getD 0
  s.o.ops.all fun e => !(e.2.kind == .arrive r && e.2.wave == o.wave && poBefore po ((e.2.poIn o.wave).getD 0))

/-- R168: phases complete while every member core has reached its count; at most `n` of them. -/
def Route.complete (r : Route) (now : Nat) : Nat → Route
  | 0 => r
  | n + 1 =>
    if !r.counts.isEmpty && r.counts.all (fun e => e.2 ≤ SMap.get 0 r.arrived e.1) then
      let delay := if r.dom == .die then 40 else 120
      let take := fun (e : Nat × Nat) => Nat.min e.2 (SMap.get 0 r.ahead e.1)
      ({ r with
        phase := (r.phase + 1) % 128, total := r.total + 1, doneAt := r.doneAt ++ [(r.phase, now + delay)],
        arrived := r.counts.foldl (fun m e => SMap.set 0 m e.1 (take e)) [],
        ahead := r.counts.foldl (fun m e => SMap.set 0 m e.1 (SMap.get 0 r.ahead e.1 - take e)) [] } : Route).complete now n
    else r

/-- R168: one arrival of a core: the phase it counts toward, by its number among all of the route, and the route. -/
def Route.count (r : Route) (core now : Nat) : Nat × Route :=
  let n := SMap.get 0 r.counts core
  let a := SMap.get 0 r.arrived core
  let h := SMap.get 0 r.ahead core
  let r := { r with last := now }
  if a < n then (r.total, ({ r with arrived := SMap.set 0 r.arrived core (a + 1) } : Route).complete now 256)
  else (r.total + 1 + h / Nat.max n 1, { r with ahead := SMap.set 0 r.ahead core (h + 1) })

/-- R168: ARRIVE_COUNT. -/
def execArriveCount (op : Nat) (s : State) : Outcome :=
  .next (
    let o := s.op op
    match o.kind with
    | .arrive r =>
      if !s.partReady op 0 || !s.relsBefore o then s
      else
        let (ph, x) := (s.route r).count o.core s.sch.cycle
        let s := s.setRoute r x
        let s := if s.latestArrive o r then s.modWave o.wave fun y => y.setRouteRec r { outstanding := true, counted := true, phase := ph % 128, seq := ph } else s
        ((s.setOp op { s.op op with done := true }).stamp op 0 none).afterPerform op
    | _ => s)

/-- R168: PHASE_COMPLETE: completions that are due become visible, and the WAITBs they satisfy release. -/
def execPhaseComplete (route : Nat) (s : State) : Outcome :=
  .next (
    let s := s.setRoute route ((s.route route).tick s.sch.cycle)
    s.x.waves.foldl (fun (s : State) (e : Nat × Wave) => if s.suspended e.1 then s else s.settleWaitb e.1) s)

end Sys2Proof.Machine
end

