-- ==== Sys2Proof/Machine/Hbm.lean ====
section
/-! DEFINITION. Memory controllers and the integrity of memory (R30, R31, R35-R37): batches, the scrubber, ways that are
disabled and slices that retire. -/

namespace Sys2Proof.Machine

open Sys2Proof

/-- R27, R30: HBM_REQUEST: a request for a line arrives at its controller, with the bank and row of the line's location, and waits
for a batch, unless a map change holds it (R29).  One that names no requester is traffic of no tenant (DESIGN CHOICE, log 61). -/
def execHbmRequest (req : HbmReq) (s : State) : Outcome :=
  .next (
    let d := s.dram req.line
    let fits := match req.waiter with
      | none => match s.reg.mapLoad with
        | some v => !s.inRegion v.region req.line
        | none => true
      | some k => ((s.askOf k req.line).filter fun a => !s.hbmDone a && !s.mapHolds a).map (fun a => (a.tenant, a.die, a.write)) == some (req.tenant, req.die, req.write) && !s.pk.ctrls.any fun e => e.2.queue.any fun q => q.waiter == some k && q.line == req.line
    if !s.ownHbm (64 * req.line) || req.ctrl != s.ctrlOf req.line || req.bank != d.bankKey || req.row != d.row || !fits then s
    else s.setCtrl req.ctrl { s.ctrl req.ctrl with queue := (s.ctrl req.ctrl).queue ++ [{ req with marked := false }] })

/-- R30, R31: the next request of a queue is marked where its source has fewer than 16 marked in its bank and its tenant
may pay; `done` are the requests before it. -/
def State.markNext (r : List HbmReq × State) (q : HbmReq) : List HbmReq × State :=
  let (done, s) := r
  let n := (done.filter fun k => k.marked && k.tenant == q.tenant && k.die == q.die && k.bank == q.bank).length
  if n < 16 && (q.waiter.isNone || 32 ≤ q.tenant || s.canPay q.tenant 1 1) then
    (done ++ [{ q with marked := true }], if q.waiter.isNone || 32 ≤ q.tenant then s else s.pay q.tenant 1 1)
  else (done ++ [q], s)

/-- R30: BATCH_FORM. -/
def execBatchForm (ctrl : Nat) (s : State) : Outcome :=
  .next (
    let c := s.ctrl ctrl
    if c.queue.any fun q => q.marked then s
    else
      let (qs, s) := c.queue.foldl State.markNext ([], s)
      s.setCtrl ctrl { c with queue := qs })

/-- R30: may the marked request at a place of the queue be served now? -/
def State.mayServe (s : State) (c : Ctrl) (idx : Nat) : Bool :=
  match c.queue[idx]? with
  | none => false
  | some q =>
    let hit := fun (k : HbmReq) => SMap.get 0 c.opened k.bank == k.row + 1
    let key := fun (k : HbmReq) (i : Nat) => (if s.softOut k.tenant 1 then 2 ^ 33 else 0) + (if hit k then 0 else 2 ^ 32) + i
    q.marked && (c.queue.zip (List.range c.queue.length)).all fun e => !e.1.marked || e.1.bank != q.bank || key q idx ≤ key e.1 e.2

/-- R30: no marked request waits at the controller of a line: it is between batches. -/
def State.betweenBatches (s : State) (line : Nat) : Bool := !(s.ctrl (s.ctrlOf line)).queue.any fun q => q.marked

/-- R30: a marked request is served: who made it may go. -/
def State.hbmServe (s : State) (ctrl idx : Nat) : State :=
  let c := s.ctrl ctrl
  if s.mayServe c idx then
    let q := c.queue.getD idx { ctrl := 0, tenant := 0, die := 0, bank := 0, row := 0, line := 0, waiter := none, write := false, marked := false }
    let s := s.setCtrl ctrl { c with queue := c.queue.eraseIdx idx, opened := SMap.set 0 c.opened q.bank (q.row + 1) }
    match q.waiter with
    | some k => { s with m := { s.m with served := s.m.served ++ [(k, q.line)] } }
    | none => s
  else s

/-- R35: SCRUB_READ: what needs correction, or is lost, makes a conditional write with the tag as read (DEDUCED, log 43). -/
def execScrubRead (line : Nat) (found : ScrubFound) (s : State) : Outcome :=
  .next (
    if !s.ownHbm (64 * line) || found == .clean || !s.betweenBatches line then s
    else { s with m := { s.m with scrubs := s.m.scrubs ++ [{ line := line, tag := SMap.get 0 s.m.tags line, bad := found == .uncorrectable }] } })

/-- R35: a demand write to the granule waits at its controller. -/
def State.writeQueued (s : State) (line : Nat) : Bool := (s.ctrl (s.ctrlOf line)).queue.any fun q => q.write && q.line == line

/-- R35: SCRUB_CONDITIONAL_WRITE: a granule that was corrected keeps its value; one that was lost is poisoned, where the write is not
dropped, and reported in either case (DEDUCED, log 43).  The write is no demand write and leaves the tag. -/
def execScrubConditionalWrite (idx : Nat) (s : State) : Outcome :=
  .next (
    match s.m.scrubs[idx]? with
    | none => s
    | some v =>
      if !s.betweenBatches v.line then s
      else
      let ok := SMap.get 0 s.m.tags v.line == v.tag && !s.writeQueued v.line
      let s := { s with m := { s.m with scrubs := s.m.scrubs.eraseIdx idx } }
      if v.bad then (if ok then s.poisonHome v.line else s).deviceError 5 ((s.homeSlice v.line).getD 0) (64 * v.line) else s)

/-- R26: the logical slice of a die that a physical slice serves. -/
def State.logicalOf (s : State) (die phys : Nat) : Option Nat := (List.range 48).find? fun k => s.physSlice die k == 64 * die + phys

/-- R37: the lines of a set of a slice leave it. -/
def State.emptySet (s : State) (slice set : Nat) : State :=
  ((s.m.llc.filter fun (e : Nat × Line) => Config.llcSet e.1 == set && s.homeSlice e.1 == some slice).map fun e => e.1).foldl
    (fun (s : State) line => (s.cleanLlc line).dropLlc line) s

/-- R36: LLC_WAY_DISABLE: a corrected error in a way of a set, `slice` a physical slice by 64 die + number; `line` is the
line the way holds (DEDUCED, log 43). -/
def execLlcWayDisable (slice set way line : Nat) (s : State) : Outcome :=
  .next (
    let x := s.slice slice
    let key := 16 * set + way
    if 8192 ≤ set || 16 ≤ way || 4 ≤ slice / 64 || 50 ≤ slice % 64 || x.disabled.contains key then s
    else
      let n := SMap.get 0 x.errors key + 1
      let x := { x with errors := SMap.set 0 x.errors key n }
      if n < 3 then s.setSlice slice x
      else
        let s := if s.homeSlice line == some slice then (s.cleanLlc line).dropLlc line else s
        let x := { s.slice slice with errors := x.errors, disabled := x.disabled ++ [key] }
        let s := s.setSlice slice x
        -- R37: a set with no way left holds no line any more
        let s := if x.enabledWays set == 0 then s.emptySet slice set else s
        match s.logicalOf (slice / 64) (slice % 64) with
        | some k => if x.enabledWays set < 2 then s.addDue [.sliceRetire (slice / 64) k] else s
        | none => s)

/-- R37: a set of the slice has fewer than two enabled ways. -/
def Slice.wornOut (x : Slice) : Bool := (x.disabled.map fun k => k / 16).any fun set => x.enabledWays set < 2

/-- R26, R37: a spare of a die: in service for no logical slice, and not retired. -/
def State.spare (s : State) (die : Nat) : Option Nat :=
  (List.range 50).find? fun p => !(s.slice (64 * die + p)).retired && (s.logicalOf die p).isNone

/-- The lines that a physical slice holds. -/
def State.sliceLines (s : State) (p : Nat) : List Nat := (s.m.llc.filter fun (e : Nat × Line) => s.homeSlice e.1 == some p).map fun e => e.1

/-- R37 steps 2 and 3: the lines of a logical slice leave its physical slice p, which is retired, and spare k serves it. -/
def State.retireSlice (s : State) (die slice p k : Nat) : State :=
  let lines := s.sliceLines p
  let s := lines.foldl (fun (s : State) line => (s.cleanLlc line).dropLlc line) s
  let s := s.setSlice p { s.slice p with retired := true }
  { s with pk := { s.pk with remap := SMap.set none s.pk.remap (64 * die + slice) (if k == slice then none else some k) } }

/-- R37: SLICE_RETIRE: a logical slice moves to a spare of its die; without one, an error is posted
(NOSPARE), its slice number the physical one by 64 die + number (DESIGN CHOICE, log 61). -/
def execSliceRetire (die slice : Nat) (s : State) : Outcome :=
  .next (
    let p := s.physSlice die slice
    if 4 ≤ die || 48 ≤ slice || !(s.slice p).wornOut then s
    else match s.spare die with
      | none => s.deviceError 2 p 0
      | some k => s.act (askAgent 13 p) (s.backAsks (askAgent 13 p) (s.sliceLines p)) fun s => s.retireSlice die slice p k)

end Sys2Proof.Machine
end

