-- ==== Sys2Proof/Machine/Reset.lean ====
section
/-! DEFINITION. Resets (R46, R47, R343), power gating (R48, R344), boot (R50, R51) and quotes (R52). -/

namespace Sys2Proof.Machine

open Sys2Proof

/-- R46 step 1: aborts every task that holds versions in an L1 of some cores; a task that runs there with none goes
back to its queue likewise (DEDUCED, log 35). -/
def State.abortOn (s : State) (on : Nat → Bool) : State :=
  let ids := s.x.grids.flatMap fun (e : Nat × Grid) => (e.2.tasks.filter fun t => on t.2.core && t.2.st.live && t.2.st != .queued &&
    (!t.2.versions.isEmpty || t.2.st == .running)).map fun t => (e.1, t.1)
  ids.foldl (fun (s : State) k => let t := (s.grid k.1).task k.2; if t.st.live && t.st != .queued then s.abortTask k.1 k.2 else s) s

/-- R46 step 2: discards the provisional releases of some cores; no record is posted (R227). -/
def State.discardOn (s : State) (on : Nat → Bool) : State :=
  s.discardRels ((s.m.prov.filter fun q => on q.core).map fun q => (q.op, q.part))

/-- R46 steps 1 to 3 for some cores. -/
def State.quiesce (s : State) (on : Nat → Bool) : State :=
  let s := (s.abortOn on).discardOn on
  (List.range 256).foldl (fun (s : State) c => if on c then s.flushL1 c else s) s

/-- R46 step 3: writes back and drops every line held. -/
def State.writeBackAll (s : State) : State := (s.m.llc.map fun (e : Nat × Line) => e.1).foldl (fun (s : State) line => s.flushLine line) s

/-- R46: a tenant after a reset: its records still wait (R317, DEDUCED, log 35). -/
def Tenant.afterReset (t : Tenant) : Tenant := { records := t.records, nrec := t.nrec }
/-- R36: a slice after a reset: its disable bitmap and its place in the defect map are kept in flash. -/
def Slice.afterReset (x : Slice) : Slice := { retired := x.retired, disabled := x.disabled }
/-- R42: a port after a reset: it enumerates again; messages wait. -/
def Port.afterReset (p : Port) : Port := { pending := p.pending, sent := p.sent, wrote := p.wrote }

/-- R343: everything a warm reset resets, once the caches are written back (R46, R47): HBM contents, fuses, flash and the
route table (R342) are kept, and every matrix is P until the firmware's are loaded (R29) (DEDUCED, log 35). -/
def State.finishWarm (s : State) : State :=
  let s := (s.quiesce fun _ => true).writeBackAll.renumber 0
  let (n, s) := s.draw
  let r := State.reset
  { r with
    sch := { due := [.bootSequence], agenda := s.sch.agenda, free := s.sch.free }
    x := { cores := s.x.cores.foldl (fun m (e : Nat × Core) => SMap.set {} m e.1 { out := e.2.out }) []
           tenants := s.x.tenants.foldl (fun m (e : Nat × Tenant) => SMap.set {} m e.1 e.2.afterReset) [] }
    reg := { r.reg with chkkey := Config.freeKey n, rtbl := s.reg.rtbl }
    pk := { ports := s.pk.ports.foldl (fun m (e : Nat × Port) => SMap.set {} m e.1 e.2.afterReset) []
            slices := s.pk.slices.foldl (fun m (e : Nat × Slice) => SMap.set {} m e.1 e.2.afterReset) []
            remap := s.pk.remap, rom := s.pk.rom, quoteOut := s.pk.quoteOut }
    m := { mem := s.m.mem, memPoison := s.m.memPoison, tags := s.m.tags, scrambled := s.m.scrambled
           laid := if s.pk.boot == .up then s.reg.maps else s.m.laid } }

/-- R343: resetstat. -/
def State.setResetstat (s : State) (state why : Nat) : State := s.setDev 0x435 (BitVec.ofNat 32 (state + 16 * why))

/-- R46, R47: a warm reset begins: the parts are quieted, and the lines the host may hold are asked for. -/
def State.beginWarm (s : State) : State :=
  if s.reg.warm.isSome then s
  else
    let s := ((s.quiesce fun _ => true).writeBackAll).setResetstat 1 0
    if s.m.hostLines.isEmpty then s.finishWarm
    else { s with reg := { s.reg with warm := some { lines := s.m.hostLines, since := s.sch.cycle } } }

/-- R343: a WARM command. -/
def State.cmdWarm (s : State) : State := if (s.dev 0x435).toNat % 4 == 1 then s else s.beginWarm

/-- R343: RESETCMD_WARM. -/
def execResetcmdWarm (s : State) : Outcome := .next s.cmdWarm
/-- R46: CXL_HOT_RESET. -/
def execCxlHotReset (s : State) : Outcome := .next s.beginWarm

/-- R40, R47: BACK_INVALIDATE_RESPONSE: the host holds the line no more; what waits to write it goes on. -/
def execBackInvalidateResponse (line : Nat) (s : State) : Outcome :=
  .next (
    let s := s.hostGive line
    match s.reg.warm with
    | none => s
    | some v =>
      let rest := v.lines.filter fun l => l != line
      let s := { s with reg := { s.reg with warm := some { v with lines := rest } } }
      if rest.isEmpty then s.finishWarm else s)

/-- R41: the port whose decoder holds an address. -/
def State.hdmPort (s : State) (pa : Nat) : Nat := if (s.port 0).hdmBase ≤ pa && pa < (s.port 0).hdmBase + (s.port 0).hdmSize then 0 else 1

/-- R47: SNOOP_TIMEOUT, 100 ms after the snoops: one record, of the first line not answered (DESIGN CHOICE, log 59). -/
def execSnoopTimeout (s : State) : Outcome :=
  .next (
    match s.reg.warm with
    | none => s
    | some v =>
      if s.sch.cycle < v.since + 160000000 then s
      else
        let s := v.lines.foldl (fun (s : State) line => (s.flushLine line).poisonHome line) s
        (s.deviceError 3 (s.hdmPort (64 * v.lines.headD 0)) (64 * v.lines.headD 0)).finishWarm)

/-- R46: COLD_RESET: power comes on; what fuses and flash hold is kept. -/
def execColdReset (s : State) : Outcome :=
  .next (
    let (n, s) := s.draw
    let r := State.reset
    { r with
      sch := { due := [.bootSequence], agenda := s.sch.agenda, free := s.sch.free }
      x := { r.x with cores := s.x.cores.foldl (fun m (e : Nat × Core) => SMap.set {} m e.1 { out := e.2.out }) [] }
      reg := { r.reg with chkkey := Config.freeKey n }
      pk := { r.pk with
        rom := s.pk.rom, remap := s.pk.remap, quoteOut := s.pk.quoteOut
        slices := s.pk.slices.foldl (fun m (e : Nat × Slice) => SMap.set {} m e.1 e.2.afterReset) [] } })

/-- A team is resident on a core. -/
def State.teamOn (s : State) (core : Nat) : Bool := (List.range 8).any fun k => (s.team (8 * core + k)).resident

/-- R343: a task in non-speculative mode on a core. -/
def State.nonspecOn (s : State) (core : Nat) : Bool :=
  s.x.grids.any fun e => e.2.tasks.any fun t => t.2.core == core && t.2.nonspec && t.2.st.live && t.2.st != .queued

/-- R50, R343: a core's self-test; one that fails is taken out of service. -/
def State.testCore (s : State) (core : Nat) : State :=
  if s.pk.rom.failCores.contains core then s.modCore core fun k => { k with out := true } else s

/-- R343: clears a core: registers, CLM, TAM, window, copy queue and clock. -/
def State.clearCore (s : State) (core : Nat) : State :=
  { s with
    x := { s.x with
      waves := s.x.waves.filter fun e => coreOf e.1 != core
      teams := s.x.teams.filter fun e => if e.1 < 2 ^ 16 then e.1 / 8 != core else coreOf (e.1 - 2 ^ 16) != core
      groups := (s.x.groups.map fun g => { g with waves := g.waves.filter fun w => coreOf w != core }).filter fun g => !g.waves.isEmpty
      cores := SMap.set {} s.x.cores core { out := (s.core core).out, gated := (s.core core).gated } }
    m := { s.m with
      tlb := s.m.tlb.filter fun t => t.core != core
      rgn := s.m.rgn.filter fun r => r.core != core
      walks := s.m.walks.filter fun k => k.2.core != core && (k.2.engine.all fun c => (s.copy c).team / 8 != core)
      misses := s.m.misses.filter fun k => coreOf k.2.wave != core }
    o := { s.o with ops := s.o.ops.filter fun e => e.2.core != core, copies := s.o.copies.filter fun e => e.2.team / 8 != core } }

/-- R343: a CORE command. -/
def State.cmdCore (s : State) (core : Nat) : State :=
  if (s.dev 0x435).toNat % 4 == 1 then s
  else if (s.core core).out || 256 ≤ core then s.setResetstat 3 3
  else if s.teamOn core then s.setResetstat 3 1
  else if s.nonspecOn core then s.setResetstat 3 2
  else (((s.quiesce fun c => c == core).clearCore core).testCore core).setResetstat 2 0

/-- R343: RESETCMD_CORE. -/
def execResetcmdCore (core : Nat) (s : State) : Outcome := .next (s.cmdCore core)

/-- R344: gatestat: GATED is read from the core. -/
def State.setGatestat (s : State) (core state : Nat) : State := s.setDev 0x437 (BitVec.ofNat 32 (state + 2 ^ 16 * core))

/-- R48: a core is idle: no team is resident and its L1 holds no version (DEDUCED, log 46). -/
def State.idle (s : State) (core : Nat) : Bool := !s.teamOn core && s.versionCount core == 0

/-- R48, R344: a GATE command (DEDUCED, log 46). -/
def State.gate (s : State) (core : Nat) : State :=
  if 256 ≤ core || !s.idle core then s.setGatestat core 3
  else ((s.flushL1 core).modCore core fun k => { k with gated := true }).setGatestat core 2

/-- R344: a WAKE command. -/
def State.wake (s : State) (core : Nat) : State := (s.modCore core fun k => { k with gated := false }).setGatestat core 2

/-- R344: GATECMD_GATE. -/
def execGatecmdGate (core : Nat) (s : State) : Outcome := .next (s.gate core)
/-- R344: GATECMD_WAKE. -/
def execGatecmdWake (core : Nat) (s : State) : Outcome := .next (s.wake core)

/-- R51: a measurement register. -/
def State.meas (s : State) (m : Nat) : List Byte := SMap.get (List.replicate 32 0#8) s.reg.meas m
/-- R51: an extend. -/
def State.extend (s : State) (m : Nat) (d : List Byte) : State :=
  { s with reg := { s.reg with meas := SMap.set (List.replicate 32 0#8) s.reg.meas m (sha256 (s.meas m ++ d)) } }

/-- R50 step 2: is a slot's image valid, by a vendor key whose hash is the fused one? -/
def Rom.accepts (r : Rom) (i : Option Image) : Option Image :=
  i.filter fun i => r.minVersion ≤ i.version && sha256 r.vendorKey == r.vendorHash && Config.slhVerify r.vendorKey i.bytes i.sig

/-- R50 step 3: the image that runs. -/
def Rom.pick (r : Rom) : Option Image :=
  match r.accepts r.slotA, r.accepts r.slotB with
  | some a, some b => some (if a.version < b.version then b else a)
  | some a, none => some a
  | none, b => b

/-- R50 step 6: the default maps; a region whose map changes by it has undefined contents (R29). -/
def State.defaultMaps (s : State) (i : Image) : State :=
  (List.range 8).foldl (fun (s : State) k =>
    let rows := (List.range 33).map fun r => (SMap.get none i.maps (64 * k + r)).getD (resetRow r)
    let old := (List.range 33).map fun r => (SMap.get none s.m.laid (64 * k + r)).getD (resetRow r)
    (if rows == old then s else s.scramble k).setMap k rows) s

/-- R50 step 7: the rows of the eight maps, in order. -/
def State.allRows (s : State) : List Nat := (List.range 8).flatMap fun k => (List.range 33).map (s.mapRow k)

/-- R26, R37, R50: the retired slices as they stand in the defect map: bit 50 die + slice of 25 bytes is set while the slice is not retired
(DESIGN CHOICE, log 62). -/
def State.sliceMap (s : State) : List Byte :=
  (List.range 25).map fun b => BitVec.ofNat 8 ((List.range 8).foldl (fun n i =>
    if (s.slice (64 * ((8 * b + i) / 50) + (8 * b + i) % 50)).retired then n else n + 2 ^ i) 0)

/-- R50 step 5: a slice's self-test: one that fails leaves service for a spare of its die, where there is one, and stays in the defect
map (R26, R37) (DEDUCED, log 35). -/
def State.testSlice (s : State) (p : Nat) : State :=
  if !s.pk.rom.failSlices.contains p || (s.slice p).retired then s
  else match s.logicalOf (p / 64) (p % 64) with
    | none => s.setSlice p { s.slice p with retired := true }
    | some k => match s.spare (p / 64) with
      | none => s
      | some n => s.retireSlice (p / 64) k p n

/-- R50 step 8: both ports enumerate, in recovery with CXL.io only. -/
def State.enumerate (s : State) (ioOnly : Bool) : State :=
  (s.setPort 0 { s.port 0 with enumerated := true, ioOnly := ioOnly }).setPort 1 { s.port 1 with enumerated := true, ioOnly := ioOnly }

/-- R50: BOOT_SEQUENCE.  The defect map is measured as the map of R330 and the retired slices after it (DESIGN CHOICE, log 62). -/
def execBootSequence (s : State) : Outcome :=
  .next (
    if s.pk.boot != .off then s
    else
      let s := { s with reg := { s.reg with meas := [] } }
      let recovery := fun (s : State) => ({ s with pk := { s.pk with boot := .recovery } } : State).enumerate true
      match s.pk.rom.pick with
      | none => recovery s
      | some i =>
        let s := ({ s with pk := { s.pk with running := some i } } : State).extend 0 (sha256 i.bytes)
        let s := (List.range 256).foldl (fun (s : State) c => s.testCore c) s
        let s := s.pk.rom.failSlices.foldl (fun (s : State) p => s.testSlice p) s
        if s.pk.rom.failStack then recovery s
        else
          let s := s.defaultMaps i
          let s := (s.extend 1 (sha256 i.config)).extend 2 (sha256 (s.coreMap ++ s.sliceMap ++ Config.mapBytes s.allRows))
          ({ s.enumerate false with pk := { (s.enumerate false).pk with boot := .up } } : State).addDue [.msiDeliverPending 0, .msiDeliverPending 1])

/-- R52: the bytes of a quote before its signature. -/
def State.quoteBytes (s : State) (nonce : BitVec 256) : List Byte :=
  leBytes 4 0x00010000 ++ leBytes 4 0 ++ leBytes 32 nonce.toNat ++ leBytes 16 s.pk.rom.serial.toNat ++ leBytes 8 s.signature ++
  leBytes 4 ((s.pk.running.map fun i => i.version).getD 0) ++ leBytes 4 0 ++ ((List.range 8).flatMap s.meas) ++
  sha256 (leBytes 32 (Config.slhPublic s.pk.rom.secret).toNat)

/-- R52: QUOTE_REQUEST. -/
def execQuoteRequest (nonce : BitVec 256) (s : State) : Outcome :=
  .next (
    if s.pk.boot != .up then s
    else
      let m := s.quoteBytes nonce
      { s with pk := { s.pk with quoteOut := s.pk.quoteOut ++ [m ++ leBytes 17088 (Config.slhSign s.pk.rom.secret m).toNat] } })

end Sys2Proof.Machine
end

