-- ==== Sys2Proof/Machine/HostPort.lean ====
section
/-! DEFINITION. What the host does to the device's lines (R40, R41, R49). -/

namespace Sys2Proof.Machine

open Sys2Proof

/-- R40, R238: the host reads a host line that the device caches: every copy keeps reading, and the port's interval opens beside. -/
def State.shareHost (s : State) (line : Nat) : State :=
  let s := (s.recall line none).cleanLlc line
  if (s.llcLine line).valid then
    let b := s.bottomChecker line
    let s := s.shareAt line (s.baseChecker line)
    (s.sendLt (s.baseChecker line) b).openAt line b false
  else s

/-- R40, R49: HOST_SNOOP of a host line that the device caches: the data goes back to the host, and with `inv` every copy
goes.  While parts are in reset the responder answers invalid and clean. -/
def execHostSnoop (line : Nat) (inv : Bool) (s : State) : Outcome :=
  .next (
    -- R226: a provisional release holds the line's ownership back
    if s.reg.warm.isSome || s.pk.boot != .up || !isHostPa (64 * line) || (inv && s.provLine line) then s
    else if inv then s.flushLine line
    else s.shareHost line)

/-- R41: the ports whose decoders an address hits (DESIGN CHOICE, log 44). -/
def State.hdmHits (s : State) (pa : Nat) : List Nat := [0, 1].filter fun p => (s.port p).hdmBase ≤ pa && pa < (s.port p).hdmBase + (s.port p).hdmSize

/-- R41: an address that the decoders of both ports hit is H0's, and reported (DESIGN CHOICE, log 44). -/
def State.hdmReport (s : State) (pa : Nat) : State := if 1 < (s.hdmHits pa).length then s.deviceError 4 0 pa else s

/-- R41, R30: the request that an access of the host through a port makes: it enters on the die of the port (DESIGN CHOICE, log 63). -/
def hostAsk (port pa n : Nat) (write : Bool) : Ask :=
  { key := askAgent 11 (pa / 64), die := 2 * port, tenant := 32, line := pa / 64, pa := pa, bytes := n, cache := 1, write := write, sort := .host }

/-- R40, R41: the host takes a line of the package's HBM into its own cache.  While a reset waits for the host (R47), and in recovery
(R50), it takes none. -/
def State.hostTakes (s : State) (line : Nat) : State :=
  if s.pk.boot != .up || s.reg.warm.isSome || !s.ownHbm (64 * line) || s.provLine line then s
  else match s.hdmHits (64 * line) with
    | [] => s
    | p :: _ => s.act (askAgent 11 line) [hostAsk p (64 * line) 64 false] fun s => ((s.hdmReport (64 * line)).recall line none).hostTake p line

/-- R41: HOST_DEVICE_ACCESS: an access inside one line of the package's HBM (DESIGN CHOICE, log 44). -/
def execHostDeviceAccess (acc : HostAccess) (s : State) : Outcome :=
  .next (
    let line := acc.addr / 64
    if s.pk.boot != .up || s.reg.warm.isSome || !s.ownHbm acc.addr || acc.size == 0 || 64 < acc.addr % 64 + acc.size ||
      -- R226: the host's write waits for a provisional release
      (acc.data.isSome && s.provHeld acc.addr acc.size) then s
    else match s.hdmHits acc.addr with
    | [] => s
    | port :: _ => s.act (askAgent 11 line) [hostAsk port acc.addr acc.size acc.data.isSome] fun s =>
      let s := s.hdmReport acc.addr
      match acc.data with
      -- R226: a read beside a provisional release has the value before it, and takes no ownership
      | none => if s.provLine line then s.yieldLine none line else (s.recall line none).hostTake port line
      | some d =>
        let s := (s.hostGive line).writeHome acc.addr acc.size (d.toNat % 2 ^ (8 * acc.size)) 0 false
        s.hostTake port line)

end Sys2Proof.Machine
end

