-- ==== Sys2Proof/Machine/Links.lean ====
section
/-! DEFINITION. Links that fail (R34) and routes that loop (R39). -/

namespace Sys2Proof.Machine

open Sys2Proof

/-- R34, R39: a request that reaches no memory is answered: a read or RMW with poisoned data, a write without being
performed; ECCU names its address.  A release answered so counts as complete. -/
def State.answerPoison (s : State) (id i : Nat) : State :=
  let kind := (s.op id).kind
  let rel := ((s.op id).parts.getD i {}).rel
  let s := s.modPart id i fun p => { p with hurt := true, rel := if rel == .todo then .complete else rel }
  if kind.isLoad || kind == .ldf then
    let s := s.finishRead id i
    if kind == .jtab && (s.op id).arrived then s.jtabDone id else s
  else
    match kind with
    | .st | .stf | .ust | .stm | .atom _ _ | .wb | .inv | .invn | .icinv | .accflush | .accdet => s.finishWrite id i
    | _ => s

/-- R34: the parts whose requests are on a link: not performed, and free to go as far as order goes. -/
def State.onLink (s : State) (link : Nat) : List (Nat × Nat) :=
  s.o.ops.flatMap fun e => ((List.range e.2.parts.length).filter fun i =>
    let p := e.2.parts.getD i {}
    p.plt.isNone && (s.partLinks e.1 i).contains link && s.partReady e.1 i).map fun i => (e.1, i)

/-- R34, R39: a walk whose request is lost ends, with a poisoned entry (DESIGN CHOICE, log 33). -/
def State.walkLost (s : State) (id pa : Nat) : State :=
  match s.m.walks.find? fun e => e.1 == id && e.2.failed.isNone with
  | none => s
  | some (_, k) =>
    let s := s.endWalk id k.wave
    if k.drop then { s with m := { s.m with walks := s.m.walks.filter fun e => e.1 != id } }
    else s.failWalk id k { code := cECCU, addr := k.va.toNat, paddr := pa }

/-- R34, R39: a miss whose request is lost ends, its words poisoned. -/
def State.missLost (s : State) (id : Nat) : State :=
  match s.m.misses.find? fun e => e.1 == id with
  | none => s
  | some (_, k) => s.missFilled id k { valid := true, poison := 0xFFFF#16 }

/-- R34, R39: a request of an agent is lost: it is answered with poisoned data. -/
def State.wantLost (s : State) (key : Nat) : State :=
  match s.m.wants.find? fun e => e.1 == key with
  | none => s
  | some (_, a) => { s with m := { s.m with wants := SMap.set {} s.m.wants key {}, got := s.m.got ++ [a.mark], lost := s.m.lost ++ [(key, a.line)] } }

/-- R34: the walks, misses and agents whose requests are on a link that fails. -/
def State.restLost (s : State) (link : Nat) : State :=
  let on := fun (s : State) (a : Ask) => (s.askLinks a).contains link
  let ws := s.m.walks.filterMap fun e => if e.2.failed.isSome || !s.hasWalker e.1 e.2 then none else ((s.walkAsks e.1 e.2).find? (on s)).map fun a => (e.1, a.pa)
  let ms := (s.m.misses.filter fun e => on s (s.missAsk e.1 e.2)).map fun e => e.1
  let ks := (s.m.wants.filter fun e => on s e.2).map fun e => e.1
  let s := ws.foldl (fun (s : State) e => s.walkLost e.1 e.2) s
  let s := ms.foldl (fun (s : State) k => s.missLost k) s
  ks.foldl (fun (s : State) k => s.wantLost k) s

/-- R34: LINK_FLIT_RETRY: a flit fails its check; whether the retry passes is free (DESIGN CHOICE, log 33).  The eighth failure
takes the link down. -/
def execLinkFlitRetry (link : Nat) (s : State) : Outcome :=
  .next (
    if 18 ≤ link || !s.linkIsUp link then s
    else
      let n := SMap.get 0 s.pk.retries link + 1
      let put := fun (s : State) (k : Nat) => ({ s with pk := { s.pk with retries := SMap.set 0 s.pk.retries link k } } : State)
      if 8 ≤ n then (put s 8).addDue [.linkDown link]
      else
        let (k, s) := s.draw
        put s (if Config.freeBool k then 0 else n))

/-- R34: LINK_DOWN, after the eighth failure. -/
def execLinkDown (link : Nat) (s : State) : Outcome :=
  .next (
    if SMap.get 0 s.pk.retries link != 8 then s
    else
      let qs := s.onLink link
      let s := s.o.copies.foldl (fun (s : State) (e : Nat × Copy) => s.copyPoison e.1 link) s
      let s := s.restLost link
      let s := ({ s with pk := { s.pk with retries := SMap.set 0 s.pk.retries link 0 } } : State).setLink link false
      let s := qs.foldl (fun (s : State) e => s.answerPoison e.1 e.2) s
      s.deviceError 0 link 0)

/-- R39: the request of a requester that crosses a package link. -/
def State.farAsk (s : State) (as : List Ask) : Option Ask := as.find? fun a => (s.askLinks a).any fun l => l < 12

/-- R39: a requester's request that may be on its way to another package, by its physical address, and the state in which it has been
answered. -/
def State.looped (s : State) (who : Requester) (part : Nat) : Option (Nat × State) :=
  match who with
  | .op op =>
    let p := (s.op op).parts.getD part {}
    if !s.partReady op part || p.clm || p.size == 0 || !(s.partLinks op part).any (fun l => l < 12) then none
    else some (p.pa, s.answerPoison op part)
  | .copy id =>
    let c := s.copy id
    if !c.live || c.slot.isNone || c.stopped || c.total ≤ c.moved then none
    else (s.farAsk (s.elemAsks id)).bind fun a => if s.elemReady id then some (a.pa, s.copyLoop id a) else none
  | .walk id => match s.m.walks.find? fun e => e.1 == id && e.2.failed.isNone with
    | none => none
    | some (_, k) => if s.hasWalker id k then (s.farAsk (s.walkAsks id k)).map fun a => (a.pa, s.walkLost id a.pa) else none
  | .miss id => match s.m.misses.find? fun e => e.1 == id with
    | none => none
    | some (_, k) => (s.farAsk [s.missAsk id k]).map fun a => (a.pa, s.missLost id)
  | .agent key => match s.m.wants.find? fun e => e.1 == key with
    | none => none
    | some (_, a) => (s.farAsk [a]).map fun a => (a.pa, s.wantLost key)

/-- R39: ROUTELOOP: a request to another package comes back over a link. -/
def execRouteloop (who : Requester) (part link : Nat) (s : State) : Outcome :=
  .next (
    if 12 ≤ link then s
    else match s.looped who part with
      | none => s
      | some (pa, s) => s.deviceError 1 link (pa / 64 * 64))

end Sys2Proof.Machine
end

