-- ==== Sys2Proof/Machine/Power.lean ====
section
/-! DEFINITION. Power and budget periods (R22, R276, R277, R335, R336). -/

namespace Sys2Proof.Machine

open Sys2Proof

/-- R22: F as the mean over the last ten measurements (their sum, in watts) moves it. -/
def nextF (f limit sum : Nat) : Nat :=
  if 10 * limit < sum then Nat.max 8 (f - 1) else if 10 * sum ≤ 95 * limit then Nat.min 64 (f + 1) else f

/-- R22: the cycles of one millisecond. -/
def msCycles : Nat := 1600000

/-- R22: POWER_MEASUREMENT, at the end of each millisecond; the mean counts ten that follow each other. -/
def execPowerMeasurement (watts : Nat) (s : State) : Outcome :=
  .next (
    if s.sch.cycle == 0 || s.sch.cycle % msCycles != 0 || s.pk.powerAt == s.sch.cycle then s
    else
    let ps := if s.sch.cycle == s.pk.powerAt + msCycles then (watts :: s.pk.powers).take 10 else [watts]
    let f := s.pk.newF.getD (s.dev 0x41E).toNat
    let s := { s with pk := { s.pk with powers := ps, powerAt := s.sch.cycle } }
    if ps.length < 10 then s
    else { s with pk := { s.pk with newF := some (nextF f (s.dev 0x406).toNat (ps.foldl (· + ·) 0)) } })

/-- R30: the waves on whose behalf a request waits. -/
def State.waiters (s : State) (k : Option Nat) : List Nat :=
  match k with
  | none => []
  | some k => match k % 5 with
    | 0 => (s.op (k / 5 / 2 ^ 20)).pos.map fun e => e.1
    | 1 => (s.copy (k / 5)).members
    | 2 => s.walkWaves (SMap.get {} s.m.walks (k / 5))
    | 3 => [(SMap.get {} s.m.misses (k / 5)).wave]
    | _ => if k / 5 % 16 == 7 || k / 5 % 16 == 8 then [k / 5 / 16] else []

/-- R336: what waits at a link that its tenant's allowance closes. -/
def State.linkWaits (s : State) (t kind : Nat) (k : Parked) : Bool :=
  (k.asks.any fun a => (s.askLinks a).any fun l => linkKind l == kind && !s.canMove t kind a.bytes) ||
  k.links.any fun l => linkKind l == kind && !s.canMove t kind k.bytes

/-- R336: the waves of a tenant with an operation that waits on an exhausted kind. -/
def State.waitsOn (s : State) (t kind : Nat) : List Nat :=
  let mine := fun (w : Nat) => (s.wave w).resident && (s.gridOf w).tenant == t
  let ws : List Nat := match kind with
  | 1 => s.pk.ctrls.flatMap fun (e : Nat × Ctrl) => (e.2.queue.filter fun q => q.tenant == t && !q.marked).flatMap fun q => s.waiters q.waiter
  | 2 | 3 => ((s.parked.filter fun k => k.tenant == t && s.linkWaits t kind k).flatMap fun k => k.waves)
  | 4 => (s.parkedCopies.filter fun k => k.tenant == t && !s.canPayBytes t 4 k.bytes).flatMap fun k => k.waves
  | _ => (s.o.ops.filter fun e => (s.grid e.2.grid).tenant == t && (e.2.kind == .accflush || e.2.kind == .accdet) && !s.canPay t 5 1 &&
      e.2.parts.any fun q => q.plt.isNone && q.landed != 1).flatMap fun e => e.2.pos.map fun k => k.1
  ws.eraseDups.filter mine

/-- R336: BUDGET of one wave. -/
def State.budgetFault (s : State) (kind w : Nat) : State := s.sysFault [w] 0 w 255 (s.wave w).stands { code := cBUDGET, info := kind }

/-- R336: an allowance as its period ends: the count of exhausted periods, and whether BUDGET is due. -/
def Allowance.close (a : Allowance) : Allowance × Bool :=
  let n := if a.allow != 0 && a.rem == 0 then a.exhausted + 1 else 0
  if a.pol == 2 && a.limit != 0 && a.limit ≤ n then ({ a with exhausted := 0 }, true) else ({ a with exhausted := n }, false)

/-- R314, R335: an allowance as the next period starts. -/
def Allowance.renew (a : Allowance) : Allowance :=
  let al := a.newAllow.getD a.allow
  let c := a.newCtl.getD (a.limit, a.pol)
  { a with allow := al, rem := al, limit := c.1, pol := c.2, newAllow := none, newCtl := none }

/-- R335, R336: one kind of one tenant at a period start. -/
def State.closeKind (s : State) (t kind : Nat) : State :=
  let r := ((s.tenant t).budget kind).close
  let ws := if r.2 then s.waitsOn t kind else []
  let s := s.modTenant t fun x => x.setBudget kind r.1.renew
  ws.foldl (fun (s : State) w => s.budgetFault kind w) s

/-- R314: mat as the next period starts; it is exhausted where some core's REMAIN is zero (DEDUCED, log 34). -/
def State.closeMat (s : State) (t : Nat) : State :=
  let full := Nat.max 1 ((s.tenant t).mat.allow * (s.dev 0x41E).toNat / 64)
  let out := s.x.cores.any fun e => full ≤ SMap.get 0 e.2.spent t
  s.modTenant t fun x =>
    let m := x.mat.renew
    { x with mat := { m with rem := 0, exhausted := if out then x.mat.exhausted + 1 else 0 } }

/-- R276: bundles that stalled on the matrix allowance go on. -/
def Wave.endBudget (x : Wave) : Wave := { x with bundles := x.bundles.map fun b => if b.stall == .budget then { b with stall := .none } else b }

/-- R335, R276, R22: a period starts; agents that wait ask anew (DESIGN CHOICE, log 63). -/
def State.startPeriod (s : State) : State :=
  let ts := (List.range 32)
  let s := ts.foldl (fun (s : State) t => [1, 2, 3, 4, 5].foldl (fun (s : State) k => s.closeKind t k) (s.closeMat t)) s
  let s := match s.pk.newF with
    | some f => s.setDev 0x41E (BitVec.ofNat 32 f)
    | none => s
  { s with
    pk := { s.pk with newF := none, period := s.sch.cycle + 1, turns := [] }
    m := { s.m with wants := [] }
    x := { s.x with
      cores := s.x.cores.foldl (fun m (e : Nat × Core) => SMap.set {} m e.1 { e.2 with spent := [] }) []
      waves := s.x.waves.map fun (e : Nat × Wave) => (e.1, e.2.endBudget) } }

/-- R335: BUDGET_PERIOD_START, once at every cycle whose count is a multiple of 1024. -/
def execBudgetPeriodStart (s : State) : Outcome :=
  .next (if s.sch.cycle % 1024 != 0 || s.pk.period == s.sch.cycle + 1 then s else s.startPeriod)

end Sys2Proof.Machine
end

