-- ==== Sys2Proof/Machine/Preempt.lean ====
section
/-! DEFINITION. Pre-emption (R161, R303, R320, R321): saving a team to its area, and restoring it.  What the area
does not hold goes on from the record of the saved team (DEDUCED, log 31). -/

namespace Sys2Proof.Machine

open Sys2Proof

/-- R320: prestat. -/
def State.setPrestat (s : State) (state why tslot : Nat) : State := s.setDev 0x416 (BitVec.ofNat 32 (state + 16 * why + 1024 * tslot))
/-- R320: preaddr, 4 KiB aligned. -/
def State.preaddr (s : State) : Nat := (s.dev64 0x413).toNat / 4096 * 4096

/-- R24: an area that lies in memory there is (DEDUCED, log 31). -/
def State.areaOk (s : State) (a n : Nat) : Bool :=
  let there := fun (pa : Nat) => pa < 2 ^ 52 && !reservedPa pa && (isHostPa pa || s.joined (pkgOf pa))
  there a && there (a + n)

/-- R321: the next multiple of 4 KiB. -/
def page4k (n : Nat) : Nat := (n + 4095) / 4096 * 4096

/-- R321: the sizes of the six regions. -/
def areaSizes (xs : List Wave) (scratch : Nat) : List Nat :=
  let sum := fun (f : Wave → Nat) => (xs.map f).foldl (· + ·) 0
  [sum fun x => 128 * x.vcount + 512, sum fun x => 1024 * x.slots, scratch, 2048, 128 * xs.length, 1024 * xs.length]

/-- R321: the offsets of the regions. -/
def areaOffsets (sizes : List Nat) : List Nat :=
  (sizes.foldl (fun (r : List Nat × Nat) n => (r.1 ++ [r.2], page4k (r.2 + n))) ([], 4096)).1

/-- R321: where an area's bytes lie: its header and its six regions, by offset and size. -/
def areaSpans (sizes : List Nat) : List (Nat × Nat) := (0, 256) :: (areaOffsets sizes).zip sizes

/-- R320, R30: the requests for an area; they are nobody's traffic (DESIGN CHOICE, log 63). -/
def areaAsks (key core addr : Nat) (sizes : List Nat) (write : Bool) : List Ask :=
  (areaSpans sizes).flatMap fun e => physAsks key (dieOf core) 32 (addr + e.1) e.2 write

/-- R321, R33: writes a region in 8-byte granules, poisoned ones named by `bad`. -/
def State.putArea (s : State) (pa : Nat) (bs : List Byte) (bad : Nat → Bool) : State :=
  (List.range (bs.length / 8)).foldl (fun (s : State) i => s.writeHome (pa + 8 * i) 8 (recField bs (8 * i) 8) 0 (bad i)) s

/-- R321: REGS of a wave. -/
def Wave.regsBytes (x : Wave) : List Byte :=
  ((List.range x.vcount).flatMap fun n => (List.range 32).flatMap fun l => leBytes 4 (x.vreg n l).toNat) ++
  ((List.range 64).flatMap fun n => leBytes 4 (x.sreg n).toNat) ++
  ((List.range 48).flatMap fun n => leBytes 4 (x.pmask n).toNat) ++ List.replicate 64 0#8

/-- R321: TAM of a wave. -/
def Wave.tamBytes (x : Wave) : List Byte :=
  (List.range x.slots).flatMap fun n => (List.range 256).flatMap fun i => leBytes 4 (x.accElem n i).toNat

/-- R32, R33: does either 4-byte granule of an 8-byte granule of memory fail its parity check? -/
def Wave.pairBad (x : Wave) (c : RegClass) (k : Nat) : Bool := x.parity.contains (c, 2 * k) || x.parity.contains (c, 2 * k + 1)

/-- R33: the granules of REGS that hold a register granule whose parity check fails, in order. -/
def Wave.regsPoison (x : Wave) : List Bool :=
  (List.range (16 * x.vcount)).map (x.pairBad .v) ++ (List.range 32).map (x.pairBad .s) ++ (List.range 24).map (x.pairBad .p) ++ List.replicate 8 false

/-- R33: and of TAM. -/
def Wave.tamPoison (x : Wave) : List Bool := (List.range (128 * x.slots)).map (x.pairBad .acc)

/-- R248: the code of a handle state. -/
def HState.code : HState → Nat
  | .unbound => 0 | .free => 1 | .filling => 2 | .full => 3 | .draining => 4
/-- R248: the state of a code. -/
def hstateOf : Nat → HState
  | 1 => .free | 2 => .filling | 3 => .full | 4 => .draining | _ => .unbound

/-- R321: HANDLES of a team. -/
def Team.handleBytes (t : Team) : List Byte :=
  (List.range 64).flatMap fun h =>
    let x := t.handle h
    let r := t.handle (t.ringFirst h)
    leBytes 1 x.st.code ++ leBytes 1 x.fph.toNat ++ leBytes 1 (t.ringFirst h) ++ leBytes 1 x.count ++ leBytes 1 r.pcur ++
    leBytes 1 r.pph.toNat ++ leBytes 2 0 ++ leBytes 4 x.hb ++ leBytes 4 x.hlen ++ List.replicate 16 0#8

/-- R62, R321: JOINS of a wave. -/
def Wave.joinBytes (x : Wave) : List Byte :=
  (List.range 16).flatMap fun n => leBytes 8 ((x.join n).expect.toNat + (x.join n).lost.toNat * 2 ^ 32)

/-- R321: the wait kind and the number in bits [15:8] of a lane's record, with the inactive bit. -/
def Wait.record : Wait → Nat × Nat × Bool
  | .join j => (1, j, false)
  | .rdv sc i act _ _ _ => (2, (match sc with | .lane => 0 | .wave => 1 | .set => 2 + 4 * i | .team => 3), !act)
  | .hwait h _ _ _ => (3, h, false)
  | .waitb r => (4, r, false)
  | .fswait k => (6, k, false)
  | .copySlot _ => (8, 0, false)

/-- R321: a lane's record: RUNNING 0, WAITING 1, EXITED 2 (DESIGN CHOICE, log 32). -/
def Wave.laneRecord (x : Wave) (l : Nat) : Nat :=
  let inH := if hasLane x.hlanes l then 2 ^ 17 else 0
  match (x.lane l).st with
  | .exited => 2 + inH
  | .running => (if x.hmode && !hasLane x.hlanes l then 7 * 16 else 0) + inH
  | .waiting k => let r := k.record; 1 + 16 * r.1 + 256 * (r.2.1 % 256) + (if r.2.2 then 2 ^ 16 else 0) + inH

/-- R321: a wave's control word at 0x204. -/
def Wave.controlBits (x : Wave) (susp : Bool) : Nat := x.satf.toNat + 2 * x.hmode.toNat + 4 * susp.toNat + 8 * x.saved.isSome.toNat

/-- R168, R321: a route record. -/
def Route1.word (r : Route1) : Nat := r.outstanding.toNat + 2 * r.counted.toNat + 4 * r.phase

/-- R321: CONTROL of a wave. -/
def Wave.controlBytes (x : Wave) (susp : Bool) : List Byte :=
  let c := x.saved.getD {}
  ((List.range 32).flatMap fun l => leBytes 8 (x.lane l).pc.toNat) ++
  ((List.range 32).flatMap fun l => leBytes 8 (x.laneRecord l)) ++
  leBytes 4 x.tw ++ leBytes 4 (x.controlBits susp) ++ leBytes 8 x.trappc.toNat ++ leBytes 4 x.trapcause.toNat ++ leBytes 4 x.trapmask.toNat ++
  leBytes 8 x.rngkey.toNat ++ leBytes 8 x.rngctr.toNat ++ leBytes 4 x.mprog ++
  leBytes 4 c.act.toNat ++ leBytes 8 c.hdr.toNat ++ leBytes 4 c.ext.toNat ++
  ((List.range 4).flatMap fun k => leBytes 4 (SMap.get 0xFFFFFFFF#32 x.cfr k).toNat) ++ leBytes 16 0 ++
  ((List.range 12).flatMap fun f => leBytes 1 (x.flag f)) ++
  ((List.range 8).flatMap fun r => leBytes 2 (x.routeRec r).word) ++ List.replicate 392 0#8

/-- R321: the header. -/
def headerBytes (g : Grid) (t : Team) (offs : List Nat) (susp : Nat) : List Byte :=
  leBytes 4 0x5A585341 ++ leBytes 4 t.waves.length ++ (offs.flatMap fun o => leBytes 8 o) ++ leBytes 4 t.num ++
  leBytes 4 t.satctl.toNat ++ leBytes 4 g.seq ++ leBytes 4 g.variant ++ leBytes 4 susp ++ List.replicate 180 0#8

/-- R320 step 1: the wave has finished its clauses, or what it has begun cannot go on. -/
def State.clausesDone (s : State) (w : Nat) : Bool :=
  let x := s.wave w
  s.suspended w || x.bundles.all fun b =>
    b.phase == .header || (x.hmode && !b.handler) || (lanesOf b.lanes).all fun l => !(x.lane l).st.isRunning

/-- R320: the copies of a team that hold no slot. -/
def State.slotless (s : State) (tk : Nat) : List (Nat × Copy) := s.o.copies.filter fun e => e.2.live && e.2.team == tk && e.2.slot.isNone

/-- R320 step 2: a wave's flags are clear, but for the copies that hold no slot. -/
def State.flagsClear (s : State) (tk w : Nat) : Bool :=
  (List.range 12).all fun f => (s.wave w).flag f == ((s.slotless tk).filter fun e => e.2.flags.contains (w, f)).length

/-- R303: the task waves in non-speculative mode on a core, with their tasks. -/
def State.nonspecWaves (s : State) (g core : Nat) : List (Nat × Nat) :=
  if (s.grid g).isTask then
    (s.grid g).tasks.filterMap fun e => if e.2.core == core && e.2.nonspec && e.2.st == .running then e.2.wave.map fun w => (e.1, w) else none
  else []

/-- R320 steps 1 and 2: the waves that are saved with a team: its own, and the task waves of R303. -/
def State.wavesToSave (s : State) (tk : Nat) : List Nat := (s.team tk).waves ++ (s.nonspecWaves (s.team tk).grid (tk / 8)).map fun e => e.2

/-- R320 steps 1 and 2: the team may be saved now. -/
def State.saveReady (s : State) (tk : Nat) : Bool :=
  let ws := s.wavesToSave tk
  ws.all (fun w => s.clausesDone w && s.flagsClear tk w) &&
  s.o.copies.all (fun e => !e.2.live || e.2.slot.isNone || (e.2.team != tk && !(e.2.dir == 2 && e.2.rteamKey == tk))) &&
  s.o.ops.all fun e => !(e.2.pos.any fun p => ws.contains p.1) || (e.2.done && e.2.performed && e.2.parts.all fun p => !p.relOpen)

/-- R303: the tasks of a grid on a core that pre-emption aborts. -/
def State.abortCore (s : State) (g core : Nat) : State :=
  let ids := ((s.grid g).tasks.filter fun e => e.2.core == core && !e.2.nonspec &&
    (e.2.st == .running || e.2.st == .finished || e.2.st == .stopped)).map fun e => e.1
  ids.foldl (fun (s : State) id => if ((s.grid g).task id).st != .queued then s.abortTask g id else s) s

/-- R320: a SAVE command: the team starts no further clause. -/
def State.saveTeam (s : State) (core tslot : Nat) : State :=
  let tk := 8 * core + tslot
  if (s.dev 0x416).toNat % 4 == 1 then s
  else if 256 ≤ core || 8 ≤ tslot || !(s.team tk).resident then s.setPrestat 3 1 0
  else
    let t := s.team tk
    let sizes := areaSizes (t.waves.map s.wave) t.scratch
    if !s.areaOk s.preaddr ((areaOffsets sizes).getD 5 0 + sizes.getD 5 0) then s.setPrestat 3 4 0
    else
      let s := (s.modTeam tk fun t => { t with saving := true }).setPrestat 1 0 0
      let s := (s.nonspecWaves t.grid core).foldl (fun (s : State) e => s.modTeam (taskTeam e.2) fun t => { t with saving := true }) s
      ({ s with reg := { s.reg with saving := some { core := core, tslot := tslot, addr := s.preaddr } } } : State)

/-- R320: PRECMD_SAVE. -/
def execPrecmdSave (core tslot : Nat) (s : State) : Outcome := .next (s.saveTeam core tslot)

/-- A wave as it is saved: bundles at headers are none; lanes that wait for a copy's slot stand at the COPY (R320). -/
def Wave.forSave (x : Wave) : Wave :=
  { x with bundles := x.bundles.filter fun b => b.phase != .header, f := [], yieldUntil := 0 }

/-- R321: writes the seven parts of the area, the header last. -/
def State.writeArea (s : State) (addr tk : Nat) : State :=
  let t := s.team tk
  let xs := t.waves.map fun w => ((s.wave w).forSave, s.suspended w)
  let offs := areaOffsets (areaSizes (xs.map fun e => e.1) t.scratch)
  let at_ := fun (k : Nat) => addr + offs.getD k 0
  let good := fun (_ : Nat) => false
  let scratch := (List.range t.scratch).map fun i => SMap.get 0#8 t.clm i
  let s := s.putArea (at_ 0) (xs.flatMap fun e => e.1.regsBytes) ((xs.flatMap fun e => e.1.regsPoison).getD · false)
  let s := s.putArea (at_ 1) (xs.flatMap fun e => e.1.tamBytes) ((xs.flatMap fun e => e.1.tamPoison).getD · false)
  let s := s.putArea (at_ 2) scratch fun i => SMap.get false t.clmPoison (2 * i) || SMap.get false t.clmPoison (2 * i + 1)
  let s := s.putArea (at_ 3) t.handleBytes good
  let s := s.putArea (at_ 4) (xs.flatMap fun e => e.1.joinBytes) good
  let s := s.putArea (at_ 5) (xs.flatMap fun e => e.1.controlBytes e.2) good
  let susp := (xs.zip (List.range xs.length)).foldl (fun n e => if e.1.2 then n + 2 ^ e.2 else n) 0
  s.putArea addr (headerBytes (s.grid t.grid) t offs susp) good

/-- R320: a saved copy's members issue the COPY again: they stand at it. -/
def Wave.backToCopy (x : Wave) : Wave :=
  x.setStatus (x.waitingAt fun k => match k with | .copySlot _ => true | _ => false) .running

/-- The groups of a team's waves, by wave index, and what is left of all groups. -/
def State.splitGroups (s : State) (ws : List Nat) : List Group × List Group :=
  ((s.x.groups.map fun g => { g with waves := (g.waves.filter ws.contains).map fun w => (s.wave w).widx }).filter fun g => !g.waves.isEmpty,
   (s.x.groups.map fun g => { g with waves := g.waves.filter fun w => !ws.contains w }).filter fun g => !g.waves.isEmpty)

/-- R320 step 5: the team's resources are freed; what goes on with it is kept with its grid. -/
def State.freeSaved (s : State) (addr core tk : Nat) : State :=
  let t := s.team tk
  let gs := s.splitGroups t.waves
  let xs := t.waves.map fun w => (s.wave w).forSave.backToCopy
  let s := (s.slotless tk).foldl (fun (s : State) e => s.setCopy e.1 {}) s
  let ts := s.nonspecWaves t.grid core
  let tasks := ts.map fun e => (e.1, (s.wave e.2).forSave, (s.splitGroups [e.2]).1)
  let s := s.modGrid t.grid fun g => { g with
    saved := SMap.set {} g.saved t.num { core := core, area := addr, team := t, waves := xs, groups := gs.1, tasks := tasks }
    paused := if g.isTask then core :: g.paused else g.paused }
  let ws := t.waves ++ ts.map fun e => e.2
  let s := { s with x := { s.x with groups := (s.splitGroups ws).2 } }
  let s := ws.foldl (fun (s : State) w => s.setWave w {}) s
  let s := ts.foldl (fun (s : State) e => s.setTeam (taskTeam e.2) {}) s
  ((s.dropFailed ws).retire ws).setTeam tk {}

/-- R34: the area of a SAVE cannot be reached: the SAVE is refused, and its team goes on (DESIGN CHOICE, log 63). -/
def State.unsave (s : State) (v : Saving) : State :=
  let tk := 8 * v.core + v.tslot
  let s := (s.nonspecWaves (s.team tk).grid v.core).foldl (fun (s : State) e => s.modTeam (taskTeam e.2) fun t => { t with saving := false }) s
  let s := (s.modTeam tk fun t => { t with saving := false }).setPrestat 3 4 0
  { s with reg := { s.reg with saving := none } }

/-- R320 steps 3 to 5, once the area can be written. -/
def State.saveNow (s : State) (v : Saving) : State :=
  let tk := 8 * v.core + v.tslot
  if s.lostAny (askAgent 5 0) then s.unsave v
  else
    let g := (s.team tk).grid
    let s := if (s.grid g).isTask then s.abortCore g v.core else s
    let s := ((s.writeArea v.addr tk).freeSaved v.addr v.core tk).setPrestat 2 0 0
    { s with reg := { s.reg with saving := none } }

/-- R320, R321: the requests of a SAVE. -/
def State.saveAsks (s : State) (v : Saving) : List Ask :=
  let t := s.team (8 * v.core + v.tslot)
  areaAsks (askAgent 5 0) v.core v.addr (areaSizes (t.waves.map s.wave) t.scratch) true

/-- R320, R321: SAVE_AREA_WRITE. -/
def execSaveAreaWrite (s : State) : Outcome :=
  .next (
    match s.reg.saving with
    | none => s
    | some v => if !s.saveReady (8 * v.core + v.tslot) then s else s.act (askAgent 5 0) (s.saveAsks v) fun s => s.saveNow v)

/-- R321: the saved teams a header names, with the grid and the team number. -/
def State.savedBy (s : State) (addr seq num : Nat) : Option (Nat × Nat × SavedTeam) :=
  let all := s.x.grids.flatMap fun e => if e.2.live && e.2.seq == seq then (e.2.saved.filter fun k => k.1 == num).map fun k => (e.1, k.1, k.2) else []
  match all.find? fun k => k.2.2.area == addr with
  | some k => some k
  | none => all.head?

/-- R33: is a granule of a range of the area poisoned? -/
def State.areaBad (s : State) (pa n : Nat) : Bool := (List.range (n / 8)).any fun i => (s.readPa none (pa + 8 * i) 8).2

/-- A word of the area. -/
def State.areaWord (s : State) (pa n : Nat) : Nat := leNat (s.readRange pa n)

/-- R33: the register granules that the poisoned ones of `n` granules of the area hold. -/
def State.loadParity (s : State) (c : RegClass) (pa n : Nat) : List (RegClass × Nat) :=
  ((List.range n).filter fun k => s.areaBad (pa + 8 * k) 8).flatMap fun k => [(c, 2 * k), (c, 2 * k + 1)]

/-- R321: REGS and TAM read back.  A register whose granule is poisoned fails its parity check (R33, DEDUCED, log 31). -/
def Wave.loadRegs (x : Wave) (s : State) (regs tam : Nat) : Wave :=
  let sb := regs + 128 * x.vcount
  let x := { x with v := [], s := [], p := [], acc := [], shadow := none
                    parity := s.loadParity .v regs (16 * x.vcount) ++ s.loadParity .s sb 32 ++ s.loadParity .p (sb + 256) 24 ++
                              s.loadParity .acc tam (128 * x.slots) }
  let x := (List.range x.vcount).foldl (fun (x : Wave) n => (List.range 32).foldl (fun (x : Wave) l => x.setV n l (BitVec.ofNat 32 (s.areaWord (regs + 128 * n + 4 * l) 4))) x) x
  let x := (List.range 64).foldl (fun (x : Wave) n => x.setS n (BitVec.ofNat 32 (s.areaWord (sb + 4 * n) 4))) x
  let x := (List.range 48).foldl (fun (x : Wave) n => { x with p := SMap.set 0#32 x.p n (BitVec.ofNat 32 (s.areaWord (sb + 256 + 4 * n) 4)) }) x
  (List.range x.slots).foldl (fun (x : Wave) n => (List.range 256).foldl (fun (x : Wave) i => x.setAcc n i (BitVec.ofNat 32 (s.areaWord (tam + 1024 * n + 4 * i) 4))) x) x

/-- R321: a lane's status from its record, where the record is not the one written (DEDUCED, log 31): what a join, a route or a
scope waits at; every other lane runs at its program counter. -/
def statusOf (r : Nat) : Status :=
  let n := r / 256 % 256
  match r % 4, r / 16 % 16 with
  | 0, _ => .running
  | 1, 1 => .waiting (.join (n % 16))
  | 1, 4 => .waiting (.waitb (n % 8))
  | 1, 6 => .waiting (.fswait n)
  | 1, _ => .running
  | _, _ => .exited

/-- The record under which a lane was saved: a lane that stands at its COPY waits for a slot (R320). -/
def Wave.keepsLane (x : Wave) (l rec : Nat) (pc : DWord) : Bool :=
  pc == (x.lane l).pc && (rec % 2 ^ 17 == x.laneRecord l % 2 ^ 17 || (rec % 256 == 1 + 16 * 8 && (x.lane l).st.isRunning))

/-- R321: lane program counters and records read back; a bundle keeps the lanes that stand as they were saved. -/
def Wave.loadLanes (x : Wave) (s : State) (ctl : Nat) : Wave :=
  (List.range 32).foldl (fun (y : Wave) l =>
    let pc := BitVec.ofNat 64 (s.areaWord (ctl + 8 * l) 8)
    let r := s.areaWord (ctl + 0x100 + 8 * l) 8
    let y := { y with hlanes := setBit y.hlanes l (r / 2 ^ 17 % 2 == 1) }
    if x.keepsLane l r pc then y
    else (y.unbundle (1#32 <<< l)).setLane l { y.lane l with pc := pc, st := statusOf r }) x

/-- R168, R321: a route record read back: the phase is the one saved, or, where the area names another, the latest of that number
that the route has begun (DEDUCED, log 34). -/
def route1Of (old : Route1) (r : Route) (w : Nat) : Route1 :=
  let ph := w / 4 % 128
  { outstanding := w % 2 == 1, counted := w / 2 % 2 == 1, phase := ph
    seq := if old.phase == ph then old.seq else r.total - (r.total + 128 - ph) % 128 }

/-- R321: JOINS and CONTROL read back; snapshots and latches are not saved (R308), nor words run ahead to. -/
def Wave.loadControl (x : Wave) (s : State) (joins ctl : Nat) : Wave :=
  let w := fun (off n : Nat) => s.areaWord (ctl + off) n
  let x := (x.loadLanes s ctl)
  let x := (List.range 16).foldl (fun (x : Wave) n =>
    let v := s.areaWord (joins + 8 * n) 8
    x.setJoin n { expect := BitVec.ofNat 32 v, lost := v / 2 ^ 32 % 2 == 1 }) x
  let b := w 0x204 4
  let c : Clause := { x.saved.getD {} with act := BitVec.ofNat 32 (w 0x22C 4), hdr := BitVec.ofNat 64 (w 0x230 8), ext := BitVec.ofNat 32 (w 0x238 4) }
  { x with
    tw := w 0x200 4 % 8, satf := b % 2 == 1, hmode := b / 2 % 2 == 1, trappc := BitVec.ofNat 64 (w 0x208 8)
    trapcause := BitVec.ofNat 32 (w 0x210 4), trapmask := BitVec.ofNat 32 (w 0x214 4), rngkey := BitVec.ofNat 64 (w 0x218 8)
    rngctr := BitVec.ofNat 64 (w 0x220 8), mprog := w 0x228 4, saved := if b / 8 % 2 == 1 then some c else none
    cfr := (List.range 4).foldl (fun m k => SMap.set 0xFFFFFFFF#32 m k (BitVec.ofNat 32 (w (0x23C + 4 * k) 4))) []
    f := (List.range 12).foldl (fun m k => SMap.set 0 m k (w (0x25C + k) 1)) []
    routes := (List.range 8).foldl (fun m r => SMap.set {} m r (route1Of (x.routeRec r) (s.route r) (w (0x268 + 2 * r) 2))) []
    snaps := [], latches := [], ibuf := [] }

/-- R321: HANDLES and SCRATCH read back. -/
def Team.loadArea (t : Team) (s : State) (scratch handles : Nat) : Team :=
  let t := (List.range (t.scratch / 8)).foldl (fun (t : Team) i =>
    let r := s.readPa none (scratch + 8 * i) 8
    t.writeClm (8 * i) 8 r.1 r.2) { t with clm := [], clmPoison := [] }
  (List.range 64).foldl (fun (t : Team) h =>
    let b := fun (off n : Nat) => s.areaWord (handles + 32 * h + off) n
    let own := b 2 1 == h
    t.setHandle h { st := hstateOf (b 0 1), hb := b 8 4, hlen := b 12 4, fph := b 1 1 % 2 == 1, first := if own && b 3 1 == 1 then none else some (b 2 1)
                    count := b 3 1, pcur := if own then b 4 1 else 0, pph := own && b 5 1 % 2 == 1 }) { t with handles := [] }

/-- R320: the waves and the team of a saved team return to the slots that placement gave them. -/
def State.loadTeam (s : State) (addr tk : Nat) (v : SavedTeam) : State :=
  let t := s.team tk
  let offs := areaOffsets (areaSizes v.waves v.team.scratch)
  let at_ := fun (k : Nat) => addr + offs.getD k 0
  let pre := fun (i : Nat) (f : Wave → Nat) => ((v.waves.take i).map f).foldl (· + ·) 0
  let s := ((t.waves.zip v.waves).zip (List.range v.waves.length)).foldl (fun (s : State) e =>
    let y := (e.1.2.loadRegs s (at_ 0 + pre e.2 fun x => 128 * x.vcount + 512) (at_ 1 + pre e.2 fun x => 1024 * x.slots)).loadControl s
      (at_ 4 + 128 * e.2) (at_ 5 + 1024 * e.2)
    s.setWave e.1.1 { y with tslot := tk % 8, resident := true, started := true }) s
  s.setTeam tk ({ t with started := true, satctl := s.areaWord (addr + 0x3C) 4 % 2 == 1 }.loadArea s (at_ 2) (at_ 3))

/-- R321, R315: the suspensions a restored team has: the saved groups, and a group for any other wave whose record says so. -/
def State.loadGroups (s : State) (addr tk : Nat) (v : SavedTeam) : State :=
  let ws := (s.team tk).waves
  let mask := s.areaWord (addr + 0x48) 4
  let on := fun (i : Nat) => mask / 2 ^ i % 2 == 1
  let gs := (v.groups.map fun g => { g with waves := (g.waves.filter on).map fun i => ws.getD i 0 }).filter fun g => !g.waves.isEmpty
  let rest := (List.range ws.length).filter fun i => on i && !(v.groups.any fun g => g.waves.contains i)
  { s with x := { s.x with groups := s.x.groups ++ gs ++ rest.map fun i => { tenant := (s.grid (s.team tk).grid).tenant, waves := [ws.getD i 0] } } }

/-- R320: why a restored team must return to its core. -/
def SavedTeam.bound (v : SavedTeam) (g : Grid) : Bool :=
  !g.place.isEmpty || v.waves.any fun x => x.routes.any fun r => r.2.outstanding

/-- R332: a place for the team on a core: its old partitions first. -/
def State.replace (s : State) (gk core num old : Nat) : Option (Nat × State) :=
  match s.place gk core old num with
  | some r => some r
  | none => (List.range 4).findSome? fun p => s.place gk core p num

/-- R303, R320: the task waves saved with a team come back to their core, where there is room; its queue goes on. -/
def State.loadTasks (s : State) (gk : Nat) (v : SavedTeam) : Option State :=
  v.tasks.foldl (fun (r : Option State) e => r.bind fun s =>
    (List.range 4).findSome? fun part =>
      if !s.fitsWave v.core part 0 e.2.1.vcount 0 then none
      else (s.freeWave v.core part).map fun w =>
        let s := (s.setWave w e.2.1).setTeam (taskTeam w) { resident := true, started := true, grid := gk, num := 2 ^ 16, waves := [w] }
        let s := s.modGrid gk fun g => g.setTask e.1 { g.task e.1 with wave := some w, ran := w }
        { s with x := { s.x with groups := s.x.groups ++ e.2.2.map fun k => { k with waves := [w] } } })
    (some (s.modGrid gk fun g => { g with paused := g.paused.erase v.core }))

/-- R320, R321: the saved team that the header of an area names, where it is one. -/
def State.headerTeam (s : State) (addr : Nat) : Option (Nat × Nat × SavedTeam) :=
  if s.areaWord addr 4 != 0x5A585341 || s.areaBad addr 256 then none
  else (s.savedBy addr (s.areaWord (addr + 0x40) 4) (s.areaWord (addr + 0x38) 4)).filter fun r =>
    s.areaWord (addr + 4) 4 == r.2.2.waves.length && s.areaWord (addr + 0x44) 4 == (s.grid r.1).variant

/-- R33: what HANDLES, JOINS or CONTROL of an area hold is poisoned. -/
def State.stateBad (s : State) (addr : Nat) (v : SavedTeam) : Bool :=
  let sizes := areaSizes v.waves v.team.scratch
  [3, 4, 5].any fun k => s.areaBad (addr + (areaOffsets sizes).getD k 0) (sizes.getD k 0)

/-- R320, R231: a team comes back to a core, where there is room; none is placed while the clocks are to be rebased (R228). -/
def State.restorePlace (s : State) (addr core gk num : Nat) (v : SavedTeam) : State :=
  if 2 ^ 47 ≤ s.maxClock || s.pk.rebase then s.setPrestat 3 2 0
  else match (s.replace gk core num (v.team.waves.headD 0 / 16 % 4)).bind fun r => (r.2.loadTasks gk v).map fun s => (r.1, s) with
    | none => s.setPrestat 3 2 0
    | some (ts, s) =>
      let tk := 8 * core + ts
      let s := ((s.loadTeam addr tk v).loadGroups addr tk v).modGrid gk fun g => { g with saved := SMap.set {} g.saved num {} }
      let s := s.modCore core fun k => { k with lt := Nat.max k.lt (s.grid gk).ltstart.toNat }
      (s.setPrestat 2 0 ts).settle tk

/-- R320: a RESTORE whose area has been read: it is refused, or the team comes back. -/
def State.restoreNow (s : State) (v : Saving) : State :=
  let s := { s with reg := { s.reg with restoring := none } }
  match s.headerTeam v.addr with
  | none => s.setPrestat 3 4 0
  | some (gk, num, t) =>
    if v.core != t.core && t.bound (s.grid gk) then s.setPrestat 3 3 0
    else if s.lostAny (askAgent 6 0) || s.stateBad v.addr t then s.setPrestat 3 4 0
    else s.restorePlace v.addr v.core gk num t

/-- R320, R30: the requests of a RESTORE: for the header, and where that names a saved team for the regions of its area. -/
def State.restoreAsks (s : State) (v : Saving) : List Ask :=
  match s.headerTeam v.addr with
  | none => physAsks (askAgent 6 0) (dieOf v.core) 32 v.addr 256 false
  | some (_, _, t) => areaAsks (askAgent 6 0) v.core v.addr (areaSizes t.waves t.team.scratch) false

/-- The cores that hold lines of what has been asked for give them up, as they are read at their homes. -/
def State.yieldAsks (s : State) (as : List Ask) : State := as.foldl (fun (s : State) a => s.yieldLine none a.line) s

/-- R320: a RESTORE command is taken, unless one is in progress. -/
def State.restoreBegin (s : State) (core : Nat) : State :=
  if (s.dev 0x416).toNat % 4 == 1 then s
  else if !s.areaOk s.preaddr 4096 then s.setPrestat 3 4 0
  else
    let s := s.setPrestat 1 0 0
    { s with reg := { s.reg with restoring := some { core := core, addr := s.preaddr } } }

/-- R320: a RESTORE in progress goes on, once its requests have been answered. -/
def State.restoreGo (s : State) (core : Nat) : State :=
  match s.reg.restoring with
  | none => s
  | some v => if v.core != core then s else s.act (askAgent 6 0) (s.restoreAsks v) fun t => (t.yieldAsks (s.restoreAsks v)).restoreNow v

/-- R320: a RESTORE command: taken where none is in progress, and going on (DESIGN CHOICE, log 63). -/
def State.restoreTeam (s : State) (core : Nat) : State := (if s.reg.restoring.isNone then s.restoreBegin core else s).restoreGo core

/-- R320: PRECMD_RESTORE. -/
def execPrecmdRestore (core : Nat) (s : State) : Outcome := .next (s.restoreTeam core)

end Sys2Proof.Machine
end

