-- ==== Sys2Proof/Machine/Tlb.lean ====
section
/-! DEFINITION. Invalidation of translations (R325). -/

namespace Sys2Proof.Machine

open Sys2Proof

/-- R325: the named entries are to be dropped, and every walk begun before ends with its result discarded.  `tlb` names
translations by identifier and page; `rgn` names cached region entries by identifier. -/
def State.tlbinv (s : State) (tlb : Nat → Nat → Bool) (rgn : Nat → Bool) : State :=
  { s with
    m := { s.m with
      tlb := s.m.tlb.map fun t => if tlb t.asid t.vpn then { t with stale := true } else t
      rgn := s.m.rgn.map fun r => if rgn r.asid then { r with stale := true } else r
      walks := (s.m.walks.filter fun k => k.2.failed.isNone).map fun (k : Nat × Walk) => (k.1, { k.2 with drop := true }) }
    reg := { s.reg with tlbBusy := true } }

/-- R325: OP 01, the page at tlbva of one identifier. -/
def State.tlbinvPage (s : State) (asid : Nat) : State :=
  let vpn := (s.dev64 0x409).toNat / 2 ^ 16
  s.tlbinv (fun a v => a == asid && v == vpn) fun _ => false
/-- R325: OP 10, every entry of one identifier, its region table among them (R313). -/
def State.tlbinvAsid (s : State) (asid : Nat) : State := s.tlbinv (fun a _ => a == asid) fun a => a == asid
/-- R325: OP 11, every entry. -/
def State.tlbinvAll (s : State) : State := s.tlbinv (fun _ _ => true) fun _ => true

/-- R325: TLBINV_PAGE. -/
def execTlbinvPage (asid : Nat) (s : State) : Outcome := .next (s.tlbinvPage asid)
/-- R325: TLBINV_ASID. -/
def execTlbinvAsid (asid : Nat) (s : State) : Outcome := .next (s.tlbinvAsid asid)
/-- R325: TLBINV_ALL. -/
def execTlbinvAll (s : State) : Outcome := .next s.tlbinvAll

/-- R325: TLB_INVALIDATE_DONE: no walk begun before is left; the named entries are gone. -/
def execTlbInvalidateDone (s : State) : Outcome :=
  .next (
    if !s.reg.tlbBusy || s.m.walks.any fun k => k.2.drop then s
    else
      { s with
        m := { s.m with tlb := s.m.tlb.filter fun t => !t.stale, rgn := s.m.rgn.filter fun r => !r.stale }
        reg := { s.reg with tlbBusy := false } })

end Sys2Proof.Machine
end

