-- ==== Sys2Proof/Machine/Regs.lean ====
section
/-! DEFINITION. System registers (R64, R7, R8, R308, R309): the map, what each reads as and what a write of each does,
and the words that reach them (R311-R314). -/

namespace Sys2Proof.Machine

open Sys2Proof

/-- R7: how a register is reached. -/
inductive Acc where
  | ro | rw | wo
  deriving DecidableEq, Repr, Inhabited

/-- R309: what a register is held per. -/
inductive Held where
  | wave | team | coreTenant | tenant | device
  deriving DecidableEq, Repr, Inhabited

/-- R309: a row of the map; `zero` marks what only tenant 0 reads and writes. -/
structure RegInfo where
  acc : Acc
  held : Held
  zero : Bool
  deriving DecidableEq, Repr, Inhabited

/-- R309: the map; none where a number names no register. -/
def regInfo (n : Nat) : Option RegInfo :=
  if n < 0x11 then some ⟨if n < 2 || n == 4 || n == 5 then .rw else .ro, .wave, false⟩
  else if n == 0x20 then some ⟨.rw, .team, false⟩
  else if n == 0x30 then some ⟨.ro, .coreTenant, false⟩
  else if n == 0x31 then some ⟨.rw, .coreTenant, false⟩
  else if n == 0x43 then some ⟨.ro, .tenant, false⟩
  else if n == 0x44 || n == 0x45 then some ⟨.rw, .tenant, false⟩
  else if n == 0x46 then some ⟨.rw, .device, true⟩
  else if 0x40 ≤ n && n < 0x4F then some ⟨.rw, .tenant, true⟩
  else if 0x100 ≤ n && n < 0x200 then some ⟨.rw, .tenant, n % 4 != 3⟩
  else if 0x200 ≤ n && n < 0x240 then some ⟨.ro, .tenant, false⟩
  else if n == 0x400 || n == 0x40B || n == 0x411 || n == 0x415 || n == 0x41A || (0x421 ≤ n && n < 0x429) || n == 0x434 || n == 0x436 then some ⟨.wo, .device, true⟩
  else if n == 0x40C || n == 0x412 || n == 0x416 || n == 0x435 || n == 0x437 then some ⟨.ro, .device, true⟩
  else if n == 0x41B || n == 0x41C || n == 0x41E then some ⟨.ro, .device, false⟩
  else if (0x401 ≤ n && n < 0x421) || n == 0x430 || n == 0x431 || n == 0x432 then some ⟨.rw, .device, true⟩
  else none

/-- R308: the low number of the 64-bit register a number is half of. -/
def pairLow (n : Nat) : Option Nat :=
  if n < 2 then some 0
  else if 0xC ≤ n && n < 0x10 then some (n / 2 * 2)
  else if n == 0x40 || n == 0x41 then some 0x40
  else if n == 0x49 || n == 0x4A then some 0x49
  else if n == 0x4B || n == 0x4C then some 0x4B
  else if 0x100 ≤ n && n < 0x200 && n % 4 < 2 then some (n / 4 * 4)
  else if n == 0x401 || n == 0x402 then some 0x401
  else if n == 0x404 || n == 0x405 then some 0x404
  else if 0x407 ≤ n && n < 0x40B then some ((n - 1) / 2 * 2 + 1)
  else if n == 0x40F || n == 0x410 then some 0x40F
  else if n == 0x413 || n == 0x414 then some 0x413
  else if n == 0x41B || n == 0x41C then some 0x41B
  else none

/-- R309: where an access reaches: the wave that makes it, where one does, and the tenant instance. -/
structure RegAt where
  w : Option Nat := none
  t : Nat := 0
  deriving DecidableEq, Repr, Inhabited

/-- R309: the instances a wave reaches. -/
def State.regAt (s : State) (w : Nat) : RegAt :=
  let t := (s.gridOf w).tenant
  { w := some w, t := if t == 0 then (s.dev 0x46).toNat % 32 else t }

/-- A field mask [hi:lo] of a 64-bit register. -/
def field64 (v : DWord) (hi lo : Nat) : DWord := BitVec.ofNat 64 (bits v hi lo * 2 ^ lo)

/-- R309: the window that winsel names. -/
def Tenant.window (t : Tenant) : Window := SMap.get {} t.windows t.winsel
/-- Writes it. -/
def Tenant.setWindow (t : Tenant) (x : Window) : Tenant := { t with windows := SMap.set {} t.windows t.winsel x }
/-- R326: a queue of a tenant. -/
def Tenant.queue (t : Tenant) (q : Nat) : Queue := SMap.get {} t.queues q
/-- Writes it. -/
def Tenant.setQueue (t : Tenant) (q : Nat) (x : Queue) : Tenant := { t with queues := SMap.set {} t.queues q x }

/-- R309: the value of a 64-bit register, by its low number. -/
def State.read64 (s : State) (a : RegAt) (low : Nat) : DWord :=
  let x := s.wave (a.w.getD 0)
  let t := s.tenant a.t
  if low == 0 then x.trappc
  else if low == 0xC then x.rngkey
  else if low == 0xE then x.rngctr
  else if low == 0x40 then t.fqbase
  else if low == 0x49 then t.window.base
  else if low == 0x4B then t.window.last
  else if low < 0x200 then (t.queue ((low - 0x100) / 4)).base
  else if low == 0x401 then s.reg.chkkey
  else if low == 0x40F then BitVec.ofNat 64 (s.stagedRow ((s.dev 0x40D).toNat % 8) (s.dev 0x40E).toNat)
  else if low == 0x41B then BitVec.ofNat 64 s.signature
  else s.dev64 low

/-- A device register of 64 bits. -/
def State.setDev64 (s : State) (low : Nat) (v : DWord) : State := (s.setDev low (v.extractLsb' 0 32)).setDev (low + 1) (v.extractLsb' 32 32)

/-- R166: a write of TRAPPC in handler mode; the saved clause context goes. -/
def Wave.writeTrappc (x : Wave) (v : DWord) : Wave :=
  if x.hmode && v.toNat % 4 == 0 && canonical v then { x with trappc := v, saved := none } else x

/-- R239: a write of CHKKEY. -/
def State.writeChkkey (s : State) (v : DWord) : State := if s.anyLaunch then s else { s with reg := { s.reg with chkkey := v } }

/-- R340: a row of the candidate is staged. -/
def State.stageRow (s : State) (v : DWord) : State :=
  let i := (s.dev 0x40E).toNat
  if 33 ≤ i then s
  else { s with reg := { s.reg with rows := SMap.set 0 s.reg.rows (64 * ((s.dev 0x40D).toNat % 8) + i) (bits v 32 0) } }

/-- R308, R309: a 64-bit register is written whole. -/
def State.write64 (s : State) (a : RegAt) (low : Nat) (v : DWord) : State :=
  if low == 0 then s.modWave (a.w.getD 0) fun x => x.writeTrappc v
  else if low == 0x40 then s.modTenant a.t fun t => { t with fqbase := field64 v 51 6 }
  else if low == 0x49 then s.modTenant a.t fun t => t.setWindow { t.window with base := field64 v 51 16 }
  else if low == 0x4B then s.modTenant a.t fun t => t.setWindow { t.window with last := field64 v 51 16 }
  else if 0x100 ≤ low && low < 0x200 then
    let q := (low - 0x100) / 4
    s.modTenant a.t fun t => t.setQueue q { t.queue q with base := field64 v 51 12 }
  else if low == 0x401 then s.writeChkkey v
  else if low == 0x404 then s.setDev64 low (field64 v 51 6)
  else if low == 0x407 then s.setDev64 low (field64 v 51 16)
  else if low == 0x409 then s.setDev64 low v
  else if low == 0x40F then s.stageRow v
  else if low == 0x413 then s.setDev64 low (field64 v 51 12)
  else s

/-- R299: the frontier a wave reads: that of its grid, or of its tenant's most recent task launch, or all ones. -/
def State.frontierOf (s : State) (w : Nat) : Option (Nat × Nat) :=
  let g := s.gridOf w
  if g.isTask then g.frontier
  else match (s.tenant g.tenant).lastTask with
    | some k => (s.grid k).frontier
    | none => none

/-- R299: the four words of a frontier. -/
def frontierWords : Option (Nat × Nat) → List Word
  | none => List.replicate 4 0xFFFFFFFF#32
  | some (ts, id) => [ts, ts / 2 ^ 32, id, id / 2 ^ 32].map fun n => BitVec.ofNat 32 n

/-- R299: a wave's snapshot becomes the latest published frontier. -/
def State.takeCfr (s : State) (w : Nat) : State :=
  let ws := frontierWords (s.frontierOf w)
  s.modWave w fun x => { x with cfr := (List.range 4).foldl (fun m k => SMap.set 0xFFFFFFFF#32 m k (ws.getD k 0#32)) x.cfr }

/-- R344: gatestat, with GATED as the core of the last command stands. -/
def State.gatestat (s : State) : Word :=
  let v := s.dev 0x437
  if v.toNat % 4 != 0 && (s.core (v.toNat / 2 ^ 16 % 256)).gated then v ||| 0x80000000#32 else v

/-- R309: the value of a 32-bit register that reads. -/
def State.read32 (s : State) (a : RegAt) (n : Nat) : Word :=
  let w := a.w.getD 0
  let x := s.wave w
  let t := s.tenant a.t
  let k := s.core (coreOf w)
  if n == 2 then x.trapcause
  else if n == 3 then x.trapmask
  else if n == 4 then BitVec.ofNat 32 x.tw
  else if n == 5 then BitVec.ofNat 32 x.satf.toNat
  else if n == 6 then BitVec.ofNat 32 x.hmode.toNat
  else if n == 7 then BitVec.ofNat 32 x.mprog
  else if 8 ≤ n && n < 0xC then SMap.get 0xFFFFFFFF#32 x.cfr (n - 8)
  else if n == 0x10 then BitVec.ofNat 32 (s.waveId w)
  else if n == 0x20 then BitVec.ofNat 32 (s.teamOf w).satctl.toNat
  else if n == 0x30 then BitVec.ofNat 32 (t.mat.allow % 2 ^ 16 * 2 ^ 16 + s.remain (coreOf w) a.t)
  else if n == 0x31 then SMap.get 0#32 k.slip a.t
  else if n == 0x42 then t.fqctl
  else if n == 0x43 then t.fqprod
  else if n == 0x44 then t.fqcons
  else if n == 0x45 then t.wcmd
  else if n == 0x47 then BitVec.ofNat 32 t.redpol
  else if n == 0x48 then BitVec.ofNat 32 t.winsel
  else if n == 0x4D then BitVec.ofNat 32 t.window.valid.toNat
  else if n == 0x4E then BitVec.ofNat 32 t.msiport
  else if 0x100 ≤ n && n < 0x200 then (if n % 4 == 2 then (t.queue ((n - 0x100) / 4)).ctl else (t.queue ((n - 0x100) / 4)).tail)
  else if 0x200 ≤ n && n < 0x240 then (t.queue (n - 0x200)).head
  else if n == 0x40C then BitVec.ofNat 32 s.reg.tlbBusy.toNat
  else if n == 0x418 then BitVec.ofNat 32 (s.route s.rtsel).newOwner
  else if n == 0x419 then BitVec.ofNat 32 (SMap.get 0 (s.route s.rtsel).newCounts ((s.dev 0x417).toNat / 2 ^ 8 % 256))
  else if n == 0x432 then s.rtblEntry ((s.dev 0x431).toNat % 64)
  else if n == 0x437 then s.gatestat
  else s.dev n

/-- R317: a write of fqctl: an illegal LOG2N holds EN at 0, OVF clears by writing 1. -/
def fqctlWrite (old v : Word) : Word :=
  let n := v.toNat % 32
  (v &&& (if 4 ≤ n && n ≤ 16 then 0x80001F1F#32 else 0x00001F1F#32)) ||| (old &&& 0x00010000#32 &&& ~~~v)

/-- R317: a write of fqcons. -/
def State.writeFqcons (s : State) (t : Nat) (v : Word) : State := s.modTenant t fun x => ({ x with fqcons := v } : Tenant).noteOvf

/-- R319: a write of wcmd. -/
def State.writeWcmd (s : State) (t : Nat) (v : Word) : State :=
  let s := s.modTenant t fun x => { x with wcmd := (v &&& 0xC0FFFFFF#32) ||| (x.wcmd &&& 0x03000000#32) }
  let wid := v.toNat % 2 ^ 24
  match v.toNat / 2 ^ 30 with
  | 1 => s.wcmdResume t wid
  | 2 => s.wcmdKill t wid
  | _ => s

/-- R245, R246: a write of firctl; what it arms governs the accesses issued from now on (R311). -/
def State.writeFirctl (s : State) (v : Word) : State :=
  let fired := s.dev 0x403 &&& 4#32 &&& ~~~v
  let v := if v.toNat / 2 ^ 16 == 0 then v &&& ~~~1#32 else v
  ({ s with reg := { s.reg with firArm := s.reg.firArm + 1 } } : State).setDev 0x403 ((v &&& 0xFFFFFF03#32) ||| fired)

/-- R309, R51: a write of measd7: the staged 32 bytes extend register meassel. -/
def State.writeMeasd7 (s : State) (v : Word) : State :=
  let s := { s with reg := { s.reg with measd := SMap.set 0#32 s.reg.measd 7 v } }
  let m := (s.dev 0x420).toNat % 8
  if 3 ≤ m then s.extend m ((List.range 8).flatMap fun k => leBytes 4 (SMap.get 0#32 s.reg.measd k).toNat) else s

/-- R63, R309: a write of wpart. -/
def Wave.writeWpart (x : Wave) (v : Word) : Wave :=
  let n := v.toNat % 8
  if 1 ≤ n && n ≤ 5 then { x with tw := n } else x

/-- R108: a write of satf. -/
def Wave.writeSatf (x : Wave) (v : Word) : Wave := { x with satf := v.getLsbD 0 }

/-- R325: a write of tlbinv. -/
def State.writeTlbinv (s : State) (v : Word) : State :=
  let asid := v.toNat % 2 ^ 10
  match v.toNat / 2 ^ 30 with
  | 1 => s.tlbinvPage asid
  | 2 => s.tlbinvAsid asid
  | 3 => s.tlbinvAll
  | _ => s

/-- R320: a write of precmd. -/
def State.writePrecmd (s : State) (v : Word) : State :=
  let core := v.toNat / 2 ^ 16 % 256
  match v.toNat / 2 ^ 30 with
  | 1 => s.saveTeam core (v.toNat / 4 % 8)
  | 2 => s.restoreTeam core
  | _ => s

/-- R343: a write of resetcmd. -/
def State.writeResetcmd (s : State) (v : Word) : State :=
  match v.toNat / 2 ^ 30 with
  | 1 => s.cmdWarm
  | 2 => s.cmdCore (v.toNat / 2 ^ 16 % 256)
  | _ => s

/-- R344: a write of gatecmd. -/
def State.writeGatecmd (s : State) (v : Word) : State :=
  match v.toNat / 2 ^ 30 with
  | 1 => s.gate (v.toNat / 2 ^ 16 % 256)
  | 2 => s.wake (v.toNat / 2 ^ 16 % 256)
  | _ => s

/-- R342: a write of rtblval. -/
def State.writeRtbl (s : State) (v : Word) : State :=
  if 12 ≤ v.toNat % 16 then s
  else { s with reg := { s.reg with rtbl := SMap.set 0#32 s.reg.rtbl ((s.dev 0x431).toNat % 64) (v &&& 0x8F#32) } }

/-- R309: a write of a device register with no 64-bit number. -/
def State.writeDev (s : State) (n : Nat) (v : Word) : State :=
  if n == 0x46 then s.setDev n (v &&& 0x1F#32)
  else if n == 0x400 then s.ltreset
  else if n == 0x403 then s.writeFirctl v
  else if n == 0x406 then (if 100 ≤ v.toNat && v.toNat ≤ 2200 then s.setDev n v else s)
  else if n == 0x40B then s.writeTlbinv v
  else if n == 0x40D then s.setDev n (v &&& 7#32)
  else if n == 0x40E then s.setDev n (v &&& 0x3F#32)
  else if n == 0x411 then (if v.getLsbD 0 then s.mapSubmit else s)
  else if n == 0x415 then s.writePrecmd v
  else if n == 0x417 then s.setDev n (v &&& 0xFF07#32)
  else if n == 0x418 then s.setRoute s.rtsel { s.route s.rtsel with newOwner := v.toNat % 32 }
  else if n == 0x419 then s.setRoute s.rtsel { s.route s.rtsel with newCounts := SMap.set 0 (s.route s.rtsel).newCounts ((s.dev 0x417).toNat / 2 ^ 8 % 256) (v.toNat % 256) }
  else if n == 0x41A then s.rtapply
  else if n == 0x41D then (if 1 ≤ v.toNat && v.toNat ≤ 720 then s.setDev n v else s)
  else if n == 0x41F then s.setDev n (v &&& 1#32)
  else if n == 0x420 then s.setDev n (v &&& 7#32)
  else if n == 0x428 then s.writeMeasd7 v
  else if 0x421 ≤ n && n < 0x428 then { s with reg := { s.reg with measd := SMap.set 0#32 s.reg.measd (n - 0x421) v } }
  else if n == 0x430 then s.writePkgnum v
  else if n == 0x431 then s.setDev n (v &&& 0x3F#32)
  else if n == 0x432 then s.writeRtbl v
  else if n == 0x434 then s.writeResetcmd v
  else if n == 0x436 then s.writeGatecmd v
  else s

/-- R309: a write of a register of a tenant with no 64-bit number. -/
def State.writeTenant (s : State) (t n : Nat) (v : Word) : State :=
  if n == 0x44 then s.writeFqcons t v
  else if n == 0x45 then s.writeWcmd t v
  else s.modTenant t fun x =>
    if n == 0x42 then ({ x with fqctl := fqctlWrite x.fqctl v } : Tenant).noteOvf
    else if n == 0x47 then { x with redpol := v.toNat % 4 }
    else if n == 0x48 then { x with winsel := v.toNat % 16 }
    else if n == 0x4D then x.setWindow { x.window with valid := v.getLsbD 0 }
    else if n == 0x4E then { x with msiport := v.toNat % 2 }
    else if 0x100 ≤ n && n < 0x200 then
      let q := (n - 0x100) / 4
      x.setQueue q (if n % 4 == 2 then { x.queue q with ctl := v &&& 0x80003F07#32 } else { x.queue q with tail := v })
    else x

/-- R309: a write of a 32-bit register that may be written. -/
def State.write32 (s : State) (a : RegAt) (i : RegInfo) (n : Nat) (v : Word) : State :=
  let w := a.w.getD 0
  match i.held with
  | .wave => s.modWave w fun x => if n == 4 then x.writeWpart v else if n == 5 then x.writeSatf v else x
  | .team => s.modTeam (s.teamKey w) fun t => { t with satctl := v.getLsbD 0 }
  | .coreTenant => s.modCore (coreOf w) fun k => { k with slip := SMap.set 0#32 k.slip a.t v }
  | .tenant => s.writeTenant a.t n v
  | .device => s.writeDev n v

/-- R308: the snapshot of a 64-bit register, by its low number: one in each wave, one on BAR0. -/
def State.snapOf (s : State) (a : RegAt) (low : Nat) : Option DWord :=
  match a.w with
  | some w => SMap.get none (s.wave w).snaps low
  | none => SMap.get none s.reg.bsnap low
/-- Takes it. -/
def State.setSnap (s : State) (a : RegAt) (low : Nat) (v : DWord) : State :=
  match a.w with
  | some w => s.modWave w fun x => { x with snaps := SMap.set none x.snaps low (some v) }
  | none => { s with reg := { s.reg with bsnap := SMap.set none s.reg.bsnap low (some v) } }
/-- R308: the latched low half. -/
def State.latchOf (s : State) (a : RegAt) (low : Nat) : Option Word :=
  match a.w with
  | some w => SMap.get none (s.wave w).latches low
  | none => SMap.get none s.reg.blatch low
/-- Sets or clears it. -/
def State.setLatch (s : State) (a : RegAt) (low : Nat) (v : Option Word) : State :=
  match a.w with
  | some w => s.modWave w fun x => { x with latches := SMap.set none x.latches low v }
  | none => { s with reg := { s.reg with blatch := SMap.set none s.reg.blatch low v } }

/-- R308, R311: a read of a system register: its value, and the snapshot it takes. -/
def State.sysRead (s : State) (a : RegAt) (n : Nat) : Word × State :=
  match regInfo n with
  | none => (0#32, s)
  | some i =>
    if i.acc == .wo then (0#32, s)
    else match pairLow n with
      | some low =>
        let v := s.read64 a low
        if n == low then (v.extractLsb' 0 32, s.setSnap a low v)
        else (((s.snapOf a low).getD v).extractLsb' 32 32, s)
      | none =>
        let s := if n == 8 then s.takeCfr (a.w.getD 0) else s
        (s.read32 a n, s)

/-- R308, R64: a write of a system register; one that only reads is left. -/
def State.sysWrite (s : State) (a : RegAt) (n : Nat) (v : Word) : State :=
  match regInfo n with
  | none => s
  | some i =>
    if i.acc == .ro then s
    else match pairLow n with
      | some low =>
        if n == low then s.setLatch a low (some v)
        else
          let lo := (s.latchOf a low).getD ((s.read64 a low).extractLsb' 0 32)
          (s.setLatch a low none).write64 a low (v ++ lo)
      | none => s.write32 a i n v

/-- R64, R309: a register reserved to tenant 0, reached by another tenant's wave. -/
def regDenied (tenant n : Nat) : Bool := tenant != 0 && ((regInfo n).map fun i => i.zero).getD false

/-- R309: PROT SYSREG. -/
def State.sysregFault (s : State) (c : Cx) : State := s.faultAt c (lowest c.b.lanes) c.b.lanes (prot rSYSREG 0)

/-- R311: MFS. -/
def execMfs (r : Nat) (num : Nat) (s : State) : Outcome :=
  .next (s.run (fun _ => { bad := (regInfo num).isNone }) fun c s =>
    if regDenied c.g.tenant num then s.sysregFault c
    else
      let (v, s) := s.sysRead (s.regAt c.w) num
      (s.modWave c.w fun x => x.setS r v).advance c)

/-- R311: MTS: the bundle moves on and the write takes effect before its next instruction issues. -/
def execMts (r : Nat) (num : Nat) (s : State) : Outcome :=
  .next (s.run (fun _ => { bad := (regInfo num).isNone, reads := [(.s, r)] }) fun c s =>
    if regDenied c.g.tenant num then s.sysregFault c
    else (s.advance c).sysWrite (s.regAt c.w) num (c.x.sreg r))

/-- The uniform registers k to k + n - 1 (R192). -/
def sRange (k n : Nat) : List (RegClass × Nat) := (List.range n).map fun i => (.s, k + i)

/-- R312: RNGSEED. -/
def execRngseed (k : Nat) (s : State) : Outcome :=
  .next (s.run (fun _ => { bad := (Instr.rngseed k).illegal.isSome, reads := sRange k 4 }) fun c s =>
    (s.modWave c.w fun x => { x with rngkey := x.spair k, rngctr := x.spair (k + 2) }).advance c)

/-- R187, R313: refusal code 1. -/
def badEntry (w0 w1 : DWord) : Bool :=
  bits w0 63 55 != 0 || bits w0 15 8 != 0 || bits w0 0 0 != 0 || bits w1 63 55 != 0 || bits w1 7 2 != 0 ||
  (bits w0 7 7 == 1 && (5 ≤ bits w0 6 4 || bits w0 3 2 == 3 || bits w1 54 16 < bits w0 54 16))

/-- R313: the status of a write of entry e. -/
def State.rgnStatus (s : State) (asid e : Nat) (w0 w1 : DWord) : Nat :=
  if badEntry w0 w1 then 1
  else if (bits w0 1 1 == 1 || bits (s.rgnWords none asid e).1 1 1 == 1) && (s.liveTaskGrid asid).isSome then 2
  else 0

/-- R313, R322: the entry is stored and every cached copy takes it. -/
def State.rgnWrite (s : State) (asid e : Nat) (w0 w1 : DWord) : State :=
  let b := s.ctxRgn asid + 16 * e
  let s := (s.writeHome b 8 w0.toNat 0 false).writeHome (b + 8) 8 w1.toNat 0 false
  { s with m := { s.m with rgn := s.m.rgn.map fun r => if r.asid == asid && r.e == e then { r with w0 := w0, w1 := w1 } else r } }

/-- R313, R30: a bundle reads or writes an entry of its context's table once its request has been answered; an entry that it is to look at
and that is poisoned or lost is a fault (R33, DEDUCED, log 41). -/
def State.rgnAct (s : State) (c : Cx) (e : Nat) (write looks : Bool) (f : State → State) : State :=
  let key := askAgent 8 c.w
  let a := s.ctxRgn c.g.asid + 16 * e
  s.actOr key (physAsks key (dieOf (coreOf c.w)) c.g.tenant a 16 write) (fun s => s.stall c (.full [])) fun s =>
    if looks && (s.rgnBad none c.g.asid e || s.lostAny key) then s.faultAt c (lowest c.b.lanes) c.b.lanes { code := cECCU, paddr := a }
    else f (s.yieldLine none (a / 64))

/-- R313: a write of an entry looks at the old one where only its TASK bit can refuse it. -/
def State.rgnLooks (s : State) (asid : Nat) (w0 w1 : DWord) : Bool := !badEntry w0 w1 && bits w0 1 1 == 0 && (s.liveTaskGrid asid).isSome

/-- R313: RGNW. -/
def execRgnw (k : Nat) (e : Nat) (t : Nat) (s : State) : Outcome :=
  .next (s.run (fun _ => { bad := (Instr.rgnw k e t).illegal.isSome, reads := sRange k 4 }) fun c s =>
    let w0 := c.x.spair k
    let w1 := c.x.spair (k + 2)
    s.rgnAct c e (s.rgnStatus c.g.asid e w0 w1 == 0) (s.rgnLooks c.g.asid w0 w1) fun s =>
      let code := s.rgnStatus c.g.asid e w0 w1
      let s := if code == 0 then s.rgnWrite c.g.asid e w0 w1 else s
      (s.modWave c.w fun x => x.setS t (BitVec.ofNat 32 code)).advance c)

/-- R313: RGNR. -/
def execRgnr (k : Nat) (e : Nat) (s : State) : Outcome :=
  .next (s.run (fun _ => { bad := (Instr.rgnr k e).illegal.isSome }) fun c s =>
    s.rgnAct c e false true fun s =>
      let r := s.rgnWords none c.g.asid e
      (s.modWave c.w fun x => (x.setSpair k r.1).setSpair (k + 2) r.2).advance c)

/-- R314: an allowance by kind, 0 mat to 5 acc. -/
def Tenant.allowance (t : Tenant) (kind : Nat) : Allowance := if kind == 0 then t.mat else t.budget kind
/-- Writes it. -/
def Tenant.setAllowance (t : Tenant) (kind : Nat) (a : Allowance) : Tenant := if kind == 0 then { t with mat := a } else t.setBudget kind a

/-- R314: what BGTW stages for the next period. -/
def Allowance.stage (a : Allowance) (kind : Nat) (v ctl : Word) : Allowance :=
  let n := if kind == 0 then v.toNat % 2 ^ 16 else v.toNat
  if ctl.toNat / 2 ^ 8 % 4 == 3 then a
  else { a with newAllow := if n == 0 then a.newAllow else some n, newCtl := some (ctl.toNat / 2 ^ 16 % 2 ^ 8, ctl.toNat / 2 ^ 8 % 4) }

/-- R314: BGTW. -/
def execBgtw (k : Nat) (e : Nat) (s : State) : Outcome :=
  .next (s.run (fun _ => { bad := (Instr.bgtw k e).illegal.isSome, reads := sRange k 2 }) fun c s =>
    if c.g.tenant != 0 then s.sysregFault c
    else
      let ctl := c.x.sreg (k + 1)
      (s.modTenant (ctl.toNat % 32) fun t => t.setAllowance e ((t.allowance e).stage e (c.x.sreg k) ctl)).advance c)

/-- R314: the control word of an allowance. -/
def Allowance.ctl (a : Allowance) (t : Nat) : Nat := a.limit * 2 ^ 16 + a.pol * 2 ^ 8 + t

/-- R314: BGTR. -/
def execBgtr (k : Nat) (e : Nat) (s : State) : Outcome :=
  .next (s.run (fun _ => { bad := (Instr.bgtr k e).illegal.isSome, reads := [(.s, k + 1)] }) fun c s =>
    if c.g.tenant != 0 then s.sysregFault c
    else
      let t := (c.x.sreg (k + 1)).toNat % 32
      let a := (s.tenant t).allowance e
      let left := if e == 0 then s.remain (coreOf c.w) t else a.rem
      (s.modWave c.w fun x => (((x.setS k (BitVec.ofNat 32 a.allow)).setS (k + 1) (BitVec.ofNat 32 (a.ctl t))).setS (k + 2)
        (BitVec.ofNat 32 left)).setS (k + 3) (BitVec.ofNat 32 a.exhausted)).advance c)

/-- R308, R309: SYSREG_WRITE: by a wave's MTS, or by tenant 0 through BAR0. -/
def execSysregWrite (src : RegSrc) (num : Nat) (v : Word) (s : State) : Outcome :=
  .next (
    match src with
    | .wave w => if !(s.wave w).resident || regDenied (s.gridOf w).tenant num then s else s.sysWrite (s.regAt w) num v
    | .bar0 t =>
      match regInfo num with
      | some i => if t < 32 && (i.held == .tenant || i.held == .device) then s.sysWrite { t := t } num v else s
      | none => s)

/-- R299: CFRTL_READ. -/
def execCfrtlRead (wave : Nat) (s : State) : Outcome := .next (if (s.wave wave).resident then s.takeCfr wave else s)
/-- R166: TRAPPC_WRITE. -/
def execTrappcWrite (wave : Nat) (v : DWord) (s : State) : Outcome := .next (s.modWave wave fun x => x.writeTrappc v)
/-- R309, R177: WPART_WRITE. -/
def execWpartWrite (wave : Nat) (v : Word) (s : State) : Outcome := .next (if (s.wave wave).resident then s.modWave wave fun x => x.writeWpart v else s)
/-- R108: SATF_WRITE. -/
def execSatfWrite (wave : Nat) (v : Word) (s : State) : Outcome := .next (if (s.wave wave).resident then s.modWave wave fun x => x.writeSatf v else s)
/-- R51: MEASD7_WRITE. -/
def execMeasd7Write (v : Word) (s : State) : Outcome := .next (s.writeMeasd7 v)
/-- R317: FQCONS_WRITE. -/
def execFqconsWrite (tenant : Nat) (v : Word) (s : State) : Outcome := .next (s.writeFqcons tenant v)
/-- R239: CHKKEY_WRITE. -/
def execChkkeyWrite (v : DWord) (s : State) : Outcome := .next (s.writeChkkey v)
/-- R245, R246: FIRCTL_WRITE. -/
def execFirctlWrite (v : Word) (s : State) : Outcome := .next (s.writeFirctl v)

/-- R309: the register a BAR0 offset reaches, with its tenant. -/
def barReg (off : Nat) : Option (Nat × Nat) :=
  let n := off % 0x40000 / 8
  if off % 8 != 0 then none
  else if 0x800000 ≤ off then
    let n := (off - 0x800000) / 8
    match regInfo n with | some ⟨_, .device, _⟩ => some (0, n) | _ => none
  else match regInfo n with | some ⟨_, .tenant, _⟩ => some (off / 0x40000, n) | _ => none

/-- R309: a BAR0 read; what it returns is kept. -/
def State.barRead (s : State) (off : Nat) : State :=
  match barReg off with
  | none => s
  | some (t, n) =>
    if s.pk.boot != .up then s
    else
      let (v, s) := s.sysRead { t := t } n
      { s with reg := { s.reg with barData := v } }

/-- R309: a BAR0 write. -/
def State.barWrite (s : State) (off : Nat) (v : Word) : State :=
  match barReg off with
  | none => s
  | some (t, n) => if s.pk.boot != .up then s else s.sysWrite { t := t } n v

end Sys2Proof.Machine
end

