-- ==== Sys2Proof/Machine/Tasks.lean ====
section
/-! DEFINITION. Timestamped tasks (R285-R307): the task words, the shuttle, publications of the commit
arbiter and finish scopes. -/

namespace Sys2Proof.Machine

open Sys2Proof

/-- A finish scope of a grid. -/
def Grid.scope (g : Grid) (k : Nat) : FScope := SMap.get {} g.scopes k

/-- The task of a lane of a wave. -/
def State.laneTask (s : State) (w l : Nat) : Task :=
  match ((s.wave w).lane l).task with
  | some id => (s.gridOf w).task id
  | none => {}

/-- What one lane's SPAWN meets, in the order of R305: an in-wave trap, a fault, or nothing. -/
inductive SpawnChk where
  | ok
  | order
  | bad (f : FaultInfo)
  deriving DecidableEq, Repr, Inhabited

/-- R305: the checks of one lane. -/
def State.spawnChk (s : State) (c : Cx) (a : Ext) (b l : Nat) : SpawnChk :=
  let w := (c.x.vreg b l).toNat
  if s.extVal64 c.w c.b a l < (s.laneTask c.w l).ts then .order
  else if w / 2 ^ 12 != 0 || c.g.entries.length ≤ w / 2 ^ 8 % 16 then .bad (prot rSPAWN 0)
  else if !(SMap.get {} c.g.scopes (w % 256)).opened then .bad (prot rFSCOPE 0)
  else .ok

/-- R305: what a SPAWN of one lane carries: the timestamp, the entry and scope word, the argument record. -/
def State.spawnPart (s : State) (c : Cx) (d : Nat) (a : Ext) (b l : Nat) : Part :=
  { wave := c.w, lane := l, lanes := 1#32 <<< l, dom := .core, data := (s.extVal64 c.w c.b a l).toNat, data2 := (c.x.vreg b l).toNat,
    val := some (c.x.regsVal d 8 l) }

/-- R305: SPAWN is issued in some lanes, and the bundle moves on. -/
def State.spawnIssue (s : State) (d : Nat) (a : Ext) (b : Nat) (ls : List Nat) (c : Cx) : State :=
  ((s.issueOp [] { wave := c.w, core := coreOf c.w, pc := c.pc, kind := .spawn, flags := c.flags false,
                   parts := ls.map (s.spawnPart c d a b) }).2).advance c

/-- R305, R300: SPAWN of the active lanes, in task order. -/
def State.spawn (s : State) (c : Cx) (d : Nat) (a : Ext) (b : Nat) : State :=
  let ls := c.laneOrder (lanesOf c.act)
  if ls.isEmpty then s.advance c
  else if !c.x.taskWave then s.faultAt c (lowest c.act) c.act (prot rTASK 0)
  else if s.full c (c.flags false) then s.stall c (.full (c.flags false))
  else
    match (lanesOf c.act).filterMap fun l => match s.spawnChk c a b l with | .bad f => some (l, f) | _ => none with
    | [] => s.spawnIssue d a b ls c
    | bad => s.faultLanes c bad fun c s => s.spawnIssue d a b (c.laneOrder (lanesOf c.act)) c

/-- R305: the active lanes of a task wave whose child's timestamp is below their task's. -/
def State.spawnEarly (s : State) (c : Cx) (a : Ext) (b : Nat) : Mask :=
  if c.x.taskWave then maskOf ((lanesOf c.act).filter fun l => s.spawnChk c a b l == .order) else 0#32

/-- R305: SPAWN. -/
def execSpawn (d : Nat) (a : Ext) (b : Nat) (s : State) : Outcome :=
  .next (s.run (fun c => { bad := (Instr.spawn d a b).illegal.isSome, flag := some c.b.cl.second, top := Nat.max (Nat.max (d + 8) (b + 1)) (extTop a true),
                           reads := c.inLanes (vRange d 8 ++ [(.v, b)] ++ Ext.regs a true), perLane := true }) (fun c s => s.spawn c d a b)
    (own := fun s c => if s.spawnEarly c a b == 0#32 then none else some (causeTSORDER, s.spawnEarly c a b)))

/-- R306: TSGET. -/
def execTsget (d : Nat) (s : State) : Outcome :=
  .next (s.run (fun _ => { bad := (Instr.tsget d).illegal.isSome, top := d + 4 }) fun c s =>
    (s.modWave c.w fun x => x.forLanes c.act fun y l =>
      let t := s.laneTask c.w l
      let id := ((c.x.lane l).task).getD 0
      if c.x.taskWave then (y.setVpair d l t.ts).setVpair (d + 2) l (BitVec.ofNat 64 id)
      else (y.setVpair d l 0#64).setVpair (d + 2) l (BitVec.ofNat 64 (2 ^ 64 - 1))).advance c)

/-- R305, R287, R301: SPAWN_PERFORM: the child of one lane takes its identity and is queued.  Where the lane's task
has left its lane meanwhile, the child is gone with it (R295) (DEDUCED, log 39). -/
def execSpawnPerform (op part : Nat) (s : State) : Outcome :=
  .next (
    let o := s.op op
    let p := o.parts.getD part {}
    if o.kind != .spawn || o.parts.length ≤ part || p.plt.isSome || !(o.parts.take part).all (fun q => q.plt.isSome) || s.rebasing then s
    else
      let s := match ((s.wave o.wave).lane p.lane).task with
        | none => s
        | some parent =>
          let w := p.data2
          s.modGrid o.grid fun g =>
            let f := g.scope (w % 256)
            let t : Task :=
              { ts := BitVec.ofNat 64 p.data, entry := w / 2 ^ 8 % 16, scope := w % 256, parent := some parent, st := .queued, core := o.core
                arg := (List.range 8).map fun k => BitVec.ofNat 32 (p.val.getD 0 / 2 ^ (32 * k)) }
            let g := g.setTask g.nextId t
            { g with nextId := g.nextId + 1, scopes := SMap.set {} g.scopes (w % 256) { f with live := f.live + 1 } }
      s.endSilent op part)

/-- R302: a finish-scope word of a wave outside the control team. -/
def Cx.fsFault (c : Cx) : Option FaultInfo :=
  if c.x.taskWave then some (prot rTASK 0) else if !c.g.isTask then some (prot rFSCOPE 0) else none

/-- R307: a finish-scope word: the fault of R302, else its own. -/
def State.fsWord (s : State) (c : Cx) (bad : Bool) (body : State → State) : State :=
  match c.fsFault with
  | some f => s.faultAt c (lowest c.b.lanes) c.b.lanes f
  | none => if bad then s.faultAt c (lowest c.b.lanes) c.b.lanes (prot rFSCOPE 0) else body s

/-- R307: FSOPEN. -/
def execFsopen (a b : Nat) (s : State) : Outcome :=
  .next (s.run (fun _ => { bad := (Instr.fsopen a b).illegal.isSome, reads := [(.s, a), (.s, b)] }) fun c s =>
    let k := (c.x.sreg a).toNat % 256
    let p := (c.x.sreg b).toNat % 256
    s.fsWord c ((c.g.scope k).opened || !(c.g.scope p).opened || k == p) fun s =>
      (s.modGrid c.x.grid fun g => { g with scopes := SMap.set {} g.scopes k { opened := true, parent := some p } }).advance c)

/-- R307: FSCLOSE. -/
def execFsclose (a : Nat) (s : State) : Outcome :=
  .next (s.run (fun _ => { bad := (Instr.fsclose a).illegal.isSome, reads := [(.s, a)] }) fun c s =>
    let k := (c.x.sreg a).toNat % 256
    s.fsWord c (k == 0 || !(c.g.scope k).opened || !c.g.scopeEmpty 257 k || c.g.scopes.any fun e => e.2.opened && e.2.parent == some k) fun s =>
      (s.modGrid c.x.grid fun g => { g with scopes := SMap.set {} g.scopes k {} }).advance c)

/-- R307: FSWAIT; its release is an acquire at PACKAGE scope. -/
def execFswait (a : Nat) (s : State) : Outcome :=
  .next (s.run (fun _ => { bad := (Instr.fswait a).illegal.isSome, reads := [(.s, a)] }) fun c s =>
    let k := (c.x.sreg a).toNat % 256
    s.fsWord c (!(c.g.scope k).opened) fun s =>
      if c.g.scopeEmpty 257 k && s.acquireReady c.w c.b.lanes .package && !s.windowFull (coreOf c.w) then
        (s.noteEvent [c.w] c.b.lanes .aq .package .fswait .lane c.pc).advance c
      else s.waitAt c (.fswait k))

/-- R288, R289: the queued tasks of a core, in task order. -/
def Grid.queued (g : Grid) (core : Nat) : List Nat :=
  (g.tasks.filter fun e => e.2.st == .queued && e.2.core == core).foldl (fun (out : List Nat) e =>
    (out.takeWhile fun k => g.earlier k e.1) ++ [e.1] ++ out.dropWhile fun k => g.earlier k e.1) []

/-- R289: the tasks of the next wave: the earliest, and up to 31 more of its entry. -/
def Grid.nextTasks (g : Grid) (core : Nat) : List Nat :=
  match g.queued core with
  | [] => []
  | k :: rest => k :: (rest.filter fun t => (g.task t).entry == (g.task k).entry).take 31

/-- R285: the task waves of a grid on a core. -/
def State.taskWaves (s : State) (g core : Nat) : Nat :=
  (s.x.waves.filter fun e => e.2.resident && e.2.taskWave && e.2.grid == g && coreOf e.1 == core).length

/-- R289, R55: may the shuttle form a wave on a core, in a partition? -/
def State.shuttleRoom (s : State) (g core part : Nat) : Bool :=
  let gr := s.grid g
  gr.live && gr.isTask && gr.tcores.contains core && !gr.paused.contains core && core < 256 && part < 4 && !(s.core core).out && s.taskWaves g core < gr.tslots &&
  s.fitsWave core part 0 gr.tvcount 0 && s.fitsScratch core gr.carve 0

/-- R289: one lane of a task wave. -/
def Wave.giveTask (x : Wave) (l : Nat) (pc : DWord) (id : Nat) (t : Task) : Wave :=
  let x := x.setLane l { pc := pc, st := .running, task := some id }
  (List.range 8).foldl (fun (x : Wave) k => x.setV k l (t.arg.getD k 0#32)) x

/-- R289: the shuttle forms a wave of tasks in a free slot of a partition (DEDUCED, log 39). -/
def State.dispatch (s : State) (g core part : Nat) (ids : List Nat) (nonspec : Bool) : State :=
  match s.freeWave core part, ids with
  | some w, k :: _ =>
    let s := s.readyCore core (s.grid g).carve
    let gr := s.grid g
    let x : Wave := { ({ gr with redun := 0 } : Grid).newWave g 0 0 .general gr.tvcount 0 with lanes := [], taskWave := true, started := true }
    let pc := gr.entries.getD (gr.task k).entry 0#64
    let x := (ids.zip (List.range ids.length)).foldl (fun (x : Wave) e => x.giveTask e.2 pc e.1 (gr.task e.1)) x
    let s := (s.setWave w x).setTeam (taskTeam w) { resident := true, started := true, grid := g, num := 2 ^ 16, waves := [w] }
    s.modGrid g fun gr => (ids.zip (List.range ids.length)).foldl (fun (gr : Grid) e =>
      gr.setTask e.1 { gr.task e.1 with st := .running, wave := some w, ran := w, lane := e.2, nonspec := nonspec }) gr
  | _, _ => s

/-- R289: SHUTTLE_DISPATCH. -/
def execShuttleDispatch (grid core part : Nat) (s : State) : Outcome :=
  .next (if s.shuttleRoom grid core part then s.dispatch grid core part ((s.grid grid).nextTasks core) false else s)

/-- R290: has every version write and SPAWN of a lane performed? -/
def State.laneQuiet (s : State) (w l : Nat) : Bool :=
  s.o.ops.all fun e => e.2.wave != w || e.2.parts.all fun p =>
    p.lane != l || p.plt.isSome || !(e.2.kind == .spawn || (p.task && (e.2.cls == .pw || e.2.cls == .rl)))

/-- R290: TASK_FINISH. -/
def execTaskFinish (grid id : Nat) (s : State) : Outcome :=
  .next (
    let t := (s.grid grid).task id
    match t.wave with
    | none => s
    | some w =>
      if t.st != .running || ((s.wave w).lane t.lane).task != some id || !((s.wave w).lane t.lane).st.isExited || !s.laneQuiet w t.lane then s
      else
        let s := s.modWave w fun x => x.setLane t.lane { x.lane t.lane with task := none }
        s.modGrid grid fun g => g.setTask id { t with st := .finished, wave := none })

/-- R298: the bytes of a version become the committed value, whole 8-byte granules at once (R33). -/
def State.commitLine (s : State) (line : Nat) (v : Version) : State :=
  (List.range 8).foldl (fun (s : State) k =>
    if v.mask.extractLsb' (8 * k) 8 == 0xFF#8 then s.writeHome (64 * line + 8 * k) 8 (bytesAt v.data (8 * k) 8) 0 false
    else (List.range 8).foldl (fun (s : State) i =>
      if v.mask.getLsbD (8 * k + i) then s.writeHome (64 * line + 8 * k + i) 1 (byteOf v.data (8 * k + i)).toNat 0 false else s) s) s

/-- R298, R301: a task commits. -/
def State.commitTask (s : State) (g id : Nat) : State :=
  let t := (s.grid g).task id
  let s := t.versions.foldl (fun (s : State) (e : Nat × Version) => s.commitLine e.1 e.2) s
  s.modGrid g fun x => (x.setTask id { t with st := .committed, versions := [], reads := [] }).lessLive t.scope

/-- R223, R232, R226, R40: may a finished task commit now?  The commit is a release after every event of its lane; a version's bytes
wait for a provisional release, and a line the host holds for its answer. -/
def State.commitReady (s : State) (g id : Nat) : Bool :=
  let t := (s.grid g).task id
  t.st == .finished &&
  s.reg.warm.isNone &&
  s.o.ops.all (fun e => e.2.wave != t.ran || e.2.grid != g || !e.2.tids.contains (t.lane, id) || e.2.parts.all fun p => p.lane != t.lane || p.plt.isSome) &&
  t.versions.all fun e => !s.m.hostLines.contains e.1 && !s.provLine e.1

/-- R298 step 2: commits while the frontier is FINISHED, at most `n` times; each is an event of the arbiter (R229). -/
def State.commitFront (s : State) (g : Nat) : Nat → State
  | 0 => s
  | n + 1 =>
    match (s.grid g).front with
    | none => s
    | some id =>
      if s.commitReady g id then
        let s := { s with pk := { s.pk with arbLt := s.pk.arbLt + 1 } }
        (s.commitTask g id).commitFront g n
      else s

/-- R298: one grid's publication. -/
def State.publish (s : State) (g : Nat) : State :=
  let doomed := ((s.grid g).tasks.filter fun e => e.2.doomed && e.2.st.live).map fun e => e.1
  let s := doomed.foldl (fun (s : State) id => if ((s.grid g).task id).doomed then s.abortTask g id else s) s
  let s := s.commitFront g ((s.grid g).tasks.length + 1)
  s.modGrid g fun x => { x with frontier := x.front.map fun id => ((x.task id).ts.toNat, id) }

/-- R298: COMMIT_PUBLICATION, once at every cycle whose count is a multiple of 64; none while clocks are rebased. -/
def execCommitPublication (s : State) : Outcome :=
  .next (
    if s.sch.cycle % 64 != 0 || s.pk.pub == s.sch.cycle + 1 || s.rebasing then s
    else
      let s := { s with pk := { s.pk with pub := s.sch.cycle + 1 } }
      (s.x.grids.filter fun e => e.2.live && e.2.isTask).foldl (fun (s : State) (e : Nat × Grid) => s.publish e.1) s)

/-- R300: TASK_NONSPEC_REDISPATCH: the STOPPED frontier loses its versions and descendants and runs again, alone. -/
def execTaskNonspecRedispatch (grid part : Nat) (s : State) : Outcome :=
  .next (
    match (s.grid grid).front with
    | none => s
    | some id =>
      let t := (s.grid grid).task id
      if t.st == .stopped && s.shuttleRoom grid t.core part then (s.abortTask grid id).dispatch grid t.core part [id] true else s)

end Sys2Proof.Machine
end

