-- ==== Sys2Proof/Machine/Events.lean ====
section
/-! DEFINITION. The device events an agenda holds, each run by the meaning of its row. -/

namespace Sys2Proof.Machine

open Sys2Proof

/-- Runs a device event. -/
def runEvent (e : DevEv) (s : State) : Outcome :=
  match e with
  | .sysregWrite src num v => Sys2Proof.Machine.execSysregWrite src num v s
  | .cfrtlRead wave => Sys2Proof.Machine.execCfrtlRead wave s
  | .trappcWrite wave v => Sys2Proof.Machine.execTrappcWrite wave v s
  | .wpartWrite wave v => Sys2Proof.Machine.execWpartWrite wave v s
  | .satfWrite wave v => Sys2Proof.Machine.execSatfWrite wave v s
  | .measd7Write v => Sys2Proof.Machine.execMeasd7Write v s
  | .fqconsWrite tenant v => Sys2Proof.Machine.execFqconsWrite tenant v s
  | .chkkeyWrite v => Sys2Proof.Machine.execChkkeyWrite v s
  | .firctlWrite v => Sys2Proof.Machine.execFirctlWrite v s
  | .pkgnumWrite v => Sys2Proof.Machine.execPkgnumWrite v s
  | .ltreset => Sys2Proof.Machine.execLtreset s
  | .tlbinvPage asid => Sys2Proof.Machine.execTlbinvPage asid s
  | .tlbinvAsid asid => Sys2Proof.Machine.execTlbinvAsid asid s
  | .tlbinvAll => Sys2Proof.Machine.execTlbinvAll s
  | .tlbInvalidateDone => Sys2Proof.Machine.execTlbInvalidateDone s
  | .mapcmdSubmit => Sys2Proof.Machine.execMapcmdSubmit s
  | .mapInstall => Sys2Proof.Machine.execMapInstall s
  | .precmdSave core tslot => Sys2Proof.Machine.execPrecmdSave core tslot s
  | .saveAreaWrite => Sys2Proof.Machine.execSaveAreaWrite s
  | .precmdRestore core => Sys2Proof.Machine.execPrecmdRestore core s
  | .rtapply => Sys2Proof.Machine.execRtapply s
  | .wcmdResume tenant wid => Sys2Proof.Machine.execWcmdResume tenant wid s
  | .wcmdKill tenant wid => Sys2Proof.Machine.execWcmdKill tenant wid s
  | .resetcmdWarm => Sys2Proof.Machine.execResetcmdWarm s
  | .resetcmdCore core => Sys2Proof.Machine.execResetcmdCore core s
  | .gatecmdGate core => Sys2Proof.Machine.execGatecmdGate core s
  | .gatecmdWake core => Sys2Proof.Machine.execGatecmdWake core s
  | .coldReset => Sys2Proof.Machine.execColdReset s
  | .cxlHotReset => Sys2Proof.Machine.execCxlHotReset s
  | .snoopTimeout => Sys2Proof.Machine.execSnoopTimeout s
  | .bootSequence => Sys2Proof.Machine.execBootSequence s
  | .powerMeasurement watts => Sys2Proof.Machine.execPowerMeasurement watts s
  | .budgetPeriodStart => Sys2Proof.Machine.execBudgetPeriodStart s
  | .hbmRequest req => Sys2Proof.Machine.execHbmRequest req s
  | .batchForm ctrl => Sys2Proof.Machine.execBatchForm ctrl s
  | .scrubRead line found => Sys2Proof.Machine.execScrubRead line found s
  | .scrubConditionalWrite idx => Sys2Proof.Machine.execScrubConditionalWrite idx s
  | .llcWayDisable slice set way line => Sys2Proof.Machine.execLlcWayDisable slice set way line s
  | .sliceRetire die slice => Sys2Proof.Machine.execSliceRetire die slice s
  | .linkFlitRetry link => Sys2Proof.Machine.execLinkFlitRetry link s
  | .linkDown link => Sys2Proof.Machine.execLinkDown link s
  | .routeloop who part link => Sys2Proof.Machine.execRouteloop who part link s
  | .hostSnoop line inv => Sys2Proof.Machine.execHostSnoop line inv s
  | .hostDeviceAccess acc => Sys2Proof.Machine.execHostDeviceAccess acc s
  | .msiDeliverPending port => Sys2Proof.Machine.execMsiDeliverPending port s
  | .quoteRequest nonce => Sys2Proof.Machine.execQuoteRequest nonce s
  | .launchAccept => Sys2Proof.Machine.execLaunchAccept s
  | .teamPlace grid core part => Sys2Proof.Machine.execTeamPlace grid core part s
  | .hamperStage grid team => Sys2Proof.Machine.execHamperStage grid team s
  | .launchComplete grid => Sys2Proof.Machine.execLaunchComplete grid s
  | .shuttleDispatch grid core part => Sys2Proof.Machine.execShuttleDispatch grid core part s
  | .taskFinish grid id => Sys2Proof.Machine.execTaskFinish grid id s
  | .commitPublication => Sys2Proof.Machine.execCommitPublication s
  | .taskNonspecRedispatch grid part => Sys2Proof.Machine.execTaskNonspecRedispatch grid part s
  | .waitCycleResolution team => Sys2Proof.Machine.execWaitCycleResolution team s
  | .loadDataArrive op part word => Sys2Proof.Machine.execLoadDataArrive op part word s
  | .memoryEventPerform op part => Sys2Proof.Machine.execMemoryEventPerform op part s
  | .releaseProvisionalPerform op part => Sys2Proof.Machine.execReleaseProvisionalPerform op part s
  | .releaseComplete op part => Sys2Proof.Machine.execReleaseComplete op part s
  | .intervalRecord idx => Sys2Proof.Machine.execIntervalRecord idx s
  | .ltRebase => Sys2Proof.Machine.execLtRebase s
  | .arriveCount op => Sys2Proof.Machine.execArriveCount op s
  | .phaseComplete route => Sys2Proof.Machine.execPhaseComplete route s
  | .copyTakeSlot copy => Sys2Proof.Machine.execCopyTakeSlot copy s
  | .copyTransferFault copy => Sys2Proof.Machine.execCopyTransferFault copy s
  | .copyComplete copy => Sys2Proof.Machine.execCopyComplete copy s
  | .markPerform op => Sys2Proof.Machine.execMarkPerform op s
  | .handleAcquire wave lane => Sys2Proof.Machine.execHandleAcquire wave lane s
  | .accumulateApply op part elem => Sys2Proof.Machine.execAccumulateApply op part elem s
  | .detContributionApply op part elem => Sys2Proof.Machine.execDetContributionApply op part elem s
  | .pageWalk walk => Sys2Proof.Machine.execPageWalk walk s
  | .icacheMissFill miss => Sys2Proof.Machine.execIcacheMissFill miss s
  | .firDelayedStore => Sys2Proof.Machine.execFirDelayedStore s
  | .faultRecordPost tenant => Sys2Proof.Machine.execFaultRecordPost tenant s
  | .spawnPerform op part => Sys2Proof.Machine.execSpawnPerform op part s
  | .accumulatorSlotWritten op part => Sys2Proof.Machine.execAccumulatorSlotWritten op part s
  | .backInvalidateResponse line => Sys2Proof.Machine.execBackInvalidateResponse line s

end Sys2Proof.Machine
end

