-- ==== Sys2Proof/Machine/Shadow.lean ====
section
/-! DEFINITION. Redundant execution (R337, R338): what a step does in the shadows that have come apart from their leaders, and how
what they issue is held beside what their leaders issue (DEDUCED, log 42). -/

namespace Sys2Proof.Machine

open Sys2Proof

/-- R337: a wave as its shadow stands: at the same instructions, with registers of its own and guards found with them. -/
def Wave.asShadow (x : Wave) : Wave :=
  match x.shadow with
  | none => x
  | some r => { x with
      v := r.v, s := r.s, p := r.p, acc := r.acc, shadow := none
      bundles := x.bundles.map fun b => { b with cl := { b.cl with act := b.cl.sact } }
      saved := x.saved.map fun c => { c with act := c.sact } }

/-- The state with every shadow that has come apart in its leader's place. -/
def State.asShadows (s : State) : State := { s with x := { s.x with waves := s.x.waves.map fun (e : Nat × Wave) => (e.1, e.2.asShadow) } }

/-- R337: no shadow has come apart from its leader. -/
def State.together (s : State) : Bool := s.x.waves.all fun e => e.2.shadow.isNone

/-- The guards a shadow has found, beside its leader's. -/
def Wave.markGuards (t u : Wave) : Wave := { t with
  bundles := t.bundles.map fun b => { b with cl := { b.cl with sact := ((u.bundle? b.lanes).map fun k => k.cl.act).getD b.cl.act } }
  saved := t.saved.map fun c => { c with sact := (u.saved.map fun k => k.act).getD c.act } }

/-- A shadow found the guards that its leader found. -/
def Wave.sameGuards (x : Wave) : Bool := (x.bundles.all fun b => b.cl.sact == b.cl.act) && x.saved.all fun c => c.sact == c.act

/-- R337, R338: what a wave's shadow holds after a step in which the leader came from `was` to `t` and the shadow to `u`: its own registers,
but for the uniform ones under SPLITWAVE, which are the wave's; equal ones are no longer apart. -/
def Wave.reconcile (t was u : Wave) : Wave :=
  if t.shadow.isNone || t.shadow != was.shadow then t
  else
    let r := if t.redun == 2 then { u.regs with s := t.s } else u.regs
    let y := t.markGuards u
    if r == t.regs && y.sameGuards then { t with shadow := none } else { y with shadow := some r }

/-- R337: what is compared of a part: its lane, address and data; of a JTAB's, the table its target counts from. -/
def Part.compares (k : OpKind) (p : Part) : Nat × DWord × Nat × Nat × Nat :=
  if k == .jtab then (p.lane, 0#64, 0, p.data, 0) else (p.lane, p.va, p.pa, p.data, p.data2)

/-- R337: the shadow issues another operation than its leader, or none. -/
def Op.unlike (a : Op) (b : Option Op) : Bool :=
  match b with
  | none => true
  | some b => a.kind != b.kind || a.parts.map (Part.compares a.kind) != b.parts.map (Part.compares b.kind)

/-- R337: the shadow issues another copy than its leader, or none. -/
def Copy.unlike (a : Copy) (b : Option Copy) : Bool :=
  match b with
  | none => true
  | some b => (a.h, a.dir, a.base, a.ctl, a.rteam, a.fill) != (b.h, b.dir, b.base, b.ctl, b.rteam, b.fill) ||
      (a.dims, a.boxes, a.strides, a.coords) != (b.dims, b.boxes, b.strides, b.coords)

/-- R337: the state after a step from `s` in which the leaders came to `t` and the shadows to `u`. -/
def State.reconcile (t s u : State) : State :=
  let newOp := fun (e : Nat × Op) => !(s.o.ops.any fun k => k.1 == e.1)
  let newCopy := fun (e : Nat × Copy) => !(s.o.copies.any fun k => k.1 == e.1)
  { t with
    x := { t.x with waves := t.x.waves.map fun (e : Nat × Wave) => (e.1, e.2.reconcile (s.wave e.1) (u.wave e.1)) }
    o := { t.o with
      ops := t.o.ops.map fun (e : Nat × Op) => if newOp e then
        (e.1, { e.2 with odd := e.2.odd || e.2.unlike ((u.o.ops.find? fun k => newOp k && k.2.pos == e.2.pos).map fun k => k.2) }) else e
      copies := t.o.copies.map fun (e : Nat × Copy) => if newCopy e then
        (e.1, { e.2 with odd := e.2.odd || e.2.unlike ((u.o.copies.find? fun k => newCopy k && k.2.members == e.2.members).map fun k => k.2) }) else e } }

/-- R337: what happens by `f`, in the leaders and in the shadows that have come apart from them. -/
def State.paired (s : State) (f : State → Outcome) : Outcome :=
  if s.together then f s
  else match f s, f s.asShadows with
    | .next t, .next u => .next (t.reconcile s u)
    | r, _ => r

/-- R337, R339: a clause-ending transfer of a bundle: where the shadow's lanes would go elsewhere, no lane moves. -/
def State.compareTargets (s : State) (w : Nat) (m : Mask) (pc : DWord) (f : State → Outcome) : Outcome :=
  if (s.wave w).shadow.isNone then f s
  else match f s, f s.asShadows with
    | .next t, .next u =>
      if (lanesOf m).all fun l => ((t.wave w).lane l).pc == ((u.wave w).lane l).pc then .next t else .next (s.containShadow [w] none 0 0 pc)
    | r, _ => r

end Sys2Proof.Machine
end

