-- ==== Sys2Proof/Machine/Agenda.lean ====
section
/-! DEFINITION. The moves of the agents that act beside the waves: the clock, the partitions, caches,
walkers, ports and the host.  A move the spec does not allow at the moment changes nothing. -/

namespace Sys2Proof.Machine

open Sys2Proof

/-- R225: an unperformed part for which a core's L1 may take a line: its operation and index. -/
def State.wantsL1 (s : State) (core line : Nat) : Option (Nat × Nat) :=
  s.o.ops.findSome? fun e =>
    if e.2.core != core then none
    else ((List.range e.2.parts.length).find? fun i =>
      let p := e.2.parts.getD i {}
      p.plt.isNone && !p.clm && p.size != 0 && p.cache == 0 && p.pa / 64 == line).map fun i => (e.1, i)

/-- R225, R335: a core's L1 takes a line that an access of the core wants: the access enters its links. -/
def State.moveL1Fill (s : State) (core line : Nat) (excl : Bool) : State :=
  match s.wantsL1 core line with
  | none => s
  | some k =>
    let as := (s.asksOf k.1 k.2).map fun a => { a with bytes := 64, write := excl }
    -- R226: a provisional release holds the line's ownership back
    if core < 256 && as.all s.askReady && !(excl && s.provLine line) then
      let s := (s.asksGo as).gainL1 core line excl
      s.setL1 core line { s.l1Line core line with tenant := (s.grid (s.op k.1).grid).tenant }
    else s

/-- R334: a line comes into a die's instruction cache from an LLC slice of the die. -/
def State.moveIcFill (s : State) (die line : Nat) : State :=
  if 4 ≤ die || (s.icLine die line).valid || !(s.llcLine line).valid || s.homeDie line != die then s
  else s.setIc die line { valid := true, data := (s.llcLine line).data, poison := (s.llcLine line).poison }

/-- R25, R190: a line comes into its home slice, for an access whose region lets it, once its controller has served it. -/
def State.moveLlcFill (s : State) (line : Nat) : State :=
  match s.o.ops.findSome? fun e => (List.range e.2.parts.length).findSome? fun i =>
      if (e.2.parts.getD i {}).plt.isSome then none else (s.asksOf e.1 i).find? fun a => a.line == line && a.cache != 2 with
  | some a => if s.askReady a then s.askGo a else s
  | none => s

/-- R45, R335: the request by which an L1 writes a line back. -/
def State.backAsk (s : State) (core line : Nat) : List Ask :=
  let l := s.l1Line core line
  if l.valid && l.dirty then
    [{ key := askAgent 9 (256 * line + core), die := dieOf core, tenant := l.tenant, line := line, pa := 64 * line, bytes := 64, cache := 1, write := true, sort := .back }]
  else []

/-- R225, R45, R335: an L1 gives a line up; what it has to write back waits for its links and takes its turn there. -/
def State.moveL1Evict (s : State) (core line : Nat) : State :=
  if 256 ≤ core then s else s.act (askAgent 9 (256 * line + core)) (s.backAsk core line) fun t => t.giveL1 core line

/-- R30: the LLC gives a line up; what it has to write to the line's home is a request to the controller. -/
def State.moveLlcEvict (s : State) (line : Nat) : State :=
  let dirty := (s.llcLine line).valid && (s.llcLine line).dirty
  s.act (askAgent 10 line) (if dirty then s.backAsks (askAgent 10 line) [line] else []) fun t => (t.cleanLlc line).dropLlc line

/-- R210, R212, R213: a wave that has started runs ahead to a word, by translations and lines that are held. -/
def State.moveRunAhead (s : State) (w : Nat) (pc : DWord) : State :=
  if !(s.wave w).resident || !(s.wave w).started || pc.toNat % 4 != 0 then s
  else match s.check (s.agentOf w) .fetch pc 0 with
    | .ok a =>
      let l := s.icLine (dieOf (coreOf w)) (a.pa / 64)
      if l.valid && !l.poison.getLsbD (a.pa % 64 / 4) then
        s.modWave w fun x => x.setFetched pc (some (BitVec.ofNat 32 (bytesAt l.data (a.pa % 64) 4)))
      else s
    | _ => s

/-- R313: a core keeps a copy of a region entry. -/
def State.moveRgnFill (s : State) (core asid e : Nat) : State :=
  if 64 ≤ e || (s.m.rgn.any fun r => r.core == core && r.asid == asid && r.e == e) then s
  else
    let r := s.rgnWords none asid e
    { s with m := { s.m with rgn := s.m.rgn ++ [{ core := core, asid := asid, e := e, w0 := r.1, w1 := r.2 }] } }

/-- R32, R192: the parity of a granule of a register is lost. -/
def State.moveParity (s : State) (w : Nat) (c : RegClass) (n : Nat) : State :=
  if (s.wave w).resident && !(s.wave w).parity.contains (c, n) then s.modWave w fun x => { x with parity := x.parity ++ [(c, n)] } else s

/-- A word of a register written: of a v-register's lane, of an accumulator's element, of s or of p. -/
def Regs.put (r : Regs) (c : RegClass) (n : Nat) (v : Word) : Regs :=
  match c with
  | .v => { r with v := SMap.set 0#32 r.v n v }
  | .s => { r with s := SMap.set 0#32 r.s n v }
  | .p => { r with p := SMap.set 0#32 r.p n v }
  | .acc => { r with acc := SMap.set 0#32 r.acc n v }

/-- R337, R338: a granule of the shadow of a wave that runs redundantly takes another value than the wave's (DESIGN CHOICE, log 64);
under SPLITWAVE the uniform registers are the wave's alone. -/
def State.moveMismatch (s : State) (w : Nat) (c : RegClass) (n : Nat) (v : Word) : State :=
  let x := s.wave w
  if x.resident && x.redun != 0 && !(x.redun == 2 && c == .s) then
    s.setWave w { (if x.shadow.isNone then x.markGuards x else x) with shadow := some ((x.shadow.getD x.regs).put c n v) }
  else s

/-- R345: the runtime programs a vector of a port's MSI-X table. -/
def State.moveMsix (s : State) (port vec addr : Nat) (data : Word) : State :=
  if 2 ≤ port || 1056 ≤ vec then s else s.setPort port { s.port port with table := SMap.set (0, 0#32) (s.port port).table vec (addr, data) }

/-- R42, R345: a device-level event sends its message on the port that devmsiport names.  Which event sends which of the vectors 1024
to 1055, and when, is open: any of them at any time (DESIGN CHOICE, log 62). -/
def State.moveDevMsi (s : State) (k : Nat) : State := if 32 ≤ k then s else s.sendMsi ((s.dev 0x41F).toNat % 2) (1024 + k)

/-- R41: the runtime sets a port's decoder. -/
def State.moveHdm (s : State) (port base size : Nat) : State :=
  if 2 ≤ port || base % 2 ^ 29 != 0 || size % 2 ^ 29 != 0 || !s.ownHbm base || !(size == 0 || s.ownHbm (base + size - 1)) then s
  else s.setPort port { s.port port with hdmBase := base, hdmSize := size }

/-- R50: a firmware image is written to flash. -/
def State.moveFlash (s : State) (a : Bool) (i : Image) : State :=
  { s with pk := { s.pk with rom := if a then { s.pk.rom with slotA := some i } else { s.pk.rom with slotB := some i } } }

/-- R50: what a slice's next self-test finds. -/
def State.moveSliceTest (s : State) (slice : Nat) (fails : Bool) : State :=
  let out := s.pk.rom.failSlices.filter fun c => c != slice
  { s with pk := { s.pk with rom := { s.pk.rom with failSlices := if fails then out ++ [slice] else out } } }

/-- R20: what a core's next self-test finds. -/
def State.moveSelfTest (s : State) (core : Nat) (fails : Bool) : State :=
  let out := s.pk.rom.failCores.filter fun c => c != core
  { s with pk := { s.pk with rom := { s.pk.rom with failCores := if fails then out ++ [core] else out } } }

/-- Runs a move. -/
def runMove (m : Move) (s : State) : Outcome :=
  match m with
  | .tick => .next s.tick
  | .choose core part slot => .next (s.choose core part slot)
  | .start w pc => .next (s.startAt w pc)
  | .event e => runEvent e s
  | .barRead off => .next (s.barRead off)
  | .barWrite off v => .next (s.barWrite off v)
  | .l1Fill core line excl => .next (s.moveL1Fill core line excl)
  | .l1Evict core line => .next (s.moveL1Evict core line)
  | .llcFill line => .next (s.moveLlcFill line)
  | .llcEvict line => .next (s.moveLlcEvict line)
  | .icFill die line => .next (s.moveIcFill die line)
  | .icDrop die line => .next (if die < 4 then s.setIc die line {} else s)
  | .runAhead w pc => .next (s.moveRunAhead w pc)
  | .rgnFill core asid e => .next (s.moveRgnFill core asid e)
  | .tlbDrop core asid vpn => .next { s with m := { s.m with tlb := s.m.tlb.filter fun t => !(t.core == core && t.asid == asid && t.vpn == vpn) } }
  | .poison line => .next (s.poisonLine line)
  | .parity w c n => .next (s.moveParity w c n)
  | .mismatch w c n v => .next (s.moveMismatch w c n v)
  | .linkUp link => .next (if link < 18 then s.setLink link true else s)
  | .hdm port base size => .next (s.moveHdm port base size)
  | .hostTakes line => .next (s.hostTakes line)
  | .copyMove copy => .next (s.copyMove copy)
  | .hbmServe ctrl idx => .next (s.hbmServe ctrl idx)
  | .selfTest core fails => .next (s.moveSelfTest core fails)
  | .sliceTest slice fails => .next (s.moveSliceTest slice fails)
  | .msix port vec addr data => .next (s.moveMsix port vec addr data)
  | .devMsi k => .next (s.moveDevMsi k)
  | .flash a i => .next (s.moveFlash a i)

end Sys2Proof.Machine

namespace Sys2Proof.Config

/-- The move that happens next where the model's agenda names none: any move at all (DESIGN CHOICE, log 2). -/
opaque freeMove : Nat → Sys2Proof.Machine.Move

end Sys2Proof.Config

namespace Sys2Proof.Machine

open Sys2Proof

/-- The events that only an instruction of a wave makes happen. -/
def DevEv.byWave : DevEv → Bool
  | .sysregWrite (.wave _) _ _ | .cfrtlRead _ | .trappcWrite _ _ | .wpartWrite _ _ | .satfWrite _ _ => true
  | _ => false

/-- R309: the events that a write of a register makes happen, which the host may make once the device is up. -/
def DevEv.byBar : DevEv → Bool
  | .sysregWrite _ _ _ | .measd7Write _ | .fqconsWrite _ _ | .chkkeyWrite _ | .firctlWrite _ | .pkgnumWrite _ | .ltreset
  | .tlbinvPage _ | .tlbinvAsid _ | .tlbinvAll | .mapcmdSubmit | .precmdSave _ _ | .precmdRestore _ | .rtapply
  | .wcmdResume _ _ | .wcmdKill _ _ | .resetcmdWarm | .resetcmdCore _ | .gatecmdGate _ | .gatecmdWake _ => true
  | _ => false

/-- The free move of a state; what only a wave does, or only a device that is up, is no free move. -/
def State.freeMove (s : State) : Move :=
  match Config.freeMove s.sch.free with
  | .event e => if e.byWave || (e.byBar && s.pk.boot != .up) then .tick else .event e
  | m => m

end Sys2Proof.Machine
end

