-- ==== Sys2Proof/Machine/Collectives.lean ====
section
/-! DEFINITION. The meanings of the collectives (R122, R123, R139-R144). -/

namespace Sys2Proof.Machine

open Sys2Proof

/-- R139: SHFL. -/
def execShfl (sc : Scope) (d : Nat) (a : Ext) (b : Nat) (s : State) : Outcome :=
  .next (s.execL (Instr.shfl sc d a b).illegal.isSome sc (.coll (.shfl d a b)))

/-- R139: PUT. -/
def execPut (sc : Scope) (d : Nat) (a : Ext) (b : Nat) (s : State) : Outcome :=
  .next (s.execL (Instr.put sc d a b).illegal.isSome sc (.coll (.put d a b)))

/-- R139: BCAST. -/
def execBcast (sc : Scope) (d : Nat) (a : Ext) (b : Nat) (s : State) : Outcome :=
  .next (s.execL (Instr.bcast sc d a b).illegal.isSome sc (.coll (.bcast d a b)))

/-- R140: VOTE.ANY. -/
def execVoteAny (sc : Scope) (d : Nat) (b : Nat) (s : State) : Outcome :=
  .next (s.execL (Instr.voteAny sc d b).illegal.isSome sc (.coll (.vote false d b)))

/-- R140: VOTE.ALL. -/
def execVoteAll (sc : Scope) (d : Nat) (b : Nat) (s : State) : Outcome :=
  .next (s.execL (Instr.voteAll sc d b).illegal.isSome sc (.coll (.vote true d b)))

/-- R140: BALLOT. -/
def execBallot (sc : Scope) (d : Nat) (b : Nat) (s : State) : Outcome :=
  .next (s.execL (Instr.ballot sc d b).illegal.isSome sc (.coll (.ballot d b)))

/-- R141, R142: RED. -/
def execRed (sc : Scope) (d : Nat) (a : Ext) (ty : Nat) (opr : Nat) (s : State) : Outcome :=
  .next (s.execL (Instr.red sc d a ty opr).illegal.isSome sc (.coll (.red d a ty opr)))

/-- R141, R142: SCAN. -/
def execScan (sc : Scope) (d : Nat) (a : Ext) (x : Bool) (ty : Nat) (opr : Nat) (s : State) : Outcome :=
  .next (s.execL (Instr.scan sc d a x ty opr).illegal.isSome sc (.coll (.scan d a x ty opr)))

/-- R143: MATCHRANK. -/
def execMatchrank (sc : Scope) (d : Nat) (a : Ext) (s : State) : Outcome :=
  .next (s.execL (Instr.matchrank sc d a).illegal.isSome sc (.coll (.matchrank d a)))

/-- R143: HISTO. -/
def execHisto (sc : Scope) (d : Nat) (a : Ext) (s : State) : Outcome :=
  .next (s.execL (Instr.histo sc d a).illegal.isSome sc (.coll (.histo d a)))

/-- R144: SAMPLE. -/
def execSample (sc : Scope) (d : Nat) (a : Ext) (b : Nat) (s : State) : Outcome :=
  .next (s.execL (Instr.sample sc d a b).illegal.isSome sc (.coll (.sample d a b)))

/-- R139: SHFLI. -/
def execShfli (sc : Scope) (d : Nat) (a : Nat) (imm : Nat) (s : State) : Outcome :=
  .next (s.execL (Instr.shfli sc d a imm).illegal.isSome sc (.coll (.shfli d (.v a) imm)))

/-- R139: BCASTI. -/
def execBcasti (sc : Scope) (d : Nat) (a : Nat) (imm : Nat) (s : State) : Outcome :=
  .next (s.execL (Instr.bcasti sc d a imm).illegal.isSome sc (.coll (.bcasti d (.v a) imm)))

end Sys2Proof.Machine
end

