-- ==== Sys2Proof/Machine/Compute.lean ====
section
/-! DEFINITION. The meanings of the computation instructions (R119-R136, R145, R146): each one call of a shared
operation with its row of the tables. -/

namespace Sys2Proof.Machine

open Sys2Proof

/-- R125: NOP. -/
def execNop (sc : Scope) (s : State) : Outcome :=
  .next (s.execL (Instr.nop sc).illegal.isSome sc (.nop))

/-- R126: ADD. -/
def execAdd (sc : Scope) (d : Nat) (a : Ext) (b : Nat) (s : State) : Outcome :=
  .next (s.execL (Instr.add sc d a b).illegal.isSome sc (.alu .add d a (.reg b)))

/-- R126: SUB. -/
def execSub (sc : Scope) (d : Nat) (a : Ext) (b : Nat) (s : State) : Outcome :=
  .next (s.execL (Instr.sub sc d a b).illegal.isSome sc (.alu .sub d a (.reg b)))

/-- R126: MULLO. -/
def execMullo (sc : Scope) (d : Nat) (a : Ext) (b : Nat) (s : State) : Outcome :=
  .next (s.execL (Instr.mullo sc d a b).illegal.isSome sc (.alu .mullo d a (.reg b)))

/-- R126: MULHI.i32. -/
def execMulhiI32 (sc : Scope) (d : Nat) (a : Ext) (b : Nat) (s : State) : Outcome :=
  .next (s.execL (Instr.mulhiI32 sc d a b).illegal.isSome sc (.alu .mulhiI d a (.reg b)))

/-- R126: MULHI.n32. -/
def execMulhiN32 (sc : Scope) (d : Nat) (a : Ext) (b : Nat) (s : State) : Outcome :=
  .next (s.execL (Instr.mulhiN32 sc d a b).illegal.isSome sc (.alu .mulhiN d a (.reg b)))

/-- R126: MAD. -/
def execMad (sc : Scope) (d : Nat) (a : Ext) (b : Nat) (s : State) : Outcome :=
  .next (s.execL (Instr.mad sc d a b).illegal.isSome sc (.alu .mad d a (.reg b)))

/-- R126: MIN.i32. -/
def execMinI32 (sc : Scope) (d : Nat) (a : Ext) (b : Nat) (s : State) : Outcome :=
  .next (s.execL (Instr.minI32 sc d a b).illegal.isSome sc (.alu .minI d a (.reg b)))

/-- R126: MIN.n32. -/
def execMinN32 (sc : Scope) (d : Nat) (a : Ext) (b : Nat) (s : State) : Outcome :=
  .next (s.execL (Instr.minN32 sc d a b).illegal.isSome sc (.alu .minN d a (.reg b)))

/-- R126: MAX.i32. -/
def execMaxI32 (sc : Scope) (d : Nat) (a : Ext) (b : Nat) (s : State) : Outcome :=
  .next (s.execL (Instr.maxI32 sc d a b).illegal.isSome sc (.alu .maxI d a (.reg b)))

/-- R126: MAX.n32. -/
def execMaxN32 (sc : Scope) (d : Nat) (a : Ext) (b : Nat) (s : State) : Outcome :=
  .next (s.execL (Instr.maxN32 sc d a b).illegal.isSome sc (.alu .maxN d a (.reg b)))

/-- R126: AND. -/
def execAnd (sc : Scope) (d : Nat) (a : Ext) (b : Nat) (s : State) : Outcome :=
  .next (s.execL (Instr.and sc d a b).illegal.isSome sc (.alu .and d a (.reg b)))

/-- R126: OR. -/
def execOr (sc : Scope) (d : Nat) (a : Ext) (b : Nat) (s : State) : Outcome :=
  .next (s.execL (Instr.or sc d a b).illegal.isSome sc (.alu .or d a (.reg b)))

/-- R126: XOR. -/
def execXor (sc : Scope) (d : Nat) (a : Ext) (b : Nat) (s : State) : Outcome :=
  .next (s.execL (Instr.xor sc d a b).illegal.isSome sc (.alu .xor d a (.reg b)))

/-- R126: SHL. -/
def execShl (sc : Scope) (d : Nat) (a : Ext) (b : Nat) (s : State) : Outcome :=
  .next (s.execL (Instr.shl sc d a b).illegal.isSome sc (.alu .shl d a (.reg b)))

/-- R126: SHR.n32. -/
def execShrN32 (sc : Scope) (d : Nat) (a : Ext) (b : Nat) (s : State) : Outcome :=
  .next (s.execL (Instr.shrN32 sc d a b).illegal.isSome sc (.alu .shrN d a (.reg b)))

/-- R126: SHR.i32. -/
def execShrI32 (sc : Scope) (d : Nat) (a : Ext) (b : Nat) (s : State) : Outcome :=
  .next (s.execL (Instr.shrI32 sc d a b).illegal.isSome sc (.alu .shrI d a (.reg b)))

/-- R126: ROTL. -/
def execRotl (sc : Scope) (d : Nat) (a : Ext) (b : Nat) (s : State) : Outcome :=
  .next (s.execL (Instr.rotl sc d a b).illegal.isSome sc (.alu .rotl d a (.reg b)))

/-- R126: CLZ. -/
def execClz (sc : Scope) (d : Nat) (a : Ext) (s : State) : Outcome :=
  .next (s.execL (Instr.clz sc d a).illegal.isSome sc (.alu .clz d a (.reg 0)))

/-- R126: POPC. -/
def execPopc (sc : Scope) (d : Nat) (a : Ext) (s : State) : Outcome :=
  .next (s.execL (Instr.popc sc d a).illegal.isSome sc (.alu .popc d a (.reg 0)))

/-- R126: BREV. -/
def execBrev (sc : Scope) (d : Nat) (a : Ext) (s : State) : Outcome :=
  .next (s.execL (Instr.brev sc d a).illegal.isSome sc (.alu .brev d a (.reg 0)))

/-- R126: SEL. -/
def execSel (sc : Scope) (d : Nat) (a : Ext) (b : Nat) (s : State) : Outcome :=
  .next (s.execL (Instr.sel sc d a b).illegal.isSome sc (.alu .sel d a (.reg b)))

/-- R126: MOV. -/
def execMov (sc : Scope) (d : Nat) (a : Ext) (s : State) : Outcome :=
  .next (s.execL (Instr.mov sc d a).illegal.isSome sc (.alu .mov d a (.reg 0)))

/-- R130: ADD.f32. -/
def execAddF32 (sc : Scope) (d : Nat) (a : Ext) (b : Nat) (s : State) : Outcome :=
  .next (s.execL (Instr.addF32 sc d a b).illegal.isSome sc (.alu .addF d a (.reg b)))

/-- R130: SUB.f32. -/
def execSubF32 (sc : Scope) (d : Nat) (a : Ext) (b : Nat) (s : State) : Outcome :=
  .next (s.execL (Instr.subF32 sc d a b).illegal.isSome sc (.alu .subF d a (.reg b)))

/-- R130: MUL.f32. -/
def execMulF32 (sc : Scope) (d : Nat) (a : Ext) (b : Nat) (s : State) : Outcome :=
  .next (s.execL (Instr.mulF32 sc d a b).illegal.isSome sc (.alu .mulF d a (.reg b)))

/-- R130: FMA.f32. -/
def execFmaF32 (sc : Scope) (d : Nat) (a : Ext) (b : Nat) (s : State) : Outcome :=
  .next (s.execL (Instr.fmaF32 sc d a b).illegal.isSome sc (.alu .fmaF d a (.reg b)))

/-- R130: MIN.f32. -/
def execMinF32 (sc : Scope) (d : Nat) (a : Ext) (b : Nat) (s : State) : Outcome :=
  .next (s.execL (Instr.minF32 sc d a b).illegal.isSome sc (.alu .minF d a (.reg b)))

/-- R130: MAX.f32. -/
def execMaxF32 (sc : Scope) (d : Nat) (a : Ext) (b : Nat) (s : State) : Outcome :=
  .next (s.execL (Instr.maxF32 sc d a b).illegal.isSome sc (.alu .maxF d a (.reg b)))

/-- R130: NEG.f32. -/
def execNegF32 (sc : Scope) (d : Nat) (a : Ext) (s : State) : Outcome :=
  .next (s.execL (Instr.negF32 sc d a).illegal.isSome sc (.alu .negF d a (.reg 0)))

/-- R130: ABS.f32. -/
def execAbsF32 (sc : Scope) (d : Nat) (a : Ext) (s : State) : Outcome :=
  .next (s.execL (Instr.absF32 sc d a).illegal.isSome sc (.alu .absF d a (.reg 0)))

/-- R132, R133: RCP. -/
def execRcp (sc : Scope) (d : Nat) (a : Ext) (s : State) : Outcome :=
  .next (s.execL (Instr.rcp sc d a).illegal.isSome sc (.alu .rcp d a (.reg 0)))

/-- R132, R133: RSQ. -/
def execRsq (sc : Scope) (d : Nat) (a : Ext) (s : State) : Outcome :=
  .next (s.execL (Instr.rsq sc d a).illegal.isSome sc (.alu .rsq d a (.reg 0)))

/-- R132, R133: SQRT. -/
def execSqrt (sc : Scope) (d : Nat) (a : Ext) (s : State) : Outcome :=
  .next (s.execL (Instr.sqrt sc d a).illegal.isSome sc (.alu .sqrt d a (.reg 0)))

/-- R132, R133: EXP2. -/
def execExp2 (sc : Scope) (d : Nat) (a : Ext) (s : State) : Outcome :=
  .next (s.execL (Instr.exp2 sc d a).illegal.isSome sc (.alu .exp2 d a (.reg 0)))

/-- R132, R133: LOG2. -/
def execLog2 (sc : Scope) (d : Nat) (a : Ext) (s : State) : Outcome :=
  .next (s.execL (Instr.log2 sc d a).illegal.isSome sc (.alu .log2 d a (.reg 0)))

/-- R132, R133: SINPI. -/
def execSinpi (sc : Scope) (d : Nat) (a : Ext) (s : State) : Outcome :=
  .next (s.execL (Instr.sinpi sc d a).illegal.isSome sc (.alu .sinpi d a (.reg 0)))

/-- R132, R133: COSPI. -/
def execCospi (sc : Scope) (d : Nat) (a : Ext) (s : State) : Outcome :=
  .next (s.execL (Instr.cospi sc d a).illegal.isSome sc (.alu .cospi d a (.reg 0)))

/-- R134: ADD.bf16x2. -/
def execAddBf16x2 (sc : Scope) (d : Nat) (a : Ext) (b : Nat) (s : State) : Outcome :=
  .next (s.execL (Instr.addBf16x2 sc d a b).illegal.isSome sc (.alu .addB d a (.reg b)))

/-- R134: MUL.bf16x2. -/
def execMulBf16x2 (sc : Scope) (d : Nat) (a : Ext) (b : Nat) (s : State) : Outcome :=
  .next (s.execL (Instr.mulBf16x2 sc d a b).illegal.isSome sc (.alu .mulB d a (.reg b)))

/-- R134: FMA.bf16x2. -/
def execFmaBf16x2 (sc : Scope) (d : Nat) (a : Ext) (b : Nat) (s : State) : Outcome :=
  .next (s.execL (Instr.fmaBf16x2 sc d a b).illegal.isSome sc (.alu .fmaB d a (.reg b)))

/-- R145: HASH. -/
def execHash (sc : Scope) (d : Nat) (a : Ext) (b : Nat) (s : State) : Outcome :=
  .next (s.execL (Instr.hash sc d a b).illegal.isSome sc (.alu .hash d a (.reg b)))

/-- R127: ADD64. -/
def execAdd64 (sc : Scope) (d : Nat) (a : Ext) (b : Nat) (s : State) : Outcome :=
  .next (s.execL (Instr.add64 sc d a b).illegal.isSome sc (.pair false d a b))

/-- R127: LEA. -/
def execLea (sc : Scope) (d : Nat) (a : Ext) (b : Nat) (s : State) : Outcome :=
  .next (s.execL (Instr.lea sc d a b).illegal.isSome sc (.pair true d a b))

/-- R128: CMP.EQ. -/
def execCmpEq (sc : Scope) (d : Nat) (a : Ext) (b : Nat) (s : State) : Outcome :=
  .next (s.execL (Instr.cmpEq sc d a b).illegal.isSome sc (.cmp .eq d a (.reg b)))

/-- R128: CMP.NE. -/
def execCmpNe (sc : Scope) (d : Nat) (a : Ext) (b : Nat) (s : State) : Outcome :=
  .next (s.execL (Instr.cmpNe sc d a b).illegal.isSome sc (.cmp .ne d a (.reg b)))

/-- R128: CMP.LT.i32. -/
def execCmpLtI32 (sc : Scope) (d : Nat) (a : Ext) (b : Nat) (s : State) : Outcome :=
  .next (s.execL (Instr.cmpLtI32 sc d a b).illegal.isSome sc (.cmp .ltI d a (.reg b)))

/-- R128: CMP.LE.i32. -/
def execCmpLeI32 (sc : Scope) (d : Nat) (a : Ext) (b : Nat) (s : State) : Outcome :=
  .next (s.execL (Instr.cmpLeI32 sc d a b).illegal.isSome sc (.cmp .leI d a (.reg b)))

/-- R128: CMP.LT.n32. -/
def execCmpLtN32 (sc : Scope) (d : Nat) (a : Ext) (b : Nat) (s : State) : Outcome :=
  .next (s.execL (Instr.cmpLtN32 sc d a b).illegal.isSome sc (.cmp .ltN d a (.reg b)))

/-- R128: CMP.LE.n32. -/
def execCmpLeN32 (sc : Scope) (d : Nat) (a : Ext) (b : Nat) (s : State) : Outcome :=
  .next (s.execL (Instr.cmpLeN32 sc d a b).illegal.isSome sc (.cmp .leN d a (.reg b)))

/-- R131: CMP.EQ.f32. -/
def execCmpEqF32 (sc : Scope) (d : Nat) (a : Ext) (b : Nat) (s : State) : Outcome :=
  .next (s.execL (Instr.cmpEqF32 sc d a b).illegal.isSome sc (.cmp .eqF d a (.reg b)))

/-- R131: CMP.NE.f32. -/
def execCmpNeF32 (sc : Scope) (d : Nat) (a : Ext) (b : Nat) (s : State) : Outcome :=
  .next (s.execL (Instr.cmpNeF32 sc d a b).illegal.isSome sc (.cmp .neF d a (.reg b)))

/-- R131: CMP.LT.f32. -/
def execCmpLtF32 (sc : Scope) (d : Nat) (a : Ext) (b : Nat) (s : State) : Outcome :=
  .next (s.execL (Instr.cmpLtF32 sc d a b).illegal.isSome sc (.cmp .ltF d a (.reg b)))

/-- R131: CMP.LE.f32. -/
def execCmpLeF32 (sc : Scope) (d : Nat) (a : Ext) (b : Nat) (s : State) : Outcome :=
  .next (s.execL (Instr.cmpLeF32 sc d a b).illegal.isSome sc (.cmp .leF d a (.reg b)))

/-- R131: CMP.UN.f32. -/
def execCmpUnF32 (sc : Scope) (d : Nat) (a : Ext) (b : Nat) (s : State) : Outcome :=
  .next (s.execL (Instr.cmpUnF32 sc d a b).illegal.isSome sc (.cmp .unF d a (.reg b)))

/-- R135, R136: CVT. -/
def execCvt (sc : Scope) (d : Nat) (a : Ext) (conv : Nat) (mode : Nat) (s : State) : Outcome :=
  .next (s.execL (Instr.cvt sc d a conv mode).illegal.isSome sc (.cvt d a conv mode))

/-- R129, R69: ADDI. -/
def execAddi (sc : Scope) (d : Nat) (a : Nat) (imm : Nat) (s : State) : Outcome :=
  .next (s.execL (Instr.addi sc d a imm).illegal.isSome sc (.alu .add d (.v a) (.imm (immS imm))))

/-- R129, R69: ANDI. -/
def execAndi (sc : Scope) (d : Nat) (a : Nat) (imm : Nat) (s : State) : Outcome :=
  .next (s.execL (Instr.andi sc d a imm).illegal.isSome sc (.alu .and d (.v a) (.imm (immZ imm))))

/-- R129, R69: ORI. -/
def execOri (sc : Scope) (d : Nat) (a : Nat) (imm : Nat) (s : State) : Outcome :=
  .next (s.execL (Instr.ori sc d a imm).illegal.isSome sc (.alu .or d (.v a) (.imm (immZ imm))))

/-- R129, R69: XORI. -/
def execXori (sc : Scope) (d : Nat) (a : Nat) (imm : Nat) (s : State) : Outcome :=
  .next (s.execL (Instr.xori sc d a imm).illegal.isSome sc (.alu .xor d (.v a) (.imm (immZ imm))))

/-- R129, R69: SHLI. -/
def execShli (sc : Scope) (d : Nat) (a : Nat) (imm : Nat) (s : State) : Outcome :=
  .next (s.execL (Instr.shli sc d a imm).illegal.isSome sc (.alu .shl d (.v a) (.imm (immZ imm))))

/-- R129, R69: SHRI.n32. -/
def execShriN32 (sc : Scope) (d : Nat) (a : Nat) (imm : Nat) (s : State) : Outcome :=
  .next (s.execL (Instr.shriN32 sc d a imm).illegal.isSome sc (.alu .shrN d (.v a) (.imm (immZ imm))))

/-- R129, R69: SHRI.i32. -/
def execShriI32 (sc : Scope) (d : Nat) (a : Nat) (imm : Nat) (s : State) : Outcome :=
  .next (s.execL (Instr.shriI32 sc d a imm).illegal.isSome sc (.alu .shrI d (.v a) (.imm (immZ imm))))

/-- R128, R69: CMPI.EQ. -/
def execCmpiEq (sc : Scope) (d : Nat) (a : Nat) (imm : Nat) (s : State) : Outcome :=
  .next (s.execL (Instr.cmpiEq sc d a imm).illegal.isSome sc (.cmp .eq d (.v a) (.imm (immS imm))))

/-- R128, R69: CMPI.LT.i32. -/
def execCmpiLtI32 (sc : Scope) (d : Nat) (a : Nat) (imm : Nat) (s : State) : Outcome :=
  .next (s.execL (Instr.cmpiLtI32 sc d a imm).illegal.isSome sc (.cmp .ltI d (.v a) (.imm (immS imm))))

/-- R128, R69: CMPI.LT.n32. -/
def execCmpiLtN32 (sc : Scope) (d : Nat) (a : Nat) (imm : Nat) (s : State) : Outcome :=
  .next (s.execL (Instr.cmpiLtN32 sc d a imm).illegal.isSome sc (.cmp .ltN d (.v a) (.imm (immZ imm))))

/-- R146, R118: the draws of one issue of RNG, and the counter's advance. -/
def Wave.drawAll (x : Wave) (act : Mask) (d : Nat) : Wave :=
  let y := x.forLanes act fun y l => y.setVpair d l (mix64 x.rngkey (x.rngctr + BitVec.ofNat 64 l))
  { y with rngctr := x.rngctr + 32#64 }

/-- R146: RNG. -/
def execRng (d : Nat) (s : State) : Outcome :=
  .next (s.run (fun _ => { bad := (Instr.rng d).illegal.isSome, top := d + 2 }) fun c s =>
    (s.modWave c.w fun x => x.drawAll c.act d).advance c)

end Sys2Proof.Machine
end

