-- ==== Sys2Proof/Machine/LoadStore.lean ====
section
/-! DEFINITION. The meanings of the memory instructions (R191-R211). -/

namespace Sys2Proof.Machine

open Sys2Proof

/-- R196: LD.b8. -/
def execLdB8 (sc : Scope) (d : Nat) (base : Nat) (off : Nat) (s : State) : Outcome :=
  .next (s.execL (Instr.ldB8 sc d base off).illegal.isSome sc (.mem (.ld 1 false d base off)))

/-- R196: LD.b16. -/
def execLdB16 (sc : Scope) (d : Nat) (base : Nat) (off : Nat) (s : State) : Outcome :=
  .next (s.execL (Instr.ldB16 sc d base off).illegal.isSome sc (.mem (.ld 2 false d base off)))

/-- R196: LD.b32. -/
def execLdB32 (sc : Scope) (d : Nat) (base : Nat) (off : Nat) (s : State) : Outcome :=
  .next (s.execL (Instr.ldB32 sc d base off).illegal.isSome sc (.mem (.ld 4 false d base off)))

/-- R196: LD.b64. -/
def execLdB64 (sc : Scope) (d : Nat) (base : Nat) (off : Nat) (s : State) : Outcome :=
  .next (s.execL (Instr.ldB64 sc d base off).illegal.isSome sc (.mem (.ld 8 false d base off)))

/-- R196: LD.b128. -/
def execLdB128 (sc : Scope) (d : Nat) (base : Nat) (off : Nat) (s : State) : Outcome :=
  .next (s.execL (Instr.ldB128 sc d base off).illegal.isSome sc (.mem (.ld 16 false d base off)))

/-- R196: ST.b8. -/
def execStB8 (sc : Scope) (d : Nat) (base : Nat) (off : Nat) (s : State) : Outcome :=
  .next (s.execL (Instr.stB8 sc d base off).illegal.isSome sc (.mem (.st 1 false d base off)))

/-- R196: ST.b16. -/
def execStB16 (sc : Scope) (d : Nat) (base : Nat) (off : Nat) (s : State) : Outcome :=
  .next (s.execL (Instr.stB16 sc d base off).illegal.isSome sc (.mem (.st 2 false d base off)))

/-- R196: ST.b32. -/
def execStB32 (sc : Scope) (d : Nat) (base : Nat) (off : Nat) (s : State) : Outcome :=
  .next (s.execL (Instr.stB32 sc d base off).illegal.isSome sc (.mem (.st 4 false d base off)))

/-- R196: ST.b64. -/
def execStB64 (sc : Scope) (d : Nat) (base : Nat) (off : Nat) (s : State) : Outcome :=
  .next (s.execL (Instr.stB64 sc d base off).illegal.isSome sc (.mem (.st 8 false d base off)))

/-- R196: ST.b128. -/
def execStB128 (sc : Scope) (d : Nat) (base : Nat) (off : Nat) (s : State) : Outcome :=
  .next (s.execL (Instr.stB128 sc d base off).illegal.isSome sc (.mem (.st 16 false d base off)))

/-- R196, R197: LD.ACQ.b32. -/
def execLdAcqB32 (sc : Scope) (d : Nat) (base : Nat) (off : Nat) (s : State) : Outcome :=
  .next (s.execL (Instr.ldAcqB32 sc d base off).illegal.isSome sc (.mem (.ld 4 true d base off)))

/-- R196, R197: LD.ACQ.b64. -/
def execLdAcqB64 (sc : Scope) (d : Nat) (base : Nat) (off : Nat) (s : State) : Outcome :=
  .next (s.execL (Instr.ldAcqB64 sc d base off).illegal.isSome sc (.mem (.ld 8 true d base off)))

/-- R196, R197: ST.REL.b32. -/
def execStRelB32 (sc : Scope) (d : Nat) (base : Nat) (off : Nat) (s : State) : Outcome :=
  .next (s.execL (Instr.stRelB32 sc d base off).illegal.isSome sc (.mem (.st 4 true d base off)))

/-- R196, R197: ST.REL.b64. -/
def execStRelB64 (sc : Scope) (d : Nat) (base : Nat) (off : Nat) (s : State) : Outcome :=
  .next (s.execL (Instr.stRelB64 sc d base off).illegal.isSome sc (.mem (.st 8 true d base off)))

/-- R199: LDF. -/
def execLdf (sc : Scope) (d : Nat) (base : Nat) (k : Nat) (n : Nat) (s : State) : Outcome :=
  .next (s.execL (Instr.ldf sc d base k n).illegal.isSome sc (.mem (.ldf d base k n)))

/-- R199: STF. -/
def execStf (sc : Scope) (d : Nat) (base : Nat) (k : Nat) (n : Nat) (s : State) : Outcome :=
  .next (s.execL (Instr.stf sc d base k n).illegal.isSome sc (.mem (.stf d base k n)))

/-- R200: LDS.b32. -/
def execLdsB32 (sc : Scope) (d : Nat) (base : Nat) (off : Nat) (s : State) : Outcome :=
  .next (s.execL (Instr.ldsB32 sc d base off).illegal.isSome sc (.mem (.lds 4 d base off)))

/-- R200: LDS.b128. -/
def execLdsB128 (sc : Scope) (d : Nat) (base : Nat) (off : Nat) (s : State) : Outcome :=
  .next (s.execL (Instr.ldsB128 sc d base off).illegal.isSome sc (.mem (.lds 16 d base off)))

/-- R200: STS.b32. -/
def execStsB32 (sc : Scope) (d : Nat) (base : Nat) (off : Nat) (s : State) : Outcome :=
  .next (s.execL (Instr.stsB32 sc d base off).illegal.isSome sc (.mem (.sts 4 d base off)))

/-- R200: STS.b128. -/
def execStsB128 (sc : Scope) (d : Nat) (base : Nat) (off : Nat) (s : State) : Outcome :=
  .next (s.execL (Instr.stsB128 sc d base off).illegal.isSome sc (.mem (.sts 16 d base off)))

/-- R201: LDH. -/
def execLdh (sc : Scope) (d : Nat) (h : Nat) (m : Nat) (s : State) : Outcome :=
  .next (s.execL (Instr.ldh sc d h m).illegal.isSome sc (.mem (.ldh d h m)))

/-- R201: STH. -/
def execSth (sc : Scope) (d : Nat) (h : Nat) (m : Nat) (s : State) : Outcome :=
  .next (s.execL (Instr.sth sc d h m).illegal.isSome sc (.mem (.sth d h m)))

/-- R204, R205: ATOM. -/
def execAtom (sc : Scope) (d : Nat) (a : Ext) (w : Bool) (opc : Nat) (s : State) : Outcome :=
  .next (s.execL (Instr.atom sc d a w opc).illegal.isSome sc (.mem (.atom d a w opc)))

/-- R204, R206: BATOM. -/
def execBatom (sc : Scope) (d : Nat) (a : Ext) (opc : Nat) (s : State) : Outcome :=
  .next (s.execL (Instr.batom sc d a opc).illegal.isSome sc (.mem (.batom d a opc)))

/-- R202, R203: LDM. -/
def execLdm (d : Nat) (base : Nat) (c : Nat) (n : Nat) (s : State) : Outcome :=
  .next (s.run (multiPre (Instr.ldm d base c n).illegal.isSome true d base (c + 1)) fun k s => s.multiMem k true d base (c + 1) n)

/-- R202, R203: STM. -/
def execStm (d : Nat) (base : Nat) (c : Nat) (n : Nat) (s : State) : Outcome :=
  .next (s.run (multiPre (Instr.stm d base c n).illegal.isSome false d base (c + 1)) fun k s => s.multiMem k false d base (c + 1) n)

/-- R198: ULD.b32. -/
def execUldB32 (d : Nat) (a : Nat) (imm : Nat) (s : State) : Outcome :=
  .next (s.run (uniformPre (Instr.uldB32 d a imm).illegal.isSome true 4 d a) fun c s => s.uniformMem c true 4 d a imm)

/-- R198: ULD.b64. -/
def execUldB64 (d : Nat) (a : Nat) (imm : Nat) (s : State) : Outcome :=
  .next (s.run (uniformPre (Instr.uldB64 d a imm).illegal.isSome true 8 d a) fun c s => s.uniformMem c true 8 d a imm)

/-- R198: UST.b32. -/
def execUstB32 (d : Nat) (a : Nat) (imm : Nat) (s : State) : Outcome :=
  .next (s.run (uniformPre (Instr.ustB32 d a imm).illegal.isSome false 4 d a) fun c s => s.uniformMem c false 4 d a imm)

/-- R198: UST.b64. -/
def execUstB64 (d : Nat) (a : Nat) (imm : Nat) (s : State) : Outcome :=
  .next (s.run (uniformPre (Instr.ustB64 d a imm).illegal.isSome false 8 d a) fun c s => s.uniformMem c false 8 d a imm)

/-- R207: FENCE.ACQ. -/
def execFenceAcq (a : Nat) (s : State) : Outcome :=
  .next (s.run (fun _ => { bad := (Instr.fenceAcq a).illegal.isSome, reads := [(.s, a), (.s, a + 1)] }) fun c s => s.fence c .fa .fenceAcq a)

/-- R207: FENCE.REL. -/
def execFenceRel (a : Nat) (s : State) : Outcome :=
  .next (s.run (fun _ => { bad := (Instr.fenceRel a).illegal.isSome, reads := [(.s, a), (.s, a + 1)] }) fun c s => s.fence c .fr .fenceRel a)

/-- R207: FENCE.AR. -/
def execFenceAr (a : Nat) (s : State) : Outcome :=
  .next (s.run (fun _ => { bad := (Instr.fenceAr a).illegal.isSome, reads := [(.s, a), (.s, a + 1)] }) fun c s => s.fence c .fb .fenceAr a)

/-- R208: WB. -/
def execWb (a : Nat) (b : Nat) (s : State) : Outcome :=
  .next (s.run (rangePre (Instr.wb a b).illegal.isSome a b) fun c s => s.maintain c .wb 0 a b)

/-- R208: INV. -/
def execInv (a : Nat) (b : Nat) (s : State) : Outcome :=
  .next (s.run (rangePre (Instr.inv a b).illegal.isSome a b) fun c s => s.maintain c .inv 0 a b)

/-- R210: ICINV. -/
def execIcinv (a : Nat) (b : Nat) (s : State) : Outcome :=
  .next (s.run (rangePre (Instr.icinv a b).illegal.isSome a b) fun c s => s.maintain c .icinv 0 a b)

/-- R208: INVN. -/
def execInvn (d : Nat) (a : Nat) (b : Nat) (s : State) : Outcome :=
  .next (s.run (rangePre (Instr.invn d a b).illegal.isSome a b) fun c s => s.maintain c .invn d a b)

/-- R210: IFENCE. -/
def execIfence (s : State) : Outcome :=
  .next (s.run (fun _ => {}) fun c s => (s.modWave c.w fun x => { x with ibuf := [] }).advance c)

/-- R211, R213: PFI.  A pair named by an odd number still traps ILLOP (R57, R90), and a register that fails its check still raises
ECCU (R192) (DESIGN CHOICE, log 56). -/
def execPfi (a : Nat) (b : Nat) (s : State) : Outcome :=
  .next (s.run (fun _ => { bad := (Instr.pfi a b).illegal.isSome, reads := [(.s, a), (.s, a + 1), (.s, b)] }) fun c s =>
    (if maxRange < (c.x.sreg b).toNat then s else s.prefetch c (rangeLines (c.x.spair a) (c.x.sreg b).toNat)).advance c)

end Sys2Proof.Machine
end

