-- ==== Sys2Proof/Machine/Uniform.lean ====
section
/-! DEFINITION. The meanings of the uniform computation instructions (R137, R138). -/

namespace Sys2Proof.Machine

open Sys2Proof

/-- R137: UADD. -/
def execUadd (d : Nat) (a : Nat) (b : Nat) (s : State) : Outcome :=
  .next (s.execUAlu (Instr.uadd d a b).illegal.isSome .add d a b)

/-- R137: USUB. -/
def execUsub (d : Nat) (a : Nat) (b : Nat) (s : State) : Outcome :=
  .next (s.execUAlu (Instr.usub d a b).illegal.isSome .sub d a b)

/-- R137: UMUL. -/
def execUmul (d : Nat) (a : Nat) (b : Nat) (s : State) : Outcome :=
  .next (s.execUAlu (Instr.umul d a b).illegal.isSome .mullo d a b)

/-- R137: UMULHI_I32. -/
def execUmulhiI32 (d : Nat) (a : Nat) (b : Nat) (s : State) : Outcome :=
  .next (s.execUAlu (Instr.umulhiI32 d a b).illegal.isSome .mulhiI d a b)

/-- R137: UMULHI_N32. -/
def execUmulhiN32 (d : Nat) (a : Nat) (b : Nat) (s : State) : Outcome :=
  .next (s.execUAlu (Instr.umulhiN32 d a b).illegal.isSome .mulhiN d a b)

/-- R137: UMIN_I32. -/
def execUminI32 (d : Nat) (a : Nat) (b : Nat) (s : State) : Outcome :=
  .next (s.execUAlu (Instr.uminI32 d a b).illegal.isSome .minI d a b)

/-- R137: UMIN_N32. -/
def execUminN32 (d : Nat) (a : Nat) (b : Nat) (s : State) : Outcome :=
  .next (s.execUAlu (Instr.uminN32 d a b).illegal.isSome .minN d a b)

/-- R137: UMAX_I32. -/
def execUmaxI32 (d : Nat) (a : Nat) (b : Nat) (s : State) : Outcome :=
  .next (s.execUAlu (Instr.umaxI32 d a b).illegal.isSome .maxI d a b)

/-- R137: UMAX_N32. -/
def execUmaxN32 (d : Nat) (a : Nat) (b : Nat) (s : State) : Outcome :=
  .next (s.execUAlu (Instr.umaxN32 d a b).illegal.isSome .maxN d a b)

/-- R137: UAND. -/
def execUand (d : Nat) (a : Nat) (b : Nat) (s : State) : Outcome :=
  .next (s.execUAlu (Instr.uand d a b).illegal.isSome .and d a b)

/-- R137: UOR. -/
def execUor (d : Nat) (a : Nat) (b : Nat) (s : State) : Outcome :=
  .next (s.execUAlu (Instr.uor d a b).illegal.isSome .or d a b)

/-- R137: UXOR. -/
def execUxor (d : Nat) (a : Nat) (b : Nat) (s : State) : Outcome :=
  .next (s.execUAlu (Instr.uxor d a b).illegal.isSome .xor d a b)

/-- R137: USHL. -/
def execUshl (d : Nat) (a : Nat) (b : Nat) (s : State) : Outcome :=
  .next (s.execUAlu (Instr.ushl d a b).illegal.isSome .shl d a b)

/-- R137: USHR_N32. -/
def execUshrN32 (d : Nat) (a : Nat) (b : Nat) (s : State) : Outcome :=
  .next (s.execUAlu (Instr.ushrN32 d a b).illegal.isSome .shrN d a b)

/-- R137: USHR_I32. -/
def execUshrI32 (d : Nat) (a : Nat) (b : Nat) (s : State) : Outcome :=
  .next (s.execUAlu (Instr.ushrI32 d a b).illegal.isSome .shrI d a b)

/-- R137: UROTL. -/
def execUrotl (d : Nat) (a : Nat) (b : Nat) (s : State) : Outcome :=
  .next (s.execUAlu (Instr.urotl d a b).illegal.isSome .rotl d a b)

/-- R137: UCLZ. -/
def execUclz (d : Nat) (a : Nat) (s : State) : Outcome :=
  .next (s.execUAlu (Instr.uclz d a).illegal.isSome .clz d a 0)

/-- R137: UPOPC. -/
def execUpopc (d : Nat) (a : Nat) (s : State) : Outcome :=
  .next (s.execUAlu (Instr.upopc d a).illegal.isSome .popc d a 0)

/-- R137: UBREV. -/
def execUbrev (d : Nat) (a : Nat) (s : State) : Outcome :=
  .next (s.execUAlu (Instr.ubrev d a).illegal.isSome .brev d a 0)

/-- R137: UMOV. -/
def execUmov (d : Nat) (a : Nat) (s : State) : Outcome :=
  .next (s.execUAlu (Instr.umov d a).illegal.isSome .mov d a 0)

/-- R137: USEL. -/
def execUsel (d : Nat) (a : Nat) (b : Nat) (s : State) : Outcome :=
  .next (s.execUAlu (Instr.usel d a b).illegal.isSome .sel d a b)

/-- R137: UADD_F32. -/
def execUaddF32 (d : Nat) (a : Nat) (b : Nat) (s : State) : Outcome :=
  .next (s.execUAlu (Instr.uaddF32 d a b).illegal.isSome .addF d a b)

/-- R137: UMUL_F32. -/
def execUmulF32 (d : Nat) (a : Nat) (b : Nat) (s : State) : Outcome :=
  .next (s.execUAlu (Instr.umulF32 d a b).illegal.isSome .mulF d a b)

/-- R137: UFMA_F32. -/
def execUfmaF32 (d : Nat) (a : Nat) (b : Nat) (s : State) : Outcome :=
  .next (s.execUAlu (Instr.ufmaF32 d a b).illegal.isSome .fmaF d a b)

/-- R137: UMIN_F32. -/
def execUminF32 (d : Nat) (a : Nat) (b : Nat) (s : State) : Outcome :=
  .next (s.execUAlu (Instr.uminF32 d a b).illegal.isSome .minF d a b)

/-- R137: UMAX_F32. -/
def execUmaxF32 (d : Nat) (a : Nat) (b : Nat) (s : State) : Outcome :=
  .next (s.execUAlu (Instr.umaxF32 d a b).illegal.isSome .maxF d a b)

/-- R137, R127: UADD64. -/
def execUadd64 (d : Nat) (a : Nat) (b : Nat) (s : State) : Outcome :=
  .next (s.execU (Instr.uadd64 d a b).illegal.isSome [a, a + 1, b, b + 1] fun _ x => x.setSpair d (x.spair a + x.spair b))

/-- R137: UCMP_EQ. -/
def execUcmpEq (d : Nat) (a : Nat) (b : Nat) (s : State) : Outcome :=
  .next (s.execUCmp (Instr.ucmpEq d a b).illegal.isSome .eq d a [b] fun x => x.sreg b)

/-- R137: UCMP_NE. -/
def execUcmpNe (d : Nat) (a : Nat) (b : Nat) (s : State) : Outcome :=
  .next (s.execUCmp (Instr.ucmpNe d a b).illegal.isSome .ne d a [b] fun x => x.sreg b)

/-- R137: UCMP_LT_I32. -/
def execUcmpLtI32 (d : Nat) (a : Nat) (b : Nat) (s : State) : Outcome :=
  .next (s.execUCmp (Instr.ucmpLtI32 d a b).illegal.isSome .ltI d a [b] fun x => x.sreg b)

/-- R137: UCMP_LE_I32. -/
def execUcmpLeI32 (d : Nat) (a : Nat) (b : Nat) (s : State) : Outcome :=
  .next (s.execUCmp (Instr.ucmpLeI32 d a b).illegal.isSome .leI d a [b] fun x => x.sreg b)

/-- R137: UCMP_LT_N32. -/
def execUcmpLtN32 (d : Nat) (a : Nat) (b : Nat) (s : State) : Outcome :=
  .next (s.execUCmp (Instr.ucmpLtN32 d a b).illegal.isSome .ltN d a [b] fun x => x.sreg b)

/-- R137: UCMP_LE_N32. -/
def execUcmpLeN32 (d : Nat) (a : Nat) (b : Nat) (s : State) : Outcome :=
  .next (s.execUCmp (Instr.ucmpLeN32 d a b).illegal.isSome .leN d a [b] fun x => x.sreg b)

/-- R137: UCMP_LT_F32. -/
def execUcmpLtF32 (d : Nat) (a : Nat) (b : Nat) (s : State) : Outcome :=
  .next (s.execUCmp (Instr.ucmpLtF32 d a b).illegal.isSome .ltF d a [b] fun x => x.sreg b)

/-- R138, R74: UADDI. -/
def execUaddi (d : Nat) (a : Nat) (imm : Nat) (s : State) : Outcome :=
  .next (s.execUImm (Instr.uaddi d a imm).illegal.isSome .add d a (immS imm))

/-- R138, R74: UANDI. -/
def execUandi (d : Nat) (a : Nat) (imm : Nat) (s : State) : Outcome :=
  .next (s.execUImm (Instr.uandi d a imm).illegal.isSome .and d a (immZ imm))

/-- R138, R74: UORI. -/
def execUori (d : Nat) (a : Nat) (imm : Nat) (s : State) : Outcome :=
  .next (s.execUImm (Instr.uori d a imm).illegal.isSome .or d a (immZ imm))

/-- R138, R74: UXORI. -/
def execUxori (d : Nat) (a : Nat) (imm : Nat) (s : State) : Outcome :=
  .next (s.execUImm (Instr.uxori d a imm).illegal.isSome .xor d a (immZ imm))

/-- R138, R74: USHLI. -/
def execUshli (d : Nat) (a : Nat) (imm : Nat) (s : State) : Outcome :=
  .next (s.execUImm (Instr.ushli d a imm).illegal.isSome .shl d a (immZ imm))

/-- R138, R74: USHRI_N32. -/
def execUshriN32 (d : Nat) (a : Nat) (imm : Nat) (s : State) : Outcome :=
  .next (s.execUImm (Instr.ushriN32 d a imm).illegal.isSome .shrN d a (immZ imm))

/-- R138, R74: USHRI_I32. -/
def execUshriI32 (d : Nat) (a : Nat) (imm : Nat) (s : State) : Outcome :=
  .next (s.execUImm (Instr.ushriI32 d a imm).illegal.isSome .shrI d a (immZ imm))

/-- R138: MOVI. -/
def execMovi (d : Nat) (imm : Nat) (s : State) : Outcome :=
  .next (s.execU (Instr.movi d imm).illegal.isSome [] fun _ x => x.setS d (immS imm))

/-- R138, R74: LDK; an index at or above the entry count is ILLOP. -/
def execLdk (d : Nat) (imm : Nat) (s : State) : Outcome :=
  .next (s.run (fun c => { bad := (Instr.ldk d imm).illegal.isSome || c.g.consts.length ≤ imm }) fun c s =>
    (s.modWave c.w fun x => x.setS d (c.g.consts.getD imm 0#32)).advance c)

/-- R138: UCMPI_EQ. -/
def execUcmpiEq (d : Nat) (a : Nat) (imm : Nat) (s : State) : Outcome :=
  .next (s.execUCmp (Instr.ucmpiEq d a imm).illegal.isSome .eq d a [] fun _ => immS imm)

/-- R138: UCMPI_LT_I32. -/
def execUcmpiLtI32 (d : Nat) (a : Nat) (imm : Nat) (s : State) : Outcome :=
  .next (s.execUCmp (Instr.ucmpiLtI32 d a imm).illegal.isSome .ltI d a [] fun _ => immS imm)

/-- R138: UCMPI_LT_N32. -/
def execUcmpiLtN32 (d : Nat) (a : Nat) (imm : Nat) (s : State) : Outcome :=
  .next (s.execUCmp (Instr.ucmpiLtN32 d a imm).illegal.isSome .ltN d a [] fun _ => immZ imm)

end Sys2Proof.Machine
end

