-- ==== Sys2Proof/Machine/Dispatch.lean ====
section
/-! DEFINITION. The dispatch of every instruction and event to its meaning. -/

namespace Sys2Proof.Machine

open Sys2Proof

/-- One arm per constructor of `Instr`. -/
def exec (i : Instr) (s : State) : Host.Outcome State Fault Refusal :=
  match i with
  | .nop sc => Sys2Proof.Machine.execNop sc s
  | .add sc d a b => Sys2Proof.Machine.execAdd sc d a b s
  | .sub sc d a b => Sys2Proof.Machine.execSub sc d a b s
  | .mullo sc d a b => Sys2Proof.Machine.execMullo sc d a b s
  | .mulhiI32 sc d a b => Sys2Proof.Machine.execMulhiI32 sc d a b s
  | .mulhiN32 sc d a b => Sys2Proof.Machine.execMulhiN32 sc d a b s
  | .mad sc d a b => Sys2Proof.Machine.execMad sc d a b s
  | .minI32 sc d a b => Sys2Proof.Machine.execMinI32 sc d a b s
  | .minN32 sc d a b => Sys2Proof.Machine.execMinN32 sc d a b s
  | .maxI32 sc d a b => Sys2Proof.Machine.execMaxI32 sc d a b s
  | .maxN32 sc d a b => Sys2Proof.Machine.execMaxN32 sc d a b s
  | .and sc d a b => Sys2Proof.Machine.execAnd sc d a b s
  | .or sc d a b => Sys2Proof.Machine.execOr sc d a b s
  | .xor sc d a b => Sys2Proof.Machine.execXor sc d a b s
  | .shl sc d a b => Sys2Proof.Machine.execShl sc d a b s
  | .shrN32 sc d a b => Sys2Proof.Machine.execShrN32 sc d a b s
  | .shrI32 sc d a b => Sys2Proof.Machine.execShrI32 sc d a b s
  | .rotl sc d a b => Sys2Proof.Machine.execRotl sc d a b s
  | .clz sc d a => Sys2Proof.Machine.execClz sc d a s
  | .popc sc d a => Sys2Proof.Machine.execPopc sc d a s
  | .brev sc d a => Sys2Proof.Machine.execBrev sc d a s
  | .sel sc d a b => Sys2Proof.Machine.execSel sc d a b s
  | .mov sc d a => Sys2Proof.Machine.execMov sc d a s
  | .add64 sc d a b => Sys2Proof.Machine.execAdd64 sc d a b s
  | .lea sc d a b => Sys2Proof.Machine.execLea sc d a b s
  | .cmpEq sc d a b => Sys2Proof.Machine.execCmpEq sc d a b s
  | .cmpNe sc d a b => Sys2Proof.Machine.execCmpNe sc d a b s
  | .cmpLtI32 sc d a b => Sys2Proof.Machine.execCmpLtI32 sc d a b s
  | .cmpLeI32 sc d a b => Sys2Proof.Machine.execCmpLeI32 sc d a b s
  | .cmpLtN32 sc d a b => Sys2Proof.Machine.execCmpLtN32 sc d a b s
  | .cmpLeN32 sc d a b => Sys2Proof.Machine.execCmpLeN32 sc d a b s
  | .exit => Sys2Proof.Machine.execExit s
  | .addF32 sc d a b => Sys2Proof.Machine.execAddF32 sc d a b s
  | .subF32 sc d a b => Sys2Proof.Machine.execSubF32 sc d a b s
  | .mulF32 sc d a b => Sys2Proof.Machine.execMulF32 sc d a b s
  | .fmaF32 sc d a b => Sys2Proof.Machine.execFmaF32 sc d a b s
  | .minF32 sc d a b => Sys2Proof.Machine.execMinF32 sc d a b s
  | .maxF32 sc d a b => Sys2Proof.Machine.execMaxF32 sc d a b s
  | .negF32 sc d a => Sys2Proof.Machine.execNegF32 sc d a s
  | .absF32 sc d a => Sys2Proof.Machine.execAbsF32 sc d a s
  | .cmpEqF32 sc d a b => Sys2Proof.Machine.execCmpEqF32 sc d a b s
  | .cmpNeF32 sc d a b => Sys2Proof.Machine.execCmpNeF32 sc d a b s
  | .cmpLtF32 sc d a b => Sys2Proof.Machine.execCmpLtF32 sc d a b s
  | .cmpLeF32 sc d a b => Sys2Proof.Machine.execCmpLeF32 sc d a b s
  | .cmpUnF32 sc d a b => Sys2Proof.Machine.execCmpUnF32 sc d a b s
  | .rcp sc d a => Sys2Proof.Machine.execRcp sc d a s
  | .rsq sc d a => Sys2Proof.Machine.execRsq sc d a s
  | .sqrt sc d a => Sys2Proof.Machine.execSqrt sc d a s
  | .exp2 sc d a => Sys2Proof.Machine.execExp2 sc d a s
  | .log2 sc d a => Sys2Proof.Machine.execLog2 sc d a s
  | .sinpi sc d a => Sys2Proof.Machine.execSinpi sc d a s
  | .cospi sc d a => Sys2Proof.Machine.execCospi sc d a s
  | .addBf16x2 sc d a b => Sys2Proof.Machine.execAddBf16x2 sc d a b s
  | .mulBf16x2 sc d a b => Sys2Proof.Machine.execMulBf16x2 sc d a b s
  | .fmaBf16x2 sc d a b => Sys2Proof.Machine.execFmaBf16x2 sc d a b s
  | .cvt sc d a conv mode => Sys2Proof.Machine.execCvt sc d a conv mode s
  | .atom sc d a w opc => Sys2Proof.Machine.execAtom sc d a w opc s
  | .batom sc d a opc => Sys2Proof.Machine.execBatom sc d a opc s
  | .copy nxt h a dir q => Sys2Proof.Machine.execCopy nxt h a dir q s
  | .spawn d a b => Sys2Proof.Machine.execSpawn d a b s
  | .tsget d => Sys2Proof.Machine.execTsget d s
  | .brx d a => Sys2Proof.Machine.execBrx d a s
  | .ret a => Sys2Proof.Machine.execRet a s
  | .shfl sc d a b => Sys2Proof.Machine.execShfl sc d a b s
  | .put sc d a b => Sys2Proof.Machine.execPut sc d a b s
  | .bcast sc d a b => Sys2Proof.Machine.execBcast sc d a b s
  | .voteAny sc d b => Sys2Proof.Machine.execVoteAny sc d b s
  | .voteAll sc d b => Sys2Proof.Machine.execVoteAll sc d b s
  | .ballot sc d b => Sys2Proof.Machine.execBallot sc d b s
  | .red sc d a ty opr => Sys2Proof.Machine.execRed sc d a ty opr s
  | .scan sc d a x ty opr => Sys2Proof.Machine.execScan sc d a x ty opr s
  | .matchrank sc d a => Sys2Proof.Machine.execMatchrank sc d a s
  | .histo sc d a => Sys2Proof.Machine.execHisto sc d a s
  | .hash sc d a b => Sys2Proof.Machine.execHash sc d a b s
  | .rng d => Sys2Proof.Machine.execRng d s
  | .sample sc d a b => Sys2Proof.Machine.execSample sc d a b s
  | .jtab cnt a b => Sys2Proof.Machine.execJtab cnt a b s
  | .join j => Sys2Proof.Machine.execJoin j s
  | .joinleave j => Sys2Proof.Machine.execJoinleave j s
  | .addi sc d a imm => Sys2Proof.Machine.execAddi sc d a imm s
  | .andi sc d a imm => Sys2Proof.Machine.execAndi sc d a imm s
  | .ori sc d a imm => Sys2Proof.Machine.execOri sc d a imm s
  | .xori sc d a imm => Sys2Proof.Machine.execXori sc d a imm s
  | .shli sc d a imm => Sys2Proof.Machine.execShli sc d a imm s
  | .shriN32 sc d a imm => Sys2Proof.Machine.execShriN32 sc d a imm s
  | .shriI32 sc d a imm => Sys2Proof.Machine.execShriI32 sc d a imm s
  | .cmpiEq sc d a imm => Sys2Proof.Machine.execCmpiEq sc d a imm s
  | .cmpiLtI32 sc d a imm => Sys2Proof.Machine.execCmpiLtI32 sc d a imm s
  | .cmpiLtN32 sc d a imm => Sys2Proof.Machine.execCmpiLtN32 sc d a imm s
  | .shfli sc d a imm => Sys2Proof.Machine.execShfli sc d a imm s
  | .bcasti sc d a imm => Sys2Proof.Machine.execBcasti sc d a imm s
  | .ldB8 sc d base off => Sys2Proof.Machine.execLdB8 sc d base off s
  | .ldB16 sc d base off => Sys2Proof.Machine.execLdB16 sc d base off s
  | .ldB32 sc d base off => Sys2Proof.Machine.execLdB32 sc d base off s
  | .ldB64 sc d base off => Sys2Proof.Machine.execLdB64 sc d base off s
  | .ldB128 sc d base off => Sys2Proof.Machine.execLdB128 sc d base off s
  | .stB8 sc d base off => Sys2Proof.Machine.execStB8 sc d base off s
  | .stB16 sc d base off => Sys2Proof.Machine.execStB16 sc d base off s
  | .stB32 sc d base off => Sys2Proof.Machine.execStB32 sc d base off s
  | .stB64 sc d base off => Sys2Proof.Machine.execStB64 sc d base off s
  | .stB128 sc d base off => Sys2Proof.Machine.execStB128 sc d base off s
  | .ldAcqB32 sc d base off => Sys2Proof.Machine.execLdAcqB32 sc d base off s
  | .ldAcqB64 sc d base off => Sys2Proof.Machine.execLdAcqB64 sc d base off s
  | .stRelB32 sc d base off => Sys2Proof.Machine.execStRelB32 sc d base off s
  | .stRelB64 sc d base off => Sys2Proof.Machine.execStRelB64 sc d base off s
  | .ldf sc d base k n => Sys2Proof.Machine.execLdf sc d base k n s
  | .stf sc d base k n => Sys2Proof.Machine.execStf sc d base k n s
  | .ldsB32 sc d base off => Sys2Proof.Machine.execLdsB32 sc d base off s
  | .ldsB128 sc d base off => Sys2Proof.Machine.execLdsB128 sc d base off s
  | .stsB32 sc d base off => Sys2Proof.Machine.execStsB32 sc d base off s
  | .stsB128 sc d base off => Sys2Proof.Machine.execStsB128 sc d base off s
  | .ldm d base c n => Sys2Proof.Machine.execLdm d base c n s
  | .stm d base c n => Sys2Proof.Machine.execStm d base c n s
  | .ldh sc d h m => Sys2Proof.Machine.execLdh sc d h m s
  | .sth sc d h m => Sys2Proof.Machine.execSth sc d h m s
  | .bp sense pred disp => Sys2Proof.Machine.execBp sense pred disp s
  | .call sense pred disp => Sys2Proof.Machine.execCall sense pred disp s
  | .mma ec acc atam areg breg fmt => Sys2Proof.Machine.execMma ec acc atam areg breg fmt s
  | .accz acc => Sys2Proof.Machine.execAccz acc s
  | .accld acc areg => Sys2Proof.Machine.execAccld acc areg s
  | .accst acc areg fmt => Sys2Proof.Machine.execAccst acc areg fmt s
  | .accflush acc areg => Sys2Proof.Machine.execAccflush acc areg s
  | .accflushDet acc areg => Sys2Proof.Machine.execAccflushDet acc areg s
  | .clause wait first second len => Sys2Proof.Machine.execClause wait first second len s
  | .uadd d a b => Sys2Proof.Machine.execUadd d a b s
  | .usub d a b => Sys2Proof.Machine.execUsub d a b s
  | .umul d a b => Sys2Proof.Machine.execUmul d a b s
  | .umulhiI32 d a b => Sys2Proof.Machine.execUmulhiI32 d a b s
  | .umulhiN32 d a b => Sys2Proof.Machine.execUmulhiN32 d a b s
  | .uminI32 d a b => Sys2Proof.Machine.execUminI32 d a b s
  | .uminN32 d a b => Sys2Proof.Machine.execUminN32 d a b s
  | .umaxI32 d a b => Sys2Proof.Machine.execUmaxI32 d a b s
  | .umaxN32 d a b => Sys2Proof.Machine.execUmaxN32 d a b s
  | .uand d a b => Sys2Proof.Machine.execUand d a b s
  | .uor d a b => Sys2Proof.Machine.execUor d a b s
  | .uxor d a b => Sys2Proof.Machine.execUxor d a b s
  | .ushl d a b => Sys2Proof.Machine.execUshl d a b s
  | .ushrN32 d a b => Sys2Proof.Machine.execUshrN32 d a b s
  | .ushrI32 d a b => Sys2Proof.Machine.execUshrI32 d a b s
  | .urotl d a b => Sys2Proof.Machine.execUrotl d a b s
  | .uclz d a => Sys2Proof.Machine.execUclz d a s
  | .upopc d a => Sys2Proof.Machine.execUpopc d a s
  | .ubrev d a => Sys2Proof.Machine.execUbrev d a s
  | .umov d a => Sys2Proof.Machine.execUmov d a s
  | .usel d a b => Sys2Proof.Machine.execUsel d a b s
  | .uadd64 d a b => Sys2Proof.Machine.execUadd64 d a b s
  | .ucmpEq d a b => Sys2Proof.Machine.execUcmpEq d a b s
  | .ucmpNe d a b => Sys2Proof.Machine.execUcmpNe d a b s
  | .ucmpLtI32 d a b => Sys2Proof.Machine.execUcmpLtI32 d a b s
  | .ucmpLeI32 d a b => Sys2Proof.Machine.execUcmpLeI32 d a b s
  | .ucmpLtN32 d a b => Sys2Proof.Machine.execUcmpLtN32 d a b s
  | .ucmpLeN32 d a b => Sys2Proof.Machine.execUcmpLeN32 d a b s
  | .uaddF32 d a b => Sys2Proof.Machine.execUaddF32 d a b s
  | .umulF32 d a b => Sys2Proof.Machine.execUmulF32 d a b s
  | .ufmaF32 d a b => Sys2Proof.Machine.execUfmaF32 d a b s
  | .uminF32 d a b => Sys2Proof.Machine.execUminF32 d a b s
  | .umaxF32 d a b => Sys2Proof.Machine.execUmaxF32 d a b s
  | .ucmpLtF32 d a b => Sys2Proof.Machine.execUcmpLtF32 d a b s
  | .uret a => Sys2Proof.Machine.execUret a s
  | .uaddi d a imm => Sys2Proof.Machine.execUaddi d a imm s
  | .uandi d a imm => Sys2Proof.Machine.execUandi d a imm s
  | .uori d a imm => Sys2Proof.Machine.execUori d a imm s
  | .uxori d a imm => Sys2Proof.Machine.execUxori d a imm s
  | .ushli d a imm => Sys2Proof.Machine.execUshli d a imm s
  | .ushriN32 d a imm => Sys2Proof.Machine.execUshriN32 d a imm s
  | .ushriI32 d a imm => Sys2Proof.Machine.execUshriI32 d a imm s
  | .movi d imm => Sys2Proof.Machine.execMovi d imm s
  | .ldk d imm => Sys2Proof.Machine.execLdk d imm s
  | .ucmpiEq d a imm => Sys2Proof.Machine.execUcmpiEq d a imm s
  | .ucmpiLtI32 d a imm => Sys2Proof.Machine.execUcmpiLtI32 d a imm s
  | .ucmpiLtN32 d a imm => Sys2Proof.Machine.execUcmpiLtN32 d a imm s
  | .uldB32 d a imm => Sys2Proof.Machine.execUldB32 d a imm s
  | .uldB64 d a imm => Sys2Proof.Machine.execUldB64 d a imm s
  | .ustB32 d a imm => Sys2Proof.Machine.execUstB32 d a imm s
  | .ustB64 d a imm => Sys2Proof.Machine.execUstB64 d a imm s
  | .bra disp => Sys2Proof.Machine.execBra disp s
  | .bc sense c disp => Sys2Proof.Machine.execBc sense c disp s
  | .ucall c disp => Sys2Proof.Machine.execUcall c disp s
  | .joinset j a x => Sys2Proof.Machine.execJoinset j a x s
  | .yield => Sys2Proof.Machine.execYield s
  | .part r => Sys2Proof.Machine.execPart r s
  | .arrive r => Sys2Proof.Machine.execArrive r s
  | .waitb r => Sys2Proof.Machine.execWaitb r s
  | .trap n => Sys2Proof.Machine.execTrap n s
  | .rett => Sys2Proof.Machine.execRett s
  | .fenceAcq a => Sys2Proof.Machine.execFenceAcq a s
  | .fenceRel a => Sys2Proof.Machine.execFenceRel a s
  | .fenceAr a => Sys2Proof.Machine.execFenceAr a s
  | .wb a b => Sys2Proof.Machine.execWb a b s
  | .inv a b => Sys2Proof.Machine.execInv a b s
  | .invn d a b => Sys2Proof.Machine.execInvn d a b s
  | .ifence => Sys2Proof.Machine.execIfence s
  | .icinv a b => Sys2Proof.Machine.execIcinv a b s
  | .pfi a b => Sys2Proof.Machine.execPfi a b s
  | .hwaitFull h p => Sys2Proof.Machine.execHwaitFull h p s
  | .hwaitFree h => Sys2Proof.Machine.execHwaitFree h s
  | .hcfgBind h a b => Sys2Proof.Machine.execHcfgBind h a b s
  | .hcfgRing h a => Sys2Proof.Machine.execHcfgRing h a s
  | .hcfgMark h => Sys2Proof.Machine.execHcfgMark h s
  | .hcfgUnbind h => Sys2Proof.Machine.execHcfgUnbind h s
  | .hfree h p => Sys2Proof.Machine.execHfree h p s
  | .fsopen a b => Sys2Proof.Machine.execFsopen a b s
  | .fsclose a => Sys2Proof.Machine.execFsclose a s
  | .fswait a => Sys2Proof.Machine.execFswait a s
  | .mfs r num => Sys2Proof.Machine.execMfs r num s
  | .mts r num => Sys2Proof.Machine.execMts r num s
  | .rngseed k => Sys2Proof.Machine.execRngseed k s
  | .rgnw k e t => Sys2Proof.Machine.execRgnw k e t s
  | .rgnr k e => Sys2Proof.Machine.execRgnr k e s
  | .bgtw k e => Sys2Proof.Machine.execBgtw k e s
  | .bgtr k e => Sys2Proof.Machine.execBgtr k e s
  | .sysregWrite src num v => Sys2Proof.Machine.execSysregWrite src num v s
  | .cfrtlRead wave => Sys2Proof.Machine.execCfrtlRead wave s
  | .trappcWrite wave v => Sys2Proof.Machine.execTrappcWrite wave v s
  | .wpartWrite wave v => Sys2Proof.Machine.execWpartWrite wave v s
  | .satfWrite wave v => Sys2Proof.Machine.execSatfWrite wave v s
  | .measd7Write v => Sys2Proof.Machine.execMeasd7Write v s
  | .fqconsWrite tenant v => Sys2Proof.Machine.execFqconsWrite tenant v s
  | .chkkeyWrite v => Sys2Proof.Machine.execChkkeyWrite v s
  | .firctlWrite v => Sys2Proof.Machine.execFirctlWrite v s
  | .pkgnumWrite v => Sys2Proof.Machine.execPkgnumWrite v s
  | .ltreset => Sys2Proof.Machine.execLtreset s
  | .tlbinvPage asid => Sys2Proof.Machine.execTlbinvPage asid s
  | .tlbinvAsid asid => Sys2Proof.Machine.execTlbinvAsid asid s
  | .tlbinvAll => Sys2Proof.Machine.execTlbinvAll s
  | .tlbInvalidateDone => Sys2Proof.Machine.execTlbInvalidateDone s
  | .mapcmdSubmit => Sys2Proof.Machine.execMapcmdSubmit s
  | .mapInstall => Sys2Proof.Machine.execMapInstall s
  | .precmdSave core tslot => Sys2Proof.Machine.execPrecmdSave core tslot s
  | .saveAreaWrite => Sys2Proof.Machine.execSaveAreaWrite s
  | .precmdRestore core => Sys2Proof.Machine.execPrecmdRestore core s
  | .rtapply => Sys2Proof.Machine.execRtapply s
  | .wcmdResume tenant wid => Sys2Proof.Machine.execWcmdResume tenant wid s
  | .wcmdKill tenant wid => Sys2Proof.Machine.execWcmdKill tenant wid s
  | .resetcmdWarm => Sys2Proof.Machine.execResetcmdWarm s
  | .resetcmdCore core => Sys2Proof.Machine.execResetcmdCore core s
  | .gatecmdGate core => Sys2Proof.Machine.execGatecmdGate core s
  | .gatecmdWake core => Sys2Proof.Machine.execGatecmdWake core s
  | .coldReset => Sys2Proof.Machine.execColdReset s
  | .cxlHotReset => Sys2Proof.Machine.execCxlHotReset s
  | .snoopTimeout => Sys2Proof.Machine.execSnoopTimeout s
  | .bootSequence => Sys2Proof.Machine.execBootSequence s
  | .powerMeasurement watts => Sys2Proof.Machine.execPowerMeasurement watts s
  | .budgetPeriodStart => Sys2Proof.Machine.execBudgetPeriodStart s
  | .hbmRequest req => Sys2Proof.Machine.execHbmRequest req s
  | .batchForm ctrl => Sys2Proof.Machine.execBatchForm ctrl s
  | .scrubRead line found => Sys2Proof.Machine.execScrubRead line found s
  | .scrubConditionalWrite idx => Sys2Proof.Machine.execScrubConditionalWrite idx s
  | .llcWayDisable slice set way line => Sys2Proof.Machine.execLlcWayDisable slice set way line s
  | .sliceRetire die slice => Sys2Proof.Machine.execSliceRetire die slice s
  | .linkFlitRetry link => Sys2Proof.Machine.execLinkFlitRetry link s
  | .linkDown link => Sys2Proof.Machine.execLinkDown link s
  | .routeloop who part link => Sys2Proof.Machine.execRouteloop who part link s
  | .hostSnoop line inv => Sys2Proof.Machine.execHostSnoop line inv s
  | .hostDeviceAccess acc => Sys2Proof.Machine.execHostDeviceAccess acc s
  | .msiDeliverPending port => Sys2Proof.Machine.execMsiDeliverPending port s
  | .quoteRequest nonce => Sys2Proof.Machine.execQuoteRequest nonce s
  | .launchAccept => Sys2Proof.Machine.execLaunchAccept s
  | .teamPlace grid core part => Sys2Proof.Machine.execTeamPlace grid core part s
  | .hamperStage grid team => Sys2Proof.Machine.execHamperStage grid team s
  | .launchComplete grid => Sys2Proof.Machine.execLaunchComplete grid s
  | .shuttleDispatch grid core part => Sys2Proof.Machine.execShuttleDispatch grid core part s
  | .taskFinish grid id => Sys2Proof.Machine.execTaskFinish grid id s
  | .commitPublication => Sys2Proof.Machine.execCommitPublication s
  | .taskNonspecRedispatch grid part => Sys2Proof.Machine.execTaskNonspecRedispatch grid part s
  | .waitCycleResolution team => Sys2Proof.Machine.execWaitCycleResolution team s
  | .loadDataArrive op part word => Sys2Proof.Machine.execLoadDataArrive op part word s
  | .memoryEventPerform op part => Sys2Proof.Machine.execMemoryEventPerform op part s
  | .releaseProvisionalPerform op part => Sys2Proof.Machine.execReleaseProvisionalPerform op part s
  | .releaseComplete op part => Sys2Proof.Machine.execReleaseComplete op part s
  | .intervalRecord idx => Sys2Proof.Machine.execIntervalRecord idx s
  | .ltRebase => Sys2Proof.Machine.execLtRebase s
  | .arriveCount op => Sys2Proof.Machine.execArriveCount op s
  | .phaseComplete route => Sys2Proof.Machine.execPhaseComplete route s
  | .copyTakeSlot copy => Sys2Proof.Machine.execCopyTakeSlot copy s
  | .copyTransferFault copy => Sys2Proof.Machine.execCopyTransferFault copy s
  | .copyComplete copy => Sys2Proof.Machine.execCopyComplete copy s
  | .markPerform op => Sys2Proof.Machine.execMarkPerform op s
  | .handleAcquire wave lane => Sys2Proof.Machine.execHandleAcquire wave lane s
  | .accumulateApply op part elem => Sys2Proof.Machine.execAccumulateApply op part elem s
  | .detContributionApply op part elem => Sys2Proof.Machine.execDetContributionApply op part elem s
  | .pageWalk walk => Sys2Proof.Machine.execPageWalk walk s
  | .icacheMissFill miss => Sys2Proof.Machine.execIcacheMissFill miss s
  | .firDelayedStore => Sys2Proof.Machine.execFirDelayedStore s
  | .faultRecordPost tenant => Sys2Proof.Machine.execFaultRecordPost tenant s
  | .spawnPerform op part => Sys2Proof.Machine.execSpawnPerform op part s
  | .accumulatorSlotWritten op part => Sys2Proof.Machine.execAccumulatorSlotWritten op part s
  | .backInvalidateResponse line => Sys2Proof.Machine.execBackInvalidateResponse line s

end Sys2Proof.Machine
end

