-- ==== Sys2Proof/Machine/Run.lean ====
section
/-! DEFINITION. What a step does: the issue of the next chosen bundle, or the next move of an agent. -/

namespace Sys2Proof.Machine

open Sys2Proof

/-- R78: is the word a CLAUSE header? -/
def isClause : Instr → Bool
  | .clause _ _ _ _ => true
  | _ => false

/-- R171-R173, R337: a clause-ending transfer whose targets are compared before it moves a lane; those of a JTAB are compared once its table
has been read. -/
def isTransfer : Instr → Bool
  | .bp _ _ _ | .call _ _ _ | .brx _ _ | .ret _ | .bra _ | .bc _ _ _ | .ucall _ _ | .uret _ => true
  | _ => false

/-- R78, R90: what becomes of a word that is fetched for the issuing bundle. -/
def State.runWord (s : State) (c : Cx) (v : Word) : Outcome :=
  match decode v.toNat with
  | .error _ => .next (if c.b.phase == .header then s.headerTrap c else s.trapAll c causeILLOP)
  | .ok i =>
    if c.b.phase == .header && !isClause i then .next (s.headerTrap c)
    else if isTransfer i then s.compareTargets c.w c.b.lanes c.pc (exec i)
    else exec i s

/-- The issue of the bundle named by `sch.cur`: its instruction is fetched, decoded and run; a bundle
that is not ready any more issues nothing. -/
def State.issueNow (s : State) : Outcome :=
  match s.cx with
  | none => .next s
  | some c =>
    if !s.ready c.w c.b then .next s
    else match s.wordAt c with
      | .bad f => .next (s.faultAt c (lowest c.b.lanes) c.b.lanes f)
      | .wait s why => .next (s.stall c why)
      | .word v s => s.runWord c v

end Sys2Proof.Machine
end

