-- ==== Sys2Proof/Machine/Step.lean ====
section
/-! DEFINITION. One step of the machine: a device event that is due, else the issue of a chosen bundle, else
the next move of the agenda, else a free move. -/

namespace Sys2Proof.Machine

open Sys2Proof

/-- What happens next. -/
def stepOnce (s : State) : Host.Outcome State Fault Refusal :=
  match s.sch.due with
  | e :: rest => runEvent e { s with sch := { s.sch with due := rest } }
  | [] =>
    match s.sch.issueQ with
    | k :: rest => ({ s with sch := { s.sch with issueQ := rest, cur := k } } : State).issueNow
    | [] =>
      match s.sch.agenda with
      | m :: rest => runMove m { s with sch := { s.sch with agenda := rest } }
      | [] => runMove s.freeMove s.draw.2

/-- One step: what happens next, and with it in the shadows that have come apart from their leaders (R337). -/
def step (s : State) : Host.Outcome State Fault Refusal := s.paired stepOnce

/-- `s` with a loaded launch of one wave whose only bundle stands at the instruction `w`, chosen to issue
next (DESIGN CHOICE, log 30): the word is the wave's fetched word at its program counter. -/
def State.withFetchWord (s : State) (nbits w : Nat) : State := s.loadWord (BitVec.ofNat 32 (w % 2 ^ nbits))

end Sys2Proof.Machine
end

