-- ==== Sys2Proof/Safety.lean ====
section
/-! DEFINITION. The terms claims use: when a step goes on, when an instruction of the issuing bundle has its own effect and not a
trap or fault of R91, what of a state and of a wave stays as it was, and which operation each word of the L and U classes
names. -/

namespace Sys2Proof.Safety

open Sys2Proof Sys2Proof.Machine

/-- A step that answers a next state; every trap and fault of the spec is one. -/
def goesOn (s : State) : Prop := ∃ t, step s = .next t

/-- R91: `c` is the issuing bundle of `s` at instruction `i`, and no condition of R90 (ILLOP), R149 (ROLE), R56 (REGBOUND)
or R192 (a register read whose parity check fails) stands against it.  `p` says what the instruction uses: the flag
field it counts on, a set, a role, the registers it reads and the highest v-register it names. -/
structure Ready (s : State) (c : Cx) (i : Instr) (p : Pre) : Prop where
  issuing : s.cx = some c
  legal : i.illegal = none
  good : p.bad = false
  last : p.last = true → c.isLast = true
  flag : p.flag ≠ some 15
  set : p.set = true → c.badSet = false
  role : p.role = none ∨ p.role = some c.x.role
  bound : p.top ≤ c.x.vcount
  inside : p.outside = false
  parity : ∀ r ∈ p.reads, c.x.parity.contains r = false

/-- No lane of the mask runs a speculative task, whose conditions R300 defers. -/
def Plain (s : State) (w : Nat) (m : Mask) : Prop := s.specLanes w m = 0#32

/-- Everything outside the waves of a list of slots is unchanged: memory and caches, device and tenant registers, teams, launches,
operations, the clocks. -/
structure OutsideWaves (ws : List Nat) (s t : State) : Prop where
  sch : t.sch = s.sch
  reg : t.reg = s.reg
  pk : t.pk = s.pk
  m : t.m = s.m
  o : t.o = s.o
  teams : t.x.teams = s.x.teams
  cores : t.x.cores = s.x.cores
  grids : t.x.grids = s.x.grids
  nextGrid : t.x.nextGrid = s.x.nextGrid
  rrTenant : t.x.rrTenant = s.x.rrTenant
  groups : t.x.groups = s.x.groups
  tenants : t.x.tenants = s.x.tenants
  waves : ∀ k, k ∉ ws → t.wave k = s.wave k

/-- R151, R80: wave `y` is wave `x` with bundle `c.b` past its instruction: every lane of the bundle stands at the next word,
and after the last instruction of a clause those lanes are in no bundle. -/
structure Moved (c : Cx) (x y : Wave) : Prop where
  lanes : ∀ l, y.lane l = if hasLane c.b.lanes l then { x.lane l with pc := c.pc + 4#64 } else x.lane l
  bundles : y.bundles = if c.isLast then x.bundles.filter (fun b => !(b.lanes == c.b.lanes))
    else x.bundles.map fun b => if b.lanes == c.b.lanes then { c.b with cl := { c.b.cl with done := 0#32 }, stall := .none, age := 0 } else b

/-- A wave that differs from `x` in its v-registers, its predicates and where its lanes stand only (and has MPROG clear). -/
def LaneRegsOnly (x y : Wave) : Prop :=
  y = { x with v := y.v, p := y.p, lanes := y.lanes, bundles := y.bundles, mprog := 0 }

/-- A wave that differs from `x` in its uniform registers and where its lanes stand only (and has MPROG clear). -/
def UniformRegsOnly (x y : Wave) : Prop :=
  y = { x with s := y.s, lanes := y.lanes, bundles := y.bundles, mprog := 0 }

/-- A wave that differs from `x` in where its lanes stand only (and has MPROG clear). -/
def PlaceOnly (x y : Wave) : Prop := y = { x with lanes := y.lanes, bundles := y.bundles, mprog := 0 }

/-- R73, R126-R145, R196-R206, R255: the scope of an L-word and the operation it names. -/
def lword : Instr → Option (Scope × LOp)
  | .nop sc => some (sc, .nop)
  | .add sc d a b => some (sc, .alu .add d a (.reg b))
  | .sub sc d a b => some (sc, .alu .sub d a (.reg b))
  | .mullo sc d a b => some (sc, .alu .mullo d a (.reg b))
  | .mulhiI32 sc d a b => some (sc, .alu .mulhiI d a (.reg b))
  | .mulhiN32 sc d a b => some (sc, .alu .mulhiN d a (.reg b))
  | .mad sc d a b => some (sc, .alu .mad d a (.reg b))
  | .minI32 sc d a b => some (sc, .alu .minI d a (.reg b))
  | .minN32 sc d a b => some (sc, .alu .minN d a (.reg b))
  | .maxI32 sc d a b => some (sc, .alu .maxI d a (.reg b))
  | .maxN32 sc d a b => some (sc, .alu .maxN d a (.reg b))
  | .and sc d a b => some (sc, .alu .and d a (.reg b))
  | .or sc d a b => some (sc, .alu .or d a (.reg b))
  | .xor sc d a b => some (sc, .alu .xor d a (.reg b))
  | .shl sc d a b => some (sc, .alu .shl d a (.reg b))
  | .shrN32 sc d a b => some (sc, .alu .shrN d a (.reg b))
  | .shrI32 sc d a b => some (sc, .alu .shrI d a (.reg b))
  | .rotl sc d a b => some (sc, .alu .rotl d a (.reg b))
  | .clz sc d a => some (sc, .alu .clz d a (.reg 0))
  | .popc sc d a => some (sc, .alu .popc d a (.reg 0))
  | .brev sc d a => some (sc, .alu .brev d a (.reg 0))
  | .sel sc d a b => some (sc, .alu .sel d a (.reg b))
  | .mov sc d a => some (sc, .alu .mov d a (.reg 0))
  | .addF32 sc d a b => some (sc, .alu .addF d a (.reg b))
  | .subF32 sc d a b => some (sc, .alu .subF d a (.reg b))
  | .mulF32 sc d a b => some (sc, .alu .mulF d a (.reg b))
  | .fmaF32 sc d a b => some (sc, .alu .fmaF d a (.reg b))
  | .minF32 sc d a b => some (sc, .alu .minF d a (.reg b))
  | .maxF32 sc d a b => some (sc, .alu .maxF d a (.reg b))
  | .negF32 sc d a => some (sc, .alu .negF d a (.reg 0))
  | .absF32 sc d a => some (sc, .alu .absF d a (.reg 0))
  | .rcp sc d a => some (sc, .alu .rcp d a (.reg 0))
  | .rsq sc d a => some (sc, .alu .rsq d a (.reg 0))
  | .sqrt sc d a => some (sc, .alu .sqrt d a (.reg 0))
  | .exp2 sc d a => some (sc, .alu .exp2 d a (.reg 0))
  | .log2 sc d a => some (sc, .alu .log2 d a (.reg 0))
  | .sinpi sc d a => some (sc, .alu .sinpi d a (.reg 0))
  | .cospi sc d a => some (sc, .alu .cospi d a (.reg 0))
  | .addBf16x2 sc d a b => some (sc, .alu .addB d a (.reg b))
  | .mulBf16x2 sc d a b => some (sc, .alu .mulB d a (.reg b))
  | .fmaBf16x2 sc d a b => some (sc, .alu .fmaB d a (.reg b))
  | .hash sc d a b => some (sc, .alu .hash d a (.reg b))
  | .add64 sc d a b => some (sc, .pair false d a b)
  | .lea sc d a b => some (sc, .pair true d a b)
  | .cmpEq sc d a b => some (sc, .cmp .eq d a (.reg b))
  | .cmpNe sc d a b => some (sc, .cmp .ne d a (.reg b))
  | .cmpLtI32 sc d a b => some (sc, .cmp .ltI d a (.reg b))
  | .cmpLeI32 sc d a b => some (sc, .cmp .leI d a (.reg b))
  | .cmpLtN32 sc d a b => some (sc, .cmp .ltN d a (.reg b))
  | .cmpLeN32 sc d a b => some (sc, .cmp .leN d a (.reg b))
  | .cmpEqF32 sc d a b => some (sc, .cmp .eqF d a (.reg b))
  | .cmpNeF32 sc d a b => some (sc, .cmp .neF d a (.reg b))
  | .cmpLtF32 sc d a b => some (sc, .cmp .ltF d a (.reg b))
  | .cmpLeF32 sc d a b => some (sc, .cmp .leF d a (.reg b))
  | .cmpUnF32 sc d a b => some (sc, .cmp .unF d a (.reg b))
  | .cvt sc d a conv mode => some (sc, .cvt d a conv mode)
  | .addi sc d a imm => some (sc, .alu .add d (.v a) (.imm (immS imm)))
  | .andi sc d a imm => some (sc, .alu .and d (.v a) (.imm (immZ imm)))
  | .ori sc d a imm => some (sc, .alu .or d (.v a) (.imm (immZ imm)))
  | .xori sc d a imm => some (sc, .alu .xor d (.v a) (.imm (immZ imm)))
  | .shli sc d a imm => some (sc, .alu .shl d (.v a) (.imm (immZ imm)))
  | .shriN32 sc d a imm => some (sc, .alu .shrN d (.v a) (.imm (immZ imm)))
  | .shriI32 sc d a imm => some (sc, .alu .shrI d (.v a) (.imm (immZ imm)))
  | .cmpiEq sc d a imm => some (sc, .cmp .eq d (.v a) (.imm (immS imm)))
  | .cmpiLtI32 sc d a imm => some (sc, .cmp .ltI d (.v a) (.imm (immS imm)))
  | .cmpiLtN32 sc d a imm => some (sc, .cmp .ltN d (.v a) (.imm (immZ imm)))
  | .shfl sc d a b => some (sc, .coll (.shfl d a b))
  | .put sc d a b => some (sc, .coll (.put d a b))
  | .bcast sc d a b => some (sc, .coll (.bcast d a b))
  | .voteAny sc d b => some (sc, .coll (.vote false d b))
  | .voteAll sc d b => some (sc, .coll (.vote true d b))
  | .ballot sc d b => some (sc, .coll (.ballot d b))
  | .red sc d a ty opr => some (sc, .coll (.red d a ty opr))
  | .scan sc d a x ty opr => some (sc, .coll (.scan d a x ty opr))
  | .matchrank sc d a => some (sc, .coll (.matchrank d a))
  | .histo sc d a => some (sc, .coll (.histo d a))
  | .sample sc d a b => some (sc, .coll (.sample d a b))
  | .shfli sc d a imm => some (sc, .coll (.shfli d (.v a) imm))
  | .bcasti sc d a imm => some (sc, .coll (.bcasti d (.v a) imm))
  | .ldB8 sc d base off => some (sc, .mem (.ld 1 false d base off))
  | .ldB16 sc d base off => some (sc, .mem (.ld 2 false d base off))
  | .ldB32 sc d base off => some (sc, .mem (.ld 4 false d base off))
  | .ldB64 sc d base off => some (sc, .mem (.ld 8 false d base off))
  | .ldB128 sc d base off => some (sc, .mem (.ld 16 false d base off))
  | .stB8 sc d base off => some (sc, .mem (.st 1 false d base off))
  | .stB16 sc d base off => some (sc, .mem (.st 2 false d base off))
  | .stB32 sc d base off => some (sc, .mem (.st 4 false d base off))
  | .stB64 sc d base off => some (sc, .mem (.st 8 false d base off))
  | .stB128 sc d base off => some (sc, .mem (.st 16 false d base off))
  | .ldAcqB32 sc d base off => some (sc, .mem (.ld 4 true d base off))
  | .ldAcqB64 sc d base off => some (sc, .mem (.ld 8 true d base off))
  | .stRelB32 sc d base off => some (sc, .mem (.st 4 true d base off))
  | .stRelB64 sc d base off => some (sc, .mem (.st 8 true d base off))
  | .ldf sc d base k n => some (sc, .mem (.ldf d base k n))
  | .stf sc d base k n => some (sc, .mem (.stf d base k n))
  | .ldsB32 sc d base off => some (sc, .mem (.lds 4 d base off))
  | .ldsB128 sc d base off => some (sc, .mem (.lds 16 d base off))
  | .stsB32 sc d base off => some (sc, .mem (.sts 4 d base off))
  | .stsB128 sc d base off => some (sc, .mem (.sts 16 d base off))
  | .ldh sc d h m => some (sc, .mem (.ldh d h m))
  | .sth sc d h m => some (sc, .mem (.sth d h m))
  | .atom sc d a w opc => some (sc, .mem (.atom d a w opc))
  | .batom sc d a opc => some (sc, .mem (.batom d a opc))
  | .copy nxt h a dir q => some (.set, .copy nxt h a dir q)
  | _ => none

/-- R73, R120: an operation of the computation class, which has a LANE form. -/
def computes : LOp → Bool
  | .nop | .alu .. | .pair .. | .cmp .. | .cvt .. => true
  | _ => false

/-- R120: what v-register n holds in lane l after an operation of the computation class at LANE scope: in an active lane the
destination takes the operation's value, a 64-bit destination its two words, low word first (R57). -/
def vAfter (s : State) (c : Cx) (op : LOp) (n l : Nat) : Word :=
  let x := s.wave c.w
  let old := x.vreg n l
  if hasLane c.act l then
    match op with
    | .alu f d a y => if n = d then aluVal f (s.extVal c.w c.b a l) (x.src y l) (x.vreg d l) else old
    | .cvt d a conv mode => if n = d then cvtVal conv mode (s.extVal c.w c.b a l) (x.vreg d l) else old
    | .pair lea d a y =>
      let v := pairVal lea (s.extVal64 c.w c.b a l) (if lea then (x.vreg y l).setWidth 64 else x.vpair y l)
      if n = d + 1 then v.extractLsb' 32 32 else if n = d then v.extractLsb' 0 32 else old
    | _ => old
  else old

/-- R128, R131: what predicate n holds in lane l after it: a compare writes its condition in each active lane. -/
def pAfter (s : State) (c : Cx) (op : LOp) (n l : Nat) : Bool :=
  let x := s.wave c.w
  match op with
  | .cmp f d a y => if hasLane c.act l && n == d then cmpVal f (s.extVal c.w c.b a l) (x.src y l) else x.pred n l
  | _ => x.pred n l

/-- Uniform register d takes a value, every other keeps its own. -/
def setsS (d : Nat) (v : Wave → Word) (x : Wave) (n : Nat) : Word := if n = d then v x else x.sreg n

/-- R137: a uniform word of a 32-bit operation: the registers it reads, and what each uniform register holds after it. -/
def uAlu (op : AluOp) (d a b : Nat) : Option (List Nat × (Wave → Nat → Word)) :=
  some ([a] ++ (if op.usesB then [b] else []) ++ (if op.usesD then [d] else []), setsS d fun x => aluVal op (x.sreg a) (x.sreg b) (x.sreg d))

/-- R137, R138: a uniform word: the registers it reads, and what each uniform register holds after it. -/
def uword : Instr → Option (List Nat × (Wave → Nat → Word))
  | .uadd d a b => uAlu .add d a b
  | .usub d a b => uAlu .sub d a b
  | .umul d a b => uAlu .mullo d a b
  | .umulhiI32 d a b => uAlu .mulhiI d a b
  | .umulhiN32 d a b => uAlu .mulhiN d a b
  | .uminI32 d a b => uAlu .minI d a b
  | .uminN32 d a b => uAlu .minN d a b
  | .umaxI32 d a b => uAlu .maxI d a b
  | .umaxN32 d a b => uAlu .maxN d a b
  | .uand d a b => uAlu .and d a b
  | .uor d a b => uAlu .or d a b
  | .uxor d a b => uAlu .xor d a b
  | .ushl d a b => uAlu .shl d a b
  | .ushrN32 d a b => uAlu .shrN d a b
  | .ushrI32 d a b => uAlu .shrI d a b
  | .urotl d a b => uAlu .rotl d a b
  | .uclz d a => uAlu .clz d a 0
  | .upopc d a => uAlu .popc d a 0
  | .ubrev d a => uAlu .brev d a 0
  | .umov d a => uAlu .mov d a 0
  | .usel d a b => uAlu .sel d a b
  | .uaddF32 d a b => uAlu .addF d a b
  | .umulF32 d a b => uAlu .mulF d a b
  | .ufmaF32 d a b => uAlu .fmaF d a b
  | .uminF32 d a b => uAlu .minF d a b
  | .umaxF32 d a b => uAlu .maxF d a b
  | .ucmpEq d a b => some ([a, b], setsS d fun x => if cmpVal .eq (x.sreg a) (x.sreg b) then 1#32 else 0#32)
  | .ucmpNe d a b => some ([a, b], setsS d fun x => if cmpVal .ne (x.sreg a) (x.sreg b) then 1#32 else 0#32)
  | .ucmpLtI32 d a b => some ([a, b], setsS d fun x => if cmpVal .ltI (x.sreg a) (x.sreg b) then 1#32 else 0#32)
  | .ucmpLeI32 d a b => some ([a, b], setsS d fun x => if cmpVal .leI (x.sreg a) (x.sreg b) then 1#32 else 0#32)
  | .ucmpLtN32 d a b => some ([a, b], setsS d fun x => if cmpVal .ltN (x.sreg a) (x.sreg b) then 1#32 else 0#32)
  | .ucmpLeN32 d a b => some ([a, b], setsS d fun x => if cmpVal .leN (x.sreg a) (x.sreg b) then 1#32 else 0#32)
  | .ucmpLtF32 d a b => some ([a, b], setsS d fun x => if cmpVal .ltF (x.sreg a) (x.sreg b) then 1#32 else 0#32)
  | .uaddi d a imm => some ([a], setsS d fun x => aluVal .add (x.sreg a) (immS imm) 0#32)
  | .uandi d a imm => some ([a], setsS d fun x => aluVal .and (x.sreg a) (immZ imm) 0#32)
  | .uori d a imm => some ([a], setsS d fun x => aluVal .or (x.sreg a) (immZ imm) 0#32)
  | .uxori d a imm => some ([a], setsS d fun x => aluVal .xor (x.sreg a) (immZ imm) 0#32)
  | .ushli d a imm => some ([a], setsS d fun x => aluVal .shl (x.sreg a) (immZ imm) 0#32)
  | .ushriN32 d a imm => some ([a], setsS d fun x => aluVal .shrN (x.sreg a) (immZ imm) 0#32)
  | .ushriI32 d a imm => some ([a], setsS d fun x => aluVal .shrI (x.sreg a) (immZ imm) 0#32)
  | .ucmpiEq d a imm => some ([a], setsS d fun x => if cmpVal .eq (x.sreg a) (immS imm) then 1#32 else 0#32)
  | .ucmpiLtI32 d a imm => some ([a], setsS d fun x => if cmpVal .ltI (x.sreg a) (immS imm) then 1#32 else 0#32)
  | .ucmpiLtN32 d a imm => some ([a], setsS d fun x => if cmpVal .ltN (x.sreg a) (immZ imm) then 1#32 else 0#32)
  | .uadd64 d a b => some ([a, a + 1, b, b + 1], fun x n => if n = d + 1 then (x.spair a + x.spair b).extractLsb' 32 32 else if n = d then (x.spair a + x.spair b).extractLsb' 0 32 else x.sreg n)
  | .movi d imm => some ([], setsS d fun _ => immS imm)
  | _ => none

/-- R151: wave `y` is wave `x` with bundle `c.b` gone: each of its lanes has left for an address. -/
structure Left (c : Cx) (target : Nat → DWord) (x y : Wave) : Prop where
  lanes : ∀ l, y.lane l = if hasLane c.b.lanes l then { x.lane l with pc := target l } else x.lane l
  bundles : y.bundles = x.bundles.filter fun b => !(b.lanes == c.b.lanes)

/-- R170: the target of a displacement in words. -/
def relative (c : Cx) (disp : Nat) : DWord := c.pc + 4#64 * (BitVec.ofNat 16 disp).signExtend 64

/-- R170: an address with bits [1:0] ignored. -/
def aligned (v : DWord) : DWord := BitVec.ofNat 64 (v.toNat / 4 * 4)

/-- R208: the 64-byte line of an address. -/
def aligned64 (v : DWord) : DWord := BitVec.ofNat 64 (v.toNat / 64 * 64)

/-- R171: the active lanes whose predicate, or its complement under `sense`, holds; 63 stands for TRUE. -/
def taking (s : State) (c : Cx) (sense : Bool) (pred l : Nat) : Bool :=
  hasLane c.act l && (pred == 63 || Bool.xor ((s.wave c.w).pred pred l) sense)

/-- R171-R173: a transfer: what it uses, the lanes of the bundle that go, where they go, and the v-register pair and the
uniform pair that take the address after the word. -/
structure Transfer where
  pre : Pre
  goes : Nat → Bool
  target : Nat → DWord
  linkV : Option Nat := none
  linkS : Option Nat := none

/-- R171-R173. -/
def transferOf (s : State) (c : Cx) : Instr → Option Transfer
  | .bp sense pred disp => some
      { pre := { last := true, reads := c.inLanes (if pred < 48 then [(.p, pred)] else []), perLane := true }, goes := taking s c sense pred, target := fun _ => relative c disp }
  | .call sense pred disp => some
      { pre := { last := true, top := 2, reads := c.inLanes (if pred < 48 then [(.p, pred)] else []), perLane := true }, goes := taking s c sense pred,
        target := fun _ => relative c disp, linkV := some 0 }
  | .brx d a => some
      { pre := { last := true, top := Nat.max (d + 2) (extTop a true), reads := c.inLanes (Ext.regs a true), perLane := true }, goes := hasLane c.act,
        target := fun l => aligned (s.extVal64 c.w c.b a l), linkV := some d }
  | .ret a => some
      { pre := { last := true, top := extTop a true, reads := c.inLanes (Ext.regs a true), perLane := true }, goes := hasLane c.act,
        target := fun l => aligned (s.extVal64 c.w c.b a l) }
  | .bra disp => some { pre := { last := true }, goes := hasLane c.b.lanes, target := fun _ => relative c disp }
  | .bc sense r disp => some
      { pre := { last := true, reads := [(.s, r)] },
        goes := fun l => hasLane c.b.lanes l && Bool.xor ((s.wave c.w).sreg r != 0#32) sense, target := fun _ => relative c disp }
  | .ucall r disp => some { pre := { last := true }, goes := hasLane c.b.lanes, target := fun _ => relative c disp, linkS := some r }
  | .uret a => some
      { pre := { last := true, reads := [(.s, a), (.s, a + 1)] }, goes := hasLane c.b.lanes, target := fun _ => aligned ((s.wave c.w).spair a) }
  | _ => none

/-- R164: wave `y` is wave `x` in the handler of a trap: the trap registers are written, HMODE is set, and the trap lanes (the lanes named and
the others of their bundles) run in one bundle at the trap vector.  No register of a lane or of the wave changes. -/
structure InHandler (x y : Wave) (vec pc : DWord) (cause : Word) (mask : Mask) (ctx : Option Clause) : Prop where
  hmode : y.hmode = true
  trappc : y.trappc = pc
  trapcause : y.trapcause = cause
  trapmask : y.trapmask = mask
  hlanes : y.hlanes = x.trapLanes mask
  saved : y.saved = ctx
  lanes : ∀ l, y.lane l = if hasLane (x.trapLanes mask) l then { x.lane l with pc := vec, st := .running } else x.lane l
  bundle : ∃ b ∈ y.bundles, b.lanes = x.trapLanes mask ∧ b.handler = true ∧ b.phase = .header ∧ b.cl.hdr = vec
  others : ∀ b ∈ y.bundles, b.lanes = x.trapLanes mask ∨ b.lanes &&& x.trapLanes mask = 0#32
  rest : y = { x with hmode := y.hmode, trappc := y.trappc, trapcause := y.trapcause, trapmask := y.trapmask, hlanes := y.hlanes, saved := y.saved,
                      lanes := y.lanes, bundles := y.bundles }

/-- R315: a fault suspends the waves of a list and posts one record to tenant `n`; every wave, register and byte of memory is as it was. -/
structure Suspended (ws : List Nat) (n : Nat) (record : List Byte) (s t : State) : Prop where
  suspended : ∀ w ∈ ws, t.suspended w = true
  record : (t.tenant n).records = (s.tenant n).records ++ [record]
  count : (t.tenant n).nrec = (s.tenant n).nrec + 1
  tenants : ∀ k, k ≠ n → t.tenant k = s.tenant k
  waves : ∀ w, t.wave w = s.wave w
  teams : t.x.teams = s.x.teams
  cores : t.x.cores = s.x.cores
  grids : t.x.grids = s.x.grids
  mem : t.m.mem = s.m.mem
  l1 : t.m.l1 = s.m.l1
  llc : t.m.llc = s.m.llc
  reg : t.reg = s.reg
  pk : t.pk = s.pk
  o : t.o = s.o
  sch : t.sch = s.sch

/-- R191: the address of one lane passes every check of a virtual access and is this physical address. -/
def translates (s : State) (c : Cx) (need : Need) (va : DWord) (size pa : Nat) : Prop :=
  ∃ a, s.check (s.agentOf c.w) need va size = .ok a ∧ a.pa = pa

/-- R191, R185: a CLM access of `size` bytes at the value `v` of a base register plus `off` passes its three checks. -/
def inScratch (s : State) (c : Cx) (v : Word) (off size pa : Nat) : Prop :=
  v.toNat < 2 ^ 20 ∧ pa = v.toNat + off ∧ pa % size = 0 ∧ pa + size ≤ (s.teamOf c.w).scratch

/-- R201: a word of a handle at an offset. -/
def inHandle (s : State) (c : Cx) (h o pa : Nat) : Prop :=
  c.x.taskWave = false ∧ ((s.teamOf c.w).handle h).st ≠ .unbound ∧ o + 4 ≤ ((s.teamOf c.w).handle h).hlen ∧
    pa = ((s.teamOf c.w).handle h).hb + o ∧ pa + 4 ≤ (s.teamOf c.w).scratch

/-- R196-R206: the access lane l makes for a memory word passes its checks: a byte range (in CLM or in physical memory) of a size. -/
def reaches (s : State) (c : Cx) (l : Nat) (m : MemL) (clm : Bool) (pa size : Nat) : Prop :=
  let x := s.wave c.w
  match m with
  | .ld z _ _ base off => clm = false ∧ size = z ∧ translates s c .load (x.vpair base l + BitVec.ofNat 64 (off * z)) z pa
  | .st z _ _ base off => clm = false ∧ size = z ∧ translates s c .store (x.vpair base l + BitVec.ofNat 64 (off * z)) z pa
  | .ldf _ base k n =>
    let f := c.g.slot k
    let va := x.vpair base l + BitVec.ofNat 64 (4 * n)
    clm = false ∧ size = f.bytes ∧ translates s c .load va f.bytes pa ∧
      (f.sk = 1 → f.ssp = false ∧ ∃ sp, translates s c .load (f.scaleAddr (8 * (va.toNat : Int))) 1 sp)
  | .stf _ base k n =>
    let f := c.g.slot k
    let va := x.vpair base l + BitVec.ofNat 64 (4 * n)
    clm = false ∧ size = f.bytes ∧ translates s c .store va f.bytes pa ∧
      (f.sk = 1 → f.ssp = false ∧ ∃ sp, translates s c .load (f.scaleAddr (8 * (va.toNat : Int))) 1 sp)
  | .lds z _ base off => clm = true ∧ size = z ∧ inScratch s c (x.vreg base l) (off * z) z pa
  | .sts z _ base off => clm = true ∧ size = z ∧ inScratch s c (x.vreg base l) (off * z) z pa
  | .ldh _ h k => clm = true ∧ size = 4 ∧ inHandle s c h ((x.sreg k).toNat + 4 * l) pa
  | .sth _ h k => clm = true ∧ size = 4 ∧ inHandle s c h ((x.sreg k).toNat + 4 * l) pa
  | .atom _ a w _ => clm = false ∧ size = (if w then 8 else 4) ∧ translates s c .store (s.extVal64 c.w c.b a l) (if w then 8 else 4) pa
  | .batom _ a _ => clm = true ∧ size = 4 ∧ inScratch s c (s.extVal c.w c.b a l) 0 4 pa

/-- R196-R206, R199: the number a lane's store or atomic carries: its data register's bytes, lowest word first; an STF through a slot with no scale carries
the converted element, one through a scaled slot the F32s it converts once the scale byte is there.  A load carries none. -/
def carries (s : State) (c : Cx) (l : Nat) (m : MemL) : Nat :=
  let x := s.wave c.w
  match m with
  | .st z _ d _ _ | .sts z d _ _ => x.storeVal d z l
  | .sth d _ _ | .batom d _ _ => (x.vreg d l).toNat
  | .atom d _ w _ => x.storeVal d (if w then 8 else 4) l
  | .stf d _ k _ =>
    let f := c.g.slot k
    let hi := if f.fmt = 5 then x.vreg (d + 1) l else 0#32
    if f.sk = 1 then (x.vreg d l).toNat + hi.toNat * 2 ^ 32 else (storeElem f (x.vreg d l) hi none).1
  | _ => 0

/-- R204-R206: the second number of a compare-and-swap: the new value, from the registers after the first. -/
def carriesToo (s : State) (c : Cx) (l : Nat) (m : MemL) : Nat :=
  match m with
  | .atom d _ w 9 => if w then (s.wave c.w).storeVal (d + 2) 8 l else (s.wave c.w).storeVal (d + 1) 4 l
  | .batom d _ 9 => ((s.wave c.w).vreg (d + 1) l).toNat
  | _ => 0

/-- What every issue of an operation by bundle `c` leaves as it was: memory and its caches, the device, the teams, the clocks, the other waves, and
in the wave its v-registers, uniform registers, predicates, accumulators and joins. -/
structure IssueFrame (c : Cx) (s t : State) : Prop where
  m : t.m = s.m
  reg : t.reg = s.reg
  pk : t.pk = s.pk
  teams : t.x.teams = s.x.teams
  tenants : t.x.tenants = s.x.tenants
  groups : t.x.groups = s.x.groups
  waves : ∀ k, k ≠ c.w → t.wave k = s.wave k
  vregs : (t.wave c.w).v = (s.wave c.w).v
  sregs : (t.wave c.w).s = (s.wave c.w).s
  preds : (t.wave c.w).p = (s.wave c.w).p
  joins : (t.wave c.w).j = (s.wave c.w).j
  accs : (t.wave c.w).acc = (s.wave c.w).acc
  rest : t.wave c.w = { s.wave c.w with lanes := (t.wave c.w).lanes, bundles := (t.wave c.w).bundles, f := (t.wave c.w).f, po := (t.wave c.w).po,
                                        frel := (t.wave c.w).frel, satf := (t.wave c.w).satf, mprog := 0 }
  older : ∀ k, k ≠ s.o.next → t.op k = s.op k

/-- R82, R83, R236: an operation is issued by bundle `c`: it is the newest, it stands next in the wave's program order, and it
counts on one flag. -/
structure Issued (c : Cx) (flag : Nat) (s t : State) (o : Op) : Prop where
  op : t.op s.o.next = o
  next : t.o.next = s.o.next + 1
  wave : o.wave = c.w
  core : o.core = coreOf c.w
  pc : o.pc = c.pc
  pos : o.pos = [(c.w, (s.wave c.w).po)]
  flags : o.flags = [(c.w, flag)]
  pending : o.done = false
  po : (t.wave c.w).po = ((s.wave c.w).po + 1) % 2 ^ 32
  counts : ∀ f, (t.wave c.w).flag f = if f = flag then (s.wave c.w).flag f + 1 else (s.wave c.w).flag f

/-- No operation outstanding stands in the program order of wave w. -/
def quiet (s : State) (w : Nat) : Prop := ∀ e ∈ s.o.ops, e.2.poIn w = none

/-- No operation but `id` stands in the program order of wave w. -/
def alone (s : State) (w id : Nat) : Prop := ∀ e ∈ s.o.ops, (e.1 = id ∧ e.2 = s.op id) ∨ e.2.poIn w = none

/-- What a 64-bit value in the pair d leaves in register n. -/
def pairAfter (d : Option Nat) (v : DWord) (n : Nat) (old : Word) : Word :=
  match d with
  | none => old
  | some d => if n = d + 1 then v.extractLsb' 32 32 else if n = d then v.extractLsb' 0 32 else old

/-- R82: an operation is issued that stands in no lane's program order (R236); it counts on one flag. -/
structure IssuedApart (c : Cx) (flag : Nat) (s t : State) (o : Op) : Prop where
  op : t.op s.o.next = o
  next : t.o.next = s.o.next + 1
  wave : o.wave = c.w
  core : o.core = coreOf c.w
  pos : o.pos = []
  flags : o.flags = [(c.w, flag)]
  pending : o.done = false
  po : (t.wave c.w).po = (s.wave c.w).po
  counts : ∀ f, (t.wave c.w).flag f = if f = flag then (s.wave c.w).flag f + 1 else (s.wave c.w).flag f

/-- R268, R282: what MMA uses of the wave: its slots, its registers and, under ATAM, the slots of A. -/
def mmaPre (c : Cx) (acc : Nat) (atam : Bool) (areg breg fmt : Nat) : Pre :=
  let p := c.lxPre false true (atam && c.quarters.any fun q => c.x.slots < (c.aSlots areg fmt q.2).1 + (c.aSlots areg fmt q.2).2) acc true fun q => [areg + q, breg + q]
  { p with reads := p.reads ++ (if atam then c.quarters.flatMap fun q =>
      (List.range (c.aSlots areg fmt q.2).2).flatMap fun k => slotGranules ((c.aSlots areg fmt q.2).1 + k) else []) }

/-- R147: nothing outside wave w and its team changes: memory, devices, operations, the clocks, other teams and other waves; in the
team only the handles may. -/
structure HandlesOnly (w : Nat) (s t : State) : Prop where
  m : t.m = s.m
  reg : t.reg = s.reg
  pk : t.pk = s.pk
  sch : t.sch = s.sch
  cores : t.x.cores = s.x.cores
  grids : t.x.grids = s.x.grids
  groups : t.x.groups = s.x.groups
  tenants : t.x.tenants = s.x.tenants
  waves : ∀ k, k ≠ w → t.wave k = s.wave k
  others : ∀ k, k ≠ s.teamKey w → t.team k = s.team k
  team : t.team (s.teamKey w) = { s.team (s.teamKey w) with handles := (t.team (s.teamKey w)).handles }

/-- R248: handle k stands in the ring of handle h, one of more than one handle. -/
def inRingOf (t : Team) (h k : Nat) : Bool :=
  let f := (t.handle h).first.getD h
  (t.handle f).count != 1 && decide (f ≤ k ∧ k < f + (t.handle f).count)

/-- R252, R253: what makes a copy's record refused: `c` is the copy read from it, `f` the format slot that its CTL names. -/
def shapeRefused (bs : List Byte) (c : Copy) (f : FmtSlot) : Prop :=
  let esz := c.ctl.toNat % 8
  let rank := c.ctl.toNat / 8 % 8
  let cvt := c.ctl.getLsbD 7 = true
  let o4 := c.dir = 1 ∧ cvt ∧ f.fmt = 5
  leNat ((bs.drop 8).take 4) / 2 ^ 18 ≠ 0 ∨ leNat ((bs.drop 0x0E).take 2) ≠ 0 ∨ leNat ((bs.drop 0x68).take 24) ≠ 0 ∨ 3 < esz ∨ rank = 0 ∨ 5 < rank ∨ (∃ b ∈ c.boxes, b = 0) ∨
  (cvt ∧ c.dir ≠ 1) ∨ (c.dir = 3 ∧ esz ≠ 2) ∨
  (c.dir = 1 ∧ cvt ∧ f.fmt ≠ 5 ∧ esz ≠ (if f.fmt = 0 then 2 else if f.fmt ≤ 2 then 1 else 0)) ∨
  (o4 ∧ (esz ≠ 0 ∨ c.dims.getD 0 0 % 2 = 1 ∨ c.boxes.getD 0 0 % 2 = 1 ∨ ∃ k ∈ c.coords, k.getD 0 0 % 2 ≠ 0)) ∨
  (c.dir ≠ 2 ∧ (c.base.toNat % 2 ^ esz ≠ 0 ∨ ∃ i, i < rank ∧ ¬ (i = 0 ∧ o4) ∧ c.strides.getD i 0 % (2 ^ esz : Int) ≠ 0))

/-- R258: some element of the slice of set rank k lies out of bounds in dimension i. -/
def leavesBounds (c : Copy) (k i : Nat) : Prop :=
  k < c.members.length ∧ i < c.ctl.toNat / 8 % 8 ∧
    ((c.coords.getD k []).getD i 0 < 0 ∨ ((c.dims.getD i 1 : Nat) : Int) < (c.coords.getD k []).getD i 0 + (c.boxes.getD i 1 : Nat))

/-- R313: what makes a region entry refused with code 1. -/
def entryRefused (w0 w1 : DWord) : Prop :=
  w0.extractLsb' 55 9 ≠ 0#9 ∨ w0.extractLsb' 8 8 ≠ 0#8 ∨ w0.getLsbD 0 = true ∨ w1.extractLsb' 55 9 ≠ 0#9 ∨ w1.extractLsb' 2 6 ≠ 0#6 ∨
  (w0.getLsbD 7 = true ∧ (5 ≤ (w0.extractLsb' 4 3).toNat ∨ (w0.extractLsb' 2 2).toNat = 3 ∨ (w1.extractLsb' 16 39).toNat < (w0.extractLsb' 16 39).toNat))

/-- R309: the wave's own registers of 32 bits that MFS reads, by number. -/
def waveReg (x : Wave) : Nat → Option Word
  | 2 => some x.trapcause
  | 3 => some x.trapmask
  | 4 => some (BitVec.ofNat 32 x.tw)
  | 5 => some (if x.satf then 1#32 else 0#32)
  | 6 => some (if x.hmode then 1#32 else 0#32)
  | 7 => some (BitVec.ofNat 32 x.mprog)
  | _ => none

/-- R309: the wave's own registers of 64 bits, by the number of their low half. -/
def waveReg64 (x : Wave) : Nat → Option DWord
  | 0 => some x.trappc
  | 0xC => some x.rngkey
  | 0xE => some x.rngctr
  | _ => none

/-- R309: registers of the tenant that a wave reaches, by number. -/
def tenantReg (t : Tenant) : Nat → Option Word
  | 0x42 => some t.fqctl
  | 0x43 => some t.fqprod
  | 0x44 => some t.fqcons
  | 0x45 => some t.wcmd
  | 0x47 => some (BitVec.ofNat 32 t.redpol)
  | 0x48 => some (BitVec.ofNat 32 t.winsel)
  | 0x4D => some (if t.window.valid then 1#32 else 0#32)
  | 0x4E => some (BitVec.ofNat 32 t.msiport)
  | _ => none

/-- R309: and of 64 bits, by the number of their low half. -/
def tenantReg64 (t : Tenant) : Nat → Option DWord
  | 0x40 => some t.fqbase
  | 0x49 => some t.window.base
  | 0x4B => some t.window.last
  | _ => none

/-- R309, R277, R334: registers of a wave's identity, of its team, and of its core and a tenant t. -/
def placeReg (s : State) (w t : Nat) : Nat → Option Word
  | 0x10 => some (BitVec.ofNat 32 (s.waveId w))
  | 0x20 => some (if (s.teamOf w).satctl then 1#32 else 0#32)
  | 0x30 => some (BitVec.ofNat 32 ((s.tenant t).mat.allow % 2 ^ 16 * 2 ^ 16 + s.remain (coreOf w) t))
  | 0x31 => some (SMap.get 0#32 (s.core (coreOf w)).slip t)
  | _ => none

/-- R309: the 32-bit registers of the device that read.  Those of a route, of the route table and of gating read what they select. -/
def deviceReg (s : State) : Nat → Option Word
  | 0x40C => some (if s.reg.tlbBusy then 1#32 else 0#32)
  | 0x418 => some (BitVec.ofNat 32 (s.route ((s.dev 0x417).toNat % 8)).newOwner)
  | 0x419 => some (BitVec.ofNat 32 (SMap.get 0 (s.route ((s.dev 0x417).toNat % 8)).newCounts ((s.dev 0x417).toNat / 2 ^ 8 % 256)))
  | 0x432 => some (s.rtblEntry ((s.dev 0x431).toNat % 64))
  | 0x437 => some s.gatestat
  | n => if n ∈ [0x46, 0x403, 0x406, 0x40D, 0x40E, 0x412, 0x416, 0x417, 0x41D, 0x41E, 0x41F, 0x420, 0x430, 0x431, 0x435] then some (s.dev n) else none

/-- R309, R239, R341, R330: the 64-bit registers of the device that read, by the number of their low half. -/
def deviceReg64 (s : State) : Nat → Option DWord
  | 0x401 => some s.reg.chkkey
  | 0x40F => some (BitVec.ofNat 64 (s.stagedRow ((s.dev 0x40D).toNat % 8) (s.dev 0x40E).toNat))
  | 0x41B => some (BitVec.ofNat 64 s.signature)
  | n => if n ∈ [0x404, 0x407, 0x409, 0x413] then some (s.dev (n + 1) ++ s.dev n) else none

/-- R309: a 64-bit register that a wave w reads, with tenant t, by the number of its low half. -/
def reg64 (s : State) (w t n : Nat) : Option DWord :=
  match waveReg64 (s.wave w) n, tenantReg64 (s.tenant t) n with
  | some v, _ => some v
  | none, some v => some v
  | none, none => if 0x100 ≤ n ∧ n < 0x200 ∧ n % 4 = 0 then some ((s.tenant t).queue ((n - 0x100) / 4)).base else deviceReg64 s n

/-- R309: the registers that only take writes. -/
def writeOnly : List Nat := [0x400, 0x40B, 0x411, 0x415, 0x41A, 0x421, 0x422, 0x423, 0x424, 0x425, 0x426, 0x427, 0x428, 0x434, 0x436]

/-- R299: word k of a frontier, of its timestamp and its identity; all ones where there is none. -/
def frontierWord (f : Option (Nat × Nat)) (k : Nat) : Word :=
  match f with
  | none => 0xFFFFFFFF#32
  | some e => BitVec.ofNat 32 ((if k < 2 then e.1 else e.2) / 2 ^ (32 * (k % 2)))

/-- R335: no tenant changes but in what its allowances have left. -/
def OnlyAllowances (s t : State) : Prop := ∀ n, t.tenant n = { s.tenant n with budgets := (t.tenant n).budgets }

/-- R317: a tenant's records may be posted: EN stands, LOG2N is legal and the queue has room. -/
def mayPost (t : Tenant) : Prop :=
  t.fqctl.getLsbD 31 = true ∧ 4 ≤ t.fqctl.toNat % 32 ∧ t.fqctl.toNat % 32 ≤ 16 ∧ t.fqprod - t.fqcons ≠ BitVec.ofNat 32 (2 ^ (t.fqctl.toNat % 32))

/-- R317: tenant `u` is tenant `t`, with OVF set where records of it wait that may not be posted (DEDUCED, log 50). -/
structure NotesOverflow (t u : Tenant) : Prop where
  rest : u = { t with fqctl := u.fqctl }
  kept : (t.records = [] ∨ mayPost t) → u = t
  set : t.records ≠ [] → ¬ mayPost t → u.fqctl = t.fqctl ||| 0x10000#32

/-- R42, R345: port `q` is port `p` once a message for a vector has gone to it: sent, with the write of the vector's table entry, or, where the port is not
enumerated (or for CXL.io alone) or older messages wait, kept behind those. -/
def TakesMessage (p : Port) (vec : Nat) (q : Port) : Prop :=
  q = if p.enumerated = true ∧ p.ioOnly = false ∧ p.pending = []
    then { p with sent := p.sent ++ [vec], wrote := p.wrote ++ [SMap.get (0, 0#32) p.table vec], lt := q.lt }
    else { p with pending := p.pending ++ [vec], lt := q.lt }

/-- R149: what a word that one role alone may issue uses: COPY, and the matrix words. -/
def rolePre (c : Cx) : Instr → Option Pre
  | .copy nxt h a dir q => some ((LOp.copy nxt h a dir q).pre false .set c)
  | .mma _ acc atam ra rb fmt => some (mmaPre c acc atam ra rb fmt)
  | .accz acc => some (c.lxPre false true false acc false fun _ => [])
  | .accld acc ra => some (c.lxPre false true false acc false fun q => [ra + q])
  | .accst acc ra _ => some (c.lxPre false false false acc true fun q => [ra + q])
  | .accflush acc ra | .accflushDet acc ra => some (c.lxPre false false false acc true fun q => [ra + 2 * q, ra + 2 * q + 1])
  | _ => none

/-- No v-register, uniform register, predicate or accumulator slot of any wave changes. -/
structure KeepsRegisters (s t : State) : Prop where
  v : ∀ w, (t.wave w).v = (s.wave w).v
  sregs : ∀ w, (t.wave w).s = (s.wave w).s
  p : ∀ w, (t.wave w).p = (s.wave w).p
  acc : ∀ w, (t.wave w).acc = (s.wave w).acc

/-- No byte of memory changes its value. -/
def KeepsMemory (s t : State) : Prop := ∀ a, t.readPhys a 1 = s.readPhys a 1

/-- R30, R40, R226: the requests of an agent that are still to go may all go now, and no write among them is held. -/
def answered (s : State) (as : List Ask) : Prop := (s.passAsks as).1 = true ∧ ∀ a ∈ as, s.heldWrite a = false ∧ s.hostHolds a = false

/-- R229, R33: a read of a line by a core, or by an agent that is none, meets no other core's copy, or one that gives the line up without
poison (a copy that is given up takes poison on in whole granules of the level below). -/
def yieldsWhole (s : State) (core : Option Nat) (line : Nat) : Prop :=
  s.owner line = none ∨ s.owner line = core ∨ ((s.lineVal line).2 = 0#16 ∧ (s.below line).2 = 0#16)

/-- Byte a after n bytes of a number v were written at pa, little-endian (R4). -/
def byteAfter (pa n v a old : Nat) : Nat := if pa ≤ a ∧ a < pa + n then v / 2 ^ (8 * (a - pa)) % 256 else old

/-- The bytes pa to pa + n - 1 of memory take the number v, no other byte of memory changes its value. -/
def MemoryWrites (pa n v : Nat) (s t : State) : Prop := ∀ a, t.readPhys a 1 = byteAfter pa n v a (s.readPhys a 1)

/-- Every flag an operation counts falls by one. -/
def FlagFalls (o : Op) (s t : State) : Prop := ∀ w f, o.flags = [(w, f)] → (t.wave w).flag f = (s.wave w).flag f - 1

/-- Part i of an operation is its only part still to perform, and no part has met poisoned data. -/
def lastPart (o : Op) (i : Nat) : Prop := o.done = false ∧ ∀ j q, o.parts[j]? = some q → q.hurt = false ∧ (j ≠ i → q.plt.isSome = true)

/-- Nothing changes but the device registers (R309) and the commands they start. -/
structure DeviceRegsOnly (s t : State) : Prop where
  sch : t.sch = s.sch
  x : t.x = s.x
  pk : t.pk = s.pk
  m : t.m = s.m
  o : t.o = s.o

/-- Nothing changes but the registers of tenant n. -/
structure TenantOnly (n : Nat) (s t : State) : Prop where
  sch : t.sch = s.sch
  reg : t.reg = s.reg
  pk : t.pk = s.pk
  m : t.m = s.m
  o : t.o = s.o
  waves : ∀ w, t.wave w = s.wave w
  teams : t.x.teams = s.x.teams
  cores : t.x.cores = s.x.cores
  grids : t.x.grids = s.x.grids
  groups : t.x.groups = s.x.groups
  others : ∀ k, k ≠ n → t.tenant k = s.tenant k

/-- R309: the device registers of one word that are plain bits, with the bits that stand. -/
def plainRegs : List (Nat × Word) :=
  [(0x46, 0x1F#32), (0x40D, 7#32), (0x40E, 0x3F#32), (0x417, 0xFF07#32), (0x41F, 1#32), (0x420, 7#32), (0x431, 0x3F#32)]

/-- R309: the 64-bit device registers that hold an address, with the lowest bit that stands. -/
def addressRegs : List (Nat × Nat) := [(0x404, 6), (0x407, 16), (0x413, 12)]

/-- R187, R322: an address kept from bit `lo` up to bit 51. -/
def keptAddress (v : DWord) (lo : Nat) : DWord := BitVec.ofNat 64 (v.toNat / 2 ^ lo % 2 ^ (52 - lo) * 2 ^ lo)

/-- R190, R225: what every cache keeps: a clean line of the LLC has its home's data, and a line that an L1 holds dirty is the one that holds it
exclusively. -/
structure Coherent (s : State) : Prop where
  clean : ∀ line, (s.llcLine line).valid = true → (s.llcLine line).dirty = false → (s.llcLine line).data = s.homeData line
  dirty : ∀ c line, c < 256 → (s.l1Line c line).valid = true → (s.l1Line c line).dirty = true → s.owner line = some c

/-- R309: device register n takes a value; no other register, and nothing outside the device registers, changes. -/
def SetsDev (n : Nat) (v : Word) (s t : State) : Prop :=
  DeviceRegsOnly s t ∧ t.reg = { s.reg with dev := t.reg.dev } ∧ ∀ k, t.dev k = if k = n then v else s.dev k

/-- The words of a value of resetstat or prestat. -/
def statusWord (state why : Nat) : Word := BitVec.ofNat 32 (state + 16 * why)

/-- R22: how the factor F moves with the sum of the last ten samples, in watts, against the limit. -/
def movedF (f limit sum : Nat) : Nat :=
  if 10 * limit < sum then (if f ≤ 8 then 8 else f - 1) else if 10 * sum ≤ 95 * limit then (if 64 ≤ f then 64 else f + 1) else f

/-- R335, R336: how many periods of a kind have ended exhausted, as one ends. -/
def endedExhausted (a : Allowance) : Nat := if a.allow ≠ 0 ∧ a.rem = 0 then a.exhausted + 1 else 0

/-- R336: BUDGET is due as a period ends. -/
def budgetDue (a : Allowance) : Prop := a.pol = 2 ∧ a.limit ≠ 0 ∧ a.limit ≤ endedExhausted a

/-- R30: two requests of one source to one bank. -/
def sameBank (q k : HbmReq) : Bool := k.tenant == q.tenant && k.die == q.die && k.bank == q.bank

/-- R315, R316: a device error is reported to tenant 0, and no wave, register or byte of memory changes by it. -/
def ReportsError (reason info paddr : Nat) (s t : State) : Prop :=
  ∃ r, (t.tenant 0).records = (s.tenant 0).records ++ [r] ∧ r.length = 64 ∧ leNat (r.take 1) = 0x30 ∧ leNat ((r.drop 1).take 1) = reason ∧ leNat ((r.drop 2).take 1) = 3 ∧
    leNat ((r.drop 0x20).take 8) = info ∧ leNat ((r.drop 0x28).take 8) = paddr ∧ leNat ((r.drop 0x38).take 8) = (s.tenant 0).nrec % 2 ^ 64

/-- R54, R55, R60: wave `y` is the wave number w of a team of grid gk as it starts: every lane RUNNING at the entry point, S0 to S31 the launch's constants,
every other register zero. -/
structure NewWave (g : Grid) (gk slot w : Nat) (y : Wave) : Prop where
  resident : y.resident = true
  place : y.grid = gk ∧ y.tslot = slot ∧ y.widx = w
  role : y.role = (g.waveKind w).1 ∧ y.vcount = (g.waveKind w).2.1 ∧ y.slots = (g.waveKind w).2.2
  lanes : ∀ l, l < 32 → g.redun ≠ 2 → y.lane l = { pc := g.entry, st := .running }
  consts : ∀ n, y.sreg n = if n < 32 then g.consts.getD n 0#32 else 0#32
  zero : y.v = [] ∧ y.p = [] ∧ y.acc = [] ∧ y.j = [] ∧ y.f = [] ∧ y.bundles = [] ∧ y.tw = 5 ∧ y.satf = false ∧ y.hmode = false ∧ y.mprog = 0 ∧ y.rngkey = g.rngkey

/-- R54: only accumulator slot n of wave w changes among the registers of lanes and waves. -/
structure SlotOnly (w n : Nat) (s t : State) : Prop where
  v : ∀ k, (t.wave k).v = (s.wave k).v
  sregs : ∀ k, (t.wave k).s = (s.wave k).s
  p : ∀ k, (t.wave k).p = (s.wave k).p
  others : ∀ k, k ≠ w → (t.wave k).acc = (s.wave k).acc
  slots : ∀ k i, k ≠ n → i < 256 → (t.wave w).accElem k i = (s.wave w).accElem k i

/-- The number of n bytes of a team's scratch. -/
def clmVal (s : State) (w a n : Nat) : Nat := ((s.teamOf w).readClm a n).1

/-- A wave's lane goes on at the word after the one it waits at. -/
def ranOn (x y : Wave) (l : Nat) : Prop := y.lane l = { x.lane l with pc := (x.lane l).pc + 4#64, st := .running }

/-- R95, R96: the value of a finite F32 in units of 2^-149. -/
def units149 (x : Word) : Int :=
  let e := x.toNat / 2 ^ 23 % 2 ^ 8
  let m := x.toNat % 2 ^ 23
  (if x.getLsbD 31 then -1 else 1) * ((if e = 0 then m else (2 ^ 23 + m) * 2 ^ (e - 1) : Nat) : Int)

/-- R95: an F32 that is neither an infinity nor a NaN. -/
abbrev finite32 (x : Word) : Prop := x.toNat / 2 ^ 23 % 2 ^ 8 ≠ 255

/-- R95: an F32 that is a NaN. -/
abbrev nan32 (x : Word) : Prop := x.toNat / 2 ^ 23 % 2 ^ 8 = 255 ∧ x.toNat % 2 ^ 23 ≠ 0

/-- R97: `r` is the exact value `v`, in units of 2^-(149 + k), rounded to the nearest F32, a tie to the even one; a value that far beyond the greatest finite
F32 is the infinity of its sign. -/
def rounded (r : Word) (v : Int) (k : Nat) : Prop :=
  (finite32 r → (∀ z, finite32 z → (units149 r * 2 ^ k - v).natAbs ≤ (units149 z * 2 ^ k - v).natAbs) ∧
    (∀ z, finite32 z → units149 z ≠ units149 r → (units149 z * 2 ^ k - v).natAbs = (units149 r * 2 ^ k - v).natAbs → r.getLsbD 0 = false)) ∧
  (r = 0x7F800000#32 ↔ (2 ^ 25 - 1) * 2 ^ (252 + k) ≤ v) ∧ (r = 0xFF800000#32 ↔ v ≤ -((2 ^ 25 - 1) * 2 ^ (252 + k))) ∧ ¬ nan32 r

/-- R141, R142: the operator of a reduction of a type (I32, N32, F32) and an operation (add, min, max). -/
def redOp (ty opr : Nat) (x y : Word) : Word :=
  match ty, opr with
  | 0, 1 => aluVal .minI x y 0#32
  | 0, 2 => aluVal .maxI x y 0#32
  | 1, 1 => aluVal .minN x y 0#32
  | 1, 2 => aluVal .maxN x y 0#32
  | 2, 0 => aluVal .addF x y 0#32
  | 2, 1 => aluVal .minF x y 0#32
  | 2, 2 => aluVal .maxF x y 0#32
  | _, _ => aluVal .add x y 0#32

/-- R112, R115: its identity. -/
def redUnit (ty opr : Nat) : Word :=
  match ty, opr with
  | 0, 1 => 0x7FFFFFFF#32
  | 0, 2 => 0x80000000#32
  | 1, 1 => 0xFFFFFFFF#32
  | 2, 0 => 0x80000000#32
  | 2, 1 => 0x7F800000#32
  | 2, 2 => 0xFF800000#32
  | _, _ => 0#32

/-- R112: the tree over 2^n leaves. -/
def treeOf (f : Word → Word → Word) : Nat → (Nat → Word) → Word
  | 0, x => x 0
  | n + 1, x => f (treeOf f n x) (treeOf f n fun i => x (2 ^ n + i))

/-- R112, R113: `r` is the reduction of a group's W leaves: one tree, or, at SET scope, a tree over the waves' trees, padded with the identity to the next power
of two. -/
def GroupValue (set : Prop) (W : Nat) (f : Word → Word → Word) (unit : Word) (x : Nat → Word) (r : Word) : Prop :=
  (∀ m, ¬ set → W = 2 ^ m → r = treeOf f m x) ∧
  (∀ m n, set → W = 32 * n → n ≤ 2 ^ m → (m = 0 ∨ 2 ^ (m - 1) < n) → r = treeOf f m fun k => if k < n then treeOf f 5 (fun i => x (32 * k + i)) else unit)

/-- R320: in state `u` the RESTORE `v` by a core is in progress, where it was in `s` or is taken in `s`: it is taken where no command is in progress and
the area can be there; prestat is busy then. -/
def RestoreUnder (s : State) (core : Nat) (v : Saving) (u : State) : Prop :=
  (s.reg.restoring = some v ∧ v.core = core ∧ u = s) ∨
  (s.reg.restoring = none ∧ (s.dev 0x416).toNat % 4 ≠ 1 ∧ s.areaOk s.preaddr 4096 = true ∧ v = { core := core, addr := s.preaddr } ∧
    u = { s.setDev 0x416 (statusWord 1 0) with reg := { (s.setDev 0x416 (statusWord 1 0)).reg with restoring := some v } })

/-- R321: where the registers of wave i of a saved team stand in the team's area. -/
def regsAt (ws : List Wave) (i : Nat) : Nat := 4096 + ((ws.take i).map fun x => 128 * x.vcount + 512).sum

/-- R321: where the control words of wave i stand. -/
def controlAt (ws : List Wave) (scratch i : Nat) : Nat := (areaOffsets (areaSizes ws scratch)).getD 5 0 + 1024 * i

/-- R320, R321: wave `y` is resident and holds what the registers at `regs` and the control words at `ctl` of memory say: v-registers, uniform registers,
predicates, and where its lanes stand and which of them have exited. -/
structure HoldsArea (s : State) (regs ctl : Nat) (y : Wave) : Prop where
  resident : y.resident = true
  vregs : ∀ n l, n < y.vcount → l < 32 → y.vreg n l = BitVec.ofNat 32 (s.areaWord (regs + 128 * n + 4 * l) 4)
  sregs : ∀ n, n < 64 → y.sreg n = BitVec.ofNat 32 (s.areaWord (regs + 128 * y.vcount + 4 * n) 4)
  preds : ∀ n, n < 48 → y.pmask n = BitVec.ofNat 32 (s.areaWord (regs + 128 * y.vcount + 256 + 4 * n) 4)
  lanes : ∀ l, l < 32 → (y.lane l).pc = BitVec.ofNat 64 (s.areaWord (ctl + 8 * l) 8) ∧
    ((y.lane l).st = .exited ↔ 2 ≤ s.areaWord (ctl + 256 + 8 * l) 8 % 4)

/-- What every step keeps of memory and its caches: the canonical forms, and R225's coherence. -/
structure MemoryInv (s : State) : Prop where
  mem : Memory.wf s.m.mem = true
  scrambled : SMap.wf 0 s.m.scrambled = true
  coherent : Coherent s

end Sys2Proof.Safety
end

