-- ==== Sys2Proof/Certificates/Slice0/Obligations.lean ====
section
/-! DEFINITION. The statements for the provers. -/

open Sys2Proof Sys2Proof.Machine Sys2Proof.Safety

/-- R120, R126-R136: every word of the computation class at LANE scope completes: each active lane's destination takes the
operation's value of its operands as they were, and nothing else changes but where the bundle's lanes stand. -/
def Obligations.LaneComputationResult : Prop :=
  ∀ (i : Instr) (op : LOp) (s : State) (c : Cx), lword i = some (.lane, op) → computes op = true → Ready s c i (op.pre false .lane c) →
    ∃ t, exec i s = .next t ∧ OutsideWaves [c.w] s t ∧ LaneRegsOnly (s.wave c.w) (t.wave c.w) ∧ Moved c (s.wave c.w) (t.wave c.w) ∧
      ∀ n l, l < 32 → (t.wave c.w).vreg n l = vAfter s c op n l ∧ (t.wave c.w).pred n l = pAfter s c op n l

/-- R73, R156: a word of the L class at a scope wider than LANE completes its issue by arriving at a rendezvous: every lane of the
bundle waits there with the word's operation, and nothing else changes.  A task wave has no scope wider than WAVE, and no handle (R290). -/
def Obligations.WideWordArrives : Prop :=
  ∀ (i : Instr) (sc : Scope) (op : LOp) (s : State) (c : Cx), lword i = some (sc, op) → sc ≠ .lane → (c.x.taskWave = true → sc = .wave ∧ op.noTask sc = false) →
    Ready s c i (op.pre false sc c) →
    ∃ t ord, exec i s = .next t ∧ OutsideWaves [c.w] s t ∧ PlaceOnly (s.wave c.w) (t.wave c.w) ∧
      ∀ l, (t.wave c.w).lane l = if hasLane c.b.lanes l
        then { (s.wave c.w).lane l with st := .waiting (.rdv sc (if sc = .set then c.b.cl.sset else 0) (hasLane c.act l) op ord false) }
        else (s.wave c.w).lane l

/-- R137, R138: every uniform computation word completes: the destination takes the value of the operands as they were, once for the
bundle and whatever its lanes' guard, and nothing else changes but where the bundle's lanes stand. -/
def Obligations.UniformComputationResult : Prop :=
  ∀ (i : Instr) (reads : List Nat) (after : Wave → Nat → Word) (s : State) (c : Cx), uword i = some (reads, after) →
    Ready s c i { reads := reads.map fun n => (.s, n) } →
    ∃ t, exec i s = .next t ∧ OutsideWaves [c.w] s t ∧ UniformRegsOnly (s.wave c.w) (t.wave c.w) ∧ Moved c (s.wave c.w) (t.wave c.w) ∧
      ∀ n, (t.wave c.w).sreg n = after (s.wave c.w) n

/-- R170-R173: each of BP, CALL, BRX, RET, BRA, BC, UCALL and URET all of whose targets are canonical completes: the lanes that go stand at
their targets, the other lanes of the bundle at the next header, CALL and BRX link each lane that goes and UCALL links once, and nothing else
changes.
R170, R316: one that some lane takes to a target that is not canonical raises PAGE NONCANON (code 0x10, reason 0) before any lane moves: the
wave is suspended, one record is queued for its tenant, which names the lowest such lane, its target and the address of the word, and no
register, lane or byte of memory changes.  (In a task wave whose other lanes go on, R300 has its own answer.) -/
def Obligations.ControlTransfers : Prop :=
  (∀ (i : Instr) (k : Transfer) (s : State) (c : Cx), transferOf s c i = some k → Ready s c i k.pre →
     (∀ l, k.goes l = true → canonical (k.target l) = true) →
     ∃ t, exec i s = .next t ∧ OutsideWaves [c.w] s t ∧
       Left c (fun l => if k.goes l then k.target l else c.pc + 4#64) (s.wave c.w) (t.wave c.w) ∧
       t.wave c.w = { s.wave c.w with v := (t.wave c.w).v, s := (t.wave c.w).s, lanes := (t.wave c.w).lanes, bundles := (t.wave c.w).bundles, mprog := 0 } ∧
       (∀ n l, l < 32 → (t.wave c.w).vreg n l =
         if k.goes l then pairAfter k.linkV (c.pc + 4#64) n ((s.wave c.w).vreg n l) else (s.wave c.w).vreg n l) ∧
       ∀ n, (t.wave c.w).sreg n = pairAfter k.linkS (c.pc + 4#64) n ((s.wave c.w).sreg n)) ∧
  (∀ (i : Instr) (k : Transfer) (s : State) (c : Cx) (l : Nat), transferOf s c i = some k → Ready s c i k.pre →
     k.goes l = true → canonical (k.target l) = false → (∀ n, n < l → k.goes n = true → canonical (k.target n) = true) →
     (∀ m, Plain s c.w m) → (c.x.taskWave = false ∨ ∀ n, hasLane c.b.lanes n = true → k.goes n = true ∧ canonical (k.target n) = false) →
     ∃ t, exec i s = .next t ∧ Suspended [c.w] (s.gridOf c.w).tenant
       (recordBytes { code := 0x10, reason := 0, addr := (k.target l).toNat } 0 l (ctxWord (s.gridOf c.w).tenant (s.gridOf c.w).asid) c.pc.toNat
         (s.waveId c.w) (s.core (coreOf c.w)).lt (s.tenant (s.gridOf c.w).tenant).nrec) s t)

/-- R177, R178, R210: PART sets the wave's tile width, YIELD lets other waves of the partition go first until 64 cycles have passed (R178
bounds that by 64 and says no more: that it is 64 is the model's choice, DESIGN CHOICE, log 55), IFENCE drops what the wave has run ahead to; the
bundle goes on and nothing else changes.
R176: EXIT ends the active lanes; the other lanes of the bundle go to the next header; the lanes that end leave every join; no register,
memory or flag changes. -/
def Obligations.WaveControlWords : Prop :=
  (∀ (s : State) (c : Cx),
     (∀ r, Ready s c (.part r) {} → ∃ t, exec (.part r) s = .next t ∧ OutsideWaves [c.w] s t ∧ Moved c (s.wave c.w) (t.wave c.w) ∧
       PlaceOnly { s.wave c.w with tw := r } (t.wave c.w)) ∧
     (Ready s c .yield {} → ∃ t, exec .yield s = .next t ∧ OutsideWaves [c.w] s t ∧ Moved c (s.wave c.w) (t.wave c.w) ∧
       PlaceOnly { s.wave c.w with yieldUntil := s.sch.cycle + 64 } (t.wave c.w)) ∧
     (Ready s c .ifence {} → ∃ t, exec .ifence s = .next t ∧ OutsideWaves [c.w] s t ∧ Moved c (s.wave c.w) (t.wave c.w) ∧
       PlaceOnly { s.wave c.w with ibuf := [] } (t.wave c.w))) ∧
  (∀ (s : State) (c : Cx), Ready s c .exit { last := true } →
     (∀ l, hasLane c.b.lanes l = true → ((s.wave c.w).lane l).st = .running) →
     ∃ t, exec .exit s = .next t ∧ OutsideWaves [c.w] s t ∧
       (∀ l, hasLane c.act l = true → ((t.wave c.w).lane l).st = .exited) ∧
       (∀ l, hasLane c.b.lanes l = true → hasLane c.act l = false → (t.wave c.w).lane l = { (s.wave c.w).lane l with pc := c.pc + 4#64 }) ∧
       (∀ n, n < 16 → (t.wave c.w).join n = { (s.wave c.w).join n with expect := ((s.wave c.w).join n).expect &&& ~~~c.act }) ∧
       t.wave c.w = { s.wave c.w with j := (t.wave c.w).j, lanes := (t.wave c.w).lanes, bundles := (t.wave c.w).bundles, mprog := 0,
                                      stuck := (s.wave c.w).stuck &&& ~~~c.act })

/-- R162, R175: JOINSET writes a join's expected lanes, masked to those that have not exited, and clears LOST; JOINLEAVE takes the active
lanes off the expected ones; a JOIN that still misses an expected lane makes the active lanes it expects wait and lets the others go on.
No register, memory or flag changes.
R162: where the lanes that arrive at a JOIN are the last it expects, every lane that waits at it runs on at the address after its own
JOIN. -/
def Obligations.JoinWordsAndReleases : Prop :=
  (∀ (s : State) (c : Cx) (j : Nat), j < 16 →
     (∀ a x, Ready s c (.joinset j a x) { reads := if x then [] else [(.s, a)] } →
       ∃ t, exec (.joinset j a x) s = .next t ∧ OutsideWaves [c.w] s t ∧
         (t.wave c.w).join j = { expect := (if x then c.b.lanes else (s.wave c.w).sreg a) &&& (s.wave c.w).live, lost := false } ∧
         (∀ k, k ≠ j → (t.wave c.w).join k = (s.wave c.w).join k) ∧
         t.wave c.w = { s.wave c.w with j := (t.wave c.w).j, lanes := (t.wave c.w).lanes, bundles := (t.wave c.w).bundles, mprog := 0 }) ∧
     (Ready s c (.joinleave j) {} →
       ∃ t, exec (.joinleave j) s = .next t ∧ OutsideWaves [c.w] s t ∧
         (t.wave c.w).join j = { (s.wave c.w).join j with expect := ((s.wave c.w).join j).expect &&& ~~~c.act } ∧
         (∀ k, k ≠ j → (t.wave c.w).join k = (s.wave c.w).join k) ∧
         t.wave c.w = { s.wave c.w with j := (t.wave c.w).j, lanes := (t.wave c.w).lanes, bundles := (t.wave c.w).bundles, mprog := 0 }) ∧
     (Ready s c (.join j) { last := true } →
       ∃ t, exec (.join j) s = .next t ∧ OutsideWaves [c.w] s t ∧ (∀ k, (t.wave c.w).join k = (s.wave c.w).join k) ∧
         t.wave c.w = { s.wave c.w with lanes := (t.wave c.w).lanes, bundles := (t.wave c.w).bundles, mprog := 0 } ∧
         ((∃ l, hasLane (((s.wave c.w).join j).expect) l = true ∧ hasLane c.act l = false ∧ ((s.wave c.w).lane l).st ≠ .waiting (.join j)) →
           (∀ l, hasLane c.b.lanes l = true → ((s.wave c.w).lane l).st = .running) →
           ∀ l, hasLane c.b.lanes l = true → (t.wave c.w).lane l =
             if hasLane c.act l && hasLane ((s.wave c.w).join j).expect l then { (s.wave c.w).lane l with st := .waiting (.join j) }
             else { (s.wave c.w).lane l with pc := c.pc + 4#64 }))) ∧
  (∀ (s : State) (c : Cx) (j : Nat), j < 16 → Ready s c (.join j) { last := true } →
     (∀ l, hasLane c.b.lanes l = true → (s.wave c.w).lane l = { pc := c.pc, st := .running, task := ((s.wave c.w).lane l).task }) →
     (∀ l, hasLane ((s.wave c.w).join j).expect l = true → hasLane c.act l = true ∨ ((s.wave c.w).lane l).st = .waiting (.join j)) →
     (∃ l, hasLane c.act l = true ∧ hasLane ((s.wave c.w).join j).expect l = true) →
     ∃ t, exec (.join j) s = .next t ∧ ∀ l, hasLane ((s.wave c.w).join j).expect l = true →
       (t.wave c.w).lane l = { (s.wave c.w).lane l with pc := ((s.wave c.w).lane l).pc + 4#64, st := .running })

/-- R90, R163, R164: a word of the L or U class that is illegal where it stands changes nothing of its own and is taken as the in-wave trap ILLOP:
TRAPPC is its address, TRAPMASK every lane of the bundle, and the clause context is saved.
R56, R91, R163: a legal L-word that names a v-register at or above the wave's declared count is taken as REGBOUND, at every scope; nothing
else of the machine changes.
R149: COPY, MMA, ACCZ, ACCLD, ACCST, ACCFLUSH or ACCFLUSH.DET in a wave of another role is taken as ROLE by every lane of the bundle.
R174: a JTAB some of whose active lanes have an index that is not below the count is taken as JTBOUND, with those lanes as TRAPMASK.
R305: a SPAWN by lanes all of which name a timestamp before their own task's is taken as TSORDER (in a task wave whose other lanes go on, R300 has
its own answer). -/
def Obligations.IllegalWordsTrap : Prop :=
  (∀ (i : Instr) (s : State) (c : Cx), ((lword i).isSome = true ∨ (uword i).isSome = true) → i.illegal.isSome = true → s.cx = some c →
     Plain s c.w c.b.lanes → c.x.hmode = false → c.g.trapvec ≠ 0#64 →
     ∃ t, exec i s = .next t ∧ OutsideWaves [c.w] s t ∧ InHandler (s.wave c.w) (t.wave c.w) c.g.trapvec c.pc 0x01#32 c.b.lanes (some c.b.cl)) ∧
  (∀ (i : Instr) (sc : Scope) (op : LOp) (s : State) (c : Cx), lword i = some (sc, op) → i.illegal = none → s.cx = some c →
     (op.pre false sc c).bad = false → (op.pre false sc c).flag ≠ some 15 → (sc = .set → c.badSet = false) →
     ((op.pre false sc c).role = none ∨ (op.pre false sc c).role = some c.x.role) → c.x.vcount < op.top (op.o4 c.g) →
     Plain s c.w c.b.lanes → c.x.hmode = false → c.g.trapvec ≠ 0#64 →
     ∃ t, exec i s = .next t ∧ OutsideWaves [c.w] s t ∧ InHandler (s.wave c.w) (t.wave c.w) c.g.trapvec c.pc 0x02#32 c.b.lanes (some c.b.cl)) ∧
  (∀ (i : Instr) (p : Pre) (r : Role) (s : State) (c : Cx), rolePre c i = some p → i.illegal = none → s.cx = some c → p.flag ≠ some 15 →
     (p.set = true → c.badSet = false) → p.role = some r → r ≠ c.x.role → Plain s c.w c.b.lanes → c.x.hmode = false → c.g.trapvec ≠ 0#64 →
     ∃ t, exec i s = .next t ∧ OutsideWaves [c.w] s t ∧ InHandler (s.wave c.w) (t.wave c.w) c.g.trapvec c.pc 0x05#32 c.b.lanes (some c.b.cl)) ∧
  (∀ (cnt : Nat) (a : Ext) (b : Nat) (m : Mask) (s : State) (c : Cx), (Instr.jtab cnt a b).illegal = none → s.cx = some c → c.isLast = true →
     b + 1 ≤ c.x.vcount → extTop a true ≤ c.x.vcount → (∀ l, hasLane m l = (hasLane c.act l && decide (c.x.sreg cnt ≤ c.x.vreg b l))) → m ≠ 0#32 →
     c.x.taskWave = false → c.x.hmode = false → c.g.trapvec ≠ 0#64 →
     ∃ t, exec (.jtab cnt a b) s = .next t ∧ OutsideWaves [c.w] s t ∧ InHandler (s.wave c.w) (t.wave c.w) c.g.trapvec c.pc 0x03#32 m (some c.b.cl)) ∧
  (∀ (d : Nat) (a : Ext) (b : Nat) (s : State) (c : Cx), (Instr.spawn d a b).illegal = none → s.cx = some c → c.b.cl.second ≠ 15 → c.b.lanes ≠ 0#32 →
     d + 8 ≤ c.x.vcount → b + 1 ≤ c.x.vcount → extTop a true ≤ c.x.vcount → c.x.taskWave = true → Plain s c.w c.b.lanes → c.x.hmode = false →
     c.g.trapvec ≠ 0#64 → (∀ l, hasLane c.b.lanes l = true → hasLane c.act l = true ∧ s.extVal64 c.w c.b a l < (s.laneTask c.w l).ts) →
     ∃ t, exec (.spawn d a b) s = .next t ∧ OutsideWaves [c.w] s t ∧ InHandler (s.wave c.w) (t.wave c.w) c.g.trapvec c.pc 0x07#32 c.b.lanes (some c.b.cl))

/-- R180, R164: TRAP n is taken as the in-wave trap 0x80 + n of every lane of its bundle: TRAPPC is the address after it, no clause context is
saved, and the lanes run at the launch's trap vector.
R165, R315: a TRAP in handler mode, or where the launch's trap vector is zero, is posted as PROT HTRAP instead: the wave is suspended, the
record's INFO is the in-wave cause and its PC the address that would have been TRAPPC, and the trap registers keep their values. -/
def Obligations.TrapWord : Prop :=
  (∀ (n : Nat) (s : State) (c : Cx), n < 128 → Ready s c (.trap n) { last := true } → Plain s c.w c.b.lanes → c.b.lanes ≠ 0#32 → c.x.hmode = false →
     c.g.trapvec ≠ 0#64 → ∃ t, exec (.trap n) s = .next t ∧ OutsideWaves [c.w] s t ∧
       InHandler (s.wave c.w) (t.wave c.w) c.g.trapvec (c.pc + 4#64) (BitVec.ofNat 32 (0x80 + n)) c.b.lanes none) ∧
  (∀ (n : Nat) (s : State) (c : Cx), n < 128 → Ready s c (.trap n) { last := true } → Plain s c.w c.b.lanes → c.b.lanes ≠ 0#32 →
     (c.x.hmode = true ∨ c.g.trapvec = 0#64) → ∃ t, exec (.trap n) s = .next t ∧ t.suspended c.w = true ∧
       (t.wave c.w).hmode = c.x.hmode ∧ (t.wave c.w).trappc = c.x.trappc ∧ (t.wave c.w).trapcause = c.x.trapcause ∧
       (t.wave c.w).trapmask = c.x.trapmask ∧ (t.wave c.w).v = c.x.v ∧ (t.wave c.w).s = c.x.s ∧ (t.wave c.w).p = c.x.p ∧
       t.m.mem = s.m.mem ∧ t.reg = s.reg ∧
       (t.tenant c.g.tenant).records = (s.tenant c.g.tenant).records ++
         [recordBytes { code := 0x11, reason := 13, info := 0x80 + n } 0 (lowest c.b.lanes) (ctxWord c.g.tenant c.g.asid) (c.pc + 4#64).toNat
           (s.waveId c.w) (s.core (coreOf c.w)).lt (s.tenant c.g.tenant).nrec])

/-- R181: RETT in handler mode resumes every lane that entered the handler and has not exited at TRAPPC, in the clause context that was saved
if one is; HMODE is clear, the wave's other bundles may issue again and no register changes. -/
def Obligations.ReturnFromTrap : Prop :=
  ∀ (s : State) (c : Cx), Ready s c .rett { last := true } → c.x.hmode = true →
    ∃ t, exec .rett s = .next t ∧ OutsideWaves [c.w] s t ∧ (t.wave c.w).hmode = false ∧ (t.wave c.w).saved = none ∧
      (∀ l, (t.wave c.w).lane l = if hasLane c.x.hlanes l && !(c.x.lane l).st.isExited then { c.x.lane l with pc := c.x.trappc, st := .running } else c.x.lane l) ∧
      (∀ b ∈ (t.wave c.w).bundles, b.handler = false) ∧
      (∀ cl, c.x.saved = some cl → (∃ l, hasLane c.x.hlanes l = true ∧ (c.x.lane l).st.isExited = false) →
        ∃ b ∈ (t.wave c.w).bundles, b.phase = .body ∧ b.stall = .none ∧
          (∀ l, hasLane b.lanes l = (hasLane c.x.hlanes l && !(c.x.lane l).st.isExited)) ∧ b.cl = { cl with act := cl.act &&& b.lanes }) ∧
      t.wave c.w = { c.x with hmode := false, hlanes := 0#32, saved := none, lanes := (t.wave c.w).lanes, bundles := (t.wave c.w).bundles, mprog := 0 }

/-- R315, R316: a system fault suspends every wave of its group and posts one 64-byte record to the tenant's fault queue; the record's fields
stand at the offsets the layout gives; every other tenant, every register and every byte of memory is as it was. -/
def Obligations.SystemFaultPostsRecord : Prop :=
  ∀ (s : State) (ws : List Nat) (susp w lane : Nat) (pc : DWord) (f : FaultInfo),
    ∃ r, Suspended ws (s.gridOf w).tenant r s (s.sysFault ws susp w lane pc f) ∧ r.length = 64 ∧
      leNat (r.take 1) = f.code % 2 ^ 8 ∧ leNat ((r.drop 1).take 1) = f.reason % 2 ^ 8 ∧ leNat ((r.drop 2).take 1) = susp % 2 ^ 8 ∧
      leNat ((r.drop 3).take 1) = lane % 2 ^ 8 ∧ leNat ((r.drop 8).take 8) = f.addr % 2 ^ 64 ∧ leNat ((r.drop 0x10).take 8) = pc.toNat ∧
      leNat ((r.drop 0x18).take 4) = s.waveId w % 2 ^ 32 ∧ leNat ((r.drop 0x20).take 8) = f.info % 2 ^ 64 ∧
      leNat ((r.drop 0x28).take 8) = f.paddr % 2 ^ 64 ∧ leNat ((r.drop 0x38).take 8) = (s.tenant (s.gridOf w).tenant).nrec % 2 ^ 64

/-- R78, R79: a CLAUSE word at a header whose extension and instruction words are to hand starts the clause: the lanes stand at its first
instruction, the bundle holds the header, the extension and the words as fetched, it waits for the flags that its mask names, and where they
are all zero it issues, with the lanes its guard lets through active.  Nothing else changes. -/
def Obligations.ClauseStarts : Prop :=
  ∀ (wait first second len : Nat) (e : Word) (code : List Word) (s : State) (c : Cx),
    wait < 2 ^ 12 → first < 16 → second < 16 → len < 16 → (Instr.clause wait first second len).illegal = none → s.cx = some c → c.b.phase = .header →
    c.x.fetched (c.pc + 4#64) = some e → badExtension e = false → code.length = len + 1 →
    (∀ k, k ≤ len → c.x.fetched (c.pc + BitVec.ofNat 64 (8 + 4 * k)) = code[k]?) →
    ∃ t b, exec (.clause wait first second len) s = .next t ∧ OutsideWaves [c.w] s t ∧
      t.wave c.w = { c.x with lanes := (t.wave c.w).lanes, bundles := (t.wave c.w).bundles } ∧
      (∀ l, (t.wave c.w).lane l = if hasLane c.b.lanes l then { c.x.lane l with pc := c.pc + 8#64 } else c.x.lane l) ∧
      (t.wave c.w).bundles = c.x.bundles.map (fun k => if k.lanes == c.b.lanes then b else k) ∧
      b.lanes = c.b.lanes ∧ b.cl.hdr = c.pc ∧ b.cl.ext = e ∧ b.cl.code = code ∧ b.cl.waitMask = wait ∧ b.cl.first = first ∧ b.cl.second = second ∧
      b.cl.count = len + 1 ∧ b.stall = .none ∧
      ((∃ f, f < 12 ∧ wait / 2 ^ f % 2 = 1 ∧ c.x.flag f ≠ 0) → b.phase = .wait) ∧
      ((∀ f, f < 12 → wait / 2 ^ f % 2 = 1 → c.x.flag f = 0) → b.phase = .body ∧
        ∀ l, hasLane b.cl.act l = (hasLane c.b.lanes l && (!e.getLsbD 15 || Bool.xor (c.x.pred (e.toNat / 2 ^ 9 % 64) l) (e.getLsbD 8))))

/-- R168, R179: ARRIVE on a route of the core and its tenant completes its issue where the core's window has room (R236): one operation of the release class that stands in the wave's program
order, the wave's record shows it outstanding, and the bundle goes on without a stall.
R168, R179: WAITB completes: where the wave's latest ARRIVE on the route has not been counted, or was counted toward a phase that is not yet
visibly complete, every lane of the bundle waits at the route and nothing else changes; where no ARRIVE is outstanding, or its phase is visibly
complete, and R233 lets an acquire at the route's domain perform, the record clears and the bundle goes on as that acquire; where R233 does
not let it perform yet, or the core's window has no room (R236), the lanes wait. -/
def Obligations.RouteWordsIssue : Prop :=
  (∀ (r : Nat) (s : State) (c : Cx), Ready s c (.arrive r) {} → SMap.get 0 (s.route r).counts (coreOf c.w) ≠ 0 → (s.route r).owner = c.g.tenant →
     s.windowFull (coreOf c.w) = false →
     ∃ t, exec (.arrive r) s = .next t ∧ Moved c (s.wave c.w) (t.wave c.w) ∧ (∀ k, k ≠ c.w → t.wave k = s.wave k) ∧
       (t.wave c.w).routeRec r = { outstanding := true } ∧ t.o.next = s.o.next + 1 ∧ t.m = s.m ∧ t.pk = s.pk ∧ t.reg = s.reg ∧
       (t.op s.o.next).kind = .arrive r ∧ (t.op s.o.next).cls = .rl ∧ (t.op s.o.next).wave = c.w ∧ (t.op s.o.next).flags = [] ∧
       (t.op s.o.next).pos = [(c.w, c.x.po)] ∧ (t.wave c.w).po = (c.x.po + 1) % 2 ^ 32 ∧
       (t.wave c.w).v = c.x.v ∧ (t.wave c.w).s = c.x.s ∧ (t.wave c.w).p = c.x.p ∧ (t.wave c.w).f = c.x.f) ∧
  (∀ (r : Nat) (s : State) (c : Cx), Ready s c (.waitb r) {} → SMap.get 0 (s.route r).counts (coreOf c.w) ≠ 0 → (s.route r).owner = c.g.tenant →
     ((c.x.routeRec r).outstanding = true ∧ ((c.x.routeRec r).counted = false ∨ (s.route r).visible ≤ (c.x.routeRec r).seq) ∨
       s.acquireReady c.w c.b.lanes (s.route r).dom = false ∨ s.windowFull (coreOf c.w) = true) →
     ∃ t, exec (.waitb r) s = .next t ∧ OutsideWaves [c.w] s t ∧ PlaceOnly (s.wave c.w) (t.wave c.w) ∧
       ∀ l, (t.wave c.w).lane l = if hasLane c.b.lanes l then { c.x.lane l with st := .waiting (.waitb r) } else c.x.lane l) ∧
  (∀ (r : Nat) (s : State) (c : Cx), Ready s c (.waitb r) {} → SMap.get 0 (s.route r).counts (coreOf c.w) ≠ 0 → (s.route r).owner = c.g.tenant →
     ((c.x.routeRec r).outstanding = false ∨ (c.x.routeRec r).counted = true ∧ (c.x.routeRec r).seq < (s.route r).visible) →
     s.acquireReady c.w c.b.lanes (s.route r).dom = true → s.windowFull (coreOf c.w) = false →
     ∃ t, exec (.waitb r) s = .next t ∧ Moved c (s.wave c.w) (t.wave c.w) ∧ (t.wave c.w).routeRec r = {} ∧
       (∀ k, k ≠ r → (t.wave c.w).routeRec k = c.x.routeRec k) ∧ (t.wave c.w).po = (c.x.po + 1) % 2 ^ 32 ∧ (t.wave c.w).v = c.x.v ∧
       (t.wave c.w).s = c.x.s ∧ (t.wave c.w).p = c.x.p ∧ (t.wave c.w).f = c.x.f ∧ (quiet s c.w → t.m = s.m ∧ t.pk = s.pk ∧ t.reg = s.reg))

/-- R198: ULD and UST make one access for the bundle whatever its guard: at the base pair plus the immediate in units of its size, of the size's bytes;
one operation is issued and the bundle goes on.
R174: a JTAB whose every active lane's index is below the count, and whose table words translate, reads each active lane's entry at the base
plus four times its index, as one load of that lane; the bundle stalls until the words are there and no lane moves yet.  With no active lane
the bundle goes to the next header. -/
def Obligations.UniformMemoryWords : Prop :=
  (∀ (load : Bool) (z d a imm : Nat) (i : Instr) (s : State) (c : Cx),
     ((load = true ∧ z = 4 ∧ i = .uldB32 d a imm) ∨ (load = true ∧ z = 8 ∧ i = .uldB64 d a imm) ∨
       (load = false ∧ z = 4 ∧ i = .ustB32 d a imm) ∨ (load = false ∧ z = 8 ∧ i = .ustB64 d a imm)) →
     Ready s c i { flag := some (c.b.cl.flagFor load),
                   reads := [(.s, a), (.s, a + 1)] ++ (if load then [] else (List.range (z / 4)).map fun k => (.s, d + k)) } →
     s.windowFull (coreOf c.w) = false → (s.wave c.w).flag (c.b.cl.flagFor load) < 255 →
     ∀ (k : Access), s.check { s.agentOf c.w with joint := c.x.taskWave } (if load then .load else .store) (c.x.spair a + BitVec.ofNat 64 (imm * z)) z = .ok k →
     ∃ t o p, exec i s = .next t ∧ IssueFrame c s t ∧ Moved c (s.wave c.w) (t.wave c.w) ∧ Issued c (c.b.cl.flagFor load) s t o ∧
       o.kind = (if load then .uld else .ust) ∧ o.parts = [p] ∧ p.pa = k.pa ∧ p.size = z ∧ p.clm = false ∧ p.reg = d ∧
       (load = false → p.data = c.x.sregsVal d (z / 4))) ∧
  (∀ (cnt : Nat) (a : Ext) (b : Nat) (s : State) (c : Cx),
     Ready s c (.jtab cnt a b) { last := true, top := Nat.max (b + 1) (extTop a true), reads := c.inLanes ([(.s, cnt), (.v, b)] ++ Ext.regs a true), perLane := true } →
     (∀ l, hasLane c.act l = true → c.x.vreg b l < c.x.sreg cnt) →
     (c.act = 0#32 → ∃ t, exec (.jtab cnt a b) s = .next t ∧ OutsideWaves [c.w] s t ∧ PlaceOnly (s.wave c.w) (t.wave c.w) ∧
       Left c (fun _ => c.pc + 4#64) (s.wave c.w) (t.wave c.w)) ∧
     (c.act ≠ 0#32 → s.windowFull (coreOf c.w) = false →
       ∀ at_ : Nat → Access, (∀ l, hasLane c.act l = true →
         s.check (s.agentOf c.w) .load (s.extVal64 c.w c.b a l + BitVec.ofNat 64 (4 * (c.x.vreg b l).toNat)) 4 = .ok (at_ l)) →
       ∃ t, exec (.jtab cnt a b) s = .next t ∧ (∀ k, k ≠ c.w → t.wave k = s.wave k) ∧ t.m = s.m ∧ t.o.next = s.o.next + 1 ∧
         (t.op s.o.next).kind = .jtab ∧ (t.op s.o.next).parts.map (fun p => (p.lane, p.pa, p.size)) = (lanesOf c.act).map (fun l => (l, (at_ l).pa, 4)) ∧
         (∀ l, (t.wave c.w).lane l = c.x.lane l) ∧ (t.wave c.w).v = c.x.v ∧
         (t.wave c.w).bundles = c.x.bundles.map fun k => if k.lanes == c.b.lanes then { c.b with stall := .op s.o.next, age := 0 } else k))

/-- R191, R196-R206, R82: a memory word at LANE scope whose every active lane's access passes its checks completes its issue: one operation of its
kind and class, with a part for each active lane at the address the rule computes, which names the data register, carries what the lane stores
and gives its result to that lane, counts on the clause's flag for it, and the bundle goes on; no register and no byte of memory changes yet.  With no active lane the bundle goes on.
R191, R14, R315: a memory word at LANE scope of a wave outside a task, some of whose active lanes fail a check while none needs a walk, performs
nothing: the wave is suspended, and the record is that of the lowest failing lane. -/
def Obligations.LaneMemoryWords : Prop :=
  (∀ (i : Instr) (m : MemL) (s : State) (c : Cx), lword i = some (.lane, .mem m) → Ready s c i ((LOp.mem m).pre false .lane c) →
     (c.act = 0#32 → ∃ t, exec i s = .next t ∧ OutsideWaves [c.w] s t ∧ PlaceOnly (s.wave c.w) (t.wave c.w) ∧ Moved c (s.wave c.w) (t.wave c.w)) ∧
     (c.act ≠ 0#32 → s.windowFull (coreOf c.w) = false → (s.wave c.w).flag (c.b.cl.flagFor m.isLoad) < 255 →
       ∀ (clm : Bool) (pa size : Nat → Nat), (∀ l, hasLane c.act l = true → reaches s c l m clm (pa l) (size l)) →
       ∃ t o, exec i s = .next t ∧ IssueFrame c s t ∧ Moved c (s.wave c.w) (t.wave c.w) ∧ Issued c (c.b.cl.flagFor m.isLoad) s t o ∧
         o.kind = m.kind ∧ o.cls = m.cls ∧
         o.parts.map (fun p => (p.lane, p.clm, p.pa, p.size)) = (c.laneOrder (lanesOf c.act)).map (fun l => (l, clm, pa l, size l)) ∧
         o.parts.map (fun p => (p.reg, p.dst, p.data, p.data2)) =
           (c.laneOrder (lanesOf c.act)).map fun l => (m.reg, [(c.w, l)], carries s c l m, carriesToo s c l m))) ∧
  (∀ (i : Instr) (m : MemL) (s : State) (c : Cx) (l : Nat) (f : FaultInfo), lword i = some (.lane, .mem m) →
     Ready s c i ((LOp.mem m).pre false .lane c) → c.x.taskWave = false →
     s.windowFull (coreOf c.w) = false → (s.wave c.w).flag (c.b.cl.flagFor m.isLoad) < 255 →
     hasLane c.act l = true → s.chkLane c m l = .bad f → (∀ k, hasLane c.act k = true → ∀ va n, s.chkLane c m k ≠ .walk va n) →
     (∀ k, k < l → hasLane c.act k = true → ∃ p, s.chkLane c m k = .ok p) →
     ∃ t r, exec i s = .next t ∧ r.length = 64 ∧ leNat ((r.drop 3).take 1) = l ∧ leNat (r.take 1) = f.code % 2 ^ 8 ∧
       leNat ((r.drop 8).take 8) = f.addr % 2 ^ 64 ∧ t.suspended c.w = true ∧ (t.tenant c.g.tenant).records = (s.tenant c.g.tenant).records ++ [r] ∧
       t.wave c.w = s.wave c.w ∧ (∀ k, k ≠ c.w → t.wave k = s.wave k) ∧ t.o = s.o ∧ t.m.mem = s.m.mem ∧ t.x.teams = s.x.teams)

/-- R191: the checks of one lane's access decide in their order: a non-canonical address is PAGE NONCANON whatever else fails, then a misaligned one is
PROT ALIGN, then a region table read poisoned is ECCU (R33), then an invalid scope is DOMAIN, then the translation, and last the windows of the tenant. -/
def Obligations.AccessChecksInOrder : Prop :=
  ∀ (s : State) (ag : Agent) (need : Need) (va : DWord) (size : Nat), 0 < size →
    (¬ (va.toNat < 2 ^ 54 ∨ 2 ^ 64 - 2 ^ 54 ≤ va.toNat) → s.check ag need va size = .bad { code := 0x10, reason := 0, addr := va.toNat }) ∧
    ((va.toNat < 2 ^ 54 ∨ 2 ^ 64 - 2 ^ 54 ≤ va.toNat) →
      (va.toNat % size ≠ 0 → s.check ag need va size = .bad { code := 0x11, reason := 1, addr := va.toNat }) ∧
      (va.toNat % size = 0 →
        (∀ f, s.rgnFault ag.core ag.asid va = some f → f.code = 0x13 ∧ s.check ag need va size = .bad f) ∧
        (s.rgnFault ag.core ag.asid va = none → scopeValid ag (s.regionOf ag.core ag.asid va) = false →
          s.check ag need va size = .bad { code := 0x12, addr := va.toNat }) ∧
        (s.rgnFault ag.core ag.asid va = none → scopeValid ag (s.regionOf ag.core ag.asid va) = true → ∀ pa, s.tlbLook (ag.core.getD 0) ag.asid va need = some (.ok pa) →
          (s.inWindow ag.tenant pa = false → s.check ag need va size = .bad { code := 0x11, reason := 2, addr := va.toNat, paddr := pa }) ∧
          ∀ a, s.check ag need va size = .ok a → a.pa = pa ∧ s.inWindow ag.tenant pa = true ∧ reservedPa pa = false ∧
            s.domAgrees (s.regionOf ag.core ag.asid va) pa = true)))

/-- R202: LDM and STM make steps up from the one that MPROG counts (from step 0 where MPROG counts the steps of another word or bundle), step i of lane L
at the lane's base plus 64 times the offset plus 4 i, with register d + i; where every step passes, one operation is issued with a part for each
active lane of each step left, MPROG is zero after it and the bundle goes on.  With no active lane the bundle goes on.
R202: where a step is the first that fails in some lane, the steps before it are issued, MPROG holds its number, and the wave is suspended with the
record of the lowest failing lane; no lane moves. -/
def Obligations.MultiWordIssues : Prop :=
  (∀ (load : Bool) (d base cnt n : Nat) (i : Instr) (s : State) (c : Cx), ((load = true ∧ i = .ldm d base cnt n) ∨ (load = false ∧ i = .stm d base cnt n)) →
    Ready s c i { flag := some (c.b.cl.flagFor load), top := Nat.max (base + 2) (d + (cnt + 1)),
                  reads := c.inLanes (vRange base 2 ++ (if load then [] else vRange d (cnt + 1))), perLane := true } →
    s.windowFull (coreOf c.w) = false → (s.wave c.w).flag (c.b.cl.flagFor load) < 255 →
    (c.act = 0#32 → ∃ t, exec i s = .next t ∧ OutsideWaves [c.w] s t ∧ PlaceOnly (s.wave c.w) (t.wave c.w) ∧ Moved c (s.wave c.w) (t.wave c.w)) ∧
    ∀ (from_ : Nat), from_ = (if c.x.mpc = c.pc ∧ c.x.mlanes = c.b.lanes then c.x.mprog else 0) → from_ ≤ cnt → c.act ≠ 0#32 →
    ∀ (at_ : Nat → Nat → Access), (∀ l k, hasLane c.act l = true → from_ ≤ k → k ≤ cnt →
      s.check (s.agentOf c.w) (if load then .load else .store) (c.x.vpair base l + BitVec.ofNat 64 (64 * n + 4 * k)) 4 = .ok (at_ l k)) →
    ∃ t o, exec i s = .next t ∧ IssueFrame c s t ∧ Moved c (s.wave c.w) (t.wave c.w) ∧ Issued c (c.b.cl.flagFor load) s t o ∧
      o.kind = (if load then .ldm else .stm) ∧ (t.wave c.w).mprog = 0 ∧
      o.parts.map (fun p => (p.lane, p.pa, p.size, p.reg)) =
        (List.range (cnt + 1 - from_)).flatMap (fun k => (lanesOf c.act).map fun l => (l, (at_ l (from_ + k)).pa, 4, d + (from_ + k))) ∧
      o.parts.map (fun p => (p.data, p.dst)) = (List.range (cnt + 1 - from_)).flatMap (fun k => (lanesOf c.act).map fun l =>
        (if load then 0 else (c.x.vreg (d + (from_ + k)) l).toNat, if load then [(c.w, l)] else []))) ∧
  (∀ (load : Bool) (d base cnt n : Nat) (i : Instr) (s : State) (c : Cx) (from_ stop l : Nat) (f : FaultInfo),
    ((load = true ∧ i = .ldm d base cnt n) ∨ (load = false ∧ i = .stm d base cnt n)) →
    Ready s c i { flag := some (c.b.cl.flagFor load), top := Nat.max (base + 2) (d + (cnt + 1)),
                  reads := c.inLanes (vRange base 2 ++ (if load then [] else vRange d (cnt + 1))), perLane := true } →
    s.windowFull (coreOf c.w) = false → (s.wave c.w).flag (c.b.cl.flagFor load) < 255 → c.x.taskWave = false →
    from_ = (if c.x.mpc = c.pc ∧ c.x.mlanes = c.b.lanes then c.x.mprog else 0) → from_ ≤ stop → stop ≤ cnt →
    (∀ at_ k, at_ = (fun j => c.x.vpair base j + BitVec.ofNat 64 (64 * n + 4 * k)) → from_ ≤ k → k ≤ stop → ∀ j, hasLane c.act j = true →
      (k < stop ∨ j < l → ∃ a, s.check (s.agentOf c.w) (if load then .load else .store) (at_ j) 4 = .ok a) ∧
      (k = stop → j = l → s.check (s.agentOf c.w) (if load then .load else .store) (at_ j) 4 = .bad f) ∧
      (∀ va need, s.check (s.agentOf c.w) (if load then .load else .store) (at_ j) 4 ≠ .walk va need)) → hasLane c.act l = true →
    ∃ t r, exec i s = .next t ∧ t.wave c.w = { s.wave c.w with f := (t.wave c.w).f, po := (t.wave c.w).po, frel := (t.wave c.w).frel, mprog := stop, mpc := c.pc, mlanes := c.b.lanes } ∧ (∀ k, k ≠ c.w → t.wave k = s.wave k) ∧ t.suspended c.w = true ∧
      t.m.mem = s.m.mem ∧ t.o.next = s.o.next + (if from_ = stop then 0 else 1) ∧
      (from_ < stop → (t.op s.o.next).parts.map (fun p => (p.lane, p.reg)) =
        (List.range (stop - from_)).flatMap fun k => (lanesOf c.act).map fun j => (j, d + (from_ + k))) ∧
      (t.tenant c.g.tenant).records = (s.tenant c.g.tenant).records ++ [r] ∧ leNat (r.take 1) = f.code % 2 ^ 8 ∧ leNat ((r.drop 3).take 1) = l ∧
      (f.code ≠ 0x13 → leNat ((r.drop 0x20).take 8) = stop))

/-- R207: a fence whose address is canonical and whose ordering is met lets its bundle go on: it stands in the program order of every lane of the bundle,
writes no register and sets no flag; FENCE.REL and FENCE.AR make the next write of each lane a release at the fence's scope.  Where no operation of
the wave is outstanding, memory and its caches are unchanged. -/
def Obligations.FenceCompletes : Prop :=
  ∀ (cls : Cls) (a : Nat) (i : Instr) (s : State) (c : Cx),
    ((cls = .fa ∧ i = .fenceAcq a) ∨ (cls = .fr ∧ i = .fenceRel a) ∨ (cls = .fb ∧ i = .fenceAr a)) →
    Ready s c i { reads := [(.s, a), (.s, a + 1)] } → canonical (c.x.spair a) = true → s.windowFull (coreOf c.w) = false →
    s.mayPerform { w := c.w, lanes := c.b.lanes, cls := cls, dom := (s.regionOf (some (coreOf c.w)) c.g.asid (c.x.spair a)).dom, po := c.x.po, part := {}, fence := true } = true →
    ∃ t, exec i s = .next t ∧ Moved c (s.wave c.w) (t.wave c.w) ∧ (t.wave c.w).v = c.x.v ∧ (t.wave c.w).s = c.x.s ∧ (t.wave c.w).p = c.x.p ∧
      (t.wave c.w).f = c.x.f ∧ (t.wave c.w).po = (c.x.po + 1) % 2 ^ 32 ∧ (t.wave c.w).frel = (if cls = .fa then c.x.frel else c.x.frel ||| c.b.lanes) ∧
      (cls ≠ .fa → ∀ l, hasLane c.b.lanes l = true →
        SMap.get .package (t.wave c.w).frelDom l = (s.regionOf (some (coreOf c.w)) c.g.asid (c.x.spair a)).dom) ∧
      (quiet s c.w → t.m = s.m ∧ t.pk = s.pk ∧ t.reg = s.reg)

/-- R208, R210: a maintenance word over a range whose every line passes its checks issues one operation with a part for each 64-byte line that overlaps the
range, in address order, on the second flag; over an empty range it completes at once, and INVN writes 0.
R211, R213: PFI brings what it can of its range into the instruction cache of the core's die and goes on: no register, no byte of memory, no other
wave, team or operation changes, and it never faults. -/
def Obligations.CacheWordsIssue : Prop :=
  (∀ (kind : OpKind) (d a b : Nat) (i : Instr) (s : State) (c : Cx),
     ((kind = .wb ∧ i = .wb a b) ∨ (kind = .inv ∧ i = .inv a b) ∨ (kind = .icinv ∧ i = .icinv a b) ∨ (kind = .invn ∧ i = .invn d a b)) →
     Ready s c i { flag := some c.b.cl.second, reads := [(.s, a), (.s, a + 1), (.s, b)] } →
     ((c.x.sreg b).toNat = 0 → ∃ t, exec i s = .next t ∧ OutsideWaves [c.w] s t ∧ Moved c (s.wave c.w) (t.wave c.w) ∧
       UniformRegsOnly (s.wave c.w) (t.wave c.w) ∧ ∀ n, (t.wave c.w).sreg n = if kind = .invn ∧ n = d then 0#32 else c.x.sreg n) ∧
     (0 < (c.x.sreg b).toNat → (c.x.sreg b).toNat ≤ 2 ^ 24 → s.windowFull (coreOf c.w) = false → (s.wave c.w).flag c.b.cl.second < 255 →
       ∀ (at_ : Nat → Access),
       (∀ k, k < ((c.x.spair a).toNat % 64 + (c.x.sreg b).toNat + 63) / 64 →
         (if kind = .icinv then s.checkX { s.agentOf c.w with maint := true } (aligned64 (c.x.spair a) + BitVec.ofNat 64 (64 * k))
           else s.check { s.agentOf c.w with maint := true } (if kind = .invn then .store else .load) (aligned64 (c.x.spair a) + BitVec.ofNat 64 (64 * k)) 0)
           = .ok (at_ k) ∧ (kind = .invn → (at_ k).dom = .core ∨ (at_ k).dom = .die)) →
       ∃ t o, exec i s = .next t ∧ IssueFrame c s t ∧ Moved c (s.wave c.w) (t.wave c.w) ∧ Issued c c.b.cl.second s t o ∧ o.kind = kind ∧
         o.parts.map (fun p => (p.pa, p.size)) =
           (List.range (((c.x.spair a).toNat % 64 + (c.x.sreg b).toNat + 63) / 64)).map fun k => ((at_ k).pa / 64 * 64, 64))) ∧
  (∀ (a b : Nat) (s : State) (c : Cx), Ready s c (.pfi a b) { reads := [(.s, a), (.s, a + 1), (.s, b)] } →
     ∃ t, exec (.pfi a b) s = .next t ∧ Moved c (s.wave c.w) (t.wave c.w) ∧ PlaceOnly (s.wave c.w) (t.wave c.w) ∧
       (∀ k, k ≠ c.w → t.wave k = s.wave k) ∧ KeepsMemory s t ∧ (∀ k, t.op k = s.op k) ∧ t.reg = s.reg ∧ t.x.teams = s.x.teams ∧
       t.x.grids = s.x.grids ∧ t.x.groups = s.x.groups)

/-- R118, R146, R312, R138, R306: RNG writes each active lane's draw to its pair and advances RNGCTR by 32 whichever lanes are active; RNGSEED sets
key and counter; LDK reads a launch constant; TSGET writes each active lane's timestamp and identity, zero and all ones outside a task wave. -/
def Obligations.WaveValueWords : Prop :=
  ∀ (s : State) (c : Cx),
    (∀ d, Ready s c (.rng d) { top := d + 2 } → ∃ t, exec (.rng d) s = .next t ∧ OutsideWaves [c.w] s t ∧ Moved c (s.wave c.w) (t.wave c.w) ∧
      t.wave c.w = { s.wave c.w with v := (t.wave c.w).v, lanes := (t.wave c.w).lanes, bundles := (t.wave c.w).bundles, mprog := 0, rngctr := c.x.rngctr + 32#64 } ∧
      ∀ n l, l < 32 → (t.wave c.w).vreg n l =
        if hasLane c.act l then pairAfter (some d) (mix64 c.x.rngkey (c.x.rngctr + BitVec.ofNat 64 l)) n (c.x.vreg n l) else c.x.vreg n l) ∧
    (∀ k, Ready s c (.rngseed k) { reads := [(.s, k), (.s, k + 1), (.s, k + 2), (.s, k + 3)] } →
      ∃ t, exec (.rngseed k) s = .next t ∧ OutsideWaves [c.w] s t ∧ Moved c (s.wave c.w) (t.wave c.w) ∧
        PlaceOnly { s.wave c.w with rngkey := c.x.spair k, rngctr := c.x.spair (k + 2) } (t.wave c.w)) ∧
    (∀ d imm, Ready s c (.ldk d imm) {} → imm < c.g.consts.length → ∃ t, exec (.ldk d imm) s = .next t ∧ OutsideWaves [c.w] s t ∧
      Moved c (s.wave c.w) (t.wave c.w) ∧ UniformRegsOnly (s.wave c.w) (t.wave c.w) ∧
      ∀ n, some ((t.wave c.w).sreg n) = if n = d then c.g.consts[imm]? else some (c.x.sreg n)) ∧
    (∀ d, Ready s c (.tsget d) { top := d + 4 } → ∃ t, exec (.tsget d) s = .next t ∧ OutsideWaves [c.w] s t ∧ Moved c (s.wave c.w) (t.wave c.w) ∧
      LaneRegsOnly (s.wave c.w) (t.wave c.w) ∧ ∀ l, l < 32 → ∀ ts id : DWord,
        (c.x.taskWave = true → ts = (s.laneTask c.w l).ts ∧ some id.toNat = (c.x.lane l).task) → (c.x.taskWave = false → ts = 0#64 ∧ id = 0xFFFFFFFFFFFFFFFF#64) →
        ∀ n, (t.wave c.w).vreg n l =
          if hasLane c.act l then pairAfter (some d) ts n (pairAfter (some (d + 2)) id n (c.x.vreg n l)) else c.x.vreg n l)

/-- R308, R309, R311: MFS of a register that its issuer may reach writes the register's value to the uniform register and changes nothing else but a
snapshot: a register of the wave, of its team, of its core and tenant, of the tenant (its queues among them) or of the device reads what it holds, and
one that only takes writes reads zero; MPROG reads the count that the wave holds when MFS reads it, before the MFS clears it (a reading of R202:
DEDUCED, log 10); a low half takes a snapshot of the whole register, and a high half comes from the wave's snapshot where it
has one.  R299: cfrtl takes the wave's snapshot of the latest published frontier, and the other three words come from that snapshot. -/
def Obligations.SystemRegisterReads : Prop :=
  ∀ (r num n : Nat) (s : State) (c : Cx), Ready s c (.mfs r num) { bad := (regInfo num).isNone } → regDenied c.g.tenant num = false →
    n = (if c.g.tenant = 0 then (s.dev 0x46).toNat % 32 else c.g.tenant) →
    ∃ t, exec (.mfs r num) s = .next t ∧ OutsideWaves [c.w] s t ∧ Moved c (s.wave c.w) (t.wave c.w) ∧
      t.wave c.w = { s.wave c.w with s := (t.wave c.w).s, snaps := (t.wave c.w).snaps, cfr := (t.wave c.w).cfr, lanes := (t.wave c.w).lanes,
                                     bundles := (t.wave c.w).bundles, mprog := 0 } ∧
      (∀ k, k ≠ r → (t.wave c.w).sreg k = c.x.sreg k) ∧
      (∀ v, waveReg c.x num = some v → (t.wave c.w).sreg r = v) ∧ (∀ v, placeReg s c.w n num = some v → (t.wave c.w).sreg r = v) ∧
      (∀ v, tenantReg (s.tenant n) num = some v → (t.wave c.w).sreg r = v) ∧ (∀ v, deviceReg s num = some v → (t.wave c.w).sreg r = v) ∧
      (∀ q, q < 64 → (num = 0x102 + 4 * q → (t.wave c.w).sreg r = ((s.tenant n).queue q).ctl) ∧
        (num = 0x103 + 4 * q → (t.wave c.w).sreg r = ((s.tenant n).queue q).tail) ∧ (num = 0x200 + q → (t.wave c.w).sreg r = ((s.tenant n).queue q).head)) ∧
      (num ∈ writeOnly → (t.wave c.w).sreg r = 0#32) ∧
      (∀ v, reg64 s c.w n num = some v → (t.wave c.w).sreg r = v.extractLsb' 0 32 ∧ SMap.get none (t.wave c.w).snaps num = some v ∧
        ∀ k, k ≠ num → SMap.get none (t.wave c.w).snaps k = SMap.get none c.x.snaps k) ∧
      (∀ low v, num = low + 1 → reg64 s c.w n low = some v →
        (t.wave c.w).sreg r = ((SMap.get none c.x.snaps low).getD v).extractLsb' 32 32 ∧ (t.wave c.w).snaps = c.x.snaps) ∧
      (num = 8 → (t.wave c.w).sreg r = frontierWord (s.frontierOf c.w) 0 ∧
        ∀ k, k < 4 → SMap.get 0xFFFFFFFF#32 (t.wave c.w).cfr k = frontierWord (s.frontierOf c.w) k) ∧
      (9 ≤ num ∧ num < 12 → (t.wave c.w).sreg r = SMap.get 0xFFFFFFFF#32 c.x.cfr (num - 8)) ∧ (num ≠ 8 → (t.wave c.w).cfr = c.x.cfr)

/-- R308, R311, R63, R108, R166: MTS of a register that its issuer may reach lets the bundle go on and then makes the write, before any other
instruction: wpart takes a legal width, satf its bit, satctl its bit, a low half is latched, and the high half of TRAPPC writes the whole in handler
mode.  A register that only reads is left.
R64, R309: MFS and MTS of a register reserved to tenant 0, and BGTW and BGTR, raise PROT SYSREG for another tenant: no register and no byte of
memory changes, and the wave is suspended. -/
def Obligations.SystemRegisterWriteWord : Prop :=
  (∀ (r num : Nat) (s : State) (c : Cx), Ready s c (.mts r num) { bad := (regInfo num).isNone, reads := [(.s, r)] } → regDenied c.g.tenant num = false →
     ∃ u, OutsideWaves [c.w] s u ∧ Moved c (s.wave c.w) (u.wave c.w) ∧ PlaceOnly (s.wave c.w) (u.wave c.w) ∧
       exec (.mts r num) s = .next (u.sysWrite { w := some c.w, t := if c.g.tenant = 0 then (s.dev 0x46).toNat % 32 else c.g.tenant } num (c.x.sreg r)) ∧
       ∀ t, exec (.mts r num) s = .next t →
         (num = 4 → t = u.setWave c.w (if 1 ≤ (c.x.sreg r).toNat % 8 ∧ (c.x.sreg r).toNat % 8 ≤ 5 then { u.wave c.w with tw := (c.x.sreg r).toNat % 8 } else u.wave c.w)) ∧
         (num = 5 → t = u.setWave c.w { u.wave c.w with satf := (c.x.sreg r).getLsbD 0 }) ∧
         (num = 0x20 → t = u.setTeam (s.teamKey c.w) { s.teamOf c.w with satctl := (c.x.sreg r).getLsbD 0 }) ∧
         (num = 0 → t = u.setWave c.w { u.wave c.w with latches := SMap.set none c.x.latches 0 (some (c.x.sreg r)) }) ∧
         (num = 1 → c.x.hmode = true → ∀ v : DWord, v = c.x.sreg r ++ (SMap.get none c.x.latches 0).getD (c.x.trappc.extractLsb' 0 32) →
           (t.wave c.w).trappc = if v.toNat % 4 = 0 ∧ canonical v = true then v else c.x.trappc) ∧
         ((num = 2 ∨ num = 3 ∨ num = 6 ∨ num = 7 ∨ num = 0x10 ∨ num = 0x30) → t = u)) ∧
  (∀ (i : Instr) (p : Pre) (num r k e : Nat) (s : State) (c : Cx),
     ((i = .mfs r num ∧ p = { bad := (regInfo num).isNone } ∧ regDenied c.g.tenant num = true) ∨
      (i = .mts r num ∧ p = { bad := (regInfo num).isNone, reads := [(.s, r)] } ∧ regDenied c.g.tenant num = true) ∨
      (i = .bgtw k e ∧ p = { reads := [(.s, k), (.s, k + 1)] }) ∨ (i = .bgtr k e ∧ p = { reads := [(.s, k + 1)] })) →
     Ready s c i p → c.g.tenant ≠ 0 → Plain s c.w c.b.lanes →
     ∃ t r, exec i s = .next t ∧ r.length = 64 ∧ leNat (r.take 1) = 0x11 ∧ leNat ((r.drop 1).take 1) = 12 ∧
       (t.tenant c.g.tenant).records = (s.tenant c.g.tenant).records ++ [r] ∧ t.suspended c.w = true ∧
       t.wave c.w = s.wave c.w ∧ (∀ k, k ≠ c.w → t.wave k = s.wave k) ∧ t.m.mem = s.m.mem ∧ t.reg = s.reg ∧ t.o = s.o)

/-- R313: RGNW writes the status code to S(t): a refusal changes no byte of memory; a write stores the entry's two words at RGNBASE + 16 e, changes no other
byte, and every cached copy takes the entry; RGNR reads the entry's words from memory, not a copy (DEDUCED, log 41).  Either does so once its request
has been answered, and meets ECCU where it looks at an entry that is poisoned (R33; what RGNW looks at is DEDUCED, log 41, and its requests are DESIGN CHOICE, log 63).
R314: BGTW by tenant 0 stages an allowance and its control for the next period: an allowance of zero leaves the old one, a control word with POL 3 is
ignored whole; BGTR reads the allowance and the control word in force (not those staged: DEDUCED, log 41), what remains and the exhausted periods. -/
def Obligations.TableAndAllowanceWords : Prop :=
  (∀ (k e d : Nat) (s : State) (c : Cx), e < 64 →
     (∀ (w0 w1 : DWord) (write : Bool), w0 = c.x.spair k → w1 = c.x.spair (k + 2) →
       (write = true ↔ ¬ entryRefused w0 w1 ∧ ((w0.getLsbD 1 = false ∧ (s.rgnWords none c.g.asid e).1.getLsbD 1 = false) ∨ s.liveTaskGrid c.g.asid = none)) →
       Ready s c (.rgnw k e d) { reads := [(.s, k), (.s, k + 1), (.s, k + 2), (.s, k + 3)] } →
       answered s (physAsks (askAgent 8 c.w) (dieOf (coreOf c.w)) c.g.tenant (s.ctxRgn c.g.asid + 16 * e) 16 write) →
       (¬ entryRefused w0 w1 → w0.getLsbD 1 = false → s.liveTaskGrid c.g.asid ≠ none → s.rgnBad none c.g.asid e = false ∧ s.lostAny (askAgent 8 c.w) = false) →
       ∃ t code, exec (.rgnw k e d) s = .next t ∧ Moved c (s.wave c.w) (t.wave c.w) ∧ UniformRegsOnly (s.wave c.w) (t.wave c.w) ∧
         (∀ n, (t.wave c.w).sreg n = if n = d then BitVec.ofNat 32 code else c.x.sreg n) ∧
         (entryRefused w0 w1 → code = 1) ∧
         (¬ entryRefused w0 w1 → (w0.getLsbD 1 = true ∨ (s.rgnWords none c.g.asid e).1.getLsbD 1 = true) → s.liveTaskGrid c.g.asid ≠ none → code = 2) ∧
         (¬ entryRefused w0 w1 → ((w0.getLsbD 1 = false ∧ (s.rgnWords none c.g.asid e).1.getLsbD 1 = false) ∨ s.liveTaskGrid c.g.asid = none) → code = 0) ∧
         (∀ j, j ≠ c.w → t.wave j = s.wave j) ∧ t.reg = s.reg ∧ t.o = s.o ∧ t.x.teams = s.x.teams ∧ OnlyAllowances s t ∧ t.x.grids = s.x.grids ∧
         (code ≠ 0 → KeepsMemory s t ∧ t.m.rgn = s.m.rgn) ∧
         (code = 0 →
           t.m.rgn = s.m.rgn.map (fun r => if r.asid = c.g.asid ∧ r.e = e then { r with w0 := w0, w1 := w1 } else r) ∧
           (s.ctxRgn c.g.asid % 1024 = 0 → ∀ a, t.readPhys a 1 =
             if s.ctxRgn c.g.asid + 16 * e ≤ a ∧ a < s.ctxRgn c.g.asid + 16 * e + 16
             then (w1 ++ w0).toNat / 2 ^ (8 * (a - (s.ctxRgn c.g.asid + 16 * e))) % 256 else s.readPhys a 1))) ∧
     (Ready s c (.rgnr k e) {} → answered s (physAsks (askAgent 8 c.w) (dieOf (coreOf c.w)) c.g.tenant (s.ctxRgn c.g.asid + 16 * e) 16 false) →
       (s.rgnBad none c.g.asid e = false → s.lostAny (askAgent 8 c.w) = false →
         ∃ t, exec (.rgnr k e) s = .next t ∧ Moved c (s.wave c.w) (t.wave c.w) ∧ UniformRegsOnly (s.wave c.w) (t.wave c.w) ∧
           (∀ j, j ≠ c.w → t.wave j = s.wave j) ∧ t.reg = s.reg ∧ t.o = s.o ∧ t.x.teams = s.x.teams ∧ OnlyAllowances s t ∧ t.x.grids = s.x.grids ∧
           KeepsMemory s t ∧ t.m.rgn = s.m.rgn ∧ ∀ n, (t.wave c.w).sreg n =
             pairAfter (some (k + 2)) (BitVec.ofNat 64 (s.readPhys (s.ctxRgn c.g.asid + 16 * e + 8) 8)) n
               (pairAfter (some k) (BitVec.ofNat 64 (s.readPhys (s.ctxRgn c.g.asid + 16 * e) 8)) n (c.x.sreg n))) ∧
       (s.rgnBad none c.g.asid e = true → c.x.taskWave = false →
         ∃ t r, exec (.rgnr k e) s = .next t ∧ t.suspended c.w = true ∧ t.wave c.w = s.wave c.w ∧ leNat (r.take 1) = 0x13 ∧
           (t.tenant c.g.tenant).records = (s.tenant c.g.tenant).records ++ [r]))) ∧
  (∀ (k e : Nat) (s : State) (c : Cx), e < 6 → c.g.tenant = 0 →
     (∀ ctl : Word, ctl = c.x.sreg (k + 1) → Ready s c (.bgtw k e) { reads := [(.s, k), (.s, k + 1)] } →
       ∃ t, exec (.bgtw k e) s = .next t ∧ Moved c (s.wave c.w) (t.wave c.w) ∧ PlaceOnly (s.wave c.w) (t.wave c.w) ∧ (∀ j, j ≠ c.w → t.wave j = s.wave j) ∧
         t.m = s.m ∧ t.reg = s.reg ∧ t.o = s.o ∧ t.pk = s.pk ∧ t.x.teams = s.x.teams ∧ t.x.grids = s.x.grids ∧
         (∀ j, j ≠ ctl.toNat % 32 → t.tenant j = s.tenant j) ∧ (∀ q, q < 6 → q ≠ e → (t.tenant (ctl.toNat % 32)).allowance q = (s.tenant (ctl.toNat % 32)).allowance q) ∧
         (t.tenant (ctl.toNat % 32)).allowance e =
           (let a := (s.tenant (ctl.toNat % 32)).allowance e
            let n := if e = 0 then (c.x.sreg k).toNat % 2 ^ 16 else (c.x.sreg k).toNat
            if ctl.toNat / 2 ^ 8 % 4 = 3 then a
            else { a with newAllow := if n = 0 then a.newAllow else some n, newCtl := some (ctl.toNat / 2 ^ 16 % 256, ctl.toNat / 2 ^ 8 % 4) })) ∧
     (∀ n, n = (c.x.sreg (k + 1)).toNat % 32 → Ready s c (.bgtr k e) { reads := [(.s, k + 1)] } →
       ∃ t, exec (.bgtr k e) s = .next t ∧ OutsideWaves [c.w] s t ∧ Moved c (s.wave c.w) (t.wave c.w) ∧ UniformRegsOnly (s.wave c.w) (t.wave c.w) ∧
         (∀ j, ¬ (k ≤ j ∧ j < k + 4) → (t.wave c.w).sreg j = c.x.sreg j) ∧
         (t.wave c.w).sreg k = BitVec.ofNat 32 ((s.tenant n).allowance e).allow ∧
         (t.wave c.w).sreg (k + 1) = BitVec.ofNat 32 (((s.tenant n).allowance e).limit * 2 ^ 16 + ((s.tenant n).allowance e).pol * 2 ^ 8 + n) ∧
         (t.wave c.w).sreg (k + 2) = BitVec.ofNat 32 (if e = 0 then s.remain (coreOf c.w) n else ((s.tenant n).allowance e).rem) ∧
         (t.wave c.w).sreg (k + 3) = BitVec.ofNat 32 ((s.tenant n).allowance e).exhausted))

/-- R250, R265: HCFG on a handle whose checks pass: BIND gives it its range as a FREE ring of one, RING joins free handles into one ring, UNBIND
takes it away; every other handle of the ring it leaves becomes a ring of one that keeps its state, its range and FPH, with PCUR 0 and PPH 1 - FPH, and
a handle outside that ring is as it was.  Nothing but handles of the team changes.
R266: HWAIT on a bound handle, FULL with its phase or FREE, completes: where the state holds, R233 lets an acquire at CORE scope perform and the core's window has room (R236), the
bundle goes on as that acquire; else every lane of the bundle waits, the wait satisfied where the state holds.
R265, R267: MARK of a free ring of one makes it
count as FILLING and issues its release; HFREE of a full handle of the phase named issues its release, and of any other bound handle has no
effect.  The bundle of MARK and HFREE goes on. -/
def Obligations.HandleWords : Prop :=
  (∀ (h a b : Nat) (s : State) (c : Cx) (tm : Team), tm = s.teamOf c.w → c.x.taskWave = false →
     (Ready s c (.hcfgBind h a b) { reads := [(.s, a), (.s, b)] } → (c.x.sreg a).toNat < 2 ^ 20 → (c.x.sreg a).toNat % 4 = 0 → (c.x.sreg b).toNat % 4 = 0 →
       (c.x.sreg b).toNat ≠ 0 → (c.x.sreg a).toNat + (c.x.sreg b).toNat ≤ tm.scratch →
       (∀ k, k < 64 → k ≠ h → (tm.handle k).st ≠ .unbound → (c.x.sreg a).toNat + (c.x.sreg b).toNat ≤ (tm.handle k).hb ∨ (tm.handle k).hb + (tm.handle k).hlen ≤ (c.x.sreg a).toNat) →
       ((tm.handle h).st = .unbound ∨ (tm.handle h).st = .free) →
       ∃ t, exec (.hcfgBind h a b) s = .next t ∧ HandlesOnly c.w s t ∧ t.o = s.o ∧ Moved c (s.wave c.w) (t.wave c.w) ∧ PlaceOnly (s.wave c.w) (t.wave c.w) ∧
         (t.teamOf c.w).handle h = { st := .free, hb := (c.x.sreg a).toNat, hlen := (c.x.sreg b).toNat, fph := true, first := none, count := 1, pcur := 0, pph := false } ∧
         ∀ k, k ≠ h → (t.teamOf c.w).handle k =
           if inRingOf tm h k then { tm.handle k with first := none, count := 1, pcur := 0, pph := !(tm.handle k).fph } else tm.handle k) ∧
     (∀ m, m = (c.x.sreg a).toNat % 32 → Ready s c (.hcfgRing h a) { reads := [(.s, a)] } → 2 ≤ m → m ≤ 16 → h + m ≤ 64 →
       (∀ k, k < m → (tm.handle (h + k)).st = .free ∧ (tm.handle (h + k)).count = 1) →
       ∃ t, exec (.hcfgRing h a) s = .next t ∧ HandlesOnly c.w s t ∧ t.o = s.o ∧ Moved c (s.wave c.w) (t.wave c.w) ∧ PlaceOnly (s.wave c.w) (t.wave c.w) ∧
         (∀ k, k < m → (t.teamOf c.w).handle (h + k) = { tm.handle (h + k) with fph := true, first := some h, count := m, pcur := 0, pph := false }) ∧
         ∀ k, ¬ (h ≤ k ∧ k < h + m) → (t.teamOf c.w).handle k = tm.handle k) ∧
     (Ready s c (.hcfgUnbind h) {} → ((tm.handle h).st = .unbound ∨ (tm.handle h).st = .free) →
       ∃ t, exec (.hcfgUnbind h) s = .next t ∧ HandlesOnly c.w s t ∧ t.o = s.o ∧ Moved c (s.wave c.w) (t.wave c.w) ∧ PlaceOnly (s.wave c.w) (t.wave c.w) ∧
         ((t.teamOf c.w).handle h).st = .unbound ∧
         ∀ k, k ≠ h → (t.teamOf c.w).handle k =
           if (tm.handle h).st = .free ∧ inRingOf tm h k then { tm.handle k with first := none, count := 1, pcur := 0, pph := !(tm.handle k).fph } else tm.handle k)) ∧
  (∀ (h : Nat) (p : Bool) (s : State) (c : Cx) (hd : Handle), hd = (s.teamOf c.w).handle h → c.x.taskWave = false → hd.st ≠ .unbound →
     (∀ (i : Instr) (full ph : Bool), (full = true ∧ ph = p ∧ i = .hwaitFull h p) ∨ (full = false ∧ ph = false ∧ i = .hwaitFree h) → Ready s c i {} →
       ∀ (met : Bool), met = (if full then hd.st == .full && hd.fph == p else hd.st == .free) →
       (met = true → s.acquireReady c.w c.b.lanes .core = true → s.windowFull (coreOf c.w) = false →
         ∃ t, exec i s = .next t ∧ Moved c (s.wave c.w) (t.wave c.w) ∧ (t.wave c.w).v = c.x.v ∧ (t.wave c.w).s = c.x.s ∧ (t.wave c.w).p = c.x.p ∧
           (t.wave c.w).f = c.x.f ∧ (t.wave c.w).po = (c.x.po + 1) % 2 ^ 32 ∧ t.x.teams = s.x.teams ∧ (quiet s c.w → t.m = s.m ∧ t.pk = s.pk ∧ t.reg = s.reg)) ∧
       ((met && s.acquireReady c.w c.b.lanes .core && !s.windowFull (coreOf c.w)) = false →
         ∃ t, exec i s = .next t ∧ OutsideWaves [c.w] s t ∧ PlaceOnly (s.wave c.w) (t.wave c.w) ∧
           ∀ l, (t.wave c.w).lane l = if hasLane c.b.lanes l then { c.x.lane l with st := .waiting (.hwait h full ph met) } else c.x.lane l)) ∧
     (Ready s c (.hcfgMark h) {} → hd.st = .free → hd.count = 1 → s.windowFull (coreOf c.w) = false →
       ∃ t, exec (.hcfgMark h) s = .next t ∧ HandlesOnly c.w s t ∧ Moved c (s.wave c.w) (t.wave c.w) ∧
         (t.teamOf c.w).handle h = { hd with st := .filling } ∧ (∀ k, k ≠ h → (t.teamOf c.w).handle k = (s.teamOf c.w).handle k) ∧
         t.o.next = s.o.next + 1 ∧ (t.op s.o.next).kind = .mark h ∧ (t.op s.o.next).cls = .rl ∧ (t.op s.o.next).pos = [(c.w, c.x.po)] ∧
         PlaceOnly { s.wave c.w with po := (c.x.po + 1) % 2 ^ 32 } (t.wave c.w)) ∧
     (Ready s c (.hfree h p) {} → hd.st = .full → hd.fph = p → s.windowFull (coreOf c.w) = false →
       ∃ t, exec (.hfree h p) s = .next t ∧ HandlesOnly c.w s t ∧ Moved c (s.wave c.w) (t.wave c.w) ∧ t.x.teams = s.x.teams ∧
         t.o.next = s.o.next + 1 ∧ (t.op s.o.next).kind = .hfree h p ∧ (t.op s.o.next).cls = .rl ∧ (t.op s.o.next).pos = [(c.w, c.x.po)] ∧
         PlaceOnly { s.wave c.w with po := (c.x.po + 1) % 2 ^ 32 } (t.wave c.w)) ∧
     (Ready s c (.hfree h p) {} → (hd.st ≠ .full ∨ hd.fph ≠ p) →
       ∃ t, exec (.hfree h p) s = .next t ∧ OutsideWaves [c.w] s t ∧ Moved c (s.wave c.w) (t.wave c.w) ∧ PlaceOnly (s.wave c.w) (t.wave c.w)))

/-- R268, R272, R282-R284, R82: a matrix word of a MATRIX wave whose every taking-part quarter passes its checks issues one operation: MMA, ACCZ and ACCLD name
each quarter's accumulator slot, ACCST the quarter's bytes of CLM, ACCFLUSH and ACCFLUSH.DET the 256 words of each quarter's 1024-byte block; MMA debits
the tenant's matrix allowance of the core by its cost times the quarters.  The bundle goes on; no slot and no byte changes yet.  With no lane
active the bundle goes on.
R276: an MMA that passes its checks but costs more than its tenant's allowance of the core has left, the period's refill being partly spent, stalls its bundle
and debits nothing. -/
def Obligations.MatrixWords : Prop :=
  (∀ (s : State) (c : Cx) (acc ra : Nat) (load : Bool) (kind : OpKind) (p : Pre) (i : Instr),
     (∃ ec atam rb fmt, kind = .mma ∧ load = true ∧ i = .mma ec acc atam ra rb fmt ∧ p = mmaPre c acc atam ra rb fmt ∧
       (∀ q ∈ c.quarters, mmaFault (c.g.slot fmt) (c.g.slot ((fmt + 1) % 8)) atam (s.teamOf c.w).scratch (c.qreg ra q.2) (c.qreg rb q.2) = none) ∧
       s.mayIssue (coreOf c.w) c.g.tenant (c.quarters.length * 2 ^ ec) = true) ∨
     (kind = .accz ∧ load = true ∧ i = .accz acc ∧ p = c.lxPre false true false acc false fun _ => []) ∨
     (kind = .accld ∧ load = true ∧ i = .accld acc ra ∧ p = c.lxPre false true false acc false (fun q => [ra + q]) ∧
       ∀ q ∈ c.quarters, clmCheck (s.teamOf c.w).scratch (c.qreg ra q.2) 1024 64 = none) ∨
     (∃ fmt, kind = .accst ∧ load = false ∧ i = .accst acc ra fmt ∧ p = c.lxPre false false false acc true (fun q => [ra + q]) ∧
       ∀ q ∈ c.quarters, accstFault (c.g.slot fmt) (s.teamOf c.w).scratch (c.qreg ra q.2) = none) ∨
     (((kind = .accflush ∧ i = .accflush acc ra) ∨ (kind = .accdet ∧ i = .accflushDet acc ra)) ∧ load = false ∧
       p = c.lxPre false false false acc true (fun q => [ra + 2 * q, ra + 2 * q + 1]) ∧
       ∀ q ∈ c.storing, ∃ as, s.flushCheck (s.agentOf c.w) (c.qpair ra q.2) = .ok as) →
     Ready s c i p →
     (c.act = 0#32 → ∃ t, exec i s = .next t ∧ OutsideWaves [c.w] s t ∧ PlaceOnly (s.wave c.w) (t.wave c.w) ∧ Moved c (s.wave c.w) (t.wave c.w)) ∧
     (c.act ≠ 0#32 → s.windowFull (coreOf c.w) = false → (s.wave c.w).flag (c.b.cl.flagFor load) < 255 →
       ∃ t o, exec i s = .next t ∧ IssueFrame c s t ∧ Moved c (s.wave c.w) (t.wave c.w) ∧ o.kind = kind ∧
         (kind ≠ .accz → Issued c (c.b.cl.flagFor load) s t o) ∧ (kind = .accz → IssuedApart c (c.b.cl.flagFor load) s t o) ∧
         (kind = .mma ∨ kind = .accz ∨ kind = .accld → o.slotParts.map (fun p => p.reg) = c.quarters.map fun q => acc + q.1) ∧
         (kind = .accld → (List.range c.quarters.length).map (fun k => ((o.parts.getD (5 * k + 1) {}).pa, (o.parts.getD (5 * k + 1) {}).size)) =
           c.quarters.map fun q => (c.qreg ra q.2, 1024)) ∧
         (kind = .accst → o.parts.map (fun p => (p.reg, p.pa)) = c.storing.map fun q => (acc + q.1, c.qreg ra q.2)) ∧
         (kind = .accflush ∨ kind = .accdet → ∀ block : Nat → List Access, (∀ q ∈ c.storing, s.flushCheck (s.agentOf c.w) (c.qpair ra q.2) = .ok (block q.1)) →
           o.parts.map (fun p => (p.reg, p.pa, p.size)) =
             c.storing.flatMap fun q => (block q.1).flatMap fun a => (List.range 16).map fun j => (acc + q.1, a.pa + 4 * j, 4)) ∧
         (∀ ec atam rb fmt, i = .mma ec acc atam ra rb fmt →
           SMap.get 0 (t.core (coreOf c.w)).spent c.g.tenant = SMap.get 0 (s.core (coreOf c.w)).spent c.g.tenant + c.quarters.length * 2 ^ ec) ∧
         ((∀ ec atam rb fmt, i ≠ .mma ec acc atam ra rb fmt) → t.x.cores = s.x.cores))) ∧
  (∀ (s : State) (c : Cx) (ec acc : Nat) (atam : Bool) (ra rb fmt : Nat), Ready s c (.mma ec acc atam ra rb fmt) (mmaPre c acc atam ra rb fmt) → c.act ≠ 0#32 →
     s.windowFull (coreOf c.w) = false → (s.wave c.w).flag (c.b.cl.flagFor true) < 255 →
     (∀ q ∈ c.quarters, mmaFault (c.g.slot fmt) (c.g.slot ((fmt + 1) % 8)) atam (s.teamOf c.w).scratch (c.qreg ra q.2) (c.qreg rb q.2) = none) →
     s.remain (coreOf c.w) c.g.tenant < c.quarters.length * 2 ^ ec → s.remain (coreOf c.w) c.g.tenant ≠ s.refill c.g.tenant →
     ∃ t, exec (.mma ec acc atam ra rb fmt) s = .next t ∧ OutsideWaves [c.w] s t ∧
       t.wave c.w = { s.wave c.w with bundles := c.x.bundles.map fun k => if k.lanes == c.b.lanes then { c.b with stall := .budget, age := 0 } else k })

/-- R305, R82: a SPAWN of a task wave whose every active lane names a timestamp not before its own task's, an entry of the launch and an open scope issues one
operation on the second flag, with a child for each active lane in task order; the bundle goes on and no child is queued yet.
R302, R307: in a wave of the control team FSOPEN opens a free scope under an open parent, FSCLOSE frees an open, empty scope that is no open scope's parent,
and FSWAIT of an open scope lets its bundle go on where the scope is empty, the acquire may perform and the core's window has room (R236), else makes every lane wait.  No other scope changes. -/
def Obligations.TaskWords : Prop :=
  (∀ (d : Nat) (a : Ext) (b : Nat) (s : State) (c : Cx),
     Ready s c (.spawn d a b) { flag := some c.b.cl.second, top := Nat.max (Nat.max (d + 8) (b + 1)) (extTop a true), reads := c.inLanes (vRange d 8 ++ [(.v, b)] ++ Ext.regs a true), perLane := true } →
     (c.act = 0#32 → ∃ t, exec (.spawn d a b) s = .next t ∧ OutsideWaves [c.w] s t ∧ PlaceOnly (s.wave c.w) (t.wave c.w) ∧ Moved c (s.wave c.w) (t.wave c.w)) ∧
     (c.act ≠ 0#32 → c.x.taskWave = true → s.windowFull (coreOf c.w) = false → (s.wave c.w).flag c.b.cl.second < 255 →
       (∀ l, hasLane c.act l = true → (s.laneTask c.w l).ts ≤ s.extVal64 c.w c.b a l ∧ (c.x.vreg b l).toNat < 2 ^ 12 ∧
         (c.x.vreg b l).toNat / 2 ^ 8 < c.g.entries.length ∧ (c.g.scope ((c.x.vreg b l).toNat % 256)).opened = true) →
       ∃ t o, exec (.spawn d a b) s = .next t ∧ IssueFrame c s t ∧ Moved c (s.wave c.w) (t.wave c.w) ∧ IssuedApart c c.b.cl.second s t o ∧ o.kind = .spawn ∧
         t.x.grids = s.x.grids ∧
         o.parts.map (fun p => (p.lane, p.data, p.data2)) =
           (c.laneOrder (lanesOf c.act)).map fun l => (l, (s.extVal64 c.w c.b a l).toNat, (c.x.vreg b l).toNat))) ∧
  (∀ (a b : Nat) (s : State) (c : Cx) (k p : Nat), k = (c.x.sreg a).toNat % 256 → p = (c.x.sreg b).toNat % 256 → c.x.taskWave = false → c.g.isTask = true →
     (Ready s c (.fsopen a b) { reads := [(.s, a), (.s, b)] } → (c.g.scope k).opened = false → (c.g.scope p).opened = true →
       ∃ t, exec (.fsopen a b) s = .next t ∧ Moved c (s.wave c.w) (t.wave c.w) ∧ PlaceOnly (s.wave c.w) (t.wave c.w) ∧ t.m = s.m ∧ t.o = s.o ∧ t.reg = s.reg ∧
         (∀ j, j ≠ c.w → t.wave j = s.wave j) ∧ (∀ g, g ≠ c.x.grid → t.grid g = s.grid g) ∧
         t.grid c.x.grid = { c.g with scopes := (t.grid c.x.grid).scopes } ∧
         ∀ q, (t.grid c.x.grid).scope q = if q = k then { opened := true, parent := some p, live := 0 } else c.g.scope q) ∧
     (Ready s c (.fsclose a) { reads := [(.s, a)] } → k ≠ 0 → (c.g.scope k).opened = true → c.g.scopeEmpty 257 k = true →
       (∀ e ∈ c.g.scopes, e.2.opened = true → e.2.parent ≠ some k) →
       ∃ t, exec (.fsclose a) s = .next t ∧ Moved c (s.wave c.w) (t.wave c.w) ∧ PlaceOnly (s.wave c.w) (t.wave c.w) ∧ t.m = s.m ∧ t.o = s.o ∧ t.reg = s.reg ∧
         (∀ j, j ≠ c.w → t.wave j = s.wave j) ∧ (∀ g, g ≠ c.x.grid → t.grid g = s.grid g) ∧
         t.grid c.x.grid = { c.g with scopes := (t.grid c.x.grid).scopes } ∧
         ∀ q, (t.grid c.x.grid).scope q = if q = k then {} else c.g.scope q) ∧
     (Ready s c (.fswait a) { reads := [(.s, a)] } → (c.g.scope k).opened = true →
       ((c.g.scopeEmpty 257 k && s.acquireReady c.w c.b.lanes .package && !s.windowFull (coreOf c.w)) = true →
         ∃ t, exec (.fswait a) s = .next t ∧ Moved c (s.wave c.w) (t.wave c.w) ∧ (t.wave c.w).v = c.x.v ∧ (t.wave c.w).s = c.x.s ∧ (t.wave c.w).p = c.x.p ∧
           (t.wave c.w).f = c.x.f ∧ (t.wave c.w).po = (c.x.po + 1) % 2 ^ 32 ∧ t.x.grids = s.x.grids ∧ (quiet s c.w → t.m = s.m ∧ t.reg = s.reg)) ∧
       ((c.g.scopeEmpty 257 k && s.acquireReady c.w c.b.lanes .package && !s.windowFull (coreOf c.w)) = false →
         ∃ t, exec (.fswait a) s = .next t ∧ OutsideWaves [c.w] s t ∧ PlaceOnly (s.wave c.w) (t.wave c.w) ∧
           ∀ l, (t.wave c.w).lane l = if hasLane c.b.lanes l then { c.x.lane l with st := .waiting (.fswait k) } else c.x.lane l)))

/-- R192, R196, R214, R225, R82: where a word of a load of any size (LD, LD.ACQ, LDS, LDH, ULD, LDM) arrives whose turn has come, the aligned granule of 8
bytes that holds it takes the value its bytes have at that moment, where it has none yet; with every granule bound, every destination of the part
takes the word, in its register of the row the part names; no other register and no byte of memory changes, and the flag falls when it was the
operation's last word.
R199, R104: where the data of an LDF arrives, every destination takes the F32 of the element, or of the two of an O4 byte, times the scale where the
slot has one. -/
def Obligations.LoadWordArrives : Prop :=
  (∀ (id i k v data bound : Nat) (s : State) (o : Op) (p : Part), o = s.op id → o.parts[i]? = some p →
    (o.kind = .ld ∨ o.kind = .lds ∨ o.kind = .uld ∨ o.kind = .ldm) → k < (p.size + 3) / 4 → hasBit p.landed k = false → p.hurt = false →
    s.partTask o p = none → (∀ e ∈ p.dst, e.2 ≤ 32) →
    (p.plt = none ∧ s.partReady id i = true ∧ (p.bound ≠ 0 ∨ s.linkFree id i = true) ∨ p.plt.isSome = true) →
    (p.clm = false → hasBit p.bound (k / 2) = false → yieldsWhole s (some o.core) ((p.pa + 8 * (k / 2)) / 64)) →
    (if hasBit p.bound (k / 2) then data = p.val.getD 0 ∧ bound = p.bound
     else (if p.clm then (s.teamOf o.wave).readClm (p.pa + 8 * (k / 2)) (Nat.min 8 (p.size - 8 * (k / 2)))
       else s.readPa (some o.core) (p.pa + 8 * (k / 2)) (Nat.min 8 (p.size - 8 * (k / 2)))) = (v, false) ∧
       data = p.val.getD 0 + v * 2 ^ (64 * (k / 2)) ∧ bound = p.bound + 2 ^ (k / 2)) →
    ∀ (whole : Bool), whole = decide (bound + 1 = 2 ^ ((p.size + 7) / 8)) →
    ∃ t, exec (.loadDataArrive id i k) s = .next t ∧ KeepsMemory s t ∧ t.reg = s.reg ∧ t.x.teams = s.x.teams ∧
      (∀ w n l, l < 32 → (t.wave w).vreg n l = if whole = true ∧ (w, l) ∈ p.dst ∧ n = p.reg + k then BitVec.ofNat 32 (data / 2 ^ (32 * k)) else (s.wave w).vreg n l) ∧
      (∀ w n, (t.wave w).sreg n = if whole = true ∧ (w, 32) ∈ p.dst ∧ n = p.reg + k then BitVec.ofNat 32 (data / 2 ^ (32 * k)) else (s.wave w).sreg n) ∧
      (∀ w, (t.wave w).p = (s.wave w).p ∧ (t.wave w).acc = (s.wave w).acc) ∧
      (whole = true → p.landed + 2 ^ k + 1 = 2 ^ ((p.size + 3) / 4) → o.done = false →
        (∀ j q, o.parts[j]? = some q → q.hurt = false ∧ (j ≠ i → q.arrived o.kind = true)) → FlagFalls o s t)) ∧
  (∀ (id i k v : Nat) (s : State) (o : Op) (p : Part) (f : FmtSlot) (scale : Option Nat), o = s.op id → o.parts[i]? = some p → o.kind = .ldf →
    f = (s.gridOf o.wave).slot o.fmt → p.clm = false → p.task = false → p.scaleTask = false → s.partReady id i = true → s.linkFree id i = true →
    (∀ e ∈ p.dst, e.2 < 32) → s.readPa (some o.core) p.pa p.size = (v, false) → yieldsWhole s (some o.core) (p.pa / 64) →
    (f.sk = 1 → yieldsWhole s (some o.core) (p.scalePa / 64)) →
    (if f.sk = 1 then ∃ e, scale = some e ∧ s.readPa (some o.core) p.scalePa 1 = (e, false) else scale = none) →
    ∃ t, exec (.loadDataArrive id i k) s = .next t ∧ KeepsMemory s t ∧ t.reg = s.reg ∧ t.x.teams = s.x.teams ∧
      (∀ w n l, l < 32 → (t.wave w).vreg n l =
        if (w, l) ∈ p.dst ∧ p.reg ≤ n ∧ n < p.reg + (loadElem f v scale).length then (loadElem f v scale).getD (n - p.reg) 0#32 else (s.wave w).vreg n l) ∧
      (∀ w, (t.wave w).s = (s.wave w).s ∧ (t.wave w).p = (s.wave w).p ∧ (t.wave w).acc = (s.wave w).acc) ∧ (lastPart o i → FlagFalls o s t))

/-- R225, R205, R206, R267, R246, R82: where a write or an atomic that is no release performs, that its shadow issues alike (R337), exactly its bytes take its data, an
atomic's its operation's value with the old value to its destinations; STS, STH and BATOM do the same to the team's CLM; HFREE's release frees the
handle; the delayed store of the fault injector performs likewise and sets FIRED for ARM.  No other register and no other byte changes.
R199, R104: an STF through a scaled slot first takes its scale byte and carries the converted element from then on, setting SATF where that saturates; once
every lane has its scale, it writes.
R283, R268: an ACCST quarter first reads its slot and its scale bytes and carries the converted elements, element 0 lowest; once every quarter has,
its bytes of CLM take them.
R337, R339: where its shadow issued another address or other data nothing is written: its waves are suspended, and the record of kind SDC names the compared line and the
instruction (what is compared, and when, is DEDUCED, log 42). -/
def Obligations.WritePerforms : Prop :=
  (∀ (id i : Nat) (s : State) (o : Op) (p : Part), o = s.op id → o.parts[i]? = some p → s.canPerform id i = true → p.rel = .none → p.task = false → p.hurt = false →
    p.pa % 64 + p.size ≤ 64 → s.differs id i = false →
    (p.ready = 0 → s.firMatches o p = false →
      ((o.kind = .st ∨ o.kind = .ust ∨ o.kind = .stm ∨ o.kind = .stf ∧ (s.scaledStore o = false ∨ ∀ q ∈ o.parts, q.bound = 1)) → p.clm = false →
        ∃ t, exec (.memoryEventPerform id i) s = .next t ∧ MemoryWrites p.pa p.size p.data s t ∧
        KeepsRegisters s t ∧ t.x.teams = s.x.teams ∧ t.reg = s.reg ∧ (lastPart o i → FlagFalls o s t)) ∧
      (o.kind = .sts → p.clm = true → 0 < p.size → ∃ t, exec (.memoryEventPerform id i) s = .next t ∧ KeepsMemory s t ∧ KeepsRegisters s t ∧ t.reg = s.reg ∧
        (∀ k, k ≠ s.teamKey o.wave → t.team k = s.team k) ∧ (lastPart o i → FlagFalls o s t) ∧
        ∀ a, (SMap.get 0#8 (t.teamOf o.wave).clm a).toNat = byteAfter p.pa p.size p.data a (SMap.get 0#8 (s.teamOf o.wave).clm a).toNat) ∧
      (∀ f e v, o.kind = .stf → f = (s.gridOf o.wave).slot o.fmt → f.sk = 1 → p.bound ≠ 1 → p.scaleTask = false → s.readPa (some o.core) p.scalePa 1 = (e, false) →
        yieldsWhole s (some o.core) (p.scalePa / 64) → v = storeElem f (BitVec.ofNat 32 p.data) (BitVec.ofNat 32 (p.data / 2 ^ 32)) (some e) →
        ∃ t, exec (.memoryEventPerform id i) s = .next t ∧ KeepsMemory s t ∧ KeepsRegisters s t ∧ t.x.teams = s.x.teams ∧ t.reg = s.reg ∧
          (t.op id).parts[i]? = some { p with data := v.1, bound := 1, hurt := false, scaleBad := false } ∧
          (t.wave o.wave).satf = ((s.wave o.wave).satf || v.2) ∧ ∀ w, w ≠ o.wave → t.wave w = s.wave w) ∧
      (∀ opc old, o.kind = .batom opc → p.clm = true → p.size = 4 → (s.teamOf o.wave).readClm p.pa 4 = (old, false) → (∀ e ∈ p.dst, e.2 < 32) →
        ∃ t, exec (.memoryEventPerform id i) s = .next t ∧ KeepsMemory s t ∧ t.reg = s.reg ∧ (∀ k, k ≠ s.teamKey o.wave → t.team k = s.team k) ∧
          (lastPart o i → FlagFalls o s t) ∧
          (∀ a, (SMap.get 0#8 (t.teamOf o.wave).clm a).toNat =
            byteAfter p.pa (if opc = 9 ∧ old ≠ p.data then 0 else 4) (atomVal opc 4 old p.data p.data2) a (SMap.get 0#8 (s.teamOf o.wave).clm a).toNat) ∧
          (∀ w, (t.wave w).s = (s.wave w).s ∧ (t.wave w).p = (s.wave w).p ∧ (t.wave w).acc = (s.wave w).acc) ∧
          ∀ w n l, l < 32 → (t.wave w).vreg n l = if (w, l) ∈ p.dst ∧ n = p.reg then BitVec.ofNat 32 old else (s.wave w).vreg n l) ∧
      (∀ f, o.kind = .accst → p.clm = true → f = (s.grid o.grid).slot o.fmt → s.slotFree id p.reg = true →
        (p.bound ≠ 1 → (∃ j q, j ≠ i ∧ o.parts[j]? = some q ∧ q.bound ≠ 1) →
          ∃ t q, exec (.memoryEventPerform id i) s = .next t ∧ KeepsMemory s t ∧ KeepsRegisters s t ∧ t.x.teams = s.x.teams ∧ t.reg = s.reg ∧
            (t.op id).parts[i]? = some q ∧ q.bound = 1 ∧
            ∀ m, m < 256 / f.accstStep.1 → q.data / 2 ^ (8 * f.accstStep.2 * m) % 2 ^ (8 * f.accstStep.2) =
              (s.accstElem o p (f.accstStep.1 * m)).1.1 % 2 ^ (8 * f.accstStep.2)) ∧
        ((∀ q ∈ o.parts, q.bound = 1) →
          ∃ t, exec (.memoryEventPerform id i) s = .next t ∧ KeepsMemory s t ∧ KeepsRegisters s t ∧ t.reg = s.reg ∧
            (∀ k, k ≠ s.teamKey o.wave → t.team k = s.team k) ∧ (lastPart o i → FlagFalls o s t) ∧
            ∀ a, (SMap.get 0#8 (t.teamOf o.wave).clm a).toNat = byteAfter p.pa f.tileBytes p.data a (SMap.get 0#8 (s.teamOf o.wave).clm a).toNat)) ∧
      (∀ wide opc old, o.kind = .atom wide opc → p.clm = false → p.size = (if wide then 8 else 4) → s.readPa (some o.core) p.pa p.size = (old, false) →
        (∀ e ∈ p.dst, e.2 < 32) → o.core < 256 → yieldsWhole s (some o.core) (p.pa / 64) →
        ((s.l1Line o.core (p.pa / 64)).excl = true → s.owner (p.pa / 64) = some o.core) →
        ∃ t, exec (.memoryEventPerform id i) s = .next t ∧ t.x.teams = s.x.teams ∧ t.reg = s.reg ∧ (lastPart o i → FlagFalls o s t) ∧
          MemoryWrites p.pa (if opc = 9 ∧ old ≠ p.data then 0 else p.size) (atomVal opc p.size old p.data p.data2) s t ∧
          (∀ w, (t.wave w).s = (s.wave w).s ∧ (t.wave w).p = (s.wave w).p ∧ (t.wave w).acc = (s.wave w).acc) ∧
          ∀ w n l, l < 32 → (t.wave w).vreg n l =
            if (w, l) ∈ p.dst ∧ p.reg ≤ n ∧ n < p.reg + p.size / 4 then BitVec.ofNat 32 (old / 2 ^ (32 * (n - p.reg))) else (s.wave w).vreg n l) ∧
      (∀ h ph, o.kind = .hfree h ph → ∃ t, exec (.memoryEventPerform id i) s = .next t ∧ KeepsMemory s t ∧ KeepsRegisters s t ∧ t.reg = s.reg ∧
        (∀ k, k ≠ h → (t.teamOf o.wave).handle k = (s.teamOf o.wave).handle k) ∧
        (t.teamOf o.wave).handle h = (if ((s.teamOf o.wave).handle h).st = .full ∧ ((s.teamOf o.wave).handle h).fph = ph
          then { (s.teamOf o.wave).handle h with st := .free } else (s.teamOf o.wave).handle h))) ∧
    ((o.kind = .st ∨ o.kind = .ust ∨ o.kind = .stm) → p.clm = false → p.ready ≠ 0 → p.ready ≤ s.sch.cycle →
      s.o.ops.find? (fun e => e.2.parts.any fun q => q.ready != 0 && q.plt.isNone) = some (id, o) → o.parts.findIdx (fun q => q.ready != 0 && q.plt.isNone) = i →
      ∃ t, exec .firDelayedStore s = .next t ∧ MemoryWrites p.pa p.size p.data s t ∧ KeepsRegisters s t ∧ t.x.teams = s.x.teams ∧
        t.dev 0x403 = (if o.arm = s.reg.firArm then s.dev 0x403 &&& ~~~1#32 else s.dev 0x403) ||| 4#32)) ∧
  (∀ (id i : Nat) (s : State) (o : Op) (p : Part), o = s.op id → o.parts[i]? = some p → s.canPerform id i = true → p.rel = .none → p.ready = 0 → s.firMatches o p = false →
    o.kind.compared = true → s.differs id i = true → (∀ q ∈ o.parts, q.plt = none) → (∀ e ∈ o.pos, alone s e.1 id ∧ e.1 < 2 ^ 16) → s.provOf (o.pos.map fun e => e.1) = [] →
    (∀ k, (s.tenant k).viols = []) →
    ∃ t r k, exec (.memoryEventPerform id i) s = .next t ∧ KeepsMemory s t ∧ KeepsRegisters s t ∧ t.x.teams = s.x.teams ∧ t.reg = s.reg ∧ (∀ e ∈ o.pos, t.suspended e.1 = true) ∧
      (t.tenant k).records = (s.tenant k).records ++ [r] ∧ leNat (r.take 1) = 4 ∧ leNat ((r.drop 8).take 8) = p.pa / 64 * 64 % 2 ^ 64 ∧ leNat ((r.drop 0x20).take 4) / 2 ^ 28 = 5 ∧
      leNat ((r.drop 0x28).take 8) = o.pc.toNat)

/-- R226, R227: where a release performs provisionally no byte of memory changes for any agent but its own core, which reads the released bytes; where it completes, its bytes
take the value it holds and the provisional release is gone.  No register changes. -/
def Obligations.ReleasePerforms : Prop :=
  ∀ (id i : Nat) (s : State) (o : Op) (p : Part), o = s.op id → o.parts[i]? = some p → p.hurt = false → p.pa % 64 + p.size ≤ 64 → p.clm = false → p.scaleBad = false →
    s.differs id i = false →
    ((o.kind = .st ∨ o.kind = .ust ∨ o.kind = .stm) → s.canPerform id i = true → p.rel = .todo → p.ready = 0 → s.firMatches o p = false → (∀ e ∈ o.pos, alone s e.1 id) →
      ∃ t, exec (.releaseProvisionalPerform id i) s = .next t ∧ KeepsMemory s t ∧ KeepsRegisters s t ∧ t.x.teams = s.x.teams ∧ t.reg = s.reg ∧
        t.m.prov = s.m.prov ++ [{ op := id, part := i, core := o.core, pa := p.pa, size := p.size, val := p.data, bad := false }] ∧
        ((t.op id).parts[i]?).map (fun q => q.rel) = some .prov ∧
        (∀ a, (t.readPa (some o.core) a 1).1 = byteAfter p.pa p.size p.data a (s.readPa (some o.core) a 1).1) ∧
        (∀ k a, k ≠ o.core → (t.readPa (some k) a 1).1 = (s.readPa (some k) a 1).1) ∧ (lastPart o i → FlagFalls o s t)) ∧
    (∀ q, p.rel = .prov → s.mayComplete id i = true → s.m.prov.find? (fun q => q.op == id && q.part == i) = some q → q.pa = p.pa → q.size = p.size →
      ∃ t, exec (.releaseComplete id i) s = .next t ∧ MemoryWrites p.pa p.size q.val s t ∧ KeepsRegisters s t ∧ t.x.teams = s.x.teams ∧ t.reg = s.reg ∧
        t.m.prov = s.m.prov.filter fun r => !(r.op == id && r.part == i))

/-- R323, R324, R325, R334: a walk that has one of the walkers of its die and whose reads may go, and whose write of the leaf nothing holds (R40, R226), ends: one that succeeds puts its translation into the TLB of its core and marks its leaf where the leaf grants the access; one that fails keeps its fault for
its wave or its copy; one begun before an invalidation changes no translation; the bundles that wait for it go on.  An instruction-cache miss brings the line in.  TLBINV names
entries of a page, of an identifier or all, and TLB_INVALIDATE_DONE drops them once no older walk is left. (That the leaf alone is marked, after its check, is DEDUCED, log 20.) -/
def Obligations.TranslationEvents : Prop :=
  ∀ (s : State),
    (∀ id k, s.m.walks.find? (fun e => e.1 == id && e.2.failed.isNone) = some (id, k) → s.hasWalker id k = true → (s.walkAsks id k).all s.askReady = true → s.leafWaits k = false →
      (∀ a ∈ s.walkAsks id k, yieldsWhole s none a.line) →
      ∃ t, exec (.pageWalk id) s = .next t ∧ KeepsRegisters s t ∧ t.x.teams = s.x.teams ∧ t.o = s.o ∧
      (t.wave k.wave).bundles = (s.wave k.wave).bundles.map (fun b => if b.stall = .walk id then { b with stall := .none } else b) ∧
      (k.drop = true → KeepsMemory s t ∧ t.m.tlb = s.m.tlb ∧ t.m.walks = s.m.walks.filter fun e => e.1 != id) ∧
      (k.drop = false → ∀ f, s.walkNow k.asid k.va = .error f →
        KeepsMemory s t ∧ t.m.tlb = s.m.tlb ∧ SMap.get {} t.m.walks id = { k with failed := some (f.code, f.reason, f.info, f.paddr) }) ∧
      (k.drop = false → ∀ r, s.walkNow k.asid k.va = .ok r →
        t.m.walks = s.m.walks.filter (fun e => e.1 != id) ∧
        t.m.tlb = { core := k.core, asid := k.asid, vpn := k.va.toNat / 2 ^ 16, frame := r.frame, x := r.x, w := r.w, rd := r.rd, a := k.marks r, d := k.marks r && k.write } ::
          s.m.tlb.filter (fun e => !(e.core == k.core && e.asid == k.asid && e.vpn == k.va.toNat / 2 ^ 16)) ∧
        MemoryWrites r.pte (if k.marks r then 1 else 0) (Nat.lor (s.readPhys r.pte 1) (if k.write then 0xC0 else 0x80)) s t)) ∧
    (∀ id k, s.m.misses.find? (fun e => e.1 == id) = some (id, k) → s.askReady (s.missAsk id k) = true → ∃ t, exec (.icacheMissFill id) s = .next t ∧ KeepsRegisters s t ∧ KeepsMemory s t ∧ t.x.teams = s.x.teams ∧
      t.o = s.o ∧ (t.icLine (dieOf (coreOf k.wave)) (k.pa / 64)).valid = true ∧ (t.icLine (dieOf (coreOf k.wave)) (k.pa / 64)).data = (s.below (k.pa / 64)).1 ∧
      (t.wave k.wave).bundles = (s.wave k.wave).bundles.map (fun b => if b.stall = .miss id then { b with stall := .none } else b) ∧
      t.m.misses = s.m.misses.filter (fun e => e.1 != id)) ∧
    (∀ i named, (∃ asid, i = .tlbinvPage asid ∧ named = fun (k : Tlb) => k.asid == asid && k.vpn == (s.dev64 0x409).toNat / 2 ^ 16) ∨
      (∃ asid, i = .tlbinvAsid asid ∧ named = fun (k : Tlb) => k.asid == asid) ∨ (i = .tlbinvAll ∧ named = fun _ => true) →
      ∃ t, exec i s = .next t ∧ t.m.mem = s.m.mem ∧ t.x = s.x ∧ t.o = s.o ∧ t.reg = { s.reg with tlbBusy := true } ∧
        t.m.tlb = s.m.tlb.map (fun k => if named k then { k with stale := true } else k) ∧ (∀ e ∈ t.m.walks, e.2.drop = true)) ∧
    (s.reg.tlbBusy = true → (∀ e ∈ s.m.walks, e.2.drop = false) → ∃ t, exec .tlbInvalidateDone s = .next t ∧ t.x = s.x ∧ t.o = s.o ∧ t.reg = { s.reg with tlbBusy := false } ∧
      t.m = { s.m with tlb := s.m.tlb.filter (fun k => !k.stale), rgn := s.m.rgn.filter fun k => !k.stale })

/-- R166, R63, R108, R299: the writes and the read of a wave's own registers: TRAPPC takes an aligned canonical value in handler mode and drops the saved
clause context, WPART a legal width, SATF its bit; a read of CFRTL takes the latest frontier, all ones where there is none, into the snapshot. -/
def Obligations.WaveRegisterEvents : Prop :=
  ∀ (s : State) (w : Nat),
    (∀ v, ∃ t, exec (.trappcWrite w v) s = .next t ∧ OutsideWaves [w] s t ∧
      t.wave w = if (s.wave w).hmode = true ∧ v.toNat % 4 = 0 ∧ canonical v = true then { s.wave w with trappc := v, saved := none } else s.wave w) ∧
    ((s.wave w).resident = true →
      (∀ v, ∃ t, exec (.wpartWrite w v) s = .next t ∧ OutsideWaves [w] s t ∧
        t.wave w = if 1 ≤ v.toNat % 8 ∧ v.toNat % 8 ≤ 5 then { s.wave w with tw := v.toNat % 8 } else s.wave w) ∧
      (∀ v, ∃ t, exec (.satfWrite w v) s = .next t ∧ OutsideWaves [w] s t ∧ t.wave w = { s.wave w with satf := v.getLsbD 0 }) ∧
      (∃ t, exec (.cfrtlRead w) s = .next t ∧ OutsideWaves [w] s t ∧ t.wave w = { s.wave w with cfr := (t.wave w).cfr } ∧
        ∀ f : Option (Nat × Nat), f = (if (s.gridOf w).isTask then (s.gridOf w).frontier
            else ((s.tenant (s.gridOf w).tenant).lastTask.map fun k => (s.grid k).frontier).getD none) →
          ∀ k, k < 4 → SMap.get 0xFFFFFFFF#32 (t.wave w).cfr k =
            match f with
            | none => 0xFFFFFFFF#32
            | some (ts, id) => BitVec.ofNat 32 (if k = 0 then ts else if k = 1 then ts / 2 ^ 32 else if k = 2 then id else id / 2 ^ 32)))

/-- R309, R308, R22: a write through BAR0 of a device register: a register of plain bits takes them, the limit and the publication period take a legal
value, and a 64-bit address register takes both halves when its high half is written; nothing else changes.
R309, R317, R44, R326: a write through BAR0 of a register of a tenant changes that tenant's register alone: fqctl keeps EN only with a legal LOG2N and
clears OVF by writing 1 (OVF sets again where records wait that may not be posted, DEDUCED, log 50); winsel, redpol, msiport and the window's valid bit take their bits; a queue's control word and tail are stored. -/
def Obligations.RegisterWritesByHost : Prop :=
  (∀ (s : State) (tn : Nat) (v : Word), tn < 32 →
     (∀ n mask, (n, mask) ∈ plainRegs → ∃ t, exec (.sysregWrite (.bar0 tn) n v) s = .next t ∧ DeviceRegsOnly s t ∧ t.reg = { s.reg with dev := t.reg.dev } ∧
       ∀ k, t.dev k = if k = n then v &&& mask else s.dev k) ∧
     (∀ n lo hi, ((n = 0x406 ∧ lo = 100 ∧ hi = 2200) ∨ (n = 0x41D ∧ lo = 1 ∧ hi = 720)) →
       ∃ t, exec (.sysregWrite (.bar0 tn) n v) s = .next t ∧ DeviceRegsOnly s t ∧ t.reg = { s.reg with dev := t.reg.dev } ∧
         ∀ k, t.dev k = if k = n ∧ lo ≤ v.toNat ∧ v.toNat ≤ hi then v else s.dev k) ∧
     (∀ n lo h, (n, lo) ∈ addressRegs → ∃ u t, exec (.sysregWrite (.bar0 tn) n v) s = .next u ∧ exec (.sysregWrite (.bar0 tn) (n + 1) h) u = .next t ∧
       DeviceRegsOnly s u ∧ u.reg = { s.reg with blatch := u.reg.blatch } ∧ DeviceRegsOnly s t ∧ t.reg = { s.reg with dev := t.reg.dev, blatch := t.reg.blatch } ∧
       t.dev64 n = keptAddress (h ++ v) lo ∧ (∀ k, k ≠ n → k ≠ n + 1 → t.dev k = s.dev k) ∧ SMap.get none t.reg.blatch n = none) ∧
     (∀ w n, (s.wave w).resident = true → regDenied (s.gridOf w).tenant n = false →
       exec (.sysregWrite (.wave w) n v) s = .next (s.sysWrite { w := some w, t := if (s.gridOf w).tenant = 0 then (s.dev 0x46).toNat % 32 else (s.gridOf w).tenant } n v)) ∧
     (∀ w n, regDenied (s.gridOf w).tenant n = true → exec (.sysregWrite (.wave w) n v) s = .next s)) ∧
  (∀ (s : State) (tn : Nat) (v : Word), tn < 32 →
     (∃ t, exec (.fqconsWrite tn v) s = .next t ∧ TenantOnly tn s t ∧ NotesOverflow { s.tenant tn with fqcons := v } (t.tenant tn)) ∧
     (∃ t, exec (.sysregWrite (.bar0 tn) 0x44 v) s = .next t ∧ TenantOnly tn s t ∧ NotesOverflow { s.tenant tn with fqcons := v } (t.tenant tn)) ∧
     (∃ t ctl, exec (.sysregWrite (.bar0 tn) 0x42 v) s = .next t ∧ TenantOnly tn s t ∧ NotesOverflow { s.tenant tn with fqctl := ctl } (t.tenant tn) ∧
       ctl.toNat % 32 = v.toNat % 32 ∧ ctl.toNat / 2 ^ 8 % 32 = v.toNat / 2 ^ 8 % 32 ∧
       ctl.getLsbD 31 = (v.getLsbD 31 && decide (4 ≤ v.toNat % 32 ∧ v.toNat % 32 ≤ 16)) ∧
       ctl.getLsbD 16 = ((s.tenant tn).fqctl.getLsbD 16 && !v.getLsbD 16)) ∧
     (∃ t, exec (.sysregWrite (.bar0 tn) 0x47 v) s = .next t ∧ TenantOnly tn s t ∧ t.tenant tn = { s.tenant tn with redpol := v.toNat % 4 }) ∧
     (∃ t, exec (.sysregWrite (.bar0 tn) 0x48 v) s = .next t ∧ TenantOnly tn s t ∧ t.tenant tn = { s.tenant tn with winsel := v.toNat % 16 }) ∧
     (∃ t, exec (.sysregWrite (.bar0 tn) 0x4E v) s = .next t ∧ TenantOnly tn s t ∧ t.tenant tn = { s.tenant tn with msiport := v.toNat % 2 }) ∧
     (∃ t, exec (.sysregWrite (.bar0 tn) 0x4D v) s = .next t ∧ TenantOnly tn s t ∧ t.tenant tn = { s.tenant tn with windows := (t.tenant tn).windows } ∧
       ∀ k, SMap.get {} (t.tenant tn).windows k =
         if k = (s.tenant tn).winsel then { SMap.get {} (s.tenant tn).windows k with valid := v.getLsbD 0 } else SMap.get {} (s.tenant tn).windows k) ∧
     (∀ q, q < 64 →
       (∃ t, exec (.sysregWrite (.bar0 tn) (0x102 + 4 * q) v) s = .next t ∧ TenantOnly tn s t ∧ t.tenant tn = { s.tenant tn with queues := (t.tenant tn).queues } ∧
         ∀ k, (t.tenant tn).queue k = if k = q then { (s.tenant tn).queue k with ctl := v &&& 0x80003F07#32 } else (s.tenant tn).queue k) ∧
       (∃ t, exec (.sysregWrite (.bar0 tn) (0x103 + 4 * q) v) s = .next t ∧ TenantOnly tn s t ∧ t.tenant tn = { s.tenant tn with queues := (t.tenant tn).queues } ∧
         ∀ k, (t.tenant tn).queue k = if k = q then { (s.tenant tn).queue k with tail := v } else (s.tenant tn).queue k)))

/-- R51, R239, R231, R245, R246, R167: the write of measd7 extends the named register 3 to 7 with the eight staged words; CHKKEY is written and LTRESET zeroes every
clock, drops every interval recorded and opens those that stand open anew at zero, only while no launch is resident; FIRCTL takes its fields, ARM only with a DELAY, FIRED clears by writing 1; RTAPPLY gives
the selected route its staged owner and counts, at phase 0 with no arrivals. -/
def Obligations.DeviceCommandWrites : Prop :=
  ∀ (s : State),
    (∀ v m, m = (s.dev 0x420).toNat % 8 → ∃ t, exec (.measd7Write v) s = .next t ∧ DeviceRegsOnly s t ∧
      t.reg = { s.reg with measd := t.reg.measd, meas := t.reg.meas } ∧ (∀ k, SMap.get 0#32 t.reg.measd k = if k = 7 then v else SMap.get 0#32 s.reg.measd k) ∧
      ∀ k, t.meas k = if k = m ∧ 3 ≤ m then
          sha256 (s.meas k ++ (List.range 8).flatMap fun j => leBytes 4 (if j = 7 then v else SMap.get 0#32 s.reg.measd j).toNat) else s.meas k) ∧
    (∀ v, ∃ t, exec (.chkkeyWrite v) s = .next t ∧ DeviceRegsOnly s t ∧
      t.reg = if ∃ e ∈ s.x.grids, e.2.live = true then s.reg else { s.reg with chkkey := v }) ∧
    ((∃ e ∈ s.x.grids, e.2.live = true) → exec .ltreset s = .next s) ∧
    ((∀ e ∈ s.x.grids, e.2.live = false) → ∃ t, exec .ltreset s = .next t ∧ t.reg = s.reg ∧ KeepsRegisters s t ∧ t.x.teams = s.x.teams ∧
      (∀ c, (t.core c).lt = 0) ∧ (∀ k, (t.slice k).lt = 0) ∧ (∀ k, (t.ctrl k).lt = 0) ∧ (∀ k, (t.port k).lt = 0) ∧ t.pk.arbLt = 0 ∧
      t.m.intervals = [] ∧ t.m.history = [] ∧ ∀ k, (SMap.get {} t.m.held k).opened = (SMap.get {} s.m.held k).opened ∧
        ((SMap.get {} t.m.held k).opened = true → (SMap.get {} t.m.held k).start = 0)) ∧
    (∀ v, ∃ t, exec (.firctlWrite v) s = .next t ∧ DeviceRegsOnly s t ∧ t.reg = { s.reg with dev := t.reg.dev, firArm := s.reg.firArm + 1 } ∧ (∀ k, k ≠ 0x403 → t.dev k = s.dev k) ∧
      (t.dev 0x403).toNat / 2 ^ 8 = v.toNat / 2 ^ 8 ∧ (t.dev 0x403).extractLsb' 3 5 = 0#5 ∧ (t.dev 0x403).getLsbD 1 = v.getLsbD 1 ∧
      (t.dev 0x403).getLsbD 0 = (v.getLsbD 0 && decide (v.toNat / 2 ^ 16 ≠ 0)) ∧ (t.dev 0x403).getLsbD 2 = ((s.dev 0x403).getLsbD 2 && !v.getLsbD 2)) ∧
    (∀ r, r = (s.dev 0x417).toNat % 8 → ∃ t, exec .rtapply s = .next t ∧ t.x = s.x ∧ t.reg = s.reg ∧ t.m = s.m ∧ t.o = s.o ∧
      t.pk = { s.pk with routes := t.pk.routes } ∧
      ∀ k, t.route k = if k = r then { owner := (s.route r).newOwner, counts := (s.route r).newCounts, newOwner := (s.route r).newOwner, newCounts := (s.route r).newCounts }
        else s.route k)

/-- R28, R29, R341, R342, R24: a submission while a load is in progress answers BUSY; a candidate that fails a check answers its code and a good one is kept to be
installed; meanwhile no new request for a line of the region goes, and the install waits for those that a controller has accepted, and for its own write-backs of
dirty lines (whose requests are DESIGN CHOICE, log 63); the install puts the rows in force for that region alone and leaves no line of it in a cache, and memory
outside the region keeps its value; the package's number changes only while every package link is down, its memory moving with it. -/
def Obligations.AddressMapEvents : Prop :=
  ∀ (s : State) (k : Nat) (rows : List Nat), k = (s.dev 0x40D).toNat % 8 → rows = (List.range 33).map (fun i => SMap.get 0 s.reg.rows (64 * k + i)) →
    (s.reg.mapLoad.isSome = true → ∃ t, exec .mapcmdSubmit s = .next t ∧ SetsDev 0x412 0x80000003#32 s t) ∧
    (s.reg.mapLoad = none → mapCode rows ≠ 0 → ∃ t, exec .mapcmdSubmit s = .next t ∧ SetsDev 0x412 (BitVec.ofNat 32 (mapCode rows)) s t) ∧
    (s.reg.mapLoad = none → mapCode rows = 0 → ∃ t, exec .mapcmdSubmit s = .next t ∧ DeviceRegsOnly s t ∧
      t.reg = { s.reg with dev := t.reg.dev, mapLoad := some { region := k, rows := rows, code := 0 } } ∧ (t.dev 0x412).getLsbD 31 = true ∧ ∀ j, j ≠ 0x412 → t.dev j = s.dev j) ∧
    (∀ v, s.reg.mapLoad = some v → v.region < 8 → v.rows.length = 33 → s.acceptedIn v.region = false → Coherent s →
      answered s (s.backAsks (askAgent 12 0) ((s.heldLines.filter (s.inRegion v.region)).eraseDups)) →
      ∃ t, exec .mapInstall s = .next t ∧ t.reg.mapLoad = none ∧ t.dev 0x412 = BitVec.ofNat 32 v.code ∧ KeepsRegisters s t ∧ t.x.teams = s.x.teams ∧
        (∀ j i, i < 33 → t.mapRow j i = if j = v.region then v.rows.getD i 0 else s.mapRow j i) ∧
        (∀ line, s.inRegion v.region line = true → (t.llcLine line).valid = false ∧ ∀ c, c < 256 → (t.l1Line c line).valid = false) ∧
        (∀ a, s.inRegion v.region (a / 64) = false → t.readPhys a 1 = s.readPhys a 1)) ∧
    (∀ v, s.reg.mapLoad = some v → s.acceptedIn v.region = true → exec .mapInstall s = .next s) ∧
    (∀ v (a : Ask), s.reg.mapLoad = some v → s.inRegion v.region a.line = true → a.sort ≠ .back → s.accepted a.key v.region = false → s.askReady a = false) ∧
    (∀ v, (∃ l, l < 12 ∧ SMap.get false s.pk.links l = true) → exec (.pkgnumWrite v) s = .next s) ∧
    (∀ v, (∀ l, l < 12 → SMap.get false s.pk.links l = false) → Coherent s → Memory.wf s.m.mem = true → SMap.wf 0 s.m.scrambled = true →
      ∃ t, exec (.pkgnumWrite v) s = .next t ∧ t.pkgnum = v.toNat % 64 ∧ KeepsRegisters s t ∧ t.x.teams = s.x.teams ∧
        (∀ a, a < 2 ^ 39 → t.readPhys ((v.toNat % 64) * 2 ^ 39 + a) 1 = s.readPhys (s.pkgnum * 2 ^ 39 + a) 1) ∧
        ∀ a, hbmEnd ≤ a → t.readPhys a 1 = s.readPhys a 1)

/-- R317, R42, R345: where records may be posted and the request of the write has been answered (the device's requests are DESIGN CHOICE, log 63), the oldest
record that waits is written at its place in the tenant's queue, fqprod counts it and the interrupt of the tenant's vector is sent to its port, after older messages that wait there; no other byte of memory changes.  Where they may not, nothing changes.  OVF is set
as a record joins that may not be posted, or as one is posted while others wait that may not be (when it sets is DEDUCED, log 50).  A port that is
enumerated takes its waiting messages in order, each as the write of its table entry. -/
def Obligations.FaultRecordsArePosted : Prop :=
  ∀ (s : State) (n : Nat),
    (∀ r rest, (s.tenant n).records = r :: rest → r.length = 64 → mayPost (s.tenant n) → (∀ g ∈ s.x.groups, g.resumed = false) →
      ∀ at_ vec, at_ = (s.tenant n).fqbase.toNat + 64 * ((s.tenant n).fqprod.toNat % 2 ^ ((s.tenant n).fqctl.toNat % 32)) →
        vec = 32 * n + (s.tenant n).fqctl.toNat / 2 ^ 8 % 32 →
        answered s (physAsks (askAgent 4 n) 0 32 at_ 64 true) → s.lostAny (askAgent 4 n) = false →
        ∃ t, exec (.faultRecordPost n) s = .next t ∧
          NotesOverflow { s.tenant n with records := rest, fqprod := (s.tenant n).fqprod + 1#32, budgets := (t.tenant n).budgets } (t.tenant n) ∧
          (∀ k, k ≠ n → t.tenant k = { s.tenant k with budgets := (t.tenant k).budgets }) ∧ (∀ w, t.wave w = s.wave w) ∧ t.x.teams = s.x.teams ∧ t.x.groups = s.x.groups ∧ t.reg = s.reg ∧ t.o = s.o ∧
          (∀ a, t.readPhys a 1 = if at_ ≤ a ∧ a < at_ + 64 then (r.getD (a - at_) 0#8).toNat else s.readPhys a 1) ∧
          TakesMessage (s.port (s.tenant n).msiport) vec (t.port (s.tenant n).msiport)) ∧
    (((s.tenant n).records = [] ∨ ¬ mayPost (s.tenant n)) → exec (.faultRecordPost n) s = .next s) ∧
    (∀ r, NotesOverflow { s.tenant n with records := (s.tenant n).records ++ [r], nrec := (s.tenant n).nrec + 1 } ((s.queueRecord n r).tenant n) ∧
      ∀ k, k ≠ n → (s.queueRecord n r).tenant k = s.tenant k) ∧
    (∃ t, exec (.msiDeliverPending n) s = .next t ∧ t.x = s.x ∧ t.reg = s.reg ∧ t.m = s.m ∧ t.o = s.o ∧ (∀ k, k ≠ n → t.port k = s.port k) ∧
      t.port n = if (s.port n).enumerated = true ∧ (s.port n).ioOnly = false
        then { s.port n with sent := (s.port n).sent ++ (s.port n).pending, wrote := (s.port n).wrote ++ (s.port n).pending.map (SMap.get (0, 0#32) (s.port n).table), pending := [] }
        else s.port n)

/-- R319, R317, R176: a command on a wave answers in RES why it does nothing and then changes nothing else; RESUME clears every fault the wave is suspended for once
its record has been posted; KILL makes every lane of every wave of those groups EXITED, clears HMODE and lifts the suspension. (That a RESUME waits for its record to be posted is DEDUCED, log 37.) -/
def Obligations.GroupCommands : Prop :=
  ∀ (s : State) (n wid w : Nat) (i : Instr) (code : Nat), w = waveOfId wid → (i = .wcmdResume n wid ∨ i = .wcmdKill n wid) →
    code = (if (s.wave w).resident = false ∨ s.waveId w ≠ wid then 2 else if (s.gridOf w).tenant ≠ n then 3 else if s.suspended w = false then 1 else 0) →
    ∃ t, exec i s = .next t ∧ (t.tenant n).wcmd = ((s.tenant n).wcmd &&& 0xFCFFFFFF#32) ||| BitVec.ofNat 32 (code * 2 ^ 24) ∧
      (code ≠ 0 → TenantOnly n s t ∧ t.tenant n = { s.tenant n with wcmd := (t.tenant n).wcmd }) ∧ KeepsRegisters s t ∧ t.m.mem = s.m.mem ∧ t.reg = s.reg ∧
      (code = 0 → i = .wcmdResume n wid → (∀ g ∈ s.x.groups, g.resumed = false ∧ g.copy = none) →
        (∀ g ∈ s.x.groups, g.waves.contains w = true → s.recordWaits g = false) →
        t.x.groups = s.x.groups.filter (fun g => !g.waves.contains w) ∧ t.suspended w = false ∧ t.x.teams = s.x.teams ∧ t.o = s.o) ∧
      (code = 0 → i = .wcmdKill n wid → t.x.groups = s.x.groups.filter (fun g => !g.waves.contains w) ∧
        ∀ k ∈ s.groupWaves w, (t.wave k).hmode = false ∧ (∀ l, l < 32 → ((t.wave k).lane l).st = .exited) ∧ (t.grid (s.wave k).grid).killed = true)

/-- R320, R321, R161, R303: SAVE of a resident team with an area in memory makes the team, and the task waves of its launch in non-speculative mode on its core, start no
further clause and prestat busy; once the team is quiet and the requests for its area have been answered, its area is
written (the magic word, then every v-register of its first wave at its place), the team and its waves are gone and prestat says done; a SAVE of no team, a RESTORE
from a bad area, or a command while one is in progress, answers so.
R320, R321, R161: a RESTORE whose area has been read places the team in the slot that prestat names and forgets what was kept: the team is resident there with its
waves, whose v-registers, uniform registers, predicates and lanes are those of the area; then what waits in the team goes on where it may, and where no lane of
it waits and one has not exited, the team stands so.  One that may not be placed answers why, and changes nothing else of the program.
(What goes on beside the area, and the answer for an area that lies in no memory, are DEDUCED, log 31.  The requests of the two commands, that a RESTORE in progress goes
on by later events of the command, and the answer where the area cannot be reached, are DESIGN CHOICE, log 63.) -/
def Obligations.PreemptionCommands : Prop :=
  (∀ (s : State) (core ts tk : Nat), tk = 8 * core + ts →
    ((s.dev 0x416).toNat % 4 = 1 → exec (.precmdSave core ts) s = .next s ∧ (s.reg.restoring = none → exec (.precmdRestore core) s = .next s)) ∧
    ((s.dev 0x416).toNat % 4 ≠ 1 → (256 ≤ core ∨ 8 ≤ ts ∨ (s.team tk).resident = false) → ∃ t, exec (.precmdSave core ts) s = .next t ∧ SetsDev 0x416 (statusWord 3 1) s t) ∧
    ((s.dev 0x416).toNat % 4 ≠ 1 → core < 256 → ts < 8 → (s.team tk).resident = true →
      (∀ sizes, sizes = areaSizes ((s.team tk).waves.map s.wave) (s.team tk).scratch → s.areaOk s.preaddr ((areaOffsets sizes).getD 5 0 + sizes.getD 5 0) = true) →
      ∃ t, exec (.precmdSave core ts) s = .next t ∧ (∀ w, t.wave w = s.wave w) ∧
        (∀ k, t.team k = if k = tk ∨ ∃ e ∈ s.nonspecWaves (s.team tk).grid core, k = taskTeam e.2 then { s.team k with saving := true } else s.team k) ∧
        t.dev 0x416 = statusWord 1 0 ∧ t.reg.saving = some { core := core, tslot := ts, addr := s.preaddr } ∧ t.m = s.m ∧ t.o = s.o) ∧
    (∀ v, s.reg.saving = some v → v.core = core → v.tslot = ts → s.saveReady tk = false → exec .saveAreaWrite s = .next s) ∧
    (∀ v w ws, s.reg.saving = some v → v.core = core → v.tslot = ts → s.saveReady tk = true → (s.grid (s.team tk).grid).isTask = false → v.addr % 4096 = 0 →
      (s.team tk).waves = w :: ws → answered s (s.saveAsks v) → s.lostAny (askAgent 5 0) = false →
      ∃ t, exec .saveAreaWrite s = .next t ∧ t.dev 0x416 = statusWord 2 0 ∧ t.reg.saving = none ∧ (t.team tk).resident = false ∧
        (∀ k ∈ w :: ws, (t.wave k).resident = false) ∧ (∀ k, k ∉ w :: ws → t.wave k = s.wave k) ∧ t.readPhys v.addr 4 = 0x5A585341 ∧
        (∀ r l, r < (s.wave w).vcount → l < 32 → t.readPhys (v.addr + 4096 + 128 * r + 4 * l) 4 = ((s.wave w).vreg r l).toNat)) ∧
    (∀ v, s.reg.saving = some v → v.core = core → v.tslot = ts → s.saveReady tk = true → answered s (s.saveAsks v) → s.lostAny (askAgent 5 0) = true →
      ∃ t, exec .saveAreaWrite s = .next t ∧ t.dev 0x416 = statusWord 3 4 ∧ t.reg.saving = none ∧ (t.team tk).saving = false ∧ (∀ k, t.wave k = s.wave k) ∧ KeepsMemory s t) ∧
    ((s.dev 0x416).toNat % 4 ≠ 1 → s.reg.restoring = none → s.areaOk s.preaddr 4096 = false →
      ∃ t, exec (.precmdRestore core) s = .next t ∧ SetsDev 0x416 (statusWord 3 4) s t) ∧
    (∀ v, s.reg.restoring = some v → v.core ≠ core → exec (.precmdRestore core) s = .next s)) ∧
  (∀ (s u x z : State) (core : Nat) (v : Saving), RestoreUnder s core v u → x = (u.passAsks (u.restoreAsks v)).2.yieldAsks (u.restoreAsks v) →
    z = { x with reg := { x.reg with restoring := none } } →
    (¬ answered u (u.restoreAsks v) →
      ∃ t, exec (.precmdRestore core) s = .next t ∧ t.reg = u.reg ∧ KeepsRegisters s t ∧ KeepsMemory s t ∧ t.x.teams = s.x.teams) ∧
    (∀ why, answered u (u.restoreAsks v) →
      (z.headerTeam v.addr = none ∧ why = 4 ∨
       (∃ gk num r, z.headerTeam v.addr = some (gk, num, r) ∧
         (core ≠ r.core ∧ r.bound (z.grid gk) = true ∧ why = 3 ∨
          (core = r.core ∨ r.bound (z.grid gk) = false) ∧ (z.lostAny (askAgent 6 0) = true ∨ z.stateBad v.addr r = true) ∧ why = 4 ∨
          (core = r.core ∨ r.bound (z.grid gk) = false) ∧ z.lostAny (askAgent 6 0) = false ∧ z.stateBad v.addr r = false ∧
            (2 ^ 47 ≤ z.maxClock ∨ z.pk.rebase = true ∨ z.replace gk core num (r.team.waves.headD 0 / 16 % 4) = none ∨
              ∃ slot p, z.replace gk core num (r.team.waves.headD 0 / 16 % 4) = some (slot, p) ∧ p.loadTasks gk r = none) ∧ why = 2))) →
      ∃ t, exec (.precmdRestore core) s = .next t ∧ t.dev 0x416 = statusWord 3 why ∧ t.reg.restoring = none ∧ KeepsRegisters s t ∧ KeepsMemory s t ∧
        t.x.teams = s.x.teams) ∧
    (∀ gk num r slot p q tk, answered u (u.restoreAsks v) → z.headerTeam v.addr = some (gk, num, r) → (core = r.core ∨ r.bound (z.grid gk) = false) →
      z.lostAny (askAgent 6 0) = false → z.stateBad v.addr r = false → z.maxClock < 2 ^ 47 → z.pk.rebase = false → core < 256 →
      z.replace gk core num (r.team.waves.headD 0 / 16 % 4) = some (slot, p) → p.loadTasks gk r = some q → tk = 8 * core + slot → (p.team tk).waves.Nodup →
      ∃ y, exec (.precmdRestore core) s = .next ((y.settle tk).agentDone (askAgent 6 0)) ∧ y.dev 0x416 = BitVec.ofNat 32 (2 + 1024 * slot) ∧ y.reg.restoring = none ∧
        SMap.get {} (y.grid gk).saved num = {} ∧ KeepsMemory s y ∧
        (y.team tk).resident = true ∧ (y.team tk).num = num ∧ (y.team tk).grid = gk ∧ (y.team tk).waves = (p.team tk).waves ∧
        (∀ i w, (y.team tk).waves[i]? = some w → i < r.waves.length →
          HoldsArea s (v.addr + regsAt r.waves i) (v.addr + controlAt r.waves r.team.scratch i) (y.wave w)) ∧
        ((∀ w ∈ (y.team tk).waves, ∀ l, ∀ k, ((y.wave w).lane l).st ≠ .waiting k) → (∃ w ∈ (y.team tk).waves, ∃ l, l < 32 ∧ ((y.wave w).lane l).st = .running) →
          ∀ t, t = (y.settle tk).agentDone (askAgent 6 0) → t.team tk = y.team tk ∧ t.reg = y.reg ∧ KeepsRegisters y t ∧ KeepsMemory y t ∧
            ∀ w l, (t.wave w).lane l = (y.wave w).lane l)))

/-- R46, R47, R343: a cold reset leaves every register at its reset value and no line, launch, record or memory content; a warm reset of a device whose lines no host holds
keeps the HBM's contents and the route table and resets the rest, every map to P; where the host holds lines it waits for their answers, and the last answer,
or the timeout after 100 ms, which poisons the lines not answered for and posts one device error with the first of them (DESIGN CHOICE, log 59), finishes it.  An answer ends
what the host held of the line.  CHKKEY is the ranger's (DESIGN CHOICE, log 7); empty memory after a
cold reset is the model's choice (DESIGN CHOICE, log 4). (What is kept beside what the rules name is DEDUCED, log 35.) -/
def Obligations.DeviceResets : Prop :=
  ∀ (s : State) (i : Instr),
    (∃ t, exec .coldReset s = .next t ∧ t.reg = { State.reset.reg with chkkey := t.reg.chkkey } ∧ t.m = {} ∧ t.o = {} ∧ t.sch.cycle = 0 ∧ t.sch.due = [.bootSequence] ∧
      t.sch.issueQ = [] ∧ t.x = { cores := t.x.cores } ∧ t.pk.boot = .off ∧ t.pk.rom = s.pk.rom ∧ t.pk.ports = [] ∧ (∀ k r, t.mapRow k r = resetRow r) ∧ t.pk.routes = [] ∧ t.pk.links = [] ∧ t.pk.ctrls = [] ∧
      (SMap.wf {} s.x.cores = true → ∀ c, t.core c = { out := (s.core c).out }) ∧
      (SMap.wf {} s.pk.slices = true → ∀ k, t.slice k = { retired := (s.slice k).retired, disabled := (s.slice k).disabled })) ∧
    ((s.dev 0x435).toNat % 4 = 1 → exec .resetcmdWarm s = .next s) ∧
    ((i = .cxlHotReset ∨ (i = .resetcmdWarm ∧ (s.dev 0x435).toNat % 4 ≠ 1)) → s.reg.warm = none → s.m.hostLines = [] → Coherent s → Memory.wf s.m.mem = true →
      SMap.wf 0 s.m.scrambled = true →
      ∃ t, exec i s = .next t ∧ t.reg = { State.reset.reg with chkkey := t.reg.chkkey, rtbl := s.reg.rtbl } ∧ (∀ k r, t.mapRow k r = resetRow r) ∧ t.o = {} ∧ t.sch.cycle = 0 ∧
        t.sch.due = [.bootSequence] ∧ t.x = { cores := t.x.cores, tenants := t.x.tenants } ∧ t.pk.boot = .off ∧ t.m.l1 = [] ∧ t.m.llc = [] ∧ t.m.prov = [] ∧
        (∀ c, (t.core c).lt = 0 ∧ (t.core c).spent = [] ∧ (t.core c).slip = []) ∧ ∀ a, a < 2 ^ 39 → t.readPhys a 1 = s.readPhys (s.pkgnum * 2 ^ 39 + a) 1) ∧
    ((i = .cxlHotReset ∨ (i = .resetcmdWarm ∧ (s.dev 0x435).toNat % 4 ≠ 1)) → s.reg.warm = none → s.m.hostLines ≠ [] →
      ∃ t, exec i s = .next t ∧ t.reg.warm = some { lines := s.m.hostLines, since := s.sch.cycle } ∧ t.dev 0x435 = statusWord 1 0 ∧
        ∀ c line, c < 256 → (t.l1Line c line).valid = false) ∧
    (∀ line, s.reg.warm = none → ∃ t, exec (.backInvalidateResponse line) s = .next t ∧ t.x = s.x ∧ t.reg = s.reg ∧ t.sch = s.sch ∧ t.o = s.o ∧
      t.m = { s.m with hostLines := s.m.hostLines.filter (fun l => l != line), intervals := t.m.intervals, held := t.m.held } ∧
      ∀ p, p < 2 → (t.held line (portChecker p)).opened = false) ∧
    (∀ line v, s.reg.warm = some v → ∃ t, exec (.backInvalidateResponse line) s = .next t ∧
      (v.lines.filter (fun l => l != line) ≠ [] → t.reg = { s.reg with warm := some { v with lines := v.lines.filter fun l => l != line } } ∧ t.x = s.x ∧ t.sch = s.sch) ∧
      (v.lines.filter (fun l => l != line) = [] → t.reg.warm = none ∧ t.sch.due = [.bootSequence] ∧ t.pk.boot = .off)) ∧
    (∀ v, s.reg.warm = some v → s.sch.cycle < v.since + 160000000 → exec .snoopTimeout s = .next s) ∧
    (∀ v, s.reg.warm = some v → v.since + 160000000 ≤ s.sch.cycle → SMap.wf {} s.x.tenants = true → ∃ t r, exec .snoopTimeout s = .next t ∧ t.reg.warm = none ∧
      t.sch.due = [.bootSequence] ∧ (t.tenant 0).records = (s.tenant 0).records ++ [r] ∧ leNat (r.take 1) = 0x30 ∧ leNat ((r.drop 1).take 1) = 3 ∧
      leNat ((r.drop 0x28).take 8) = 64 * v.lines.headD 0 % 2 ^ 64 ∧ (s.pkgnum = 0 → SMap.wf false s.m.memPoison = true → ∀ line ∈ v.lines, t.homePoison line = true))

/-- R343, R344, R48: a reset of a core is refused where the core is out of service, a team is resident or a task runs in non-speculative mode, and else leaves the core
with no wave, line or clock; a core is gated only where it is idle, with its L1 written back and empty, and a wake makes it usable.  Memory keeps its value.  (That a reset leaves the core gated, or not, as it was, is beyond R343's list: DEDUCED, log 35; when a core is idle
is DEDUCED, log 46.) -/
def Obligations.CoreCommands : Prop :=
  ∀ (s : State) (c : Nat),
    ((s.dev 0x435).toNat % 4 = 1 → exec (.resetcmdCore c) s = .next s) ∧
    ((s.dev 0x435).toNat % 4 ≠ 1 → ∀ why, why = (if (s.core c).out = true ∨ 256 ≤ c then 3 else if s.teamOn c = true then 1 else if s.nonspecOn c = true then 2 else 0) →
      (why ≠ 0 → ∃ t, exec (.resetcmdCore c) s = .next t ∧ SetsDev 0x435 (statusWord 3 why) s t) ∧
      (why = 0 → Coherent s → ∃ t, exec (.resetcmdCore c) s = .next t ∧ t.dev 0x435 = statusWord 2 0 ∧ KeepsMemory s t ∧
        (∀ w, coreOf w = c → t.wave w = {}) ∧ (∀ line, (t.l1Line c line).valid = false) ∧
        t.core c = { out := s.pk.rom.failCores.contains c, gated := (s.core c).gated } ∧ (∀ k, k ≠ c → (t.core k).out = (s.core k).out) ∧
        ∀ e ∈ t.o.ops, e.2.core ≠ c)) ∧
    (s.idle c = true → c < 256 → Coherent s → ∃ t, exec (.gatecmdGate c) s = .next t ∧ KeepsMemory s t ∧ KeepsRegisters s t ∧ t.x.teams = s.x.teams ∧ (t.core c).gated = true ∧
      (∀ line, (t.l1Line c line).valid = false) ∧ t.gatestat = BitVec.ofNat 32 (2 + 2 ^ 16 * c + 2 ^ 31)) ∧
    (s.idle c = false → c < 256 → ∃ t, exec (.gatecmdGate c) s = .next t ∧ SetsDev 0x437 (BitVec.ofNat 32 (3 + 2 ^ 16 * c)) s t) ∧
    (c < 256 → ∃ t, exec (.gatecmdWake c) s = .next t ∧ t.m = s.m ∧ t.o = s.o ∧ (∀ w, t.wave w = s.wave w) ∧ t.x.teams = s.x.teams ∧
      t.core c = { s.core c with gated := false } ∧ (∀ k, k ≠ c → t.core k = s.core k) ∧ t.gatestat = BitVec.ofNat 32 (2 + 2 ^ 16 * c))

/-- R50, R51, R20, R26, R29: the ranger's boot clears the measurements, runs the valid image of the higher security version, slot A on a tie, and measures it, the configuration
and the defect map with the address maps; a core that fails its test is out of service, a slice that does leaves for a
spare of its die where there is one (R50 says only that it leaves service: DEDUCED, log 35); the image's matrices are installed, and a region whose matrix is the one its contents were
laid out by keeps them (DEDUCED, log 35); without a valid
image, or with a stack that fails, the device goes to recovery, where both ports serve CXL.io alone; else it enumerates on both ports.  A device that is up is left.  (The bytes in which the defect map is measured, 32 of the cores and 25 of the slices, are the model's,
DESIGN CHOICE, log 62; those of the maps are a free value, DESIGN CHOICE, log 8.) -/
def Obligations.BootSequence : Prop :=
  ∀ (s : State), (s.pk.boot ≠ .off → exec .bootSequence s = .next s) ∧
    (s.pk.boot = .off → ∃ t, exec .bootSequence s = .next t ∧ t.x.waves = s.x.waves ∧ t.o = s.o ∧
      (∀ a b : Image, s.pk.rom.slotA = some a → s.pk.rom.slotB = some b → ∀ ok : Image → Prop,
        (∀ i, ok i ↔ s.pk.rom.minVersion ≤ i.version ∧ sha256 s.pk.rom.vendorKey = s.pk.rom.vendorHash ∧ Config.slhVerify s.pk.rom.vendorKey i.bytes i.sig = true) →
        (ok a → (ok b → b.version ≤ a.version) → s.pk.rom.pick = some a) ∧ (ok b → (ok a → a.version < b.version) → s.pk.rom.pick = some b) ∧
        (¬ ok a → ¬ ok b → s.pk.rom.pick = none)) ∧
      match s.pk.rom.pick with
      | none => t.pk = { s.pk with boot := .recovery, ports := t.pk.ports } ∧ t.reg = { s.reg with meas := [] } ∧ t.m = s.m ∧
          ∀ p, t.port p = if p < 2 then { s.port p with enumerated := true, ioOnly := true } else s.port p
      | some i => t.pk.running = some i ∧ t.meas 0 = sha256 (List.replicate 32 0#8 ++ sha256 i.bytes) ∧
          (∀ c, c < 256 → (t.core c).out = ((s.core c).out || s.pk.rom.failCores.contains c)) ∧
          (∀ p ∈ s.pk.rom.failSlices, (t.slice p).retired = true ∨ t.spare (p / 64) = none) ∧ (s.pk.rom.failSlices = [] → t.m.llc = s.m.llc) ∧
          (∀ p, t.port p = if p < 2 then { s.port p with enumerated := true, ioOnly := s.pk.rom.failStack, lt := (t.port p).lt } else s.port p) ∧
          (s.pk.rom.failStack = true → t.pk.boot = .recovery) ∧
          (s.pk.rom.failStack = false → t.pk.boot = .up ∧
            (∃ cm sm rows, cm.length = 32 ∧ (∀ c, c < 256 → (cm.getD (c / 8) 0#8).getLsbD (c % 8) = !(t.core c).out) ∧
              sm.length = 25 ∧ (∀ j, j < 200 → (sm.getD (j / 8) 0#8).getLsbD (j % 8) = !(t.slice (64 * (j / 50) + j % 50)).retired) ∧
              rows.length = 264 ∧ (∀ k r, k < 8 → r < 33 → rows.getD (33 * k + r) 0 = t.mapRow k r) ∧
              t.meas 2 = sha256 (List.replicate 32 0#8 ++ sha256 (cm ++ sm ++ Config.mapBytes rows))) ∧
            (s.pk.rom.failSlices = [] → ∀ k a, k < 8 → a / 2 ^ 36 = s.pkgnum * 8 + k →
              (∀ r, r < 33 → (SMap.get none i.maps (64 * k + r)).getD (resetRow r) = (SMap.get none s.m.laid (64 * k + r)).getD (resetRow r)) → t.homeByte a = s.homeByte a) ∧
            t.meas 1 = sha256 (List.replicate 32 0#8 ++ sha256 i.config) ∧ (∀ m, 3 ≤ m → t.meas m = List.replicate 32 0#8) ∧
            (∀ k r, k < 8 → r < 33 → t.mapRow k r = (SMap.get none i.maps (64 * k + r)).getD (resetRow r))))

/-- R22, R276, R314, R335, R336: a power sample, one at the end of each millisecond, joins the last ten that follow each other and, once there are ten, moves the factor of the
next period; a budget period starts once at a cycle that is
a multiple of 1024: each allowance takes what is staged and its remainder is full, exhausted periods are counted and BUDGET suspends the waves that wait,
REMAIN of every core is the refill under the new factor, and bundles that stalled on it go on.
R27, R30, R31: a request for a line of this package waits unmarked at the end of the queue of the controller, with the bank and the row, that the line's location names (one
for a waiter is one that the waiter asks, DESIGN CHOICE, log 61), unless a change of the line's map holds it (R29); a batch forms only when none is marked: it changes marks alone, marks at most 16 requests of
a source in a bank, the oldest first where the tenant is not under the hard policy, and debits each tenant one unit per mark of a request of its own (traffic of nobody debits none, DESIGN CHOICE, log 63). (When the matrix kind counts as exhausted is DEDUCED, log 34.) -/
def Obligations.PeriodsAndBatches : Prop :=
  (∀ (s : State),
     ((s.sch.cycle = 0 ∨ s.sch.cycle % 1600000 ≠ 0 ∨ s.pk.powerAt = s.sch.cycle) → ∀ watts, exec (.powerMeasurement watts) s = .next s) ∧
     (s.sch.cycle ≠ 0 → s.sch.cycle % 1600000 = 0 → s.pk.powerAt ≠ s.sch.cycle → ∀ watts ps, ps = (if s.sch.cycle = s.pk.powerAt + 1600000 then (watts :: s.pk.powers).take 10 else [watts]) →
       ∃ t, exec (.powerMeasurement watts) s = .next t ∧ t.pk = { s.pk with powers := ps, powerAt := s.sch.cycle, newF := t.pk.newF } ∧ t.x = s.x ∧ t.reg = s.reg ∧
       t.m = s.m ∧ t.o = s.o ∧ (ps.length < 10 → t.pk.newF = s.pk.newF) ∧
       (10 ≤ ps.length → t.pk.newF = some (movedF (s.pk.newF.getD (s.dev 0x41E).toNat) (s.dev 0x406).toNat ps.sum))) ∧
     ((s.sch.cycle % 1024 ≠ 0 ∨ s.pk.period = s.sch.cycle + 1) → exec .budgetPeriodStart s = .next s) ∧
     (s.sch.cycle % 1024 = 0 → s.pk.period ≠ s.sch.cycle + 1 → ∃ t, exec .budgetPeriodStart s = .next t ∧ KeepsRegisters s t ∧ t.m.mem = s.m.mem ∧ t.o = s.o ∧
       t.x.teams = s.x.teams ∧ t.pk.newF = none ∧ t.dev 0x41E = (match s.pk.newF with | some f => BitVec.ofNat 32 f | none => s.dev 0x41E) ∧
       (∀ k, k ≠ 0x41E → t.dev k = s.dev k) ∧ (∀ w, ∀ b ∈ (t.wave w).bundles, b.stall ≠ .budget) ∧
       (∀ n, n < 32 → ∀ c, t.remain c n = t.refill n) ∧
       (∀ n, n < 32 → (t.tenant n).mat.allow = (s.tenant n).mat.newAllow.getD (s.tenant n).mat.allow) ∧
       ∀ n k, n < 32 → 1 ≤ k → k ≤ 5 → ∀ a : Allowance, a = (s.tenant n).budget k →
         (t.tenant n).budget k = { a with allow := a.newAllow.getD a.allow, rem := a.newAllow.getD a.allow, limit := (a.newCtl.getD (a.limit, a.pol)).1,
                                          pol := (a.newCtl.getD (a.limit, a.pol)).2, exhausted := ((t.tenant n).budget k).exhausted, newAllow := none, newCtl := none } ∧
         (budgetDue a → ((t.tenant n).budget k).exhausted = 0 ∧ ((∀ e ∈ s.m.walks, e.2.failed = none) → ∀ w ∈ s.waitsOn n k, t.suspended w = true)) ∧
         (¬ budgetDue a → ((t.tenant n).budget k).exhausted = endedExhausted a))) ∧
  (∀ (s : State) (c : Nat),
     (∀ (q : HbmReq) y, q.ctrl = c → s.ownHbm (64 * q.line) = true → y = s.location (64 * q.line % 2 ^ 39) → c = y / 2 ^ 30 % 8 → q.bank = y / 2 ^ 18 % 2 ^ 12 → q.row = y % 2 ^ 14 →
       (q.waiter = none → ∀ v, s.reg.mapLoad = some v → s.inRegion v.region q.line = false) →
       (∀ k, q.waiter = some k → (∃ a, s.askOf k q.line = some a ∧ s.hbmDone a = false ∧ s.mapHolds a = false ∧ a.tenant = q.tenant ∧ a.die = q.die ∧ a.write = q.write) ∧
         ∀ e ∈ s.pk.ctrls, ∀ p ∈ e.2.queue, p.waiter = some k → p.line ≠ q.line) → ∃ t, exec (.hbmRequest q) s = .next t ∧ t.x = s.x ∧ t.reg = s.reg ∧ t.m = s.m ∧ t.o = s.o ∧
       t.ctrl c = { s.ctrl c with queue := (s.ctrl c).queue ++ [{ q with marked := false }] } ∧ ∀ k, k ≠ c → t.ctrl k = s.ctrl k) ∧
     (∀ (q : HbmReq) y, y = s.location (64 * q.line % 2 ^ 39) → (s.ownHbm (64 * q.line) = false ∨ q.ctrl ≠ y / 2 ^ 30 % 8 ∨ q.bank ≠ y / 2 ^ 18 % 2 ^ 12 ∨ q.row ≠ y % 2 ^ 14) →
       exec (.hbmRequest q) s = .next s) ∧
     (∀ (q : HbmReq), (q.waiter = none ∧ (∃ v, s.reg.mapLoad = some v ∧ s.inRegion v.region q.line = true) ∨
         ∃ k a, q.waiter = some k ∧ s.askOf k q.line = some a ∧ s.mapHolds a = true) → exec (.hbmRequest q) s = .next s) ∧
     ((∃ q ∈ (s.ctrl c).queue, q.marked = true) → exec (.batchForm c) s = .next s) ∧
     ((∀ q ∈ (s.ctrl c).queue, q.marked = false) → ∃ t, exec (.batchForm c) s = .next t ∧ t.m = s.m ∧ t.o = s.o ∧ t.reg = s.reg ∧ (∀ w, t.wave w = s.wave w) ∧
       (∀ k, k ≠ c → t.ctrl k = s.ctrl k) ∧ (t.ctrl c).queue.map (fun q => { q with marked := false }) = (s.ctrl c).queue ∧
       (∀ q, ((t.ctrl c).queue.filter fun k => k.marked && sameBank q k).length ≤ 16) ∧
       (∀ i q, (t.ctrl c).queue[i]? = some q → q.marked = false → (q.waiter = none ∨ 32 ≤ q.tenant ∨ ((s.tenant q.tenant).budget 1).pol ≠ 2) →
         (((t.ctrl c).queue.take i).filter fun k => k.marked && sameBank q k).length = 16) ∧
       (∀ n, n < 32 → (t.tenant n).budget 1 = { (s.tenant n).budget 1 with rem := ((s.tenant n).budget 1).rem - ((t.ctrl c).queue.filter fun k => k.marked && k.waiter.isSome && k.tenant == n).length }) ∧
       (∀ n, n < 32 → ((s.tenant n).budget 1).pol = 2 → ((t.ctrl c).queue.filter fun k => k.marked && k.waiter.isSome && k.tenant == n).length ≤ ((s.tenant n).budget 1).rem)))

/-- R30, R35, R36, R37, R26: between batches, a scrub read that finds an error makes a conditional write with the tag it read; the write, between batches too, takes effect only where the tag still stands and no
demand write is queued, and then poisons a granule that was lost, which it reports in either case; the third corrected error disables a way, its line written back, and a set
with no way left holds no line; a worn-out slice moves to a spare of its die, once the write-backs of its dirty lines may go, or reports that there is none.  Memory keeps its
value.  (That a scrub's INFO is the line's home slice, and that one event of a way is one corrected error, are DEDUCED, log 43; that NOSPARE names the physical slice by 64 die + number is
DESIGN CHOICE, log 61; the requests of the write-backs are DESIGN CHOICE, log 63.) -/
def Obligations.MemoryIntegrityEvents : Prop :=
  ∀ (s : State),
    (∀ line found, ∃ t, exec (.scrubRead line found) s = .next t ∧ t.m = { s.m with scrubs := t.m.scrubs } ∧ t.x = s.x ∧ t.reg = s.reg ∧ t.pk = s.pk ∧ t.o = s.o ∧
      t.m.scrubs = if s.ownHbm (64 * line) = true ∧ found ≠ .clean ∧ (∀ q ∈ (s.ctrl (s.ctrlOf line)).queue, q.marked = false)
        then s.m.scrubs ++ [{ line := line, tag := SMap.get 0 s.m.tags line, bad := decide (found = .uncorrectable) }] else s.m.scrubs) ∧
    (∀ i v, s.m.scrubs[i]? = some v → (∃ q ∈ (s.ctrl (s.ctrlOf v.line)).queue, q.marked = true) → exec (.scrubConditionalWrite i) s = .next s) ∧
    (∀ i v, s.m.scrubs[i]? = some v → (∀ q ∈ (s.ctrl (s.ctrlOf v.line)).queue, q.marked = false) → ∃ t, exec (.scrubConditionalWrite i) s = .next t ∧ t.m.scrubs = s.m.scrubs.eraseIdx i ∧ t.m.mem = s.m.mem ∧ t.m.tags = s.m.tags ∧
      KeepsRegisters s t ∧
      ((v.bad = false ∨ SMap.get 0 s.m.tags v.line ≠ v.tag ∨ s.writeQueued v.line = true) → t.m.memPoison = s.m.memPoison) ∧ (v.bad = false → t.x = s.x) ∧
      (v.bad = true → SMap.get 0 s.m.tags v.line = v.tag → s.writeQueued v.line = false → t.homePoison v.line = true) ∧
      (v.bad = true → ReportsError 5 ((s.homeSlice v.line).getD 0 % 2 ^ 64) (64 * v.line % 2 ^ 64) s t)) ∧
    (∀ slice set way line, set < 8192 → way < 16 → slice / 64 < 4 → slice % 64 < 50 → (s.slice slice).disabled.contains (16 * set + way) = false → Coherent s →
      ∃ t, exec (.llcWayDisable slice set way line) s = .next t ∧ KeepsMemory s t ∧ KeepsRegisters s t ∧ t.o = s.o ∧
        SMap.get 0 (t.slice slice).errors (16 * set + way) = SMap.get 0 (s.slice slice).errors (16 * set + way) + 1 ∧
        (SMap.get 0 (s.slice slice).errors (16 * set + way) < 2 → (t.slice slice).disabled = (s.slice slice).disabled ∧ t.sch = s.sch) ∧
        (2 ≤ SMap.get 0 (s.slice slice).errors (16 * set + way) → (t.slice slice).disabled = (s.slice slice).disabled ++ [16 * set + way] ∧
          (s.homeSlice line = some slice → (t.llcLine line).valid = false) ∧
          ((t.slice slice).enabledWays set = 0 → ∀ l, Config.llcSet l = set → s.homeSlice l = some slice → (t.llcLine l).valid = false) ∧
          ∀ k, s.logicalOf (slice / 64) (slice % 64) = some k → (t.slice slice).enabledWays set < 2 → .sliceRetire (slice / 64) k ∈ t.sch.due)) ∧
    (∀ die k p, die < 4 → k < 48 → p = s.physSlice die k → (s.slice p).wornOut = true →
      (s.spare die = none → ∃ t, exec (.sliceRetire die k) s = .next t ∧ ReportsError 2 (p % 2 ^ 64) 0 s t ∧ t.m = s.m ∧ t.pk = s.pk ∧ KeepsRegisters s t) ∧
      (∀ j, s.spare die = some j → Coherent s → answered s (s.backAsks (askAgent 13 p) (s.sliceLines p)) → ∃ t, exec (.sliceRetire die k) s = .next t ∧ t.physSlice die k = 64 * die + j ∧ (t.slice p).retired = true ∧
        KeepsMemory s t ∧ KeepsRegisters s t ∧ t.o = s.o ∧ (∀ d i, d < 4 → i < 48 → (d ≠ die ∨ i ≠ k) → t.physSlice d i = s.physSlice d i) ∧
        ∀ line, s.homeSlice line = some p → (t.llcLine line).valid = false)) ∧
    (∀ die k, (s.slice (s.physSlice die k)).wornOut = false → exec (.sliceRetire die k) s = .next s)

/-- R34, R39, R192: a failed flit counts towards eight, after which the link is due to go down (whether a retry passes before is free, DESIGN CHOICE, log 33); a link that goes down
answers every part on it with poisoned data and is reported, and a copy whose next access crosses it goes on past that access (its handle's bytes poisoned, or what it writes poisoned); a part's or a walk's request that comes back over a package link is answered so and reported, and its load
raises ECCU, as the walk's agent does.  No register changes, and no byte of memory but what a copy writes.  (That the die links are 12 to 17, and which requests are on a link that goes down, are
DESIGN CHOICE, log 33.)
R40, R41, R47, R49, R52: a host snoop returns a host line's value to host memory and, where it invalidates, leaves no copy, and waits for a provisional release on the line; a host access (a write waits
for one too, a read beside one takes no line) through a decoder reads or writes
the device's memory once its request has been answered, the host may hold the line from then on, and an address both ports decode is reported, with INFO 0 (that, and the lines that the host
may hold as a set, are DESIGN CHOICE, log 44; the host's requests are DESIGN CHOICE, log 63); a quote holds the nonce and the measurement registers and
ends in the signature.  A device that is not up, or in a warm reset, answers none of them. -/
def Obligations.LinkAndHostEvents : Prop :=
  (∀ (s : State) (link : Nat),
     ((18 ≤ link ∨ s.linkIsUp link = false) → exec (.linkFlitRetry link) s = .next s) ∧
     (link < 18 → s.linkIsUp link = true → ∃ t, exec (.linkFlitRetry link) s = .next t ∧ t.x = s.x ∧ t.reg = s.reg ∧ t.m = s.m ∧ t.o = s.o ∧
       t.pk = { s.pk with retries := t.pk.retries } ∧
       (SMap.get 0 s.pk.retries link < 7 → t.sch.due = s.sch.due ∧
         (SMap.get 0 t.pk.retries link = 0 ∨ SMap.get 0 t.pk.retries link = SMap.get 0 s.pk.retries link + 1)) ∧
       (7 ≤ SMap.get 0 s.pk.retries link → SMap.get 0 t.pk.retries link = 8 ∧ .linkDown link ∈ t.sch.due)) ∧
     (SMap.get 0 s.pk.retries link ≠ 8 → exec (.linkDown link) s = .next s) ∧
     (SMap.get 0 s.pk.retries link = 8 → ∃ t, exec (.linkDown link) s = .next t ∧ t.linkIsUp link = false ∧ SMap.get 0 t.pk.retries link = 0 ∧ KeepsRegisters s t ∧
       ((∀ e ∈ s.o.copies, e.2.live = true → e.2.dir = 0 ∨ e.2.dir = 2) → KeepsMemory s t) ∧ t.reg = s.reg ∧ (∀ k, k ≠ link → t.linkIsUp k = s.linkIsUp k) ∧
       (∀ e ∈ s.onLink link, ∀ q, (t.op e.1).parts[e.2]? = some q → q.hurt = true) ∧ (s.onLink link = [] → ReportsError 0 (link % 2 ^ 64) 0 s t ∧ ((∀ e ∈ s.o.copies, s.copyPoison e.1 link = s) → t.o = s.o)) ∧
       ∀ k c, s.o.copies = [(k, c)] → c.live = true → c.slot.isSome = true → c.stopped = false → c.moved < c.total →
         (link ∈ c.pushLinks ∨ ∃ e ∈ s.elemAsks k, link ∈ s.askLinks e) → s.elemReady k = true →
           t.copy k = { c with moved := c.moved + s.copyStep c * s.movesNow k, ahead := (t.copy k).ahead }) ∧
     (∀ id i k (a : Ask), s.m.walks.find? (fun e => e.1 == id && e.2.failed.isNone) = some (id, k) → s.hasWalker id k = true → k.drop = false → link < 12 →
       s.farAsk (s.walkAsks id k) = some a →
       ∃ t, exec (.routeloop (.walk id) i link) s = .next t ∧ KeepsRegisters s t ∧ KeepsMemory s t ∧ t.reg = s.reg ∧ t.o = s.o ∧
         SMap.get {} t.m.walks id = { k with failed := some (0x13, 0, 0, a.pa) } ∧ ReportsError 1 link (a.pa / 64 * 64 % 2 ^ 64) s t) ∧
     (∀ id i p, ((s.op id).parts[i]? = some p) → s.partReady id i = true → p.clm = false → p.size ≠ 0 → link < 12 → (∃ l ∈ s.partLinks id i, l < 12) →
       ∃ t, exec (.routeloop (.op id) i link) s = .next t ∧ KeepsRegisters s t ∧ KeepsMemory s t ∧ t.reg = s.reg ∧
         (∀ q, (t.op id).parts[i]? = some q → q.hurt = true) ∧
         ∀ n, (s.op id).kind = .ld → (s.op id).sc = .lane → lastPart (s.op id) i → n = (s.gridOf (s.op id).wave).tenant → n ≠ 0 → (s.wave (s.op id).wave).taskWave = false →
           p.scaleBad = false → p.hurtAt = 0 → (∀ e ∈ (s.op id).pos, alone s e.1 id) →
           ReportsError 1 link (p.pa / 64 * 64 % 2 ^ 64) s t ∧ t.suspended (s.op id).wave = true ∧ FlagFalls (s.op id) s t ∧
           ∃ r, (t.tenant n).records = (s.tenant n).records ++ [r] ∧ leNat (r.take 1) = 0x13 ∧ leNat ((r.drop 0x28).take 8) = p.pa % 2 ^ 64)) ∧
  (∀ (s : State),
     (∀ line inv, (s.reg.warm.isSome = true ∨ s.pk.boot ≠ .up ∨ isHostPa (64 * line) = false) → exec (.hostSnoop line inv) s = .next s) ∧
     (∀ line, s.provLine line = true → exec (.hostSnoop line true) s = .next s) ∧
     (∀ line inv, s.reg.warm = none → s.pk.boot = .up → isHostPa (64 * line) = true → (inv = true → s.provLine line = false) → Coherent s → ∃ t, exec (.hostSnoop line inv) s = .next t ∧ KeepsMemory s t ∧
       KeepsRegisters s t ∧ t.o = s.o ∧ t.reg = s.reg ∧ t.homeData line = (s.lineVal line).1 ∧
       (inv = true → (t.llcLine line).valid = false ∧ ∀ c, c < 256 → (t.l1Line c line).valid = false)) ∧
     (∀ acc : HostAccess, (s.pk.boot ≠ .up ∨ s.reg.warm.isSome = true ∨ s.ownHbm acc.addr = false ∨ s.hdmHits acc.addr = [] ∨
       (acc.data.isSome = true ∧ s.provHeld acc.addr acc.size = true)) → exec (.hostDeviceAccess acc) s = .next s) ∧
     (∀ (acc : HostAccess) p ps, s.pk.boot = .up → s.reg.warm = none → s.ownHbm acc.addr = true → s.hdmHits acc.addr = p :: ps → 0 < acc.size → acc.addr % 64 + acc.size ≤ 64 →
       (acc.data.isSome = true → s.provHeld acc.addr acc.size = false) → answered s [hostAsk p acc.addr acc.size acc.data.isSome] →
       ∃ t, exec (.hostDeviceAccess acc) s = .next t ∧ KeepsRegisters s t ∧ t.x.teams = s.x.teams ∧ t.o = s.o ∧ t.reg = s.reg ∧
         (if acc.data = none ∧ s.provLine (acc.addr / 64) = true then t.m.hostLines = s.m.hostLines else acc.addr / 64 ∈ t.m.hostLines) ∧
         MemoryWrites acc.addr (if acc.data.isSome then acc.size else 0) ((acc.data.map fun d => d.toNat).getD 0) s t ∧
         (s.hdmHits acc.addr = [0, 1] → ReportsError 4 0 (acc.addr % 2 ^ 64) s t) ∧ ((s.hdmHits acc.addr).length = 1 → OnlyAllowances s t)) ∧
     (∀ nonce, s.pk.boot ≠ .up → exec (.quoteRequest nonce) s = .next s) ∧
     (∀ nonce, s.pk.boot = .up → (∀ m, (s.meas m).length = 32) → ∃ t q, exec (.quoteRequest nonce) s = .next t ∧
       t.pk = { s.pk with quoteOut := s.pk.quoteOut ++ [q ++ leBytes 17088 (Config.slhSign s.pk.rom.secret q).toNat] } ∧ t.x = s.x ∧ t.reg = s.reg ∧ t.m = s.m ∧ t.o = s.o ∧
       leNat (q.take 4) = 0x00010000 ∧ leNat ((q.drop 8).take 32) = nonce.toNat ∧ leNat ((q.drop 0x28).take 16) = s.pk.rom.serial.toNat ∧ leNat ((q.drop 0x38).take 8) = s.signature % 2 ^ 64 ∧
       ∀ m, m < 8 → (q.drop (0x48 + 32 * m)).take 32 = s.meas m))

/-- R326-R329, R331: the launch processors take the head with the highest PRIO, tenants in turn, then the lowest queue; the record takes the tenant's sequence number and
the queue's head moves on, once what its launch processor reads and writes for it has been answered.  A malformed record is refused with code 1, then one of another's context with
code 9; a refused record makes no grid; an accepted one is the next grid, live, with the record's fields, after the launches its buffers depend on, and the queue's latest.  (The launch
processors' requests are DESIGN CHOICE, log 63; that a poisoned record is refused, its fault posted in place of a completion record, is DESIGN CHOICE, log 62.) -/
def Obligations.LaunchRecordsAreTaken : Prop :=
  ∀ (s : State),
    ((s.pk.boot ≠ .up ∨ s.heads = []) → exec .launchAccept s = .next s) ∧
    (∀ h, bestHead s.x.rrTenant s.heads = some h → h ∈ s.heads ∧ ∀ k ∈ s.heads, headBefore s.x.rrTenant k h = false) ∧
    (∀ n q k lp as (z : State) rd r ag answer, s.pk.boot = .up → bestHead s.x.rrTenant s.heads = some (n, q, k) → lp = k.ctl.toNat / 2 ^ 12 % 4 →
      as = s.asksBy (askAgent 0 lp) (fun s => s.takeRecord (n, q, k)) → answered s as → z = (s.passAsks as).2 → rd = z.readRec (lpAgent lp 0 n (askAgent 0 lp)) k.record →
      r = rd.1.1 → ag = lpAgent lp (r.at 6 2) n (askAgent 0 lp) → answer = rd.2.judge ag q (k.ctl.toNat % 8) (s.tenant n).seq r →
      r.bytes = s.readRange k.record 256 ∧ (r.bad = true → answer.1 = .error 1) ∧
      (r.bad = false → (rd.2.readPa none (s.ctxEntry (r.at 6 2)) 24).2 = false → rd.2.lostTo ag (s.ctxEntry (r.at 6 2)) = false → s.badCtx (r.at 6 2) n = true → answer.1 = .error 9) ∧
      ∃ t, exec .launchAccept s = .next t ∧ KeepsRegisters s t ∧ t.x.teams = s.x.teams ∧ t.x.rrTenant = (n + 1) % 32 ∧ (t.tenant n).seq = ((s.tenant n).seq + 1) % 2 ^ 32 ∧
        (t.tenant n).queue q = { k with head := k.head + 1#32, last := ((t.tenant n).queue q).last } ∧
        (rd.1.2 = true ∨ (∃ code, answer.1 = .error code) → t.x.grids = s.x.grids ∧ t.x.nextGrid = s.x.nextGrid ∧ ((t.tenant n).queue q).last = k.last) ∧
        (∀ g, rd.1.2 = false → answer.1 = .ok g → ((t.tenant n).queue q).last = some s.x.nextGrid ∧ t.x.nextGrid = s.x.nextGrid + 1 ∧ (∀ j, j ≠ s.x.nextGrid → t.grid j = s.grid j) ∧
          t.grid s.x.nextGrid = { g with deps := ((s.tenant n).takeBufs s.x.nextGrid g.bufs).1.filter fun d => d != s.x.nextGrid } ∧
          g.live = true ∧ g.tenant = n ∧ g.queue = q ∧ g.seq = (s.tenant n).seq ∧ g.asid = r.at 6 2 ∧ g.nteams = r.at 0x10 4 ∧ g.nwaves = r.at 0x14 1 ∧
          g.scratch = 4096 * r.at 0x16 2 ∧ g.trapvec = BitVec.ofNat 64 (r.at 0x48 8) ∧ g.cmpl = BitVec.ofNat 64 (r.at 0xC0 8)))

/-- R329, R332, R333, R231, R331: a team of a launch that wants one, that no other launch is served before, is placed where it fits: its waves as they start, wave w in
partition (p + w) mod 4, the core's clock at least LT start; once its scratch is staged its waves start together; a launch that has ended leaves its status and
sequence number at CMPL, byte by byte, sends its vector, and is gone.  Each goes on once what the launch processor reads and writes for it has been answered (its requests are DESIGN CHOICE, log 63).  (That the
partitions rotate strictly is DEDUCED, log 45.) -/
def Obligations.TeamsArePlacedAndEnd : Prop :=
  ∀ (s : State) (gk : Nat) (g : Grid), g = s.grid gk →
    ((s.wantsPlace gk = false ∨ s.pk.rebase = true) → ∀ core p, exec (.teamPlace gk core p) s = .next s) ∧
    (∀ core p ts u, s.wantsPlace gk = true → g.mayStand core p = true → s.maxClock < 2 ^ 47 → s.pk.rebase = false →
      (∀ e ∈ s.x.grids, e.1 ≠ gk → s.servedBefore e.1 gk = true → s.fitsNow e.1 = false) →
      ∀ as, as = s.asksBy (askAgent 1 gk) (fun s => s.placeNext gk core p) → answered s as → ((s.passAsks as).2.codeUses gk).place gk core p g.placed = some (ts, u) →
      ∃ t tm, exec (.teamPlace gk core p) s = .next t ∧ (t.grid gk).placed = g.placed + 1 ∧ t.team (8 * core + ts) = tm ∧ tm.resident = true ∧ tm.started = false ∧
        tm.grid = gk ∧ tm.num = g.placed ∧ tm.scratch = g.scratch ∧ tm.clm = [] ∧ tm.waves.length = g.nwaves ∧ (∀ k, k ≠ 8 * core + ts → t.team k = s.team k) ∧
        (∀ w k, tm.waves[w]? = some k → coreOf k = core ∧ k / 16 % 4 = (p + w) % 4 ∧ (s.wave k).resident = false ∧ (t.wave k).started = false ∧ NewWave g gk ts w (t.wave k)) ∧
        (∀ k, k ∉ tm.waves → t.wave k = s.wave k) ∧ g.ltstart.toNat ≤ (t.core core).lt ∧ (t.core core).gated = false ∧ (t.core core).carve = g.carve) ∧
    (∀ n tk ag as (z : State), s.findTeam gk n = some tk → tk < 2 ^ 16 → (s.team tk).started = false → ag = lpAgent g.lp g.asid g.tenant (askAgent 2 tk) →
      as = s.asksBy (askAgent 2 tk) (fun s => s.stageTeam tk ag g.hampers) → answered s as → z = (s.passAsks as).2 → (stage tk ag g.hampers z).1 = some () →
      ∃ t, exec (.hamperStage gk n) s = .next t ∧ (t.team tk).started = true ∧ (∀ w ∈ (s.team tk).waves, (t.wave w).started = true) ∧ KeepsRegisters s t ∧
        (∀ h bs v, g.hampers = [h] → h.scratch = true → lpTake ag h.va.toNat h.len z = (some bs, v) →
          ∀ i, i < bs.length → SMap.get 0#8 (t.team tk).clm (h.cdst + i) = bs.getD i 0#8)) ∧
    (s.gridEnded gk = false → exec (.launchComplete gk) s = .next s) ∧
    (∀ ag as (z : State), s.gridEnded gk = true → ag = lpAgent g.lp g.asid g.tenant (askAgent 3 gk) →
      as = s.asksBy (askAgent 3 gk) (fun s => (s.complete ag (if g.killed then 0x10 else 0) g.seq g.cmplvec g.cmpl).setGrid gk {}) → answered s as → z = (s.passAsks as).2 →
      ∃ t, exec (.launchComplete gk) s = .next t ∧ t.grid gk = {} ∧ (∀ k, k ≠ gk → t.grid k = s.grid k) ∧ KeepsRegisters s t ∧ t.x.teams = s.x.teams ∧
      (∀ ps u, z.cmplCheck ag (pieces g.cmpl.toNat 16) = (.ok ps, u) → ps.Nodup →
        ps.map (fun a => t.readPhys a 1) = (leBytes 4 (if g.killed then 0x10 else 0) ++ leBytes 4 g.seq ++ leBytes 8 0).map fun b => b.toNat) ∧
      (g.cmplvec < 32 → TakesMessage (s.port (s.tenant g.tenant).msiport) (32 * g.tenant + g.cmplvec) (t.port (s.tenant g.tenant).msiport)))

/-- R289, R290, R300, R301, R305: a SPAWN that performs queues its child under the next identity and counts it in its scope; the shuttle forms a wave of the core's earliest
queued tasks of one entry, one to a lane, each with its argument record in registers 0 to 7; a task whose lane has exited with nothing outstanding is FINISHED; the
stopped frontier runs again alone, without its versions, in non-speculative mode.
A core whose queue a SAVE has paused forms no wave (R303 says that its tasks stay queued until the restore: DEDUCED, log 39). -/
def Obligations.TaskEvents : Prop :=
  ∀ (s : State) (gk : Nat) (g : Grid), g = s.grid gk →
    (∀ id i o p parent, o = s.op id → o.kind = .spawn → o.grid = gk → o.parts[i]? = some p → p.plt = none → (∀ q ∈ o.parts.take i, q.plt.isSome = true) → s.rebasing = false →
      (∀ q ∈ o.parts, q.hurt = false) → ((s.wave o.wave).lane p.lane).task = some parent →
      ∃ t, exec (.spawnPerform id i) s = .next t ∧ KeepsRegisters s t ∧ KeepsMemory s t ∧ t.x.teams = s.x.teams ∧ t.reg = s.reg ∧ (lastPart o i → FlagFalls o s t) ∧
        (t.grid gk).nextId = g.nextId + 1 ∧ (∀ k, k ≠ g.nextId → (t.grid gk).task k = g.task k) ∧
        (t.grid gk).task g.nextId =
          { ts := BitVec.ofNat 64 p.data, entry := p.data2 / 2 ^ 8 % 16, scope := p.data2 % 256, parent := some parent, st := .queued, core := o.core
            arg := (List.range 8).map fun k => BitVec.ofNat 32 (p.val.getD 0 / 2 ^ (32 * k)) } ∧
        ∀ k, (t.grid gk).scope k = if k = p.data2 % 256 then { g.scope k with live := (g.scope k).live + 1 } else g.scope k) ∧
    (∀ core part, (g.paused.contains core = true ∨ s.taskWaves gk core ≥ g.tslots) → s.shuttleRoom gk core part = false) ∧
    (∀ core part, s.shuttleRoom gk core part = false → exec (.shuttleDispatch gk core part) s = .next s) ∧
    (∀ core, SMap.wf {} g.tasks = true → (g.nextTasks core).length ≤ 32 ∧ (g.nextTasks core).Nodup ∧
      (∀ k ∈ g.nextTasks core, (g.task k).st = .queued ∧ (g.task k).core = core ∧ (g.task k).entry = (g.task ((g.nextTasks core).headD 0)).entry) ∧
      ∀ k, (g.task k).st = .queued → (g.task k).core = core → g.earlier k ((g.nextTasks core).headD k) = false) ∧
    (∀ core part w, SMap.wf {} g.tasks = true → s.shuttleRoom gk core part = true → g.nextTasks core ≠ [] → s.freeWave core part = some w →
      ∃ t, exec (.shuttleDispatch gk core part) s = .next t ∧ (t.wave w).resident = true ∧ (t.wave w).taskWave = true ∧ (t.wave w).grid = gk ∧ (t.wave w).vcount = g.tvcount ∧
        (∀ k, k ≠ w → t.wave k = s.wave k) ∧
        (∀ l k, (g.nextTasks core)[l]? = some k → (t.wave w).lane l = { pc := g.entries.getD (g.task k).entry 0#64, st := .running, task := some k } ∧
          (∀ n, n < 8 → (t.wave w).vreg n l = (g.task k).arg.getD n 0#32) ∧
          (t.grid gk).task k = { g.task k with st := .running, wave := some w, ran := w, lane := l, nonspec := false }) ∧
        ∀ k, k ∉ g.nextTasks core → (t.grid gk).task k = g.task k) ∧
    (∀ id w, (g.task id).st = .running → (g.task id).wave = some w → ((s.wave w).lane (g.task id).lane).task = some id → ((s.wave w).lane (g.task id).lane).st = .exited →
      (s.laneQuiet w (g.task id).lane = true → ∃ t, exec (.taskFinish gk id) s = .next t ∧ KeepsRegisters s t ∧ t.m = s.m ∧ t.o = s.o ∧
        (t.grid gk).task id = { g.task id with st := .finished, wave := none } ∧ (∀ k, k ≠ id → (t.grid gk).task k = g.task k) ∧
        ((t.wave w).lane (g.task id).lane).task = none) ∧
      (s.laneQuiet w (g.task id).lane = false → exec (.taskFinish gk id) s = .next s)) ∧
    (∀ part id, g.front = some id → (g.task id).st ≠ .stopped → exec (.taskNonspecRedispatch gk part) s = .next s) ∧
    (∀ part id w, g.front = some id → (g.task id).st = .stopped → s.shuttleRoom gk (g.task id).core part = true → s.freeWave (g.task id).core part = some w →
      Coherent s → ∃ t, exec (.taskNonspecRedispatch gk part) s = .next t ∧ ((t.grid gk).task id).st = .running ∧ ((t.grid gk).task id).nonspec = true ∧ ((t.grid gk).task id).versions = [] ∧
        ((t.grid gk).task id).reads = [] ∧ ((t.grid gk).task id).wave = some w ∧ (t.wave w).taskWave = true ∧
        (t.wave w).lane 0 = { pc := g.entries.getD (g.task id).entry 0#64, st := .running, task := some id } ∧ KeepsMemory s t)

/-- R291, R293, R295, R298, R301: nothing is published but at a cycle that is a multiple of 64, once.  A publication sends every task whose reads were overtaken back to its queue, or
discards it, without its versions; it then commits the frontier while it is FINISHED and may commit, that is, no event that its lane issued for it is outstanding, no reset waits and none of its lines is held
by the host or by a provisional release (R223, R226, R40): the bytes its versions cover become memory's, no other byte changes, its scope counts one less, and the new
frontier is published. -/
def Obligations.Publications : Prop :=
  ∀ (s : State) (gk : Nat) (g : Grid), g = s.grid gk →
    ((s.sch.cycle % 64 ≠ 0 ∨ s.pk.pub = s.sch.cycle + 1 ∨ s.rebasing = true) → exec .commitPublication s = .next s) ∧
    (s.sch.cycle % 64 = 0 → s.pk.pub ≠ s.sch.cycle + 1 → s.rebasing = false → (s.x.grids.filter fun e => e.2.live && e.2.isTask) = [(gk, g)] → SMap.wf {} g.tasks = true →
      ∃ t, exec .commitPublication s = .next t ∧ KeepsRegisters s t ∧ t.reg = s.reg ∧ t.pk.pub = s.sch.cycle + 1 ∧
        (t.grid gk).frontier = (t.grid gk).front.map (fun id => (((t.grid gk).task id).ts.toNat, id)) ∧
        (∀ id, (t.grid gk).front = some id → ((t.grid gk).task id).st = .finished →
          (∃ e ∈ t.o.ops, e.2.wave = ((t.grid gk).task id).ran ∧ e.2.grid = gk ∧ e.2.tids.contains (((t.grid gk).task id).lane, id) = true ∧ ∃ p ∈ e.2.parts, p.lane = ((t.grid gk).task id).lane ∧ p.plt = none) ∨ s.reg.warm ≠ none ∨
            ∃ e ∈ ((t.grid gk).task id).versions, e.1 ∈ t.m.hostLines ∨ t.provLine e.1 = true) ∧
        (∀ d, (g.task d).doomed = true → (g.task d).st.live = true → ((t.grid gk).task d).versions = [] ∧ (((t.grid gk).task d).st = .queued ∨ ((t.grid gk).task d).st = .discarded)) ∧
        ((∀ e ∈ g.tasks, e.2.doomed = false) →
          (∀ id, g.front = some id → ((g.task id).st ≠ .finished ∨ (∃ e ∈ s.o.ops, e.2.wave = (g.task id).ran ∧ e.2.grid = gk ∧ e.2.tids.contains ((g.task id).lane, id) = true ∧
              ∃ p ∈ e.2.parts, p.lane = (g.task id).lane ∧ p.plt = none) ∨ s.reg.warm ≠ none ∨
            ∃ e ∈ (g.task id).versions, e.1 ∈ s.m.hostLines ∨ s.provLine e.1 = true) → KeepsMemory s t ∧ ∀ k, (t.grid gk).task k = g.task k) ∧
          (∀ id line v, g.front = some id → (g.task id).st = .finished → (g.task id).versions = [(line, v)] → line ∉ s.m.hostLines → s.provLine line = false → s.reg.warm = none →
            (∀ e ∈ s.o.ops, e.2.wave = (g.task id).ran → e.2.grid = gk → e.2.tids.contains ((g.task id).lane, id) = true → ∀ p ∈ e.2.parts, p.lane = (g.task id).lane → p.plt.isSome = true) →
            (∀ k, k ≠ id → (g.task k).st ≠ .finished) →
            ((t.grid gk).task id).st = .committed ∧ (∀ k, k ≠ id → (t.grid gk).task k = g.task k) ∧
            (t.grid gk).scope (g.task id).scope = { g.scope (g.task id).scope with live := (g.scope (g.task id).scope).live - 1 } ∧
            ∀ a, t.readPhys a 1 = if a / 64 = line ∧ v.mask.getLsbD (a % 64) = true then (byteOf v.data (a % 64)).toNat else s.readPhys a 1)))

/-- R269, R273, R282, R283, R111: once every source of a slot operation may be read, a quarter's slot is written: by ACCZ with zeros, by ACCLD with the words of CLM, by an MMA of
8-bit or 16-bit operands in CLM, without scales or a duplication map, with R111's product of row i and column j and the old element; where a source must
wait nothing changes; a result already formed is written as it is.  No other register, slot or byte of memory changes. (That the operands are read in the moment the slot is written is DEDUCED, log 25.) -/
def Obligations.SlotsAreWritten : Prop :=
  ∀ (id k : Nat) (s : State) (o : Op) (p : Part), o = s.op id → (o.kind = .mma ∨ o.kind = .accz ∨ o.kind = .accld) → o.parts[5 * k]? = some p → k < o.parts.length / 5 → p.plt = none →
    (p.bound ≠ 1 → s.slotsReady id = false → exec (.accumulatorSlotWritten id k) s = .next s) ∧
    (p.bound = 1 → p.hurt = false → ∃ t, exec (.accumulatorSlotWritten id k) s = .next t ∧ SlotOnly o.wave p.reg s t ∧ KeepsMemory s t ∧ t.reg = s.reg ∧
      (∀ n, n < 256 → (t.wave o.wave).accElem p.reg n = BitVec.ofNat 32 (p.data / 2 ^ (32 * n))) ∧ (lastPart o (5 * k) → FlagFalls o s t)) ∧
    (p.bound ≠ 1 → s.slotsReady id = true → (s.teamOf o.wave).clmPoison = [] → ∃ t, exec (.accumulatorSlotWritten id k) s = .next t ∧ SlotOnly o.wave p.reg s t ∧
      KeepsMemory s t ∧ t.reg = s.reg ∧
      (o.kind = .accz → ∀ n, n < 256 → (t.wave o.wave).accElem p.reg n = 0#32) ∧
      (∀ q, o.kind = .accld → o.parts[5 * k + 1]? = some q → ∀ n, n < 256 → (t.wave o.wave).accElem p.reg n = BitVec.ofNat 32 (clmVal s o.wave (q.pa + 4 * n) 4)) ∧
      (∀ qa qb fa fb z, o.kind = .mma → o.atam = false → o.parts[5 * k + 1]? = some qa → o.parts[5 * k + 2]? = some qb → fa = (s.grid o.grid).slot o.fmt →
        fb = (s.grid o.grid).slot ((o.fmt + 1) % 8) → fa.sk ≠ 1 → fb.sk ≠ 1 → fa.map = [] → fb.map = [] →
        (∀ r ∈ slotGranules p.reg, (s.wave o.wave).parity.contains r = false) →
        ((z = 1 ∧ (fa.fmt = 3 ∨ fa.fmt = 4) ∧ (fb.fmt = 3 ∨ fb.fmt = 4)) ∨ (z = 2 ∧ (fa.fmt = 1 ∨ fa.fmt = 2) ∧ (fb.fmt = 1 ∨ fb.fmt = 2))) →
        ∀ i j, i < 16 → j < 16 → (t.wave o.wave).accElem p.reg (16 * i + j) =
          dot ((List.range (64 / z)).map fun n => (value (fmtOf fa.fmt) (clmVal s o.wave (qa.pa + z * (64 / z * i + n)) z),
                                                   value (fmtOf fb.fmt) (clmVal s o.wave (qb.pa + z * (64 / z * j + n)) z)))
            ((s.wave o.wave).accElem p.reg (16 * i + j))))

/-- R278, R279, R284, R335, R226: an element of a flush that may go to its slice debits one unit; a plain one adds the slot's element to the memory word; a DET one is held and
changes no memory until its turn, when it is added likewise: every lower team has had its contribution of that round to the word applied, or has ended without one, and every
team of the launch that of the round before.  No register and no other byte of memory changes.  (That a contribution of an ended team which is still outstanding precedes
later ones, ended without one meaning that none is to come, is a reading of R279: DEDUCED, log 38.) -/
def Obligations.FlushedElementsAreAdded : Prop :=
  ∀ (id q e i : Nat) (s : State) (o : Op) (p : Part) (v : Word), o = s.op id → i = 256 * q + e → e < 256 → o.parts[i]? = some p → p.pa % 64 + 4 ≤ 64 → p.hurt = false → p.rel = .none →
    s.differs id i = false →
    v = (if p.bound = 1 then BitVec.ofNat 32 p.data else (s.wave o.wave).accElem p.reg e) →
    (s.flushReady id i = false → exec (.accumulateApply id q e) s = .next s) ∧
    (o.kind = .accflush → s.flushReady id i = true → s.partReady id i = true → p.landed ≠ 1 → s.provHeld p.pa 4 = false →
      ∃ t, exec (.accumulateApply id q e) s = .next t ∧ MemoryWrites p.pa 4 (addF32 (BitVec.ofNat 32 (s.readPhys p.pa 4)) v).toNat s t ∧ KeepsRegisters s t ∧
        t.x.teams = s.x.teams ∧ t.reg = s.reg ∧ ((t.tenant (s.grid o.grid).tenant).budget 5).rem = ((s.tenant (s.grid o.grid).tenant).budget 5).rem - 1 ∧
        (lastPart o i → FlagFalls o s t)) ∧
    (o.kind = .accdet → s.flushReady id i = true → p.landed ≠ 1 → ∃ t, exec (.accumulateApply id q e) s = .next t ∧ KeepsMemory s t ∧ KeepsRegisters s t ∧
      t.x.teams = s.x.teams ∧ t.reg = s.reg ∧ t.o.held = s.o.held ++ [{ grid := o.grid, team := o.team, word := p.pa / 4, round := p.data2, op := id, part := i }] ∧
      ((t.op id).parts[i]?).map (fun r => r.data) = some v.toNat ∧
      (o.done = false → (∀ j r, o.parts[j]? = some r → j ≠ i → r.landed = 1 ∨ r.plt.isSome = true) → FlagFalls o s t)) ∧
    (∀ c (past : Nat → Nat → Prop), s.o.held.find? (fun c => c.op == id && c.part == i) = some c →
      (∀ r t, past r t ↔ ((s.grid c.grid).ended.contains t = true ∨ ∃ d ∈ (s.grid c.grid).detDone, d.word = c.word ∧ d.round = r ∧ d.team = t) ∧
        ∀ e ∈ s.o.ops, e.2.kind = .accdet → e.2.grid = c.grid → e.2.team = t → ∀ p ∈ e.2.parts, p.pa / 4 = c.word → p.data2 = r → p.plt.isSome = true) →
      (¬ ((∀ t, t < c.team → past c.round t) ∧ (c.round = 0 ∨ ∀ t, t < (s.grid c.grid).nteams → past (c.round - 1) t)) → exec (.detContributionApply id q e) s = .next s) ∧
      ((∀ t, t < c.team → past c.round t) → (c.round = 0 ∨ ∀ t, t < (s.grid c.grid).nteams → past (c.round - 1) t) → s.partReady id i = true → s.provHeld p.pa 4 = false → (s.sliceAsks id i).all s.askReady = true →
        ∃ t, exec (.detContributionApply id q e) s = .next t ∧
        MemoryWrites p.pa 4 (addF32 (BitVec.ofNat 32 (s.readPhys p.pa 4)) (BitVec.ofNat 32 p.data)).toNat s t ∧ KeepsRegisters s t ∧ t.x.teams = s.x.teams ∧ t.reg = s.reg ∧
        t.o.held = s.o.held.filter (fun d => d != c) ∧ (t.grid c.grid).detDone = (s.grid c.grid).detDone ++ [c]))

/-- R249, R250, R255, R256, R260, R262-R264, R186, R214: a copy that is next, whose handles pass and for whose entries its core's window has room (R236) takes a slot: its
handle fills or drains, its flags fall and its lanes go on; handles that fail then, and a transfer that fails, suspend its set with a record, the latter's INFO naming the slot and
the elements moved.  The engine of a copy in a slot asks for the walks that its next access needs (R324), then makes the access once its requests may go: it moves the elements that
begin in one aligned word of what it writes (their extent, and what is read ahead of a write, DEDUCED, log 24), of a load from memory, or the fill value out of bounds, to their
places in the handle; of a push to the receiving handle; of a store, converted through an unscaled slot where CVT stands (SATF where that saturates), and the sum of an accumulation to
memory, and nothing where the element is out of bounds; a copy that has moved everything leaves its handles FULL or FREE and is gone.  (Where several elements go together the
core is taken to hold the region table it checks them by, R322, which they might else write over.)
R253, R255, R258, R259: at its rendezvous a COPY reads its record, once the requests for it may go (DESIGN CHOICE, log 63) and in one moment (DEDUCED, log 24), and is refused with SHAPE, else HANDLE,
else COPYBOUND at the first rank and, there, the lowest dimension out of bounds (the dimension DEDUCED, log 24), else COPYADDR at the first rank; otherwise it counts on its members'
flags and they wait for a slot.  No handle and no byte of memory changes. -/
def Obligations.CopyEvents : Prop :=
 (∀ (id : Nat) (s : State) (c : Copy), c = s.copy id → c.live = true →
    (c.slot = none → c.failed = false → s.copyReady c = true → s.copyFirst id = true → (s.freeSlot (c.team / 8)).isSome = true → s.copyHandlesOk c = false → ∃ t r, exec (.copyTakeSlot id) s = .next t ∧ t.copy id = { c with failed := true } ∧
      Suspended c.members (s.grid c.grid).tenant r { s with o := t.o } t ∧ leNat (r.take 1) = 0x11 ∧ leNat ((r.drop 1).take 1) = 6 ∧ leNat ((r.drop 2).take 1) = 1) ∧
    (c.slot = none → c.failed = false → s.copyHandlesOk c = true → (s.copyReady c = false ∨ s.copyFirst id = false ∨ s.freeSlot (c.team / 8) = none) →
      exec (.copyTakeSlot id) s = .next s) ∧
    (∀ k, c.slot = none → c.failed = false → s.copyHandlesOk c = true → s.copyReady c = true → s.copyFirst id = true → s.freeSlot (c.team / 8) = some k →
      c.odd = false → s.windowLacks (c.team / 8) (2 * ((s.slotWaiters id).map fun e => e.1).eraseDups.length) = false →
      ∃ t, exec (.copyTakeSlot id) s = .next t ∧ (t.copy id).slot = some k ∧ (t.copy id).lh = s.copyLocal c ∧ KeepsRegisters s t ∧ t.reg = s.reg ∧
        ((∀ w ∈ c.members, quiet s w) → t.m = s.m) ∧
        (c.dir = 0 → ((t.team c.team).handle (s.copyLocal c)).st = .filling ∧
          ((t.team c.team).handle (s.copyLocal c)).fph = ((s.team c.team).handle ((s.team c.team).ringFirst (s.copyLocal c))).pph) ∧
        ((c.dir = 1 ∨ c.dir = 3) → ((t.team c.team).handle (s.copyLocal c)).st = .draining) ∧
        (c.flags.Nodup → ∀ e ∈ c.flags, (t.wave e.1).flag e.2 = (s.wave e.1).flag e.2 - 1) ∧
        (c.members.Nodup → ∀ e ∈ s.slotWaiters id, ranOn (s.wave e.1) (t.wave e.1) e.2)) ∧
    (∀ f k, c.slot = some k → c.stopped = false → c.moved < c.total → s.movesNow id = 0 → s.stepFault id 0 = some f → ∃ t r, exec (.copyTransferFault id) s = .next t ∧
      t.copy id = { c with stopped := true } ∧ Suspended c.members (s.grid c.grid).tenant r { s with o := t.o } t ∧ leNat (r.take 1) = f.code % 2 ^ 8 ∧
      leNat ((r.drop 0x20).take 8) = (k * 2 ^ 48 + c.moved) % 2 ^ 64) ∧
    (c.slot.isSome = true → (s.movesNow id ≠ 0 ∨ s.stepFault id 0 = none) → exec (.copyTransferFault id) s = .next s) ∧
    (c.slot.isSome = true → (c.stopped = true ∨ c.total ≤ c.moved ∨ ((s.accessSteps id).findSome? (s.stepWalk id) = none ∧ s.elemReady id = false)) →
      runMove (.copyMove id) s = .next s) ∧
    (∀ va need, c.slot.isSome = true → c.stopped = false → c.moved < c.total → (s.accessSteps id).findSome? (s.stepWalk id) = some (va, need) →
      ∃ t, runMove (.copyMove id) s = .next t ∧ KeepsMemory s t ∧ KeepsRegisters s t ∧ t.x.teams = s.x.teams ∧ t.copy id = c ∧
        ∃ k ∈ t.m.walks, k.2.engine = some id ∧ k.2.va.toNat / 2 ^ 16 = va.toNat / 2 ^ 16 ∧ k.2.failed = none) ∧
    (∀ (n : Nat) (V : Nat → Nat), c.slot.isSome = true → c.stopped = false → c.moved < c.total → (s.accessSteps id).findSome? (s.stepWalk id) = none → s.elemReady id = true →
      n = s.movesNow id → 0 < n → c.dir < 4 → s.copyO4 c = false →
      (∀ i, i < n → if i < c.ahead.length then V i = (c.ahead.getD i (0, true)).1
        else if c.dir ≠ 0 then V i = (((s.team c.team).readClm (((s.team c.team).handle c.lh).hb + c.hsz * (c.moved + i)) c.hsz).1)
        else if c.inBounds (c.moved + i) = true then ∃ a, s.useChk id (s.elemAddr c (c.moved + i), c.esz, false) = .ok a ∧ a.pa % 64 + c.esz ≤ 64 ∧ V i = s.readPhys a.pa c.esz
        else V i = c.fill.toNat % 2 ^ (8 * c.esz)) →
      (n = 1 ∨ ∀ e, e < 64 → ∃ r ∈ s.m.rgn, r.core = c.team / 8 ∧ r.asid = (s.grid c.grid).asid ∧ r.e = e) →
      ∃ u, runMove (.copyMove id) s = .next u ∧ u.copy id = { c with moved := c.moved + n, ahead := (u.copy id).ahead } ∧ KeepsRegisters s u ∧ u.reg = s.reg ∧
        (c.dir = 0 → KeepsMemory s u ∧ ∀ x, (SMap.get 0#8 (u.team c.team).clm x).toNat =
          (List.range n).foldl (fun old i => byteAfter (((s.team c.team).handle c.lh).hb + c.esz * (c.moved + i)) c.esz (V i) x old) (SMap.get 0#8 (s.team c.team).clm x).toNat) ∧
        (c.dir = 2 → KeepsMemory s u ∧ ∀ x, (SMap.get 0#8 (u.team c.rteamKey).clm x).toNat =
          (List.range n).foldl (fun old i => byteAfter (((s.team c.rteamKey).handle c.rh).hb + c.esz * (c.moved + i)) c.esz (V i) x old) (SMap.get 0#8 (s.team c.rteamKey).clm x).toNat) ∧
        ((c.dir = 1 ∨ c.dir = 3) → u.x.teams = s.x.teams ∧ (c.inBounds c.moved = false → n = 1 → KeepsMemory s u) ∧
          ∀ pa : Nat → Nat, (∀ i, i < n → ∃ a, s.useChk id (s.elemAddr c (c.moved + i), c.esz, true) = .ok a ∧ a.pa = pa i ∧ pa i % 64 + c.esz ≤ 64) →
            (∀ i, i < n → c.inBounds (c.moved + i) = true) →
            (c.dir = 1 → c.cvt = false → ∀ x, u.readPhys x 1 = (List.range n).foldl (fun old i => byteAfter (pa i) c.esz (V i) x old) (s.readPhys x 1)) ∧
            (c.dir = 1 → c.cvt = true → (s.copyFmt c).sk ≠ 1 →
              (∀ x, u.readPhys x 1 = (List.range n).foldl (fun old i => byteAfter (pa i) c.esz (storeElem (s.copyFmt c) (BitVec.ofNat 32 (V i)) 0#32 none).1 x old) (s.readPhys x 1)) ∧
              ((∃ i, i < n ∧ (storeElem (s.copyFmt c) (BitVec.ofNat 32 (V i)) 0#32 none).2 = true ∧ (c.ahead.getD i (0, false)).2 = false) → (s.team c.team).clmPoison = [] →
                ∀ w ∈ c.members, (u.wave w).satf = true)) ∧
            (c.dir = 3 → c.esz = 4 → MemoryWrites (pa 0) 4 (addF32 (BitVec.ofNat 32 (s.readPhys (pa 0) 4)) (BitVec.ofNat 32 (V 0))).toNat s u))) ∧
    (c.slot.isSome = true → c.total ≤ c.moved → ∃ t, exec (.copyComplete id) s = .next t ∧ t.copy id = {} ∧ KeepsRegisters s t ∧ t.m = s.m ∧ t.reg = s.reg ∧
      (c.dir = 0 → ((t.team c.team).handle c.lh).st = .full) ∧ ((c.dir = 1 ∨ c.dir = 3) → ((t.team c.team).handle c.lh).st = .free) ∧
      (c.dir = 2 → (c.rteamKey ≠ c.team ∨ c.rh ≠ c.lh) → ((t.team c.team).handle c.lh).st = .free ∧ ((t.team c.rteamKey).handle c.rh).st = .full)) ∧
    (c.slot.isSome = true → c.moved < c.total → exec (.copyComplete id) s = .next s)) ∧
 (∀ (s : State) (tk sset : Nat) (as : List Arr) (ld : Arr) (nxt : Bool) (h : Nat) (a : Ext) (dir q : Nat) (ws : List Nat) (va : DWord) (pa : Nat → Nat) (bs : List Byte) (c : Copy),
    as = s.arrivals (.set tk sset) → as.find? (fun k => k.act) = some ld → (∀ k ∈ as, k.pc = ld.pc ∧ k.op = .copy nxt h a dir q ∧ k.ok = true) →
    as.length = (s.members (.set tk sset)).length → (∀ e ∈ s.lvlWaves (.set tk sset), s.suspended e.1 = false) → s.fbReady (s.members (.set tk sset)) = true →
    s.wideParity sset as (.copy nxt h a dir q) = none → s.flagsFull (s.wideFlags as false) = false → s.windowFull (coreOf ld.w) = false → tk = s.teamKey ld.w →
    ws = s.setWaves ld.w sset → va = s.recordVa ld.w sset a → (s.passAsks (s.recordAsks (s.recordOp ld.w ld.l ld.pc va))).1 = true →
    (∀ i, i < 16 → (∃ k, s.check (s.agentOf ld.w) .load (va + BitVec.ofNat 64 (8 * i)) 8 = .ok k ∧ k.pa = pa i) ∧ (s.readPa (some (coreOf ld.w)) (pa i) 8).2 = false) →
    bs = (List.range 16).flatMap (fun i => leBytes 8 (s.readPa (some (coreOf ld.w)) (pa i) 8).1) →
    c = copyOfRecord bs { live := true, team := tk, grid := (s.wave ld.w).grid, sset := sset, members := ws, pc := ld.pc, next := nxt, h := h, dir := dir, flags := s.wideFlags as false,
                          order := s.o.next, coords := ws.map fun w => (List.range 5).map fun i => ((s.wave w).sreg (8 * q + i)).toInt } →
    ∀ t, t = s.tryComplete (.set tk sset) .set sset →
      KeepsMemory s t ∧ KeepsRegisters s t ∧ t.x.teams = s.x.teams ∧
      (∀ code reason info, ((shapeRefused bs c ((s.grid c.grid).slot (c.ctl.toNat / 2 ^ 8 % 8)) ∧ code = 0x11 ∧ reason = 7 ∧ info = 0) ∨
          (¬ shapeRefused bs c ((s.grid c.grid).slot (c.ctl.toNat / 2 ^ 8 % 8)) ∧ ((s.copyHandlesOk c = false ∧ code = 0x11 ∧ reason = 6 ∧ info = 0) ∨
            (s.copyHandlesOk c = true ∧ dir ≠ 2 ∧ ((∃ k i, c.ctl.getLsbD 6 = false ∧ leavesBounds c k i ∧ (∀ k' i', leavesBounds c k' i' → k < k' ∨ (k = k' ∧ i ≤ i')) ∧
                code = 0x14 ∧ reason = 0 ∧ info = k * 2 ^ 8 + i) ∨
              ((c.ctl.getLsbD 6 = true ∨ ∀ k i, ¬ leavesBounds c k i) ∧ ∃ k, s.badAddr c = some k ∧ code = 0x15 ∧ reason = 0 ∧ info = k * 2 ^ 8)))))) →
        t.o = s.o ∧ (∀ e ∈ s.lvlWaves (.set tk sset), t.suspended e.1 = true) ∧ ∃ r, (t.tenant (s.gridOf ld.w).tenant).records = (s.tenant (s.gridOf ld.w).tenant).records ++ [r] ∧
          leNat (r.take 1) = code ∧ leNat ((r.drop 1).take 1) = reason ∧ leNat ((r.drop 2).take 1) = 1 ∧ leNat ((r.drop 0x20).take 8) = info % 2 ^ 64) ∧
      (¬ shapeRefused bs c ((s.grid c.grid).slot (c.ctl.toNat / 2 ^ 8 % 8)) → s.copyHandlesOk c = true →
        (dir = 2 ∨ ((c.ctl.getLsbD 6 = true ∨ ∀ k i, ¬ leavesBounds c k i) ∧ s.badAddr c = none)) →
        t.copy s.o.next = c ∧ (∀ w f, (t.wave w).flag f = (s.wave w).flag f + (if (w, f) ∈ c.flags then 1 else 0)) ∧
        ((s.members (.set tk sset)).Nodup → ∀ e ∈ s.members (.set tk sset), (t.wave e.1).lane e.2 = { (s.wave e.1).lane e.2 with st := .waiting (.copySlot s.o.next) })))

/-- R265, R266, R168, R179, R158, R157, R159, R110: a marked handle becomes FULL in the phase its ring stands at; the acquire of a satisfied HWAIT lets its bundle go on; a counted ARRIVE counts for
its core toward the route's phase or, beyond the expected count, toward a later one, the last one due completes the phase, visible 40 or 120 cycles later, and is what the
wave's record names if it is the wave's latest; a completion that is due lets the WAITBs it satisfies go on; a circular wait is resolved by releasing its
joins with LOST set, else in each wave by the trap RDVMIX of the lanes at its lowest address; likewise, as a lane arrives at a rendezvous, those that wait there at another
address take RDVMIX, those at the lowest address of the wave first and the others, for whom it is put off, after RETT; those of a suspended wave keep their status, and their
case is judged again when the wave goes on (DEDUCED, log 27); and where SATCTL is armed and a wave of the team has SATF set, a TEAM rendezvous that all have
reached makes every live lane of those waves take SATARM, and no other wave changes. -/
def Obligations.MeetingEvents : Prop :=
  ∀ (s : State),
    (∀ id h o, o = s.op id → o.kind = .mark h →
      (s.partReady id 0 = false → exec (.markPerform id) s = .next s) ∧
      (s.partReady id 0 = true → ∃ t, exec (.markPerform id) s = .next t ∧ KeepsRegisters s t ∧ KeepsMemory s t ∧ t.reg = s.reg ∧
        ((t.teamOf o.wave).handle h).st = .full ∧ ((t.teamOf o.wave).handle h).fph = ((s.teamOf o.wave).handle ((s.teamOf o.wave).ringFirst h)).pph)) ∧
    (∀ w lane b h full p, (s.wave w).bundleOf lane = some b → ((s.wave w).lane lane).st = .waiting (.hwait h full p true) →
      ((s.acquireReady w b.lanes .core = false ∨ s.windowFull (coreOf w) = true) → exec (.handleAcquire w lane) s = .next s) ∧
      (s.acquireReady w b.lanes .core = true → s.windowFull (coreOf w) = false → ∃ t, exec (.handleAcquire w lane) s = .next t ∧ KeepsRegisters s t ∧ t.reg = s.reg ∧ t.x.teams = s.x.teams ∧
        (t.wave w).po = ((s.wave w).po + 1) % 2 ^ 32 ∧ (quiet s w → t.m = s.m) ∧ (∀ l, hasLane b.lanes l = true → ranOn (s.wave w) (t.wave w) l) ∧
        ∀ l, hasLane b.lanes l = false → (t.wave w).lane l = (s.wave w).lane l)) ∧
    (∀ id r o x n a, o = s.op id → o.kind = .arrive r → x = s.route r → n = SMap.get 0 x.counts o.core → a = SMap.get 0 x.arrived o.core →
      (s.partReady id 0 = false ∨ s.relsBefore o = false → exec (.arriveCount id) s = .next s) ∧
      (s.partReady id 0 = true → s.relsBefore o = true → ∃ t, exec (.arriveCount id) s = .next t ∧ KeepsRegisters s t ∧ KeepsMemory s t ∧ t.reg = s.reg ∧ t.x.teams = s.x.teams ∧
        (∀ k, k ≠ r → t.route k = s.route k) ∧ (∀ k, k ≠ r → (t.wave o.wave).routeRec k = (s.wave o.wave).routeRec k) ∧
        (n ≤ a → t.route r = { x with last := s.sch.cycle, ahead := SMap.set 0 x.ahead o.core (SMap.get 0 x.ahead o.core + 1) }) ∧
        (a < n → (∃ e ∈ x.counts, SMap.get 0 (SMap.set 0 x.arrived o.core (a + 1)) e.1 < e.2) →
          t.route r = { x with last := s.sch.cycle, arrived := SMap.set 0 x.arrived o.core (a + 1) }) ∧
        (a < n → (∀ e ∈ x.counts, e.2 ≤ SMap.get 0 (SMap.set 0 x.arrived o.core (a + 1)) e.1) → (∀ k, SMap.get 0 x.ahead k = 0) →
          (t.route r).phase = (x.phase + 1) % 128 ∧ (t.route r).total = x.total + 1 ∧
          (t.route r).doneAt = x.doneAt ++ [(x.phase, s.sch.cycle + (if x.dom = .die then 40 else 120))] ∧ ∀ k, SMap.get 0 (t.route r).arrived k = 0) ∧
        (s.latestArrive o r = true → (t.wave o.wave).routeRec r =
          { outstanding := true, counted := true, phase := (if a < n then x.total else x.total + 1 + SMap.get 0 x.ahead o.core / Nat.max n 1) % 128,
            seq := if a < n then x.total else x.total + 1 + SMap.get 0 x.ahead o.core / Nat.max n 1 }) ∧
        (s.latestArrive o r = false → (t.wave o.wave).routeRec r = (s.wave o.wave).routeRec r))) ∧
    (∀ route, (∀ w, quiet s w) → s.maxClock + 8 * s.x.waves.length < 2 ^ 47 → ∃ t, exec (.phaseComplete route) s = .next t ∧ KeepsRegisters s t ∧ t.m = s.m ∧ t.reg = s.reg ∧ t.x.teams = s.x.teams ∧
      t.pk.routes = SMap.set {} s.pk.routes route { s.route route with
        visible := (s.route route).visible + ((s.route route).doneAt.filter fun e => e.2 ≤ s.sch.cycle).length
        doneAt := (s.route route).doneAt.filter fun e => s.sch.cycle < e.2 } ∧
      ∀ w r l, r < 8 → l < 32 → ((s.wave w).lane l).st = .waiting (.waitb r) →
        (s.suspended w = true → t.wave w = s.wave w) ∧
        (s.suspended w = false → ((s.wave w).routeRec r).outstanding = true → ((s.wave w).routeRec r).counted = true →
          (((s.wave w).routeRec r).seq < (t.route r).visible → ranOn (s.wave w) (t.wave w) l ∧ (t.wave w).routeRec r = {}) ∧
          ((t.route r).visible ≤ ((s.wave w).routeRec r).seq → (t.wave w).lane l = (s.wave w).lane l))) ∧
    (∀ tk b, b = s.setB tk →
      (b = [] → exec (.waitCycleResolution tk) s = .next s) ∧
      ((∃ p ∈ b, p.join.isSome = true) → ∃ t, exec (.waitCycleResolution tk) s = .next t ∧ OutsideWaves (s.team tk).waves s t ∧
        ∀ w j, (∃ p ∈ b, p.join = some (w, j)) → ((t.wave w).join j).lost = true ∧ ((t.wave w).join j).expect = ((s.wave w).join j).expect ∧
          ∀ l, hasLane ((s.wave w).joined j) l = true → ranOn (s.wave w) (t.wave w) l) ∧
      ((∀ p ∈ b, p.join = none) → (s.team tk).waves.Nodup → (∀ w ∈ (s.team tk).waves, ∀ m, Plain s w m) →
        ∀ w pc m, w ∈ (s.team tk).waves → (∃ p ∈ b, ∃ v, p.lvl = some (v, pc) ∧ ∃ l, (w, l) ∈ p.waiting) →
          (∀ p ∈ b, ∀ v k l, p.lvl = some (v, k) → (w, l) ∈ p.waiting → pc ≤ k) →
          (∀ l, hasLane m l = true ↔ ∃ p ∈ b, ∃ v, p.lvl = some (v, pc) ∧ (w, l) ∈ p.waiting) → (s.wave w).hmode = false → s.suspended w = false → (s.gridOf w).trapvec ≠ 0#64 →
          ∃ t, exec (.waitCycleResolution tk) s = .next t ∧
            InHandler { s.wave w with left := (t.wave w).left } (t.wave w) (s.gridOf w).trapvec pc (BitVec.ofNat 32 causeRDVMIX) m
              (some ((s.wave w).clauseOfMask ((s.wave w).trapLanes m))) ∧
            ∀ l, l < 32 → (hasLane (t.wave w).left l = true ↔ ∃ p ∈ b, ∃ v k, p.lvl = some (v, k) ∧ k ≠ pc ∧ (w, l) ∈ p.waiting))) ∧
    (∀ v a b, a ∈ s.arrivals v → b ∈ s.arrivals v → a.pc ≠ b.pc → a.ord < b.ord → (s.fresh b = true ∨ hasLane (s.wave a.w).left a.l = true) → a ∈ s.dissolved v) ∧
    (∀ v a, a ∈ s.dissolved v → ∃ b ∈ s.arrivals v, b.pc ≠ a.pc ∧ a.ord < b.ord ∧ (s.fresh b = true ∨ hasLane (s.wave a.w).left a.l = true)) ∧
    (∀ v b, b ∈ s.arrivals v → (∀ a ∈ s.arrivals v, a.ord ≤ b.ord) → (∀ a ∈ s.arrivals v, a.pc ≠ b.pc → a.ord < b.ord) → b ∉ s.dissolved v) ∧
    (∀ tk v w pc m, w ∈ (s.team tk).waves → (s.team tk).waves.Nodup → (∃ a ∈ s.dissolved v, a.w = w ∧ a.pc = pc) → (∀ a ∈ s.dissolved v, a.w = w → pc ≤ a.pc) →
      (∀ l, hasLane m l = true ↔ ∃ a ∈ s.dissolved v, a.w = w ∧ a.l = l ∧ a.pc = pc) → (s.wave w).hmode = false → (s.wave w).taskWave = false → s.suspended w = false →
      (s.gridOf w).trapvec ≠ 0#64 → ∀ t, t = s.dissolve tk [v] →
        InHandler { s.wave w with left := (t.wave w).left } (t.wave w) (s.gridOf w).trapvec pc (BitVec.ofNat 32 causeRDVMIX) m
          (some ((s.wave w).clauseOfMask ((s.wave w).trapLanes m))) ∧
        ∀ l, l < 32 → (hasLane (t.wave w).left l = true ↔ ∃ a ∈ s.dissolved v, a.w = w ∧ a.l = l ∧ a.pc ≠ pc)) ∧
    (∀ tk pc, s.arrivals (.team tk) ≠ [] → (∀ a ∈ s.arrivals (.team tk), a.pc = pc) → (s.arrivals (.team tk)).length = (s.members (.team tk)).length →
      (∀ e ∈ s.lvlWaves (.team tk), s.suspended e.1 = false) → (∃ a ∈ s.arrivals (.team tk), a.ok = false) → (s.team tk).satctl = true → (s.team tk).waves.Nodup →
      (∃ w ∈ (s.team tk).waves, (s.wave w).satf = true ∧ (s.wave w).live ≠ 0#32) → ∀ t, t = s.tryComplete (.team tk) .team 0 →
        (∀ w ∈ (s.team tk).waves, (s.wave w).satf = true → (s.wave w).live ≠ 0#32 → (s.wave w).hmode = false → (s.gridOf w).trapvec ≠ 0#64 →
          InHandler (s.wave w) (t.wave w) (s.gridOf w).trapvec pc (BitVec.ofNat 32 causeSATARM) (s.wave w).live (some ((s.wave w).clauseOfMask ((s.wave w).trapLanes (s.wave w).live)))) ∧
        (∀ w, (w ∉ (s.team tk).waves ∨ (s.wave w).satf = false ∨ (s.wave w).live = 0#32) → t.wave w = s.wave w) ∧ t.m.mem = s.m.mem ∧ t.x.teams = s.x.teams ∧ t.o = s.o)

/-- R155, R156, R121-R123, R139-R144, R112-R115: where every member of a level waits at one address, the instruction executes once: every source is read before any destination is written, a
computation word has its LANE effect in each active lane, a collective its value from the active positions (a reduction or scan by the trees of R112 and R113); no register of a
lane that is not active changes and every member runs on at the next word.
R193, R160: a memory word is performed once, by the first active lane in group order: one operation with one part, at that lane's address with its data, that gives its result to
every active lane, stands in the program order of every member wave and counts on a flag of each; where that lane's access fails a check, every member wave is suspended and
one record names it; where no lane is active there is no operation. -/
def Obligations.RendezvousCompletes : Prop :=
 (∀ (s : State) (v : Lvl) (sc : Scope) (sset : Nat) (as : List Arr) (pc : DWord) (op : LOp) (places : List (Nat × Nat)), as = s.arrivals v → as ≠ [] →
    (∀ a ∈ as, a.pc = pc ∧ a.op = op) → as.length = (s.members v).length → (∀ e ∈ s.lvlWaves v, s.suspended e.1 = false) → s.satArmed v = [] → s.fbReady (s.members v) = true →
    (∀ a ∈ as, a.act = true → ∀ r ∈ granules (1#32 <<< a.l) (op.regs false), (s.wave a.w).parity.contains r = false) →
    places = (s.lvlWaves v).flatMap (fun e => (lanesOf e.2).map fun l => (e.1, l)) → places.Nodup → (sc = .set → places.length % 32 = 0) →
    let t := s.tryComplete v sc sset
    let active := fun (q : Nat) => decide (q < places.length) && as.any fun a => (a.w, a.l) == places.getD q (0, 0) && a.act
    let X := fun (a : Ext) (q : Nat) => let e := places.getD q (0, 0); s.extVal e.1 (((s.wave e.1).bundleOf e.2).getD {}) a e.2
    let Y := fun (n q : Nat) => let e := places.getD q (0, 0); (s.wave e.1).vreg n e.2
    let P := fun (n q : Nat) => let e := places.getD q (0, 0); (s.wave e.1).pred n e.2
    let Y' := fun (n q : Nat) => let e := places.getD q (0, 0); (t.wave e.1).vreg n e.2
    let P' := fun (n q : Nat) => let e := places.getD q (0, 0); (t.wave e.1).pred n e.2
    (computes op = true ∨ (∃ c, op = .coll c)) →
    (∀ e ∈ s.members v, ranOn (s.wave e.1) (t.wave e.1) e.2) ∧
    t.m = s.m ∧ t.reg = s.reg ∧ t.o = s.o ∧ t.x.teams = s.x.teams ∧ (∀ w n, (t.wave w).sreg n = (s.wave w).sreg n) ∧ (∀ w, (t.wave w).acc = (s.wave w).acc) ∧
    (∀ w l n, l < 32 → (∀ a ∈ as, a.act = true → (a.w, a.l) ≠ (w, l)) → (t.wave w).vreg n l = (s.wave w).vreg n l ∧ (t.wave w).pred n l = (s.wave w).pred n l) ∧
    (computes op = true → ∀ a ∈ as, a.act = true → ∀ n,
      let c : Cx := { w := a.w, x := s.wave a.w, b := s.arrBundle a, pc := pc, act := 1#32 <<< a.l, g := s.gridOf a.w }
      (t.wave a.w).vreg n a.l = vAfter s c op n a.l ∧ (t.wave a.w).pred n a.l = pAfter s c op n a.l) ∧
    (∀ d a b, op = .coll (.shfl d a b) → ∀ q, active q = true → Y' d q = if active (Y b q).toNat then X a (Y b q).toNat else Y d q) ∧
    (∀ d a k, op = .coll (.shfli d a k) → ∀ q, active q = true →
      Y' d q = if active (32 * (q / 32) + Nat.xor (q % 32) k) then X a (32 * (q / 32) + Nat.xor (q % 32) k) else Y d q) ∧
    (∀ d a b, op = .coll (.put d a b) → ∀ q, active q = true →
      (∀ k, active k = true → (Y b k).toNat = q → (∀ j, k < j → active j = true → (Y b j).toNat ≠ q) → Y' d q = X a k) ∧
      ((∀ k, active k = true → (Y b k).toNat ≠ q) → Y' d q = Y d q)) ∧
    (∀ d a b f, op = .coll (.bcast d a b) → active f = true → (∀ q, q < f → active q = false) → ∀ q, active q = true →
      Y' d q = if active (Y b f).toNat then X a (Y b f).toNat else Y d q) ∧
    (∀ d a k, op = .coll (.bcasti d a k) → ∀ q, active q = true → Y' d q = if active k then X a k else Y d q) ∧
    (∀ all d b, op = .coll (.vote all d b) → ∀ q, active q = true →
      (P' d q = true ↔ if all then ∀ k, active k = true → P b k = true else ∃ k, active k = true ∧ P b k = true)) ∧
    (∀ d b, op = .coll (.ballot d b) → sc ≠ .set → ∀ q k, active q = true → k < 32 → (Y' d q).getLsbD k = (active k && P b k)) ∧
    (∀ d b n, op = .coll (.ballot d b) → sc = .set → places.length = 32 * n → ∀ q k, active q = true → k < 32 →
      (Y' d q).getLsbD k = (decide (q % 32 < n) && active (32 * (q % 32) + k) && P b (32 * (q % 32) + k))) ∧
    (∀ d a ty, op = .coll (.red d a ty 0) → ty < 2 → ∀ q, active q = true →
      Y' d q = ((List.range places.length).map fun k => if active k then X a k else 0#32).foldl (· + ·) 0#32) ∧
    (∀ d a ty opr, op = .coll (.red d a ty opr) → ty < 3 → opr < 3 → ∀ q, active q = true →
      GroupValue (sc = .set) places.length (redOp ty opr) (redUnit ty opr) (fun k => if active k then X a k else redUnit ty opr) (Y' d q)) ∧
    (∀ d a x ty opr, op = .coll (.scan d a x ty opr) → ty < 3 → opr < 3 → ∀ q, active q = true →
      GroupValue (sc = .set) places.length (redOp ty opr) (redUnit ty opr)
        (fun k => if active k = true ∧ k < (if x then q else q + 1) then X a k else redUnit ty opr) (Y' d q)) ∧
    (∀ d a, op = .coll (.matchrank d a) → ∀ q, active q = true →
      let same := fun (lim : Nat) => ((List.range lim).filter fun k => active k && X a k == X a q).length
      Y' d q = BitVec.ofNat 32 (same places.length % 2 ^ 16 * 2 ^ 16 + same q % 2 ^ 16)) ∧
    (∀ d a, op = .coll (.histo d a) → ∀ q, active q = true → Y' d q = BitVec.ofNat 32 ((List.range places.length).filter fun k => active k && (X a k).toNat == q).length) ∧
    (∀ d a b f (w c : Nat → Word) (u t0 tt : Word), op = .coll (.sample d a b) → active f = true → (∀ q, q < f → active q = false) → (sc ≠ .set → ∃ m, places.length = 2 ^ m) →
      (∀ k, w k = if active k then (if finite32 (Y b k) ∧ 0 ≤ units149 (Y b k) then Y b k else 0#32) else 0x80000000#32) →
      (∀ q, q < places.length → GroupValue (sc = .set) places.length (redOp 2 0) 0x80000000#32 (fun k => if k ≤ q then w k else 0x80000000#32) (c q)) →
      u = (if nan32 (X a f) ∨ ((X a f).getLsbD 31 = true ∧ X a f ≠ 0x80000000#32) then 0#32 else X a f) → t0 = aluVal .mulF u (c (places.length - 1)) 0#32 →
      tt = (if nan32 t0 then 0#32 else t0) → ∀ q, active q = true →
        ((c (places.length - 1)).toNat % 2 ^ 31 = 0 → Y' d q = 0xFFFFFFFF#32) ∧
        ((c (places.length - 1)).toNat % 2 ^ 31 ≠ 0 →
          (∀ k, active k = true → cmpVal .ltF tt (c k) = true → (∀ j, j < k → active j = true → cmpVal .ltF tt (c j) = false) → Y' d q = BitVec.ofNat 32 k) ∧
          ((∀ k, active k = true → cmpVal .ltF tt (c k) = false) → ∀ k, active k = true → cmpVal .ltF 0#32 (w k) = true →
            (∀ j, k < j → active j = true → cmpVal .ltF 0#32 (w j) = false) → Y' d q = BitVec.ofNat 32 k)))) ∧
 (∀ (s : State) (v : Lvl) (sc : Scope) (sset : Nat) (as : List Arr) (pc : DWord) (m : MemL) (t : State), as = s.arrivals v → as ≠ [] →
    (∀ a ∈ as, a.pc = pc ∧ a.op = .mem m ∧ a.ok = true) → sc ≠ .lane → as.length = (s.members v).length → (s.members v).Nodup → (∀ e ∈ s.lvlWaves v, s.suspended e.1 = false) →
    s.fbReady (s.members v) = true → s.wideParity sset as (.mem m) = none → t = s.tryComplete v sc sset →
    ((∀ a ∈ as, a.act = false) → (∀ e ∈ s.members v, ranOn (s.wave e.1) (t.wave e.1) e.2) ∧ t.m = s.m ∧ t.o = s.o ∧ KeepsRegisters s t) ∧
    (∀ ld (c : Cx), as.find? (fun a => a.act) = some ld → c = { w := ld.w, x := s.wave ld.w, b := s.arrBundle ld, pc := pc, act := 1#32 <<< ld.l, g := s.gridOf ld.w } →
      (s.wave ld.w).taskWave = false →
      (∀ (clm : Bool) (pa size : Nat), reaches s c ld.l m clm pa size → (∀ a ∈ as, (s.wave a.w).flag (((s.wave a.w).clauseOf a.l).flagFor m.isLoad) < 255) →
        s.windowLacks (coreOf ld.w) ((as.map fun a => a.w).eraseDups).length = false →
        (∀ e ∈ s.members v, ranOn (s.wave e.1) (t.wave e.1) e.2) ∧ t.m = s.m ∧ KeepsRegisters s t ∧ t.reg = s.reg ∧ t.x.teams = s.x.teams ∧ t.o.next = s.o.next + 1 ∧
        (∀ k, k ≠ s.o.next → t.op k = s.op k) ∧ (t.op s.o.next).kind = m.kind ∧ (t.op s.o.next).cls = m.cls ∧ (t.op s.o.next).sc = sc ∧ (t.op s.o.next).pc = pc ∧
        (t.op s.o.next).done = false ∧ (t.op s.o.next).pos = ((as.map fun a => a.w).eraseDups).map (fun w => (w, (s.wave w).po)) ∧
        (t.op s.o.next).flags = (as.map fun a => (a.w, ((s.wave a.w).clauseOf a.l).flagFor m.isLoad)).eraseDups ∧
        (∀ w f, (t.wave w).flag f = (s.wave w).flag f + (if (w, f) ∈ (t.op s.o.next).flags then 1 else 0)) ∧
        (t.op s.o.next).parts.map (fun p => (p.lane, p.clm, p.pa, p.size)) = [(ld.l, clm, pa, size)] ∧
        (t.op s.o.next).parts.map (fun p => (p.reg, p.dst, p.data, p.data2)) =
          [(m.reg, (as.filter fun a => a.act).map fun a => (a.w, a.l), carries s c ld.l m, carriesToo s c ld.l m)]) ∧
      (∀ f, s.chkLane c m ld.l = .bad f → t.o = s.o ∧ t.m.mem = s.m.mem ∧ KeepsRegisters s t ∧ (∀ e ∈ s.lvlWaves v, t.suspended e.1 = true) ∧
        ∃ r, (t.tenant (s.gridOf ld.w).tenant).records = (s.tenant (s.gridOf ld.w).tenant).records ++ [r] ∧ leNat (r.take 1) = f.code % 2 ^ 8 ∧
          leNat ((r.drop 3).take 1) = ld.l % 2 ^ 8 ∧ leNat ((r.drop 8).take 8) = f.addr % 2 ^ 64)))

/-- R238-R241, R228: a record of a line that is received moves its line's slice's clock; where an earlier one of the line has not come it waits, else it is kept and checked: a violation
is every interval of another holder that it meets, either being a single writer's, a start hash that is not its predecessor's end hash or, read-only, not its own end hash, and the same
of an interval that it becomes the predecessor of (no check of poisoned data); each is reported with the interval of LT the rule names, and the line is poisoned (that several
violations of one record are each reported, and that the interval begins at 0 where there is no predecessor, are DEDUCED, log 29).  A rebase happens at 2^47 once nothing is outstanding
and no launch is resident, or all launches are held, and zeroes every clock. -/
def Obligations.CheckerEvents : Prop :=
  ∀ (s : State),
    (∀ idx, s.m.intervals[idx]? = none → exec (.intervalRecord idx) s = .next s) ∧
    (∀ idx v, s.m.intervals[idx]? = some v → s.homeSlice v.line = none → exec (.intervalRecord idx) s = .next { s with m := { s.m with intervals := s.m.intervals.eraseIdx idx } }) ∧
    (∀ idx v k, s.m.intervals[idx]? = some v → s.homeSlice v.line = some k → k < 2 ^ 16 →
      (v.waiting = true → exec (.intervalRecord idx) s = .next s) ∧
      (v.waiting = false → (∃ h ∈ s.m.intervals.take idx, h.line = v.line) → (∀ h ∈ s.m.intervals.take idx, h.line = v.line → h.waiting = false) →
        exec (.intervalRecord idx) s = .next { s.setSlice k { s.slice k with lt := Nat.max (s.sliceLt k) v.fin + 1 } with m := { s.m with intervals := s.m.intervals.set idx { v with waiting := true } } }) ∧
      (v.waiting = false → (∀ h ∈ s.m.intervals.take idx, h.line ≠ v.line) → (∀ h ∈ s.m.intervals, h.line = v.line → h.waiting = false) →
        (s.violations v = [] → exec (.intervalRecord idx) s = .next { s.setSlice k { s.slice k with lt := Nat.max (s.sliceLt k) v.fin + 1 } with
          m := { s.m with intervals := s.m.intervals.eraseIdx idx, history := s.m.history ++ [v] } }) ∧
        (s.violations v ≠ [] → s.relsOnLine v.line = [] → (s.tenant 0).viols = [] →
          ∃ t rs, exec (.intervalRecord idx) s = .next t ∧ KeepsRegisters s t ∧ KeepsMemory s t ∧ t.reg = s.reg ∧ t.x.teams = s.x.teams ∧ t.m.history = s.m.history ++ [v] ∧
            (t.tenant 0).records = (s.tenant 0).records ++ rs ∧ (t.readPa none (64 * v.line) 4).2 = true ∧
            rs.map (fun r => (leNat (r.take 1), leNat ((r.drop 2).take 2), leNat ((r.drop 8).take 8), leNat ((r.drop 0x10).take 8), leNat ((r.drop 0x18).take 8))) =
              (s.violations v).map fun b => (b.1, 2, 64 * v.line % 2 ^ 64, b.2.1 % 2 ^ 64, b.2.2 % 2 ^ 64)))) ∧
    (∀ v kind lo hi, (∀ p ∈ s.m.history, ∀ q ∈ s.m.history, p.line = v.line → q.line = v.line → p.fin = q.fin → p = q) →
      ((kind, lo, hi) ∈ s.violations v ↔
        (kind = 2 ∧ ∃ h ∈ s.m.history, h.line = v.line ∧ h.holder ≠ v.holder ∧ (h.sw = true ∨ v.sw = true) ∧ lo = Nat.max h.start v.start ∧ hi = Nat.min h.fin v.fin ∧ lo ≤ hi) ∨
        (kind = 3 ∧ hi = v.start ∧ v.poisoned = false ∧
          ((∃ p ∈ s.m.history, p.line = v.line ∧ p.fin < v.start ∧ (∀ q ∈ s.m.history, q.line = v.line → q.fin < v.start → q.fin ≤ p.fin) ∧ lo = p.fin ∧
              ((p.poisoned = false ∧ p.hend ≠ v.hstart) ∨ (v.sw = false ∧ v.hstart ≠ v.hend))) ∨
            ((∀ p ∈ s.m.history, p.line = v.line → v.start ≤ p.fin) ∧ lo = 0 ∧ v.sw = false ∧ v.hstart ≠ v.hend))) ∨
        (kind = 3 ∧ lo = v.fin ∧ v.poisoned = false ∧ ∃ h ∈ s.m.history, h.line = v.line ∧ v.fin < h.start ∧ (∀ p ∈ s.m.history, p.line = v.line → p.fin < h.start → p.fin < v.fin) ∧
          h.poisoned = false ∧ v.hend ≠ h.hstart ∧ hi = h.start))) ∧
    (s.maxClock < 2 ^ 47 → exec .ltRebase s = .next s) ∧
    (2 ^ 47 ≤ s.maxClock → (s.drained = false ∨ ((∃ e ∈ s.x.grids, e.2.live = true) ∧ s.maxClock < 2 ^ 47 + 2 ^ 46)) →
      exec .ltRebase s = .next { s with pk := { s.pk with rebase := true } }) ∧
    (2 ^ 47 ≤ s.maxClock → s.drained = true → ((∀ e ∈ s.x.grids, e.2.live = false) ∨ 2 ^ 47 + 2 ^ 46 ≤ s.maxClock) →
      ∃ t, exec .ltRebase s = .next t ∧ t.pk.rebase = false ∧ t.reg = s.reg ∧ KeepsRegisters s t ∧ t.x.teams = s.x.teams ∧ (∀ c, (t.core c).lt = 0) ∧ (∀ k, (t.slice k).lt = 0) ∧
        (∀ k, (t.ctrl k).lt = 0) ∧ (∀ k, (t.port k).lt = 0) ∧ t.pk.arbLt = 0 ∧ t.m.intervals = [] ∧ t.m.history = [] ∧
        ∀ k, (SMap.get {} t.m.held k).opened = (SMap.get {} s.m.held k).opened ∧ ((SMap.get {} t.m.held k).opened = true → (SMap.get {} t.m.held k).start = 0))

/-- R94, R126-R128: the integer values, as arithmetic on UInt and SInt: results wrap, shift amounts are taken modulo 32, CLZ and POPC count bits, BREV reverses them, ADD64 and LEA wrap
to 64 bits, and compares compare the numbers. -/
def Obligations.IntegerValues : Prop :=
  ∀ (x y z : Word),
    (aluVal .add x y z).toNat = (x.toNat + y.toNat) % 2 ^ 32 ∧ ((aluVal .sub x y z).toNat : Int) = ((x.toNat : Int) - y.toNat) % 2 ^ 32 ∧
    (aluVal .mullo x y z).toNat = x.toNat * y.toNat % 2 ^ 32 ∧ (aluVal .mulhiI x y z).toInt = x.toInt * y.toInt / 2 ^ 32 ∧
    (aluVal .mulhiN x y z).toNat = x.toNat * y.toNat / 2 ^ 32 ∧ (aluVal .mad x y z).toNat = (x.toNat * y.toNat + z.toNat) % 2 ^ 32 ∧
    (aluVal .minI x y z).toInt = min x.toInt y.toInt ∧ (aluVal .minN x y z).toNat = min x.toNat y.toNat ∧
    (aluVal .maxI x y z).toInt = max x.toInt y.toInt ∧ (aluVal .maxN x y z).toNat = max x.toNat y.toNat ∧
    (∀ i, i < 32 → (aluVal .and x y z).getLsbD i = (x.getLsbD i && y.getLsbD i) ∧ (aluVal .or x y z).getLsbD i = (x.getLsbD i || y.getLsbD i) ∧
      (aluVal .xor x y z).getLsbD i = Bool.xor (x.getLsbD i) (y.getLsbD i) ∧ (aluVal .brev x y z).getLsbD i = x.getLsbD (31 - i)) ∧
    (aluVal .shl x y z).toNat = x.toNat * 2 ^ (y.toNat % 32) % 2 ^ 32 ∧ (aluVal .shrN x y z).toNat = x.toNat / 2 ^ (y.toNat % 32) ∧
    (aluVal .shrI x y z).toInt = x.toInt / 2 ^ (y.toNat % 32) ∧
    (aluVal .rotl x y z).toNat = (x.toNat * 2 ^ (y.toNat % 32) + x.toNat / 2 ^ (32 - y.toNat % 32)) % 2 ^ 32 ∧
    (x = 0#32 → aluVal .clz x y z = 32#32) ∧
    (∀ n, n < 32 → x.getLsbD n = true → (∀ k, n < k → x.getLsbD k = false) → (aluVal .clz x y z).toNat = 31 - n) ∧
    (aluVal .popc x y z).toNat = ((List.range 32).filter fun i => x.getLsbD i).length ∧
    (aluVal .sel x y z = if z.toNat ≠ 0 then x else y) ∧ aluVal .mov x y z = x ∧
    (∀ u v : DWord, (pairVal false u v).toNat = (u.toNat + v.toNat) % 2 ^ 64 ∧
      ((pairVal true u (y.setWidth 64)).toNat : Int) = ((u.toNat : Int) + y.toInt) % 2 ^ 64) ∧
    (cmpVal .eq x y = true ↔ x.toNat = y.toNat) ∧ (cmpVal .ne x y = true ↔ x.toNat ≠ y.toNat) ∧ (cmpVal .ltI x y = true ↔ x.toInt < y.toInt) ∧
    (cmpVal .leI x y = true ↔ x.toInt ≤ y.toInt) ∧ (cmpVal .ltN x y = true ↔ x.toNat < y.toNat) ∧ (cmpVal .leN x y = true ↔ x.toNat ≤ y.toNat)

/-- R95-R97, R130: ADD, SUB, MUL and FMA of finite F32 operands give the exact result rounded to nearest, ties to even; a NaN operand gives the canonical NaN; of opposite zeros ADD
gives +0, and MIN and MAX order -0 below +0; NEG and ABS change the sign bit of what is no NaN. -/
def Obligations.FloatingPointValues : Prop :=
  ∀ (x y z : Word),
    (finite32 x → finite32 y → rounded (aluVal .addF x y z) (units149 x + units149 y) 0 ∧ rounded (aluVal .subF x y z) (units149 x - units149 y) 0 ∧
      rounded (aluVal .mulF x y z) (units149 x * units149 y) 149 ∧
      (finite32 z → rounded (aluVal .fmaF x y z) (units149 x * units149 y + units149 z * 2 ^ 149) 149) ∧
      (aluVal .minF x y z = x ∨ aluVal .minF x y z = y) ∧ (aluVal .maxF x y z = x ∨ aluVal .maxF x y z = y) ∧
      units149 (aluVal .minF x y z) = min (units149 x) (units149 y) ∧ units149 (aluVal .maxF x y z) = max (units149 x) (units149 y)) ∧
    (nan32 x ∨ nan32 y → aluVal .addF x y z = 0x7FC00000#32 ∧ aluVal .subF x y z = 0x7FC00000#32 ∧ aluVal .mulF x y z = 0x7FC00000#32 ∧
      aluVal .fmaF x y z = 0x7FC00000#32 ∧ aluVal .minF x y z = 0x7FC00000#32 ∧ aluVal .maxF x y z = 0x7FC00000#32) ∧
    (aluVal .addF 0x80000000#32 0#32 z = 0#32 ∧ aluVal .addF 0x80000000#32 0x80000000#32 z = 0x80000000#32 ∧ aluVal .minF 0#32 0x80000000#32 z = 0x80000000#32 ∧
      aluVal .maxF 0x80000000#32 0#32 z = 0#32) ∧
    (¬ nan32 x → aluVal .negF x y z = x ^^^ 0x80000000#32 ∧ aluVal .absF x y z = x &&& 0x7FFFFFFF#32)

/-- R309, R29, R46: the machine after cold reset: the device and tenant registers at the values their table gives, every map the reset matrix, every clock zero, no launch, wave, cache
line or operation, and the boot sequence first; memory in its canonical form and coherent.  (The values the spec leaves open are those of logs 2 to 7, and no clause names one.) -/
def Obligations.ResetValues : Prop :=
  State.reset.dev 0x406 = 1800#32 ∧ State.reset.dev 0x41D = 24#32 ∧ State.reset.dev 0x41E = 64#32 ∧ State.reset.dev 0x420 = 3#32 ∧
  (∀ n ∈ [0x46, 0x403, 0x404, 0x405, 0x407, 0x408, 0x409, 0x40A, 0x40D, 0x40E, 0x412, 0x413, 0x414, 0x416, 0x417, 0x41F, 0x430, 0x431, 0x435, 0x437], State.reset.dev n = 0#32) ∧
  (∀ p, State.reset.rtblEntry p = 0#32) ∧ State.reset.reg.tlbBusy = false ∧ (∀ k i, State.reset.mapRow k i = resetRow i) ∧
  (∀ n, (State.reset.tenant n).fqbase = 0#64 ∧ (State.reset.tenant n).fqctl = 0#32 ∧ (State.reset.tenant n).fqprod = 0#32 ∧ (State.reset.tenant n).fqcons = 0#32 ∧
    (State.reset.tenant n).wcmd = 0#32 ∧ (State.reset.tenant n).redpol = 0 ∧ (State.reset.tenant n).winsel = 0 ∧ (State.reset.tenant n).msiport = 0 ∧
    (State.reset.tenant n).mat.allow = 0x0200 ∧ (∀ k, State.reset.remain k n = 0x0200) ∧ (∀ q, (State.reset.tenant n).queue q = {}) ∧
    ∀ w, (SMap.get {} (State.reset.tenant n).windows w).valid = false) ∧
  (∀ c, (State.reset.core c).lt = 0) ∧ (∀ k, (State.reset.slice k).lt = 0 ∧ (State.reset.ctrl k).lt = 0 ∧ (State.reset.port k).lt = 0) ∧ State.reset.pk.arbLt = 0 ∧
  (∀ w, (State.reset.wave w).resident = false) ∧ (∀ k, (State.reset.team k).resident = false) ∧ (∀ g, (State.reset.grid g).live = false) ∧ State.reset.x.groups = [] ∧
  (∀ c line, (State.reset.l1Line c line).valid = false) ∧ (∀ line, (State.reset.llcLine line).valid = false) ∧ State.reset.o.ops = [] ∧ State.reset.m.tlb = [] ∧
  State.reset.sch.due = [.bootSequence] ∧ MemoryInv State.reset ∧ step State.reset = exec .bootSequence { State.reset with sch := { State.reset.sch with due := [] } }

/-- R151, R210, R90, R78: a step in which no device event is due and a bundle is chosen to issue runs the instruction its word decodes to, the bundle being taken off the choice: `exec` of it at
the state the fetch leaves; a word of a clause that was fetched with it leaves the state as it is; a word that decodes to nothing is ILLOP, at a header with HDR
set, where no word but CLAUSE is accepted.  A chosen bundle that is not there, or may not issue, issues nothing.
R337: where the registers of a shadow have come apart from its leader's, the step happens in both: the leader alone moves lanes and touches memory, and the shadow keeps the registers
that it computed (that it runs beside its leader, and is looked at only then, is DEDUCED, log 42); a transfer whose targets in the shadow are others moves no lane (R339). -/
def Obligations.StepRunsDecodedInstruction : Prop :=
  (∀ (s u : State) (k : Nat × Mask) (rest : List (Nat × Mask)), s.together = true → s.sch.due = [] → s.sch.issueQ = k :: rest → u = { s with sch := { s.sch with issueQ := rest, cur := k } } →
    (u.cx = none → step s = .next u) ∧
    (∀ c, u.cx = some c → u.ready c.w c.b = false → step s = .next u) ∧
    (∀ c v u', u.cx = some c → u.ready c.w c.b = true → u.wordAt c = .word v u' →
      (∀ i, decode v.toNat = .ok i → c.b.phase ≠ .header ∨ isClause i = true → step s = exec i u') ∧
      (∀ i, decode v.toNat = .ok i → c.b.phase = .header → isClause i = false → step s = .next (u'.headerTrap c)) ∧
      (∀ e, decode v.toNat = .error e → step s = .next (if c.b.phase = .header then u'.headerTrap c else u'.trapAll c causeILLOP))) ∧
    (∀ c v, u.cx = some c → c.b.phase = .body → c.b.cl.code[(c.pc - c.b.cl.hdr - 8#64).toNat / 4]? = some v → u.wordAt c = .word v u)) ∧
  (∀ s t u : State, s.together = false → stepOnce s = .next t → stepOnce s.asShadows = .next u →
    ∃ v, step s = .next v ∧ v.m = t.m ∧ v.reg = t.reg ∧ v.pk = t.pk ∧ v.sch = t.sch ∧ v.x.teams = t.x.teams ∧ v.x.cores = t.x.cores ∧ v.x.grids = t.x.grids ∧ v.x.tenants = t.x.tenants ∧
      (∀ w, (v.wave w).v = (t.wave w).v ∧ (v.wave w).s = (t.wave w).s ∧ (v.wave w).p = (t.wave w).p ∧ (v.wave w).acc = (t.wave w).acc ∧ (v.wave w).lanes = (t.wave w).lanes ∧
        (v.wave w).f = (t.wave w).f) ∧
      (∀ w r, (s.wave w).shadow = some r → (t.wave w).shadow = some r → (t.wave w).redun ≠ 2 → (u.wave w).regs ≠ (t.wave w).regs → (v.wave w).shadow = some (u.wave w).regs) ∧
      ∀ e ∈ t.o.ops, (∀ k ∈ s.o.ops, k.1 ≠ e.1) → (∀ k ∈ u.o.ops, (∀ j ∈ s.o.ops, j.1 ≠ k.1) → k.2.pos ≠ e.2.pos) → ∃ k ∈ v.o.ops, k.1 = e.1 ∧ k.2.odd = true) ∧
  (∀ (s t u : State) (w : Nat) (m : Mask) (pc : DWord) (f : State → Host.Outcome State Fault Refusal), (s.wave w).shadow.isSome = true → f s = .next t → f s.asShadows = .next u →
    (∃ l, l < 32 ∧ hasLane m l = true ∧ ((t.wave w).lane l).pc ≠ ((u.wave w).lane l).pc) →
    ∃ v, s.compareTargets w m pc f = .next v ∧ KeepsRegisters s v ∧ (∀ k l, (v.wave k).lane l = (s.wave k).lane l) ∧ v.m.mem = s.m.mem ∧ v.suspended w = true)

/-- R65-R76, R87, R89: words written from the encoding tables decode to the instructions they stand for. -/
def Obligations.DecodesWrittenWords : Prop :=
  decode 0b0_0000001_00_0000011_00000010_0000001 = .ok (.add .lane 3 (.v 2) 1) ∧
  decode 0b0_1010000_00_0000010_0000010_11111111 = .ok (.addi .lane 2 2 0xFF) ∧
  decode 0b0_1000110_01_0000010_00000001_0001000 = .ok (.red .wave 2 (.v 1) 2 0) ∧
  decode 0b0_1100010_00_0000110_0001000_00000100 = .ok (.ldB32 .lane 6 8 4) ∧
  decode 0b0_0111000_00_0000110_10001000_0001001 = .ok (.atom .lane 6 (.s 8) false 9) ∧
  decode 0b0_0111010_10_1000100_10001000_0001000 = .ok (.copy true 4 (.s 8) 0 2) ∧
  decode 0b0_1111000_01_000011_1111111111110100 = .ok (.bp true 3 0xFFF4) ∧
  decode 0b0_1111010_10_000001_0_000100_000110_010 = .ok (.mma 2 1 false 4 6 2) ∧
  decode 0b0_0111011_00_0001000_00000010_0000001 = .ok (.spawn 8 (.v 2) 1) ∧
  decode 0b1_0000000_000000000001_1111_1111_0000 = .ok (.clause 1 15 15 0) ∧
  decode 0b1_0000001_001010_001011_001100_000000 = .ok (.uadd 10 11 12) ∧
  decode 0b1_0110111_010100_000000_0000_01100100 = .ok (.movi 20 100) ∧
  decode 0b1_1000000_00000000_0000000000010100 = .ok (.bra 20) ∧
  decode 0b1_1010101_001100_001000_001010_000000 = .ok (.invn 12 8 10) ∧
  decode 0b1_1011010_000011_010100_010101_000000 = .ok (.hcfgBind 3 20 21) ∧
  decode 0b1_1100000_000011_000000_000000110000 = .ok (.mfs 3 0x30)

/-- R65, R67-R76, R87, R89: every instruction all of whose fields lie in their widths has a word, that word decodes to it, and it is the only word that does: no bit of an encoding is
dropped and none is ignored. -/
def Obligations.DecodeEncodeRoundTrip : Prop :=
  (∀ i, i.fits = true → ∃ w, encode i = some w ∧ w < 2 ^ 32 ∧ decode w = .ok i) ∧
  (∀ i w, w < 2 ^ 32 → decode w = .ok i → i.fits = true ∧ encode i = some w)

/-- The canonical form of memory is kept by every step: whatever the step runs, from every state that has it. -/
def Obligations.StepKeepsMemoryCanonical : Prop :=
  ∀ s t, Memory.wf s.m.mem = true → step s = .next t → Memory.wf t.m.mem = true

/-- R225, R190: every step keeps the caches coherent: a clean line of a slice has its home's data, and a line that a core's L1 holds dirty is held exclusively by that core. -/
def Obligations.StepKeepsCoherence : Prop :=
  ∀ s t, MemoryInv s → step s = .next t → MemoryInv t
end

