-- ==== Sys2Proof/Laws/Map.lean ====
section
/-! SUPPORT. The laws of the association lists: a read after a write gives the value written, a write leaves every
other key alone, every operation keeps the canonical form, and equal contents are equal lists. -/

set_option Elab.async false

namespace Sys2Proof.Machine

variable {α : Type}

@[simp] theorem SMap.get_nil (d : α) (k : Nat) : SMap.get d [] k = d := rfl

theorem SMap.get_insert (d : α) (m : SMap α) (k : Nat) (x : α) (j : Nat) :
    SMap.get d (SMap.insert m k x) j = if j = k then x else SMap.get d m j := by
  induction m with
  | nil => by_cases h : j = k <;> simp [SMap.insert, SMap.get, h]
  | cons e rest ih =>
    obtain ⟨k', v⟩ := e
    by_cases h1 : k < k'
    · by_cases h : j = k <;> simp [SMap.insert, SMap.get, h1, h]
    · by_cases h2 : k = k'
      · subst h2
        by_cases h : j = k <;> simp [SMap.insert, SMap.get, h]
      · have h2' : (k == k') = false := by simpa using h2
        by_cases hj : j = k'
        · subst hj
          have : j ≠ k := fun e => h2 e.symm
          simp [SMap.insert, SMap.get, h1, h2', this]
        · simp [SMap.insert, SMap.get, h1, h2', hj, ih]

theorem SMap.get_remove (d : α) (m : SMap α) (k j : Nat) :
    SMap.get d (List.filter (fun e => e.1 != k) m) j = if j = k then d else SMap.get d m j := by
  induction m with
  | nil => simp
  | cons e rest ih =>
    obtain ⟨k', v⟩ := e
    by_cases h : k' = k
    · subst h
      by_cases hj : j = k' <;> simp_all [SMap.get]
    · by_cases hj : j = k'
      · subst hj; simp [SMap.get, h]
      · simp [SMap.get, h, hj, ih]

/-- A read after a write. -/
theorem SMap.get_set [DecidableEq α] (d : α) (m : SMap α) (k : Nat) (x : α) (j : Nat) :
    SMap.get d (SMap.set d m k x) j = if j = k then x else SMap.get d m j := by
  unfold SMap.set
  by_cases hx : x = d
  · rw [if_pos hx, SMap.get_remove, hx]
  · rw [if_neg hx, SMap.get_insert]

@[simp] theorem SMap.get_set_self [DecidableEq α] (d : α) (m : SMap α) (k : Nat) (x : α) :
    SMap.get d (SMap.set d m k x) k = x := by simp [SMap.get_set]

theorem SMap.get_set_other [DecidableEq α] (d : α) (m : SMap α) {k j : Nat} (x : α) (h : j ≠ k) :
    SMap.get d (SMap.set d m k x) j = SMap.get d m j := by simp [SMap.get_set, h]

/-- A bound below which no key of a rising list lies may be lowered. -/
theorem SMap.rising_mono {m : SMap α} {a b : Nat} (hab : a ≤ b) (h : SMap.rising (some b) m = true) :
    SMap.rising (some a) m = true := by
  cases m with
  | nil => rfl
  | cons e rest =>
    simp only [SMap.rising, Bool.and_eq_true, decide_eq_true_eq] at h ⊢
    exact ⟨by omega, h.2⟩

theorem SMap.rising_none {m : SMap α} {b : Nat} (h : SMap.rising (some b) m = true) : SMap.rising none m = true := by
  cases m with
  | nil => rfl
  | cons e rest => simp only [SMap.rising, Bool.and_eq_true] at h ⊢; exact ⟨trivial, h.2⟩

theorem SMap.rising_filter (p : Nat × α → Bool) (m : SMap α) (b : Nat) (h : SMap.rising (some b) m = true) :
    SMap.rising (some b) (List.filter p m) = true := by
  induction m generalizing b with
  | nil => rfl
  | cons e rest ih =>
    simp only [SMap.rising, Bool.and_eq_true, decide_eq_true_eq] at h
    by_cases hp : p e = true
    · simp only [List.filter_cons_of_pos hp, SMap.rising, Bool.and_eq_true, decide_eq_true_eq]
      exact ⟨h.1, ih _ h.2⟩
    · rw [List.filter_cons_of_neg hp]
      exact SMap.rising_mono (Nat.le_of_lt h.1) (ih _ h.2)

theorem SMap.rising_filter_none (p : Nat × α → Bool) (m : SMap α) (h : SMap.rising none m = true) :
    SMap.rising none (List.filter p m) = true := by
  cases m with
  | nil => rfl
  | cons e rest =>
    simp only [SMap.rising, Bool.and_eq_true] at h
    by_cases hp : p e = true
    · simp only [List.filter_cons_of_pos hp, SMap.rising, Bool.and_eq_true]
      exact ⟨trivial, SMap.rising_filter p rest _ h.2⟩
    · rw [List.filter_cons_of_neg hp]
      exact SMap.rising_none (SMap.rising_filter p rest _ h.2)

theorem SMap.rising_insert (m : SMap α) (k b : Nat) (x : α) (hb : b < k) (h : SMap.rising (some b) m = true) :
    SMap.rising (some b) (SMap.insert m k x) = true := by
  induction m generalizing b with
  | nil => simp [SMap.insert, SMap.rising, hb]
  | cons e rest ih =>
    obtain ⟨k', v⟩ := e
    simp only [SMap.rising, Bool.and_eq_true, decide_eq_true_eq] at h
    by_cases h1 : k < k'
    · simp [SMap.insert, SMap.rising, h1, hb, h.2]
    · by_cases h2 : k = k'
      · subst h2; simp [SMap.insert, SMap.rising, hb, h.2]
      · have h2' : (k == k') = false := by simpa using h2
        have hi : SMap.insert ((k', v) :: rest) k x = (k', v) :: SMap.insert rest k x := by simp [SMap.insert, h1, h2']
        rw [hi]
        simp only [SMap.rising, Bool.and_eq_true, decide_eq_true_eq]
        exact ⟨h.1, ih k' (by omega) h.2⟩

theorem SMap.rising_insert_none (m : SMap α) (k : Nat) (x : α) (h : SMap.rising none m = true) :
    SMap.rising none (SMap.insert m k x) = true := by
  cases m with
  | nil => rfl
  | cons e rest =>
    obtain ⟨k', v⟩ := e
    simp only [SMap.rising, Bool.and_eq_true] at h
    by_cases h1 : k < k'
    · simp [SMap.insert, SMap.rising, h1, h.2]
    · by_cases h2 : k = k'
      · subst h2; simp [SMap.insert, SMap.rising, h.2]
      · have h2' : (k == k') = false := by simpa using h2
        have hi : SMap.insert ((k', v) :: rest) k x = (k', v) :: SMap.insert rest k x := by simp [SMap.insert, h1, h2']
        rw [hi]
        simp only [SMap.rising, Bool.and_eq_true]
        exact ⟨trivial, SMap.rising_insert rest k k' x (by omega) h.2⟩

theorem SMap.mem_insert {m : SMap α} {k : Nat} {x : α} {e : Nat × α} (h : e ∈ SMap.insert m k x) : e = (k, x) ∨ e ∈ m := by
  induction m with
  | nil => simpa [SMap.insert] using h
  | cons e' rest ih =>
    obtain ⟨k', v⟩ := e'
    unfold SMap.insert at h
    split at h
    · simpa using h
    · split at h
      · rcases List.mem_cons.mp h with h | h
        · exact .inl h
        · exact .inr (List.mem_cons_of_mem _ h)
      · rcases List.mem_cons.mp h with h | h
        · exact .inr (h ▸ List.mem_cons_self)
        · exact (ih h).imp id (List.mem_cons_of_mem _)

@[simp] theorem SMap.wf_nil [DecidableEq α] (d : α) : SMap.wf d ([] : SMap α) = true := rfl

theorem SMap.wf_iff [DecidableEq α] (d : α) (m : SMap α) :
    SMap.wf d m = true ↔ SMap.rising none m = true ∧ ∀ e ∈ m, e.2 ≠ d := by
  simp [SMap.wf]

theorem SMap.wf_filter [DecidableEq α] (d : α) (p : Nat × α → Bool) {m : SMap α} (h : SMap.wf d m = true) :
    SMap.wf d (List.filter p m) = true := by
  rw [SMap.wf_iff] at h ⊢
  exact ⟨SMap.rising_filter_none p m h.1, fun e he => h.2 e (List.mem_of_mem_filter he)⟩

/-- A write keeps the canonical form. -/
theorem SMap.wf_set [DecidableEq α] (d : α) {m : SMap α} (k : Nat) (x : α) (h : SMap.wf d m = true) :
    SMap.wf d (SMap.set d m k x) = true := by
  unfold SMap.set
  split
  · exact SMap.wf_filter d _ h
  · rename_i hx
    rw [SMap.wf_iff] at h ⊢
    refine ⟨SMap.rising_insert_none m k x h.1, fun e he => ?_⟩
    rcases SMap.mem_insert he with rfl | he
    · exact hx
    · exact h.2 e he

theorem SMap.wf_setAll [DecidableEq α] (d : α) (ws : List (Nat × α)) {m : SMap α} (h : SMap.wf d m = true) :
    SMap.wf d (SMap.setAll d m ws) = true := by
  unfold SMap.setAll
  induction ws generalizing m with
  | nil => exact h
  | cons w ws ih => exact ih (SMap.wf_set d w.1 w.2 h)

/-- No key of a rising list lies at or below its bound. -/
theorem SMap.get_below (d : α) {m : SMap α} {b k : Nat} (h : SMap.rising (some b) m = true) (hk : k ≤ b) :
    SMap.get d m k = d := by
  induction m generalizing b with
  | nil => rfl
  | cons e rest ih =>
    simp only [SMap.rising, Bool.and_eq_true, decide_eq_true_eq] at h
    have hne : (k == e.1) = false := by simp; omega
    simp only [SMap.get, hne]
    exact ih h.2 (by omega)

theorem SMap.ext_rising (d : α) {m n : SMap α} (b : Option Nat) (hm : SMap.rising b m = true) (hn : SMap.rising b n = true)
    (vm : ∀ e ∈ m, e.2 ≠ d) (vn : ∀ e ∈ n, e.2 ≠ d) (h : ∀ k, SMap.get d m k = SMap.get d n k) : m = n := by
  induction m generalizing n b with
  | nil =>
    cases n with
    | nil => rfl
    | cons e rest =>
      have := h e.1
      simp [SMap.get] at this
      exact absurd this.symm (vn e List.mem_cons_self)
  | cons e rest ih =>
    cases n with
    | nil =>
      have := h e.1
      simp [SMap.get] at this
      exact absurd this (vm e List.mem_cons_self)
    | cons e' rest' =>
      have hm' : SMap.rising (some e.1) rest = true := by
        simp only [SMap.rising, Bool.and_eq_true] at hm; exact hm.2
      have hn' : SMap.rising (some e'.1) rest' = true := by
        simp only [SMap.rising, Bool.and_eq_true] at hn; exact hn.2
      have hk : e.1 = e'.1 := by
        rcases Nat.lt_trichotomy e.1 e'.1 with hlt | heq | hgt
        · have h1 := h e.1
          have hne : (e.1 == e'.1) = false := by simp; omega
          simp only [SMap.get, beq_self_eq_true, if_true, hne] at h1
          rw [if_neg (by simp), SMap.get_below d hn' (Nat.le_of_lt hlt)] at h1
          exact absurd h1 (vm e List.mem_cons_self)
        · exact heq
        · have h1 := h e'.1
          have hne : (e'.1 == e.1) = false := by simp; omega
          simp only [SMap.get, beq_self_eq_true, if_true, hne] at h1
          rw [if_neg (by simp), SMap.get_below d hm' (Nat.le_of_lt hgt)] at h1
          exact absurd h1.symm (vn e' List.mem_cons_self)
      have hv : e.2 = e'.2 := by
        have h1 := h e.1
        simpa [SMap.get, hk] using h1
      have he : e = e' := Prod.ext hk hv
      subst he
      congr 1
      refine ih (some e.1) hm' hn' (fun x hx => vm x (List.mem_cons_of_mem _ hx)) (fun x hx => vn x (List.mem_cons_of_mem _ hx)) (fun k => ?_)
      by_cases hke : k = e.1
      · subst hke
        rw [SMap.get_below d hm' (Nat.le_refl _), SMap.get_below d hn' (Nat.le_refl _)]
      · have h1 := h k
        simpa [SMap.get, hke] using h1

/-- Equal contents are equal data. -/
theorem SMap.ext_wf [DecidableEq α] (d : α) {m n : SMap α} (hm : SMap.wf d m = true) (hn : SMap.wf d n = true)
    (h : ∀ k, SMap.get d m k = SMap.get d n k) : m = n := by
  rw [SMap.wf_iff] at hm hn
  exact SMap.ext_rising d none hm.1 hn.1 hm.2 hn.2 h

end Sys2Proof.Machine
end

