-- ==== Sys2Proof/Laws/State.lean ====
section
/-! SUPPORT. The small laws of the state's updates: what each named write leaves in each part of the state, so that no later proof
unfolds a record update. -/

namespace Sys2Proof.Machine

open Sys2Proof

variable (s : State) (x : Wave)

/-! ### setWave -/

@[simp] theorem State.setWave_sch (k : Nat) (y : Wave) : (s.setWave k y).sch = s.sch := rfl
@[simp] theorem State.setWave_reg (k : Nat) (y : Wave) : (s.setWave k y).reg = s.reg := rfl
@[simp] theorem State.setWave_pk (k : Nat) (y : Wave) : (s.setWave k y).pk = s.pk := rfl
@[simp] theorem State.setWave_m (k : Nat) (y : Wave) : (s.setWave k y).m = s.m := rfl
@[simp] theorem State.setWave_o (k : Nat) (y : Wave) : (s.setWave k y).o = s.o := rfl
@[simp] theorem State.setWave_x_teams (k : Nat) (y : Wave) : (s.setWave k y).x.teams = s.x.teams := rfl
@[simp] theorem State.setWave_x_cores (k : Nat) (y : Wave) : (s.setWave k y).x.cores = s.x.cores := rfl
@[simp] theorem State.setWave_x_grids (k : Nat) (y : Wave) : (s.setWave k y).x.grids = s.x.grids := rfl
@[simp] theorem State.setWave_x_nextGrid (k : Nat) (y : Wave) : (s.setWave k y).x.nextGrid = s.x.nextGrid := rfl
@[simp] theorem State.setWave_x_rrTenant (k : Nat) (y : Wave) : (s.setWave k y).x.rrTenant = s.x.rrTenant := rfl
@[simp] theorem State.setWave_x_groups (k : Nat) (y : Wave) : (s.setWave k y).x.groups = s.x.groups := rfl
@[simp] theorem State.setWave_x_tenants (k : Nat) (y : Wave) : (s.setWave k y).x.tenants = s.x.tenants := rfl
@[simp] theorem State.setWave_team (k : Nat) (y : Wave) (j : Nat) : (s.setWave k y).team j = s.team j := rfl
@[simp] theorem State.setWave_core (k : Nat) (y : Wave) (j : Nat) : (s.setWave k y).core j = s.core j := rfl
@[simp] theorem State.setWave_grid (k : Nat) (y : Wave) (j : Nat) : (s.setWave k y).grid j = s.grid j := rfl
@[simp] theorem State.setWave_tenant (k : Nat) (y : Wave) (j : Nat) : (s.setWave k y).tenant j = s.tenant j := rfl
@[simp] theorem State.setWave_op (k : Nat) (y : Wave) (j : Nat) : (s.setWave k y).op j = s.op j := rfl
@[simp] theorem State.setWave_copy (k : Nat) (y : Wave) (j : Nat) : (s.setWave k y).copy j = s.copy j := rfl
@[simp] theorem State.setWave_dev (k : Nat) (y : Wave) (j : Nat) : (s.setWave k y).dev j = s.dev j := rfl
@[simp] theorem State.setWave_route (k : Nat) (y : Wave) (j : Nat) : (s.setWave k y).route j = s.route j := rfl
@[simp] theorem State.setWave_port (k : Nat) (y : Wave) (j : Nat) : (s.setWave k y).port j = s.port j := rfl
@[simp] theorem State.setWave_ctrl (k : Nat) (y : Wave) (j : Nat) : (s.setWave k y).ctrl j = s.ctrl j := rfl
@[simp] theorem State.setWave_slice (k : Nat) (y : Wave) (j : Nat) : (s.setWave k y).slice j = s.slice j := rfl
theorem State.setWave_wave (k : Nat) (y : Wave) (j : Nat) : (s.setWave k y).wave j = if j = k then y else s.wave j := SMap.get_set _ _ _ _ _
@[simp] theorem State.setWave_wave_self (k : Nat) (y : Wave) : (s.setWave k y).wave k = y := SMap.get_set_self _ _ _ _

/-! ### setTeam -/

@[simp] theorem State.setTeam_sch (k : Nat) (y : Team) : (s.setTeam k y).sch = s.sch := rfl
@[simp] theorem State.setTeam_reg (k : Nat) (y : Team) : (s.setTeam k y).reg = s.reg := rfl
@[simp] theorem State.setTeam_pk (k : Nat) (y : Team) : (s.setTeam k y).pk = s.pk := rfl
@[simp] theorem State.setTeam_m (k : Nat) (y : Team) : (s.setTeam k y).m = s.m := rfl
@[simp] theorem State.setTeam_o (k : Nat) (y : Team) : (s.setTeam k y).o = s.o := rfl
@[simp] theorem State.setTeam_x_waves (k : Nat) (y : Team) : (s.setTeam k y).x.waves = s.x.waves := rfl
@[simp] theorem State.setTeam_x_cores (k : Nat) (y : Team) : (s.setTeam k y).x.cores = s.x.cores := rfl
@[simp] theorem State.setTeam_x_grids (k : Nat) (y : Team) : (s.setTeam k y).x.grids = s.x.grids := rfl
@[simp] theorem State.setTeam_x_nextGrid (k : Nat) (y : Team) : (s.setTeam k y).x.nextGrid = s.x.nextGrid := rfl
@[simp] theorem State.setTeam_x_rrTenant (k : Nat) (y : Team) : (s.setTeam k y).x.rrTenant = s.x.rrTenant := rfl
@[simp] theorem State.setTeam_x_groups (k : Nat) (y : Team) : (s.setTeam k y).x.groups = s.x.groups := rfl
@[simp] theorem State.setTeam_x_tenants (k : Nat) (y : Team) : (s.setTeam k y).x.tenants = s.x.tenants := rfl
@[simp] theorem State.setTeam_wave (k : Nat) (y : Team) (j : Nat) : (s.setTeam k y).wave j = s.wave j := rfl
@[simp] theorem State.setTeam_core (k : Nat) (y : Team) (j : Nat) : (s.setTeam k y).core j = s.core j := rfl
@[simp] theorem State.setTeam_grid (k : Nat) (y : Team) (j : Nat) : (s.setTeam k y).grid j = s.grid j := rfl
@[simp] theorem State.setTeam_tenant (k : Nat) (y : Team) (j : Nat) : (s.setTeam k y).tenant j = s.tenant j := rfl
@[simp] theorem State.setTeam_op (k : Nat) (y : Team) (j : Nat) : (s.setTeam k y).op j = s.op j := rfl
@[simp] theorem State.setTeam_copy (k : Nat) (y : Team) (j : Nat) : (s.setTeam k y).copy j = s.copy j := rfl
@[simp] theorem State.setTeam_dev (k : Nat) (y : Team) (j : Nat) : (s.setTeam k y).dev j = s.dev j := rfl
@[simp] theorem State.setTeam_route (k : Nat) (y : Team) (j : Nat) : (s.setTeam k y).route j = s.route j := rfl
@[simp] theorem State.setTeam_port (k : Nat) (y : Team) (j : Nat) : (s.setTeam k y).port j = s.port j := rfl
@[simp] theorem State.setTeam_ctrl (k : Nat) (y : Team) (j : Nat) : (s.setTeam k y).ctrl j = s.ctrl j := rfl
@[simp] theorem State.setTeam_slice (k : Nat) (y : Team) (j : Nat) : (s.setTeam k y).slice j = s.slice j := rfl
theorem State.setTeam_team (k : Nat) (y : Team) (j : Nat) : (s.setTeam k y).team j = if j = k then y else s.team j := SMap.get_set _ _ _ _ _
@[simp] theorem State.setTeam_team_self (k : Nat) (y : Team) : (s.setTeam k y).team k = y := SMap.get_set_self _ _ _ _

/-! ### setCore -/

@[simp] theorem State.setCore_sch (k : Nat) (y : Core) : (s.setCore k y).sch = s.sch := rfl
@[simp] theorem State.setCore_reg (k : Nat) (y : Core) : (s.setCore k y).reg = s.reg := rfl
@[simp] theorem State.setCore_pk (k : Nat) (y : Core) : (s.setCore k y).pk = s.pk := rfl
@[simp] theorem State.setCore_m (k : Nat) (y : Core) : (s.setCore k y).m = s.m := rfl
@[simp] theorem State.setCore_o (k : Nat) (y : Core) : (s.setCore k y).o = s.o := rfl
@[simp] theorem State.setCore_x_waves (k : Nat) (y : Core) : (s.setCore k y).x.waves = s.x.waves := rfl
@[simp] theorem State.setCore_x_teams (k : Nat) (y : Core) : (s.setCore k y).x.teams = s.x.teams := rfl
@[simp] theorem State.setCore_x_grids (k : Nat) (y : Core) : (s.setCore k y).x.grids = s.x.grids := rfl
@[simp] theorem State.setCore_x_nextGrid (k : Nat) (y : Core) : (s.setCore k y).x.nextGrid = s.x.nextGrid := rfl
@[simp] theorem State.setCore_x_rrTenant (k : Nat) (y : Core) : (s.setCore k y).x.rrTenant = s.x.rrTenant := rfl
@[simp] theorem State.setCore_x_groups (k : Nat) (y : Core) : (s.setCore k y).x.groups = s.x.groups := rfl
@[simp] theorem State.setCore_x_tenants (k : Nat) (y : Core) : (s.setCore k y).x.tenants = s.x.tenants := rfl
@[simp] theorem State.setCore_wave (k : Nat) (y : Core) (j : Nat) : (s.setCore k y).wave j = s.wave j := rfl
@[simp] theorem State.setCore_team (k : Nat) (y : Core) (j : Nat) : (s.setCore k y).team j = s.team j := rfl
@[simp] theorem State.setCore_grid (k : Nat) (y : Core) (j : Nat) : (s.setCore k y).grid j = s.grid j := rfl
@[simp] theorem State.setCore_tenant (k : Nat) (y : Core) (j : Nat) : (s.setCore k y).tenant j = s.tenant j := rfl
@[simp] theorem State.setCore_op (k : Nat) (y : Core) (j : Nat) : (s.setCore k y).op j = s.op j := rfl
@[simp] theorem State.setCore_copy (k : Nat) (y : Core) (j : Nat) : (s.setCore k y).copy j = s.copy j := rfl
@[simp] theorem State.setCore_dev (k : Nat) (y : Core) (j : Nat) : (s.setCore k y).dev j = s.dev j := rfl
@[simp] theorem State.setCore_route (k : Nat) (y : Core) (j : Nat) : (s.setCore k y).route j = s.route j := rfl
@[simp] theorem State.setCore_port (k : Nat) (y : Core) (j : Nat) : (s.setCore k y).port j = s.port j := rfl
@[simp] theorem State.setCore_ctrl (k : Nat) (y : Core) (j : Nat) : (s.setCore k y).ctrl j = s.ctrl j := rfl
@[simp] theorem State.setCore_slice (k : Nat) (y : Core) (j : Nat) : (s.setCore k y).slice j = s.slice j := rfl
theorem State.setCore_core (k : Nat) (y : Core) (j : Nat) : (s.setCore k y).core j = if j = k then y else s.core j := SMap.get_set _ _ _ _ _
@[simp] theorem State.setCore_core_self (k : Nat) (y : Core) : (s.setCore k y).core k = y := SMap.get_set_self _ _ _ _

/-! ### setGrid -/

@[simp] theorem State.setGrid_sch (k : Nat) (y : Grid) : (s.setGrid k y).sch = s.sch := rfl
@[simp] theorem State.setGrid_reg (k : Nat) (y : Grid) : (s.setGrid k y).reg = s.reg := rfl
@[simp] theorem State.setGrid_pk (k : Nat) (y : Grid) : (s.setGrid k y).pk = s.pk := rfl
@[simp] theorem State.setGrid_m (k : Nat) (y : Grid) : (s.setGrid k y).m = s.m := rfl
@[simp] theorem State.setGrid_o (k : Nat) (y : Grid) : (s.setGrid k y).o = s.o := rfl
@[simp] theorem State.setGrid_x_waves (k : Nat) (y : Grid) : (s.setGrid k y).x.waves = s.x.waves := rfl
@[simp] theorem State.setGrid_x_teams (k : Nat) (y : Grid) : (s.setGrid k y).x.teams = s.x.teams := rfl
@[simp] theorem State.setGrid_x_cores (k : Nat) (y : Grid) : (s.setGrid k y).x.cores = s.x.cores := rfl
@[simp] theorem State.setGrid_x_nextGrid (k : Nat) (y : Grid) : (s.setGrid k y).x.nextGrid = s.x.nextGrid := rfl
@[simp] theorem State.setGrid_x_rrTenant (k : Nat) (y : Grid) : (s.setGrid k y).x.rrTenant = s.x.rrTenant := rfl
@[simp] theorem State.setGrid_x_groups (k : Nat) (y : Grid) : (s.setGrid k y).x.groups = s.x.groups := rfl
@[simp] theorem State.setGrid_x_tenants (k : Nat) (y : Grid) : (s.setGrid k y).x.tenants = s.x.tenants := rfl
@[simp] theorem State.setGrid_wave (k : Nat) (y : Grid) (j : Nat) : (s.setGrid k y).wave j = s.wave j := rfl
@[simp] theorem State.setGrid_team (k : Nat) (y : Grid) (j : Nat) : (s.setGrid k y).team j = s.team j := rfl
@[simp] theorem State.setGrid_core (k : Nat) (y : Grid) (j : Nat) : (s.setGrid k y).core j = s.core j := rfl
@[simp] theorem State.setGrid_tenant (k : Nat) (y : Grid) (j : Nat) : (s.setGrid k y).tenant j = s.tenant j := rfl
@[simp] theorem State.setGrid_op (k : Nat) (y : Grid) (j : Nat) : (s.setGrid k y).op j = s.op j := rfl
@[simp] theorem State.setGrid_copy (k : Nat) (y : Grid) (j : Nat) : (s.setGrid k y).copy j = s.copy j := rfl
@[simp] theorem State.setGrid_dev (k : Nat) (y : Grid) (j : Nat) : (s.setGrid k y).dev j = s.dev j := rfl
@[simp] theorem State.setGrid_route (k : Nat) (y : Grid) (j : Nat) : (s.setGrid k y).route j = s.route j := rfl
@[simp] theorem State.setGrid_port (k : Nat) (y : Grid) (j : Nat) : (s.setGrid k y).port j = s.port j := rfl
@[simp] theorem State.setGrid_ctrl (k : Nat) (y : Grid) (j : Nat) : (s.setGrid k y).ctrl j = s.ctrl j := rfl
@[simp] theorem State.setGrid_slice (k : Nat) (y : Grid) (j : Nat) : (s.setGrid k y).slice j = s.slice j := rfl
theorem State.setGrid_grid (k : Nat) (y : Grid) (j : Nat) : (s.setGrid k y).grid j = if j = k then y else s.grid j := SMap.get_set _ _ _ _ _
@[simp] theorem State.setGrid_grid_self (k : Nat) (y : Grid) : (s.setGrid k y).grid k = y := SMap.get_set_self _ _ _ _

/-! ### setTenant -/

@[simp] theorem State.setTenant_sch (k : Nat) (y : Tenant) : (s.setTenant k y).sch = s.sch := rfl
@[simp] theorem State.setTenant_reg (k : Nat) (y : Tenant) : (s.setTenant k y).reg = s.reg := rfl
@[simp] theorem State.setTenant_pk (k : Nat) (y : Tenant) : (s.setTenant k y).pk = s.pk := rfl
@[simp] theorem State.setTenant_m (k : Nat) (y : Tenant) : (s.setTenant k y).m = s.m := rfl
@[simp] theorem State.setTenant_o (k : Nat) (y : Tenant) : (s.setTenant k y).o = s.o := rfl
@[simp] theorem State.setTenant_x_waves (k : Nat) (y : Tenant) : (s.setTenant k y).x.waves = s.x.waves := rfl
@[simp] theorem State.setTenant_x_teams (k : Nat) (y : Tenant) : (s.setTenant k y).x.teams = s.x.teams := rfl
@[simp] theorem State.setTenant_x_cores (k : Nat) (y : Tenant) : (s.setTenant k y).x.cores = s.x.cores := rfl
@[simp] theorem State.setTenant_x_grids (k : Nat) (y : Tenant) : (s.setTenant k y).x.grids = s.x.grids := rfl
@[simp] theorem State.setTenant_x_nextGrid (k : Nat) (y : Tenant) : (s.setTenant k y).x.nextGrid = s.x.nextGrid := rfl
@[simp] theorem State.setTenant_x_rrTenant (k : Nat) (y : Tenant) : (s.setTenant k y).x.rrTenant = s.x.rrTenant := rfl
@[simp] theorem State.setTenant_x_groups (k : Nat) (y : Tenant) : (s.setTenant k y).x.groups = s.x.groups := rfl
@[simp] theorem State.setTenant_wave (k : Nat) (y : Tenant) (j : Nat) : (s.setTenant k y).wave j = s.wave j := rfl
@[simp] theorem State.setTenant_team (k : Nat) (y : Tenant) (j : Nat) : (s.setTenant k y).team j = s.team j := rfl
@[simp] theorem State.setTenant_core (k : Nat) (y : Tenant) (j : Nat) : (s.setTenant k y).core j = s.core j := rfl
@[simp] theorem State.setTenant_grid (k : Nat) (y : Tenant) (j : Nat) : (s.setTenant k y).grid j = s.grid j := rfl
@[simp] theorem State.setTenant_op (k : Nat) (y : Tenant) (j : Nat) : (s.setTenant k y).op j = s.op j := rfl
@[simp] theorem State.setTenant_copy (k : Nat) (y : Tenant) (j : Nat) : (s.setTenant k y).copy j = s.copy j := rfl
@[simp] theorem State.setTenant_dev (k : Nat) (y : Tenant) (j : Nat) : (s.setTenant k y).dev j = s.dev j := rfl
@[simp] theorem State.setTenant_route (k : Nat) (y : Tenant) (j : Nat) : (s.setTenant k y).route j = s.route j := rfl
@[simp] theorem State.setTenant_port (k : Nat) (y : Tenant) (j : Nat) : (s.setTenant k y).port j = s.port j := rfl
@[simp] theorem State.setTenant_ctrl (k : Nat) (y : Tenant) (j : Nat) : (s.setTenant k y).ctrl j = s.ctrl j := rfl
@[simp] theorem State.setTenant_slice (k : Nat) (y : Tenant) (j : Nat) : (s.setTenant k y).slice j = s.slice j := rfl
theorem State.setTenant_tenant (k : Nat) (y : Tenant) (j : Nat) : (s.setTenant k y).tenant j = if j = k then y else s.tenant j := SMap.get_set _ _ _ _ _
@[simp] theorem State.setTenant_tenant_self (k : Nat) (y : Tenant) : (s.setTenant k y).tenant k = y := SMap.get_set_self _ _ _ _

/-! ### setOp -/

@[simp] theorem State.setOp_sch (k : Nat) (y : Op) : (s.setOp k y).sch = s.sch := rfl
@[simp] theorem State.setOp_x (k : Nat) (y : Op) : (s.setOp k y).x = s.x := rfl
@[simp] theorem State.setOp_reg (k : Nat) (y : Op) : (s.setOp k y).reg = s.reg := rfl
@[simp] theorem State.setOp_pk (k : Nat) (y : Op) : (s.setOp k y).pk = s.pk := rfl
@[simp] theorem State.setOp_m (k : Nat) (y : Op) : (s.setOp k y).m = s.m := rfl
@[simp] theorem State.setOp_o_next (k : Nat) (y : Op) : (s.setOp k y).o.next = s.o.next := rfl
@[simp] theorem State.setOp_o_copies (k : Nat) (y : Op) : (s.setOp k y).o.copies = s.o.copies := rfl
@[simp] theorem State.setOp_o_held (k : Nat) (y : Op) : (s.setOp k y).o.held = s.o.held := rfl
@[simp] theorem State.setOp_wave (k : Nat) (y : Op) (j : Nat) : (s.setOp k y).wave j = s.wave j := rfl
@[simp] theorem State.setOp_team (k : Nat) (y : Op) (j : Nat) : (s.setOp k y).team j = s.team j := rfl
@[simp] theorem State.setOp_core (k : Nat) (y : Op) (j : Nat) : (s.setOp k y).core j = s.core j := rfl
@[simp] theorem State.setOp_grid (k : Nat) (y : Op) (j : Nat) : (s.setOp k y).grid j = s.grid j := rfl
@[simp] theorem State.setOp_tenant (k : Nat) (y : Op) (j : Nat) : (s.setOp k y).tenant j = s.tenant j := rfl
@[simp] theorem State.setOp_copy (k : Nat) (y : Op) (j : Nat) : (s.setOp k y).copy j = s.copy j := rfl
@[simp] theorem State.setOp_dev (k : Nat) (y : Op) (j : Nat) : (s.setOp k y).dev j = s.dev j := rfl
@[simp] theorem State.setOp_route (k : Nat) (y : Op) (j : Nat) : (s.setOp k y).route j = s.route j := rfl
@[simp] theorem State.setOp_port (k : Nat) (y : Op) (j : Nat) : (s.setOp k y).port j = s.port j := rfl
@[simp] theorem State.setOp_ctrl (k : Nat) (y : Op) (j : Nat) : (s.setOp k y).ctrl j = s.ctrl j := rfl
@[simp] theorem State.setOp_slice (k : Nat) (y : Op) (j : Nat) : (s.setOp k y).slice j = s.slice j := rfl
theorem State.setOp_op (k : Nat) (y : Op) (j : Nat) : (s.setOp k y).op j = if j = k then y else s.op j := SMap.get_set _ _ _ _ _
@[simp] theorem State.setOp_op_self (k : Nat) (y : Op) : (s.setOp k y).op k = y := SMap.get_set_self _ _ _ _

/-! ### setCopy -/

@[simp] theorem State.setCopy_sch (k : Nat) (y : Copy) : (s.setCopy k y).sch = s.sch := rfl
@[simp] theorem State.setCopy_x (k : Nat) (y : Copy) : (s.setCopy k y).x = s.x := rfl
@[simp] theorem State.setCopy_reg (k : Nat) (y : Copy) : (s.setCopy k y).reg = s.reg := rfl
@[simp] theorem State.setCopy_pk (k : Nat) (y : Copy) : (s.setCopy k y).pk = s.pk := rfl
@[simp] theorem State.setCopy_m (k : Nat) (y : Copy) : (s.setCopy k y).m = s.m := rfl
@[simp] theorem State.setCopy_o_ops (k : Nat) (y : Copy) : (s.setCopy k y).o.ops = s.o.ops := rfl
@[simp] theorem State.setCopy_o_next (k : Nat) (y : Copy) : (s.setCopy k y).o.next = s.o.next := rfl
@[simp] theorem State.setCopy_o_held (k : Nat) (y : Copy) : (s.setCopy k y).o.held = s.o.held := rfl
@[simp] theorem State.setCopy_wave (k : Nat) (y : Copy) (j : Nat) : (s.setCopy k y).wave j = s.wave j := rfl
@[simp] theorem State.setCopy_team (k : Nat) (y : Copy) (j : Nat) : (s.setCopy k y).team j = s.team j := rfl
@[simp] theorem State.setCopy_core (k : Nat) (y : Copy) (j : Nat) : (s.setCopy k y).core j = s.core j := rfl
@[simp] theorem State.setCopy_grid (k : Nat) (y : Copy) (j : Nat) : (s.setCopy k y).grid j = s.grid j := rfl
@[simp] theorem State.setCopy_tenant (k : Nat) (y : Copy) (j : Nat) : (s.setCopy k y).tenant j = s.tenant j := rfl
@[simp] theorem State.setCopy_op (k : Nat) (y : Copy) (j : Nat) : (s.setCopy k y).op j = s.op j := rfl
@[simp] theorem State.setCopy_dev (k : Nat) (y : Copy) (j : Nat) : (s.setCopy k y).dev j = s.dev j := rfl
@[simp] theorem State.setCopy_route (k : Nat) (y : Copy) (j : Nat) : (s.setCopy k y).route j = s.route j := rfl
@[simp] theorem State.setCopy_port (k : Nat) (y : Copy) (j : Nat) : (s.setCopy k y).port j = s.port j := rfl
@[simp] theorem State.setCopy_ctrl (k : Nat) (y : Copy) (j : Nat) : (s.setCopy k y).ctrl j = s.ctrl j := rfl
@[simp] theorem State.setCopy_slice (k : Nat) (y : Copy) (j : Nat) : (s.setCopy k y).slice j = s.slice j := rfl
theorem State.setCopy_copy (k : Nat) (y : Copy) (j : Nat) : (s.setCopy k y).copy j = if j = k then y else s.copy j := SMap.get_set _ _ _ _ _
@[simp] theorem State.setCopy_copy_self (k : Nat) (y : Copy) : (s.setCopy k y).copy k = y := SMap.get_set_self _ _ _ _

/-! ### setDev -/

@[simp] theorem State.setDev_sch (k : Nat) (y : Word) : (s.setDev k y).sch = s.sch := rfl
@[simp] theorem State.setDev_x (k : Nat) (y : Word) : (s.setDev k y).x = s.x := rfl
@[simp] theorem State.setDev_pk (k : Nat) (y : Word) : (s.setDev k y).pk = s.pk := rfl
@[simp] theorem State.setDev_m (k : Nat) (y : Word) : (s.setDev k y).m = s.m := rfl
@[simp] theorem State.setDev_o (k : Nat) (y : Word) : (s.setDev k y).o = s.o := rfl
@[simp] theorem State.setDev_reg_chkkey (k : Nat) (y : Word) : (s.setDev k y).reg.chkkey = s.reg.chkkey := rfl
@[simp] theorem State.setDev_reg_bsnap (k : Nat) (y : Word) : (s.setDev k y).reg.bsnap = s.reg.bsnap := rfl
@[simp] theorem State.setDev_reg_blatch (k : Nat) (y : Word) : (s.setDev k y).reg.blatch = s.reg.blatch := rfl
@[simp] theorem State.setDev_reg_firArm (k : Nat) (y : Word) : (s.setDev k y).reg.firArm = s.reg.firArm := rfl
@[simp] theorem State.setDev_reg_firFired (k : Nat) (y : Word) : (s.setDev k y).reg.firFired = s.reg.firFired := rfl
@[simp] theorem State.setDev_reg_barData (k : Nat) (y : Word) : (s.setDev k y).reg.barData = s.reg.barData := rfl
@[simp] theorem State.setDev_reg_rows (k : Nat) (y : Word) : (s.setDev k y).reg.rows = s.reg.rows := rfl
@[simp] theorem State.setDev_reg_maps (k : Nat) (y : Word) : (s.setDev k y).reg.maps = s.reg.maps := rfl
@[simp] theorem State.setDev_reg_mapLoad (k : Nat) (y : Word) : (s.setDev k y).reg.mapLoad = s.reg.mapLoad := rfl
@[simp] theorem State.setDev_reg_meas (k : Nat) (y : Word) : (s.setDev k y).reg.meas = s.reg.meas := rfl
@[simp] theorem State.setDev_reg_measd (k : Nat) (y : Word) : (s.setDev k y).reg.measd = s.reg.measd := rfl
@[simp] theorem State.setDev_reg_rtbl (k : Nat) (y : Word) : (s.setDev k y).reg.rtbl = s.reg.rtbl := rfl
@[simp] theorem State.setDev_reg_saving (k : Nat) (y : Word) : (s.setDev k y).reg.saving = s.reg.saving := rfl
@[simp] theorem State.setDev_reg_restoring (k : Nat) (y : Word) : (s.setDev k y).reg.restoring = s.reg.restoring := rfl
@[simp] theorem State.setDev_reg_warm (k : Nat) (y : Word) : (s.setDev k y).reg.warm = s.reg.warm := rfl
@[simp] theorem State.setDev_reg_tlbBusy (k : Nat) (y : Word) : (s.setDev k y).reg.tlbBusy = s.reg.tlbBusy := rfl
@[simp] theorem State.setDev_wave (k : Nat) (y : Word) (j : Nat) : (s.setDev k y).wave j = s.wave j := rfl
@[simp] theorem State.setDev_team (k : Nat) (y : Word) (j : Nat) : (s.setDev k y).team j = s.team j := rfl
@[simp] theorem State.setDev_core (k : Nat) (y : Word) (j : Nat) : (s.setDev k y).core j = s.core j := rfl
@[simp] theorem State.setDev_grid (k : Nat) (y : Word) (j : Nat) : (s.setDev k y).grid j = s.grid j := rfl
@[simp] theorem State.setDev_tenant (k : Nat) (y : Word) (j : Nat) : (s.setDev k y).tenant j = s.tenant j := rfl
@[simp] theorem State.setDev_op (k : Nat) (y : Word) (j : Nat) : (s.setDev k y).op j = s.op j := rfl
@[simp] theorem State.setDev_copy (k : Nat) (y : Word) (j : Nat) : (s.setDev k y).copy j = s.copy j := rfl
@[simp] theorem State.setDev_route (k : Nat) (y : Word) (j : Nat) : (s.setDev k y).route j = s.route j := rfl
@[simp] theorem State.setDev_port (k : Nat) (y : Word) (j : Nat) : (s.setDev k y).port j = s.port j := rfl
@[simp] theorem State.setDev_ctrl (k : Nat) (y : Word) (j : Nat) : (s.setDev k y).ctrl j = s.ctrl j := rfl
@[simp] theorem State.setDev_slice (k : Nat) (y : Word) (j : Nat) : (s.setDev k y).slice j = s.slice j := rfl
theorem State.setDev_dev (k : Nat) (y : Word) (j : Nat) : (s.setDev k y).dev j = if j = k then y else s.dev j := SMap.get_set _ _ _ _ _
@[simp] theorem State.setDev_dev_self (k : Nat) (y : Word) : (s.setDev k y).dev k = y := SMap.get_set_self _ _ _ _

/-! ### setRoute -/

@[simp] theorem State.setRoute_sch (k : Nat) (y : Route) : (s.setRoute k y).sch = s.sch := rfl
@[simp] theorem State.setRoute_x (k : Nat) (y : Route) : (s.setRoute k y).x = s.x := rfl
@[simp] theorem State.setRoute_reg (k : Nat) (y : Route) : (s.setRoute k y).reg = s.reg := rfl
@[simp] theorem State.setRoute_m (k : Nat) (y : Route) : (s.setRoute k y).m = s.m := rfl
@[simp] theorem State.setRoute_o (k : Nat) (y : Route) : (s.setRoute k y).o = s.o := rfl
@[simp] theorem State.setRoute_pk_ports (k : Nat) (y : Route) : (s.setRoute k y).pk.ports = s.pk.ports := rfl
@[simp] theorem State.setRoute_pk_links (k : Nat) (y : Route) : (s.setRoute k y).pk.links = s.pk.links := rfl
@[simp] theorem State.setRoute_pk_retries (k : Nat) (y : Route) : (s.setRoute k y).pk.retries = s.pk.retries := rfl
@[simp] theorem State.setRoute_pk_ctrls (k : Nat) (y : Route) : (s.setRoute k y).pk.ctrls = s.pk.ctrls := rfl
@[simp] theorem State.setRoute_pk_slices (k : Nat) (y : Route) : (s.setRoute k y).pk.slices = s.pk.slices := rfl
@[simp] theorem State.setRoute_pk_remap (k : Nat) (y : Route) : (s.setRoute k y).pk.remap = s.pk.remap := rfl
@[simp] theorem State.setRoute_pk_powers (k : Nat) (y : Route) : (s.setRoute k y).pk.powers = s.pk.powers := rfl
@[simp] theorem State.setRoute_pk_powerAt (k : Nat) (y : Route) : (s.setRoute k y).pk.powerAt = s.pk.powerAt := rfl
@[simp] theorem State.setRoute_pk_newF (k : Nat) (y : Route) : (s.setRoute k y).pk.newF = s.pk.newF := rfl
@[simp] theorem State.setRoute_pk_arbLt (k : Nat) (y : Route) : (s.setRoute k y).pk.arbLt = s.pk.arbLt := rfl
@[simp] theorem State.setRoute_pk_period (k : Nat) (y : Route) : (s.setRoute k y).pk.period = s.pk.period := rfl
@[simp] theorem State.setRoute_pk_turns (k : Nat) (y : Route) : (s.setRoute k y).pk.turns = s.pk.turns := rfl
@[simp] theorem State.setRoute_pk_pub (k : Nat) (y : Route) : (s.setRoute k y).pk.pub = s.pk.pub := rfl
@[simp] theorem State.setRoute_pk_rebase (k : Nat) (y : Route) : (s.setRoute k y).pk.rebase = s.pk.rebase := rfl
@[simp] theorem State.setRoute_pk_boot (k : Nat) (y : Route) : (s.setRoute k y).pk.boot = s.pk.boot := rfl
@[simp] theorem State.setRoute_pk_rom (k : Nat) (y : Route) : (s.setRoute k y).pk.rom = s.pk.rom := rfl
@[simp] theorem State.setRoute_pk_running (k : Nat) (y : Route) : (s.setRoute k y).pk.running = s.pk.running := rfl
@[simp] theorem State.setRoute_pk_quoteOut (k : Nat) (y : Route) : (s.setRoute k y).pk.quoteOut = s.pk.quoteOut := rfl
@[simp] theorem State.setRoute_wave (k : Nat) (y : Route) (j : Nat) : (s.setRoute k y).wave j = s.wave j := rfl
@[simp] theorem State.setRoute_team (k : Nat) (y : Route) (j : Nat) : (s.setRoute k y).team j = s.team j := rfl
@[simp] theorem State.setRoute_core (k : Nat) (y : Route) (j : Nat) : (s.setRoute k y).core j = s.core j := rfl
@[simp] theorem State.setRoute_grid (k : Nat) (y : Route) (j : Nat) : (s.setRoute k y).grid j = s.grid j := rfl
@[simp] theorem State.setRoute_tenant (k : Nat) (y : Route) (j : Nat) : (s.setRoute k y).tenant j = s.tenant j := rfl
@[simp] theorem State.setRoute_op (k : Nat) (y : Route) (j : Nat) : (s.setRoute k y).op j = s.op j := rfl
@[simp] theorem State.setRoute_copy (k : Nat) (y : Route) (j : Nat) : (s.setRoute k y).copy j = s.copy j := rfl
@[simp] theorem State.setRoute_dev (k : Nat) (y : Route) (j : Nat) : (s.setRoute k y).dev j = s.dev j := rfl
@[simp] theorem State.setRoute_port (k : Nat) (y : Route) (j : Nat) : (s.setRoute k y).port j = s.port j := rfl
@[simp] theorem State.setRoute_ctrl (k : Nat) (y : Route) (j : Nat) : (s.setRoute k y).ctrl j = s.ctrl j := rfl
@[simp] theorem State.setRoute_slice (k : Nat) (y : Route) (j : Nat) : (s.setRoute k y).slice j = s.slice j := rfl
theorem State.setRoute_route (k : Nat) (y : Route) (j : Nat) : (s.setRoute k y).route j = if j = k then y else s.route j := SMap.get_set _ _ _ _ _
@[simp] theorem State.setRoute_route_self (k : Nat) (y : Route) : (s.setRoute k y).route k = y := SMap.get_set_self _ _ _ _

/-! ### setPort -/

@[simp] theorem State.setPort_sch (k : Nat) (y : Port) : (s.setPort k y).sch = s.sch := rfl
@[simp] theorem State.setPort_x (k : Nat) (y : Port) : (s.setPort k y).x = s.x := rfl
@[simp] theorem State.setPort_reg (k : Nat) (y : Port) : (s.setPort k y).reg = s.reg := rfl
@[simp] theorem State.setPort_m (k : Nat) (y : Port) : (s.setPort k y).m = s.m := rfl
@[simp] theorem State.setPort_o (k : Nat) (y : Port) : (s.setPort k y).o = s.o := rfl
@[simp] theorem State.setPort_pk_routes (k : Nat) (y : Port) : (s.setPort k y).pk.routes = s.pk.routes := rfl
@[simp] theorem State.setPort_pk_links (k : Nat) (y : Port) : (s.setPort k y).pk.links = s.pk.links := rfl
@[simp] theorem State.setPort_pk_retries (k : Nat) (y : Port) : (s.setPort k y).pk.retries = s.pk.retries := rfl
@[simp] theorem State.setPort_pk_ctrls (k : Nat) (y : Port) : (s.setPort k y).pk.ctrls = s.pk.ctrls := rfl
@[simp] theorem State.setPort_pk_slices (k : Nat) (y : Port) : (s.setPort k y).pk.slices = s.pk.slices := rfl
@[simp] theorem State.setPort_pk_remap (k : Nat) (y : Port) : (s.setPort k y).pk.remap = s.pk.remap := rfl
@[simp] theorem State.setPort_pk_powers (k : Nat) (y : Port) : (s.setPort k y).pk.powers = s.pk.powers := rfl
@[simp] theorem State.setPort_pk_powerAt (k : Nat) (y : Port) : (s.setPort k y).pk.powerAt = s.pk.powerAt := rfl
@[simp] theorem State.setPort_pk_newF (k : Nat) (y : Port) : (s.setPort k y).pk.newF = s.pk.newF := rfl
@[simp] theorem State.setPort_pk_arbLt (k : Nat) (y : Port) : (s.setPort k y).pk.arbLt = s.pk.arbLt := rfl
@[simp] theorem State.setPort_pk_period (k : Nat) (y : Port) : (s.setPort k y).pk.period = s.pk.period := rfl
@[simp] theorem State.setPort_pk_turns (k : Nat) (y : Port) : (s.setPort k y).pk.turns = s.pk.turns := rfl
@[simp] theorem State.setPort_pk_pub (k : Nat) (y : Port) : (s.setPort k y).pk.pub = s.pk.pub := rfl
@[simp] theorem State.setPort_pk_rebase (k : Nat) (y : Port) : (s.setPort k y).pk.rebase = s.pk.rebase := rfl
@[simp] theorem State.setPort_pk_boot (k : Nat) (y : Port) : (s.setPort k y).pk.boot = s.pk.boot := rfl
@[simp] theorem State.setPort_pk_rom (k : Nat) (y : Port) : (s.setPort k y).pk.rom = s.pk.rom := rfl
@[simp] theorem State.setPort_pk_running (k : Nat) (y : Port) : (s.setPort k y).pk.running = s.pk.running := rfl
@[simp] theorem State.setPort_pk_quoteOut (k : Nat) (y : Port) : (s.setPort k y).pk.quoteOut = s.pk.quoteOut := rfl
@[simp] theorem State.setPort_wave (k : Nat) (y : Port) (j : Nat) : (s.setPort k y).wave j = s.wave j := rfl
@[simp] theorem State.setPort_team (k : Nat) (y : Port) (j : Nat) : (s.setPort k y).team j = s.team j := rfl
@[simp] theorem State.setPort_core (k : Nat) (y : Port) (j : Nat) : (s.setPort k y).core j = s.core j := rfl
@[simp] theorem State.setPort_grid (k : Nat) (y : Port) (j : Nat) : (s.setPort k y).grid j = s.grid j := rfl
@[simp] theorem State.setPort_tenant (k : Nat) (y : Port) (j : Nat) : (s.setPort k y).tenant j = s.tenant j := rfl
@[simp] theorem State.setPort_op (k : Nat) (y : Port) (j : Nat) : (s.setPort k y).op j = s.op j := rfl
@[simp] theorem State.setPort_copy (k : Nat) (y : Port) (j : Nat) : (s.setPort k y).copy j = s.copy j := rfl
@[simp] theorem State.setPort_dev (k : Nat) (y : Port) (j : Nat) : (s.setPort k y).dev j = s.dev j := rfl
@[simp] theorem State.setPort_route (k : Nat) (y : Port) (j : Nat) : (s.setPort k y).route j = s.route j := rfl
@[simp] theorem State.setPort_ctrl (k : Nat) (y : Port) (j : Nat) : (s.setPort k y).ctrl j = s.ctrl j := rfl
@[simp] theorem State.setPort_slice (k : Nat) (y : Port) (j : Nat) : (s.setPort k y).slice j = s.slice j := rfl
theorem State.setPort_port (k : Nat) (y : Port) (j : Nat) : (s.setPort k y).port j = if j = k then y else s.port j := SMap.get_set _ _ _ _ _
@[simp] theorem State.setPort_port_self (k : Nat) (y : Port) : (s.setPort k y).port k = y := SMap.get_set_self _ _ _ _

/-! ### setCtrl -/

@[simp] theorem State.setCtrl_sch (k : Nat) (y : Ctrl) : (s.setCtrl k y).sch = s.sch := rfl
@[simp] theorem State.setCtrl_x (k : Nat) (y : Ctrl) : (s.setCtrl k y).x = s.x := rfl
@[simp] theorem State.setCtrl_reg (k : Nat) (y : Ctrl) : (s.setCtrl k y).reg = s.reg := rfl
@[simp] theorem State.setCtrl_m (k : Nat) (y : Ctrl) : (s.setCtrl k y).m = s.m := rfl
@[simp] theorem State.setCtrl_o (k : Nat) (y : Ctrl) : (s.setCtrl k y).o = s.o := rfl
@[simp] theorem State.setCtrl_pk_routes (k : Nat) (y : Ctrl) : (s.setCtrl k y).pk.routes = s.pk.routes := rfl
@[simp] theorem State.setCtrl_pk_ports (k : Nat) (y : Ctrl) : (s.setCtrl k y).pk.ports = s.pk.ports := rfl
@[simp] theorem State.setCtrl_pk_links (k : Nat) (y : Ctrl) : (s.setCtrl k y).pk.links = s.pk.links := rfl
@[simp] theorem State.setCtrl_pk_retries (k : Nat) (y : Ctrl) : (s.setCtrl k y).pk.retries = s.pk.retries := rfl
@[simp] theorem State.setCtrl_pk_slices (k : Nat) (y : Ctrl) : (s.setCtrl k y).pk.slices = s.pk.slices := rfl
@[simp] theorem State.setCtrl_pk_remap (k : Nat) (y : Ctrl) : (s.setCtrl k y).pk.remap = s.pk.remap := rfl
@[simp] theorem State.setCtrl_pk_powers (k : Nat) (y : Ctrl) : (s.setCtrl k y).pk.powers = s.pk.powers := rfl
@[simp] theorem State.setCtrl_pk_powerAt (k : Nat) (y : Ctrl) : (s.setCtrl k y).pk.powerAt = s.pk.powerAt := rfl
@[simp] theorem State.setCtrl_pk_newF (k : Nat) (y : Ctrl) : (s.setCtrl k y).pk.newF = s.pk.newF := rfl
@[simp] theorem State.setCtrl_pk_arbLt (k : Nat) (y : Ctrl) : (s.setCtrl k y).pk.arbLt = s.pk.arbLt := rfl
@[simp] theorem State.setCtrl_pk_period (k : Nat) (y : Ctrl) : (s.setCtrl k y).pk.period = s.pk.period := rfl
@[simp] theorem State.setCtrl_pk_turns (k : Nat) (y : Ctrl) : (s.setCtrl k y).pk.turns = s.pk.turns := rfl
@[simp] theorem State.setCtrl_pk_pub (k : Nat) (y : Ctrl) : (s.setCtrl k y).pk.pub = s.pk.pub := rfl
@[simp] theorem State.setCtrl_pk_rebase (k : Nat) (y : Ctrl) : (s.setCtrl k y).pk.rebase = s.pk.rebase := rfl
@[simp] theorem State.setCtrl_pk_boot (k : Nat) (y : Ctrl) : (s.setCtrl k y).pk.boot = s.pk.boot := rfl
@[simp] theorem State.setCtrl_pk_rom (k : Nat) (y : Ctrl) : (s.setCtrl k y).pk.rom = s.pk.rom := rfl
@[simp] theorem State.setCtrl_pk_running (k : Nat) (y : Ctrl) : (s.setCtrl k y).pk.running = s.pk.running := rfl
@[simp] theorem State.setCtrl_pk_quoteOut (k : Nat) (y : Ctrl) : (s.setCtrl k y).pk.quoteOut = s.pk.quoteOut := rfl
@[simp] theorem State.setCtrl_wave (k : Nat) (y : Ctrl) (j : Nat) : (s.setCtrl k y).wave j = s.wave j := rfl
@[simp] theorem State.setCtrl_team (k : Nat) (y : Ctrl) (j : Nat) : (s.setCtrl k y).team j = s.team j := rfl
@[simp] theorem State.setCtrl_core (k : Nat) (y : Ctrl) (j : Nat) : (s.setCtrl k y).core j = s.core j := rfl
@[simp] theorem State.setCtrl_grid (k : Nat) (y : Ctrl) (j : Nat) : (s.setCtrl k y).grid j = s.grid j := rfl
@[simp] theorem State.setCtrl_tenant (k : Nat) (y : Ctrl) (j : Nat) : (s.setCtrl k y).tenant j = s.tenant j := rfl
@[simp] theorem State.setCtrl_op (k : Nat) (y : Ctrl) (j : Nat) : (s.setCtrl k y).op j = s.op j := rfl
@[simp] theorem State.setCtrl_copy (k : Nat) (y : Ctrl) (j : Nat) : (s.setCtrl k y).copy j = s.copy j := rfl
@[simp] theorem State.setCtrl_dev (k : Nat) (y : Ctrl) (j : Nat) : (s.setCtrl k y).dev j = s.dev j := rfl
@[simp] theorem State.setCtrl_route (k : Nat) (y : Ctrl) (j : Nat) : (s.setCtrl k y).route j = s.route j := rfl
@[simp] theorem State.setCtrl_port (k : Nat) (y : Ctrl) (j : Nat) : (s.setCtrl k y).port j = s.port j := rfl
@[simp] theorem State.setCtrl_slice (k : Nat) (y : Ctrl) (j : Nat) : (s.setCtrl k y).slice j = s.slice j := rfl
theorem State.setCtrl_ctrl (k : Nat) (y : Ctrl) (j : Nat) : (s.setCtrl k y).ctrl j = if j = k then y else s.ctrl j := SMap.get_set _ _ _ _ _
@[simp] theorem State.setCtrl_ctrl_self (k : Nat) (y : Ctrl) : (s.setCtrl k y).ctrl k = y := SMap.get_set_self _ _ _ _

/-! ### setSlice -/

@[simp] theorem State.setSlice_sch (k : Nat) (y : Slice) : (s.setSlice k y).sch = s.sch := rfl
@[simp] theorem State.setSlice_x (k : Nat) (y : Slice) : (s.setSlice k y).x = s.x := rfl
@[simp] theorem State.setSlice_reg (k : Nat) (y : Slice) : (s.setSlice k y).reg = s.reg := rfl
@[simp] theorem State.setSlice_m (k : Nat) (y : Slice) : (s.setSlice k y).m = s.m := rfl
@[simp] theorem State.setSlice_o (k : Nat) (y : Slice) : (s.setSlice k y).o = s.o := rfl
@[simp] theorem State.setSlice_pk_routes (k : Nat) (y : Slice) : (s.setSlice k y).pk.routes = s.pk.routes := rfl
@[simp] theorem State.setSlice_pk_ports (k : Nat) (y : Slice) : (s.setSlice k y).pk.ports = s.pk.ports := rfl
@[simp] theorem State.setSlice_pk_links (k : Nat) (y : Slice) : (s.setSlice k y).pk.links = s.pk.links := rfl
@[simp] theorem State.setSlice_pk_retries (k : Nat) (y : Slice) : (s.setSlice k y).pk.retries = s.pk.retries := rfl
@[simp] theorem State.setSlice_pk_ctrls (k : Nat) (y : Slice) : (s.setSlice k y).pk.ctrls = s.pk.ctrls := rfl
@[simp] theorem State.setSlice_pk_remap (k : Nat) (y : Slice) : (s.setSlice k y).pk.remap = s.pk.remap := rfl
@[simp] theorem State.setSlice_pk_powers (k : Nat) (y : Slice) : (s.setSlice k y).pk.powers = s.pk.powers := rfl
@[simp] theorem State.setSlice_pk_powerAt (k : Nat) (y : Slice) : (s.setSlice k y).pk.powerAt = s.pk.powerAt := rfl
@[simp] theorem State.setSlice_pk_newF (k : Nat) (y : Slice) : (s.setSlice k y).pk.newF = s.pk.newF := rfl
@[simp] theorem State.setSlice_pk_arbLt (k : Nat) (y : Slice) : (s.setSlice k y).pk.arbLt = s.pk.arbLt := rfl
@[simp] theorem State.setSlice_pk_period (k : Nat) (y : Slice) : (s.setSlice k y).pk.period = s.pk.period := rfl
@[simp] theorem State.setSlice_pk_turns (k : Nat) (y : Slice) : (s.setSlice k y).pk.turns = s.pk.turns := rfl
@[simp] theorem State.setSlice_pk_pub (k : Nat) (y : Slice) : (s.setSlice k y).pk.pub = s.pk.pub := rfl
@[simp] theorem State.setSlice_pk_rebase (k : Nat) (y : Slice) : (s.setSlice k y).pk.rebase = s.pk.rebase := rfl
@[simp] theorem State.setSlice_pk_boot (k : Nat) (y : Slice) : (s.setSlice k y).pk.boot = s.pk.boot := rfl
@[simp] theorem State.setSlice_pk_rom (k : Nat) (y : Slice) : (s.setSlice k y).pk.rom = s.pk.rom := rfl
@[simp] theorem State.setSlice_pk_running (k : Nat) (y : Slice) : (s.setSlice k y).pk.running = s.pk.running := rfl
@[simp] theorem State.setSlice_pk_quoteOut (k : Nat) (y : Slice) : (s.setSlice k y).pk.quoteOut = s.pk.quoteOut := rfl
@[simp] theorem State.setSlice_wave (k : Nat) (y : Slice) (j : Nat) : (s.setSlice k y).wave j = s.wave j := rfl
@[simp] theorem State.setSlice_team (k : Nat) (y : Slice) (j : Nat) : (s.setSlice k y).team j = s.team j := rfl
@[simp] theorem State.setSlice_core (k : Nat) (y : Slice) (j : Nat) : (s.setSlice k y).core j = s.core j := rfl
@[simp] theorem State.setSlice_grid (k : Nat) (y : Slice) (j : Nat) : (s.setSlice k y).grid j = s.grid j := rfl
@[simp] theorem State.setSlice_tenant (k : Nat) (y : Slice) (j : Nat) : (s.setSlice k y).tenant j = s.tenant j := rfl
@[simp] theorem State.setSlice_op (k : Nat) (y : Slice) (j : Nat) : (s.setSlice k y).op j = s.op j := rfl
@[simp] theorem State.setSlice_copy (k : Nat) (y : Slice) (j : Nat) : (s.setSlice k y).copy j = s.copy j := rfl
@[simp] theorem State.setSlice_dev (k : Nat) (y : Slice) (j : Nat) : (s.setSlice k y).dev j = s.dev j := rfl
@[simp] theorem State.setSlice_route (k : Nat) (y : Slice) (j : Nat) : (s.setSlice k y).route j = s.route j := rfl
@[simp] theorem State.setSlice_port (k : Nat) (y : Slice) (j : Nat) : (s.setSlice k y).port j = s.port j := rfl
@[simp] theorem State.setSlice_ctrl (k : Nat) (y : Slice) (j : Nat) : (s.setSlice k y).ctrl j = s.ctrl j := rfl
theorem State.setSlice_slice (k : Nat) (y : Slice) (j : Nat) : (s.setSlice k y).slice j = if j = k then y else s.slice j := SMap.get_set _ _ _ _ _
@[simp] theorem State.setSlice_slice_self (k : Nat) (y : Slice) : (s.setSlice k y).slice k = y := SMap.get_set_self _ _ _ _

/-! ### Wave.setV -/

@[simp] theorem Wave.setV_resident (n l : Nat) (y : Word) : (x.setV n l y).resident = x.resident := rfl
@[simp] theorem Wave.setV_grid (n l : Nat) (y : Word) : (x.setV n l y).grid = x.grid := rfl
@[simp] theorem Wave.setV_tslot (n l : Nat) (y : Word) : (x.setV n l y).tslot = x.tslot := rfl
@[simp] theorem Wave.setV_widx (n l : Nat) (y : Word) : (x.setV n l y).widx = x.widx := rfl
@[simp] theorem Wave.setV_role (n l : Nat) (y : Word) : (x.setV n l y).role = x.role := rfl
@[simp] theorem Wave.setV_vcount (n l : Nat) (y : Word) : (x.setV n l y).vcount = x.vcount := rfl
@[simp] theorem Wave.setV_slots (n l : Nat) (y : Word) : (x.setV n l y).slots = x.slots := rfl
@[simp] theorem Wave.setV_taskWave (n l : Nat) (y : Word) : (x.setV n l y).taskWave = x.taskWave := rfl
@[simp] theorem Wave.setV_started (n l : Nat) (y : Word) : (x.setV n l y).started = x.started := rfl
@[simp] theorem Wave.setV_lanes (n l : Nat) (y : Word) : (x.setV n l y).lanes = x.lanes := rfl
@[simp] theorem Wave.setV_s (n l : Nat) (y : Word) : (x.setV n l y).s = x.s := rfl
@[simp] theorem Wave.setV_p (n l : Nat) (y : Word) : (x.setV n l y).p = x.p := rfl
@[simp] theorem Wave.setV_j (n l : Nat) (y : Word) : (x.setV n l y).j = x.j := rfl
@[simp] theorem Wave.setV_f (n l : Nat) (y : Word) : (x.setV n l y).f = x.f := rfl
@[simp] theorem Wave.setV_acc (n l : Nat) (y : Word) : (x.setV n l y).acc = x.acc := rfl
@[simp] theorem Wave.setV_bundles (n l : Nat) (y : Word) : (x.setV n l y).bundles = x.bundles := rfl
@[simp] theorem Wave.setV_tw (n l : Nat) (y : Word) : (x.setV n l y).tw = x.tw := rfl
@[simp] theorem Wave.setV_satf (n l : Nat) (y : Word) : (x.setV n l y).satf = x.satf := rfl
@[simp] theorem Wave.setV_hmode (n l : Nat) (y : Word) : (x.setV n l y).hmode = x.hmode := rfl
@[simp] theorem Wave.setV_trappc (n l : Nat) (y : Word) : (x.setV n l y).trappc = x.trappc := rfl
@[simp] theorem Wave.setV_trapcause (n l : Nat) (y : Word) : (x.setV n l y).trapcause = x.trapcause := rfl
@[simp] theorem Wave.setV_trapmask (n l : Nat) (y : Word) : (x.setV n l y).trapmask = x.trapmask := rfl
@[simp] theorem Wave.setV_hlanes (n l : Nat) (y : Word) : (x.setV n l y).hlanes = x.hlanes := rfl
@[simp] theorem Wave.setV_left (n l : Nat) (y : Word) : (x.setV n l y).left = x.left := rfl
@[simp] theorem Wave.setV_saved (n l : Nat) (y : Word) : (x.setV n l y).saved = x.saved := rfl
@[simp] theorem Wave.setV_rngkey (n l : Nat) (y : Word) : (x.setV n l y).rngkey = x.rngkey := rfl
@[simp] theorem Wave.setV_rngctr (n l : Nat) (y : Word) : (x.setV n l y).rngctr = x.rngctr := rfl
@[simp] theorem Wave.setV_mprog (n l : Nat) (y : Word) : (x.setV n l y).mprog = x.mprog := rfl
@[simp] theorem Wave.setV_mpc (n l : Nat) (y : Word) : (x.setV n l y).mpc = x.mpc := rfl
@[simp] theorem Wave.setV_mlanes (n l : Nat) (y : Word) : (x.setV n l y).mlanes = x.mlanes := rfl
@[simp] theorem Wave.setV_cfr (n l : Nat) (y : Word) : (x.setV n l y).cfr = x.cfr := rfl
@[simp] theorem Wave.setV_snaps (n l : Nat) (y : Word) : (x.setV n l y).snaps = x.snaps := rfl
@[simp] theorem Wave.setV_latches (n l : Nat) (y : Word) : (x.setV n l y).latches = x.latches := rfl
@[simp] theorem Wave.setV_ibuf (n l : Nat) (y : Word) : (x.setV n l y).ibuf = x.ibuf := rfl
@[simp] theorem Wave.setV_routes (n l : Nat) (y : Word) : (x.setV n l y).routes = x.routes := rfl
@[simp] theorem Wave.setV_frel (n l : Nat) (y : Word) : (x.setV n l y).frel = x.frel := rfl
@[simp] theorem Wave.setV_frelDom (n l : Nat) (y : Word) : (x.setV n l y).frelDom = x.frelDom := rfl
@[simp] theorem Wave.setV_po (n l : Nat) (y : Word) : (x.setV n l y).po = x.po := rfl
@[simp] theorem Wave.setV_stuck (n l : Nat) (y : Word) : (x.setV n l y).stuck = x.stuck := rfl
@[simp] theorem Wave.setV_discard (n l : Nat) (y : Word) : (x.setV n l y).discard = x.discard := rfl
@[simp] theorem Wave.setV_yieldUntil (n l : Nat) (y : Word) : (x.setV n l y).yieldUntil = x.yieldUntil := rfl
@[simp] theorem Wave.setV_waited (n l : Nat) (y : Word) : (x.setV n l y).waited = x.waited := rfl
@[simp] theorem Wave.setV_parity (n l : Nat) (y : Word) : (x.setV n l y).parity = x.parity := rfl
@[simp] theorem Wave.setV_redun (n l : Nat) (y : Word) : (x.setV n l y).redun = x.redun := rfl
@[simp] theorem Wave.setV_shadow (n l : Nat) (y : Word) : (x.setV n l y).shadow = x.shadow := rfl
@[simp] theorem Wave.setV_sreg (n l : Nat) (y : Word) (i : Nat) : (x.setV n l y).sreg i = x.sreg i := rfl
@[simp] theorem Wave.setV_pmask (n l : Nat) (y : Word) (i : Nat) : (x.setV n l y).pmask i = x.pmask i := rfl
@[simp] theorem Wave.setV_join (n l : Nat) (y : Word) (i : Nat) : (x.setV n l y).join i = x.join i := rfl
@[simp] theorem Wave.setV_flag (n l : Nat) (y : Word) (i : Nat) : (x.setV n l y).flag i = x.flag i := rfl
@[simp] theorem Wave.setV_accElem (n l : Nat) (y : Word) (i j : Nat) : (x.setV n l y).accElem i j = x.accElem i j := rfl
@[simp] theorem Wave.setV_lane (n l : Nat) (y : Word) (i : Nat) : (x.setV n l y).lane i = x.lane i := rfl
@[simp] theorem Wave.setV_routeRec (n l : Nat) (y : Word) (i : Nat) : (x.setV n l y).routeRec i = x.routeRec i := rfl

/-! ### Wave.setS -/

@[simp] theorem Wave.setS_resident (n : Nat) (y : Word) : (x.setS n y).resident = x.resident := rfl
@[simp] theorem Wave.setS_grid (n : Nat) (y : Word) : (x.setS n y).grid = x.grid := rfl
@[simp] theorem Wave.setS_tslot (n : Nat) (y : Word) : (x.setS n y).tslot = x.tslot := rfl
@[simp] theorem Wave.setS_widx (n : Nat) (y : Word) : (x.setS n y).widx = x.widx := rfl
@[simp] theorem Wave.setS_role (n : Nat) (y : Word) : (x.setS n y).role = x.role := rfl
@[simp] theorem Wave.setS_vcount (n : Nat) (y : Word) : (x.setS n y).vcount = x.vcount := rfl
@[simp] theorem Wave.setS_slots (n : Nat) (y : Word) : (x.setS n y).slots = x.slots := rfl
@[simp] theorem Wave.setS_taskWave (n : Nat) (y : Word) : (x.setS n y).taskWave = x.taskWave := rfl
@[simp] theorem Wave.setS_started (n : Nat) (y : Word) : (x.setS n y).started = x.started := rfl
@[simp] theorem Wave.setS_lanes (n : Nat) (y : Word) : (x.setS n y).lanes = x.lanes := rfl
@[simp] theorem Wave.setS_v (n : Nat) (y : Word) : (x.setS n y).v = x.v := rfl
@[simp] theorem Wave.setS_p (n : Nat) (y : Word) : (x.setS n y).p = x.p := rfl
@[simp] theorem Wave.setS_j (n : Nat) (y : Word) : (x.setS n y).j = x.j := rfl
@[simp] theorem Wave.setS_f (n : Nat) (y : Word) : (x.setS n y).f = x.f := rfl
@[simp] theorem Wave.setS_acc (n : Nat) (y : Word) : (x.setS n y).acc = x.acc := rfl
@[simp] theorem Wave.setS_bundles (n : Nat) (y : Word) : (x.setS n y).bundles = x.bundles := rfl
@[simp] theorem Wave.setS_tw (n : Nat) (y : Word) : (x.setS n y).tw = x.tw := rfl
@[simp] theorem Wave.setS_satf (n : Nat) (y : Word) : (x.setS n y).satf = x.satf := rfl
@[simp] theorem Wave.setS_hmode (n : Nat) (y : Word) : (x.setS n y).hmode = x.hmode := rfl
@[simp] theorem Wave.setS_trappc (n : Nat) (y : Word) : (x.setS n y).trappc = x.trappc := rfl
@[simp] theorem Wave.setS_trapcause (n : Nat) (y : Word) : (x.setS n y).trapcause = x.trapcause := rfl
@[simp] theorem Wave.setS_trapmask (n : Nat) (y : Word) : (x.setS n y).trapmask = x.trapmask := rfl
@[simp] theorem Wave.setS_hlanes (n : Nat) (y : Word) : (x.setS n y).hlanes = x.hlanes := rfl
@[simp] theorem Wave.setS_left (n : Nat) (y : Word) : (x.setS n y).left = x.left := rfl
@[simp] theorem Wave.setS_saved (n : Nat) (y : Word) : (x.setS n y).saved = x.saved := rfl
@[simp] theorem Wave.setS_rngkey (n : Nat) (y : Word) : (x.setS n y).rngkey = x.rngkey := rfl
@[simp] theorem Wave.setS_rngctr (n : Nat) (y : Word) : (x.setS n y).rngctr = x.rngctr := rfl
@[simp] theorem Wave.setS_mprog (n : Nat) (y : Word) : (x.setS n y).mprog = x.mprog := rfl
@[simp] theorem Wave.setS_mpc (n : Nat) (y : Word) : (x.setS n y).mpc = x.mpc := rfl
@[simp] theorem Wave.setS_mlanes (n : Nat) (y : Word) : (x.setS n y).mlanes = x.mlanes := rfl
@[simp] theorem Wave.setS_cfr (n : Nat) (y : Word) : (x.setS n y).cfr = x.cfr := rfl
@[simp] theorem Wave.setS_snaps (n : Nat) (y : Word) : (x.setS n y).snaps = x.snaps := rfl
@[simp] theorem Wave.setS_latches (n : Nat) (y : Word) : (x.setS n y).latches = x.latches := rfl
@[simp] theorem Wave.setS_ibuf (n : Nat) (y : Word) : (x.setS n y).ibuf = x.ibuf := rfl
@[simp] theorem Wave.setS_routes (n : Nat) (y : Word) : (x.setS n y).routes = x.routes := rfl
@[simp] theorem Wave.setS_frel (n : Nat) (y : Word) : (x.setS n y).frel = x.frel := rfl
@[simp] theorem Wave.setS_frelDom (n : Nat) (y : Word) : (x.setS n y).frelDom = x.frelDom := rfl
@[simp] theorem Wave.setS_po (n : Nat) (y : Word) : (x.setS n y).po = x.po := rfl
@[simp] theorem Wave.setS_stuck (n : Nat) (y : Word) : (x.setS n y).stuck = x.stuck := rfl
@[simp] theorem Wave.setS_discard (n : Nat) (y : Word) : (x.setS n y).discard = x.discard := rfl
@[simp] theorem Wave.setS_yieldUntil (n : Nat) (y : Word) : (x.setS n y).yieldUntil = x.yieldUntil := rfl
@[simp] theorem Wave.setS_waited (n : Nat) (y : Word) : (x.setS n y).waited = x.waited := rfl
@[simp] theorem Wave.setS_parity (n : Nat) (y : Word) : (x.setS n y).parity = x.parity := rfl
@[simp] theorem Wave.setS_redun (n : Nat) (y : Word) : (x.setS n y).redun = x.redun := rfl
@[simp] theorem Wave.setS_shadow (n : Nat) (y : Word) : (x.setS n y).shadow = x.shadow := rfl
@[simp] theorem Wave.setS_vreg (n : Nat) (y : Word) (i j : Nat) : (x.setS n y).vreg i j = x.vreg i j := rfl
@[simp] theorem Wave.setS_pmask (n : Nat) (y : Word) (i : Nat) : (x.setS n y).pmask i = x.pmask i := rfl
@[simp] theorem Wave.setS_join (n : Nat) (y : Word) (i : Nat) : (x.setS n y).join i = x.join i := rfl
@[simp] theorem Wave.setS_flag (n : Nat) (y : Word) (i : Nat) : (x.setS n y).flag i = x.flag i := rfl
@[simp] theorem Wave.setS_accElem (n : Nat) (y : Word) (i j : Nat) : (x.setS n y).accElem i j = x.accElem i j := rfl
@[simp] theorem Wave.setS_lane (n : Nat) (y : Word) (i : Nat) : (x.setS n y).lane i = x.lane i := rfl
@[simp] theorem Wave.setS_routeRec (n : Nat) (y : Word) (i : Nat) : (x.setS n y).routeRec i = x.routeRec i := rfl

/-! ### Wave.setP -/

@[simp] theorem Wave.setP_resident (n l : Nat) (b : Bool) : (x.setP n l b).resident = x.resident := rfl
@[simp] theorem Wave.setP_grid (n l : Nat) (b : Bool) : (x.setP n l b).grid = x.grid := rfl
@[simp] theorem Wave.setP_tslot (n l : Nat) (b : Bool) : (x.setP n l b).tslot = x.tslot := rfl
@[simp] theorem Wave.setP_widx (n l : Nat) (b : Bool) : (x.setP n l b).widx = x.widx := rfl
@[simp] theorem Wave.setP_role (n l : Nat) (b : Bool) : (x.setP n l b).role = x.role := rfl
@[simp] theorem Wave.setP_vcount (n l : Nat) (b : Bool) : (x.setP n l b).vcount = x.vcount := rfl
@[simp] theorem Wave.setP_slots (n l : Nat) (b : Bool) : (x.setP n l b).slots = x.slots := rfl
@[simp] theorem Wave.setP_taskWave (n l : Nat) (b : Bool) : (x.setP n l b).taskWave = x.taskWave := rfl
@[simp] theorem Wave.setP_started (n l : Nat) (b : Bool) : (x.setP n l b).started = x.started := rfl
@[simp] theorem Wave.setP_lanes (n l : Nat) (b : Bool) : (x.setP n l b).lanes = x.lanes := rfl
@[simp] theorem Wave.setP_v (n l : Nat) (b : Bool) : (x.setP n l b).v = x.v := rfl
@[simp] theorem Wave.setP_s (n l : Nat) (b : Bool) : (x.setP n l b).s = x.s := rfl
@[simp] theorem Wave.setP_j (n l : Nat) (b : Bool) : (x.setP n l b).j = x.j := rfl
@[simp] theorem Wave.setP_f (n l : Nat) (b : Bool) : (x.setP n l b).f = x.f := rfl
@[simp] theorem Wave.setP_acc (n l : Nat) (b : Bool) : (x.setP n l b).acc = x.acc := rfl
@[simp] theorem Wave.setP_bundles (n l : Nat) (b : Bool) : (x.setP n l b).bundles = x.bundles := rfl
@[simp] theorem Wave.setP_tw (n l : Nat) (b : Bool) : (x.setP n l b).tw = x.tw := rfl
@[simp] theorem Wave.setP_satf (n l : Nat) (b : Bool) : (x.setP n l b).satf = x.satf := rfl
@[simp] theorem Wave.setP_hmode (n l : Nat) (b : Bool) : (x.setP n l b).hmode = x.hmode := rfl
@[simp] theorem Wave.setP_trappc (n l : Nat) (b : Bool) : (x.setP n l b).trappc = x.trappc := rfl
@[simp] theorem Wave.setP_trapcause (n l : Nat) (b : Bool) : (x.setP n l b).trapcause = x.trapcause := rfl
@[simp] theorem Wave.setP_trapmask (n l : Nat) (b : Bool) : (x.setP n l b).trapmask = x.trapmask := rfl
@[simp] theorem Wave.setP_hlanes (n l : Nat) (b : Bool) : (x.setP n l b).hlanes = x.hlanes := rfl
@[simp] theorem Wave.setP_left (n l : Nat) (b : Bool) : (x.setP n l b).left = x.left := rfl
@[simp] theorem Wave.setP_saved (n l : Nat) (b : Bool) : (x.setP n l b).saved = x.saved := rfl
@[simp] theorem Wave.setP_rngkey (n l : Nat) (b : Bool) : (x.setP n l b).rngkey = x.rngkey := rfl
@[simp] theorem Wave.setP_rngctr (n l : Nat) (b : Bool) : (x.setP n l b).rngctr = x.rngctr := rfl
@[simp] theorem Wave.setP_mprog (n l : Nat) (b : Bool) : (x.setP n l b).mprog = x.mprog := rfl
@[simp] theorem Wave.setP_mpc (n l : Nat) (b : Bool) : (x.setP n l b).mpc = x.mpc := rfl
@[simp] theorem Wave.setP_mlanes (n l : Nat) (b : Bool) : (x.setP n l b).mlanes = x.mlanes := rfl
@[simp] theorem Wave.setP_cfr (n l : Nat) (b : Bool) : (x.setP n l b).cfr = x.cfr := rfl
@[simp] theorem Wave.setP_snaps (n l : Nat) (b : Bool) : (x.setP n l b).snaps = x.snaps := rfl
@[simp] theorem Wave.setP_latches (n l : Nat) (b : Bool) : (x.setP n l b).latches = x.latches := rfl
@[simp] theorem Wave.setP_ibuf (n l : Nat) (b : Bool) : (x.setP n l b).ibuf = x.ibuf := rfl
@[simp] theorem Wave.setP_routes (n l : Nat) (b : Bool) : (x.setP n l b).routes = x.routes := rfl
@[simp] theorem Wave.setP_frel (n l : Nat) (b : Bool) : (x.setP n l b).frel = x.frel := rfl
@[simp] theorem Wave.setP_frelDom (n l : Nat) (b : Bool) : (x.setP n l b).frelDom = x.frelDom := rfl
@[simp] theorem Wave.setP_po (n l : Nat) (b : Bool) : (x.setP n l b).po = x.po := rfl
@[simp] theorem Wave.setP_stuck (n l : Nat) (b : Bool) : (x.setP n l b).stuck = x.stuck := rfl
@[simp] theorem Wave.setP_discard (n l : Nat) (b : Bool) : (x.setP n l b).discard = x.discard := rfl
@[simp] theorem Wave.setP_yieldUntil (n l : Nat) (b : Bool) : (x.setP n l b).yieldUntil = x.yieldUntil := rfl
@[simp] theorem Wave.setP_waited (n l : Nat) (b : Bool) : (x.setP n l b).waited = x.waited := rfl
@[simp] theorem Wave.setP_parity (n l : Nat) (b : Bool) : (x.setP n l b).parity = x.parity := rfl
@[simp] theorem Wave.setP_redun (n l : Nat) (b : Bool) : (x.setP n l b).redun = x.redun := rfl
@[simp] theorem Wave.setP_shadow (n l : Nat) (b : Bool) : (x.setP n l b).shadow = x.shadow := rfl
@[simp] theorem Wave.setP_vreg (n l : Nat) (b : Bool) (i j : Nat) : (x.setP n l b).vreg i j = x.vreg i j := rfl
@[simp] theorem Wave.setP_sreg (n l : Nat) (b : Bool) (i : Nat) : (x.setP n l b).sreg i = x.sreg i := rfl
@[simp] theorem Wave.setP_join (n l : Nat) (b : Bool) (i : Nat) : (x.setP n l b).join i = x.join i := rfl
@[simp] theorem Wave.setP_flag (n l : Nat) (b : Bool) (i : Nat) : (x.setP n l b).flag i = x.flag i := rfl
@[simp] theorem Wave.setP_accElem (n l : Nat) (b : Bool) (i j : Nat) : (x.setP n l b).accElem i j = x.accElem i j := rfl
@[simp] theorem Wave.setP_lane (n l : Nat) (b : Bool) (i : Nat) : (x.setP n l b).lane i = x.lane i := rfl
@[simp] theorem Wave.setP_routeRec (n l : Nat) (b : Bool) (i : Nat) : (x.setP n l b).routeRec i = x.routeRec i := rfl

/-! ### Wave.setJoin -/

@[simp] theorem Wave.setJoin_resident (n : Nat) (y : Join) : (x.setJoin n y).resident = x.resident := rfl
@[simp] theorem Wave.setJoin_grid (n : Nat) (y : Join) : (x.setJoin n y).grid = x.grid := rfl
@[simp] theorem Wave.setJoin_tslot (n : Nat) (y : Join) : (x.setJoin n y).tslot = x.tslot := rfl
@[simp] theorem Wave.setJoin_widx (n : Nat) (y : Join) : (x.setJoin n y).widx = x.widx := rfl
@[simp] theorem Wave.setJoin_role (n : Nat) (y : Join) : (x.setJoin n y).role = x.role := rfl
@[simp] theorem Wave.setJoin_vcount (n : Nat) (y : Join) : (x.setJoin n y).vcount = x.vcount := rfl
@[simp] theorem Wave.setJoin_slots (n : Nat) (y : Join) : (x.setJoin n y).slots = x.slots := rfl
@[simp] theorem Wave.setJoin_taskWave (n : Nat) (y : Join) : (x.setJoin n y).taskWave = x.taskWave := rfl
@[simp] theorem Wave.setJoin_started (n : Nat) (y : Join) : (x.setJoin n y).started = x.started := rfl
@[simp] theorem Wave.setJoin_lanes (n : Nat) (y : Join) : (x.setJoin n y).lanes = x.lanes := rfl
@[simp] theorem Wave.setJoin_v (n : Nat) (y : Join) : (x.setJoin n y).v = x.v := rfl
@[simp] theorem Wave.setJoin_s (n : Nat) (y : Join) : (x.setJoin n y).s = x.s := rfl
@[simp] theorem Wave.setJoin_p (n : Nat) (y : Join) : (x.setJoin n y).p = x.p := rfl
@[simp] theorem Wave.setJoin_f (n : Nat) (y : Join) : (x.setJoin n y).f = x.f := rfl
@[simp] theorem Wave.setJoin_acc (n : Nat) (y : Join) : (x.setJoin n y).acc = x.acc := rfl
@[simp] theorem Wave.setJoin_bundles (n : Nat) (y : Join) : (x.setJoin n y).bundles = x.bundles := rfl
@[simp] theorem Wave.setJoin_tw (n : Nat) (y : Join) : (x.setJoin n y).tw = x.tw := rfl
@[simp] theorem Wave.setJoin_satf (n : Nat) (y : Join) : (x.setJoin n y).satf = x.satf := rfl
@[simp] theorem Wave.setJoin_hmode (n : Nat) (y : Join) : (x.setJoin n y).hmode = x.hmode := rfl
@[simp] theorem Wave.setJoin_trappc (n : Nat) (y : Join) : (x.setJoin n y).trappc = x.trappc := rfl
@[simp] theorem Wave.setJoin_trapcause (n : Nat) (y : Join) : (x.setJoin n y).trapcause = x.trapcause := rfl
@[simp] theorem Wave.setJoin_trapmask (n : Nat) (y : Join) : (x.setJoin n y).trapmask = x.trapmask := rfl
@[simp] theorem Wave.setJoin_hlanes (n : Nat) (y : Join) : (x.setJoin n y).hlanes = x.hlanes := rfl
@[simp] theorem Wave.setJoin_left (n : Nat) (y : Join) : (x.setJoin n y).left = x.left := rfl
@[simp] theorem Wave.setJoin_saved (n : Nat) (y : Join) : (x.setJoin n y).saved = x.saved := rfl
@[simp] theorem Wave.setJoin_rngkey (n : Nat) (y : Join) : (x.setJoin n y).rngkey = x.rngkey := rfl
@[simp] theorem Wave.setJoin_rngctr (n : Nat) (y : Join) : (x.setJoin n y).rngctr = x.rngctr := rfl
@[simp] theorem Wave.setJoin_mprog (n : Nat) (y : Join) : (x.setJoin n y).mprog = x.mprog := rfl
@[simp] theorem Wave.setJoin_mpc (n : Nat) (y : Join) : (x.setJoin n y).mpc = x.mpc := rfl
@[simp] theorem Wave.setJoin_mlanes (n : Nat) (y : Join) : (x.setJoin n y).mlanes = x.mlanes := rfl
@[simp] theorem Wave.setJoin_cfr (n : Nat) (y : Join) : (x.setJoin n y).cfr = x.cfr := rfl
@[simp] theorem Wave.setJoin_snaps (n : Nat) (y : Join) : (x.setJoin n y).snaps = x.snaps := rfl
@[simp] theorem Wave.setJoin_latches (n : Nat) (y : Join) : (x.setJoin n y).latches = x.latches := rfl
@[simp] theorem Wave.setJoin_ibuf (n : Nat) (y : Join) : (x.setJoin n y).ibuf = x.ibuf := rfl
@[simp] theorem Wave.setJoin_routes (n : Nat) (y : Join) : (x.setJoin n y).routes = x.routes := rfl
@[simp] theorem Wave.setJoin_frel (n : Nat) (y : Join) : (x.setJoin n y).frel = x.frel := rfl
@[simp] theorem Wave.setJoin_frelDom (n : Nat) (y : Join) : (x.setJoin n y).frelDom = x.frelDom := rfl
@[simp] theorem Wave.setJoin_po (n : Nat) (y : Join) : (x.setJoin n y).po = x.po := rfl
@[simp] theorem Wave.setJoin_stuck (n : Nat) (y : Join) : (x.setJoin n y).stuck = x.stuck := rfl
@[simp] theorem Wave.setJoin_discard (n : Nat) (y : Join) : (x.setJoin n y).discard = x.discard := rfl
@[simp] theorem Wave.setJoin_yieldUntil (n : Nat) (y : Join) : (x.setJoin n y).yieldUntil = x.yieldUntil := rfl
@[simp] theorem Wave.setJoin_waited (n : Nat) (y : Join) : (x.setJoin n y).waited = x.waited := rfl
@[simp] theorem Wave.setJoin_parity (n : Nat) (y : Join) : (x.setJoin n y).parity = x.parity := rfl
@[simp] theorem Wave.setJoin_redun (n : Nat) (y : Join) : (x.setJoin n y).redun = x.redun := rfl
@[simp] theorem Wave.setJoin_shadow (n : Nat) (y : Join) : (x.setJoin n y).shadow = x.shadow := rfl
@[simp] theorem Wave.setJoin_vreg (n : Nat) (y : Join) (i j : Nat) : (x.setJoin n y).vreg i j = x.vreg i j := rfl
@[simp] theorem Wave.setJoin_sreg (n : Nat) (y : Join) (i : Nat) : (x.setJoin n y).sreg i = x.sreg i := rfl
@[simp] theorem Wave.setJoin_pmask (n : Nat) (y : Join) (i : Nat) : (x.setJoin n y).pmask i = x.pmask i := rfl
@[simp] theorem Wave.setJoin_flag (n : Nat) (y : Join) (i : Nat) : (x.setJoin n y).flag i = x.flag i := rfl
@[simp] theorem Wave.setJoin_accElem (n : Nat) (y : Join) (i j : Nat) : (x.setJoin n y).accElem i j = x.accElem i j := rfl
@[simp] theorem Wave.setJoin_lane (n : Nat) (y : Join) (i : Nat) : (x.setJoin n y).lane i = x.lane i := rfl
@[simp] theorem Wave.setJoin_routeRec (n : Nat) (y : Join) (i : Nat) : (x.setJoin n y).routeRec i = x.routeRec i := rfl

/-! ### Wave.setFlag -/

@[simp] theorem Wave.setFlag_resident (n y : Nat) : (x.setFlag n y).resident = x.resident := rfl
@[simp] theorem Wave.setFlag_grid (n y : Nat) : (x.setFlag n y).grid = x.grid := rfl
@[simp] theorem Wave.setFlag_tslot (n y : Nat) : (x.setFlag n y).tslot = x.tslot := rfl
@[simp] theorem Wave.setFlag_widx (n y : Nat) : (x.setFlag n y).widx = x.widx := rfl
@[simp] theorem Wave.setFlag_role (n y : Nat) : (x.setFlag n y).role = x.role := rfl
@[simp] theorem Wave.setFlag_vcount (n y : Nat) : (x.setFlag n y).vcount = x.vcount := rfl
@[simp] theorem Wave.setFlag_slots (n y : Nat) : (x.setFlag n y).slots = x.slots := rfl
@[simp] theorem Wave.setFlag_taskWave (n y : Nat) : (x.setFlag n y).taskWave = x.taskWave := rfl
@[simp] theorem Wave.setFlag_started (n y : Nat) : (x.setFlag n y).started = x.started := rfl
@[simp] theorem Wave.setFlag_lanes (n y : Nat) : (x.setFlag n y).lanes = x.lanes := rfl
@[simp] theorem Wave.setFlag_v (n y : Nat) : (x.setFlag n y).v = x.v := rfl
@[simp] theorem Wave.setFlag_s (n y : Nat) : (x.setFlag n y).s = x.s := rfl
@[simp] theorem Wave.setFlag_p (n y : Nat) : (x.setFlag n y).p = x.p := rfl
@[simp] theorem Wave.setFlag_j (n y : Nat) : (x.setFlag n y).j = x.j := rfl
@[simp] theorem Wave.setFlag_acc (n y : Nat) : (x.setFlag n y).acc = x.acc := rfl
@[simp] theorem Wave.setFlag_bundles (n y : Nat) : (x.setFlag n y).bundles = x.bundles := rfl
@[simp] theorem Wave.setFlag_tw (n y : Nat) : (x.setFlag n y).tw = x.tw := rfl
@[simp] theorem Wave.setFlag_satf (n y : Nat) : (x.setFlag n y).satf = x.satf := rfl
@[simp] theorem Wave.setFlag_hmode (n y : Nat) : (x.setFlag n y).hmode = x.hmode := rfl
@[simp] theorem Wave.setFlag_trappc (n y : Nat) : (x.setFlag n y).trappc = x.trappc := rfl
@[simp] theorem Wave.setFlag_trapcause (n y : Nat) : (x.setFlag n y).trapcause = x.trapcause := rfl
@[simp] theorem Wave.setFlag_trapmask (n y : Nat) : (x.setFlag n y).trapmask = x.trapmask := rfl
@[simp] theorem Wave.setFlag_hlanes (n y : Nat) : (x.setFlag n y).hlanes = x.hlanes := rfl
@[simp] theorem Wave.setFlag_left (n y : Nat) : (x.setFlag n y).left = x.left := rfl
@[simp] theorem Wave.setFlag_saved (n y : Nat) : (x.setFlag n y).saved = x.saved := rfl
@[simp] theorem Wave.setFlag_rngkey (n y : Nat) : (x.setFlag n y).rngkey = x.rngkey := rfl
@[simp] theorem Wave.setFlag_rngctr (n y : Nat) : (x.setFlag n y).rngctr = x.rngctr := rfl
@[simp] theorem Wave.setFlag_mprog (n y : Nat) : (x.setFlag n y).mprog = x.mprog := rfl
@[simp] theorem Wave.setFlag_mpc (n y : Nat) : (x.setFlag n y).mpc = x.mpc := rfl
@[simp] theorem Wave.setFlag_mlanes (n y : Nat) : (x.setFlag n y).mlanes = x.mlanes := rfl
@[simp] theorem Wave.setFlag_cfr (n y : Nat) : (x.setFlag n y).cfr = x.cfr := rfl
@[simp] theorem Wave.setFlag_snaps (n y : Nat) : (x.setFlag n y).snaps = x.snaps := rfl
@[simp] theorem Wave.setFlag_latches (n y : Nat) : (x.setFlag n y).latches = x.latches := rfl
@[simp] theorem Wave.setFlag_ibuf (n y : Nat) : (x.setFlag n y).ibuf = x.ibuf := rfl
@[simp] theorem Wave.setFlag_routes (n y : Nat) : (x.setFlag n y).routes = x.routes := rfl
@[simp] theorem Wave.setFlag_frel (n y : Nat) : (x.setFlag n y).frel = x.frel := rfl
@[simp] theorem Wave.setFlag_frelDom (n y : Nat) : (x.setFlag n y).frelDom = x.frelDom := rfl
@[simp] theorem Wave.setFlag_po (n y : Nat) : (x.setFlag n y).po = x.po := rfl
@[simp] theorem Wave.setFlag_stuck (n y : Nat) : (x.setFlag n y).stuck = x.stuck := rfl
@[simp] theorem Wave.setFlag_discard (n y : Nat) : (x.setFlag n y).discard = x.discard := rfl
@[simp] theorem Wave.setFlag_yieldUntil (n y : Nat) : (x.setFlag n y).yieldUntil = x.yieldUntil := rfl
@[simp] theorem Wave.setFlag_waited (n y : Nat) : (x.setFlag n y).waited = x.waited := rfl
@[simp] theorem Wave.setFlag_parity (n y : Nat) : (x.setFlag n y).parity = x.parity := rfl
@[simp] theorem Wave.setFlag_redun (n y : Nat) : (x.setFlag n y).redun = x.redun := rfl
@[simp] theorem Wave.setFlag_shadow (n y : Nat) : (x.setFlag n y).shadow = x.shadow := rfl
@[simp] theorem Wave.setFlag_vreg (n y : Nat) (i j : Nat) : (x.setFlag n y).vreg i j = x.vreg i j := rfl
@[simp] theorem Wave.setFlag_sreg (n y : Nat) (i : Nat) : (x.setFlag n y).sreg i = x.sreg i := rfl
@[simp] theorem Wave.setFlag_pmask (n y : Nat) (i : Nat) : (x.setFlag n y).pmask i = x.pmask i := rfl
@[simp] theorem Wave.setFlag_join (n y : Nat) (i : Nat) : (x.setFlag n y).join i = x.join i := rfl
@[simp] theorem Wave.setFlag_accElem (n y : Nat) (i j : Nat) : (x.setFlag n y).accElem i j = x.accElem i j := rfl
@[simp] theorem Wave.setFlag_lane (n y : Nat) (i : Nat) : (x.setFlag n y).lane i = x.lane i := rfl
@[simp] theorem Wave.setFlag_routeRec (n y : Nat) (i : Nat) : (x.setFlag n y).routeRec i = x.routeRec i := rfl

/-! ### Wave.setAcc -/

@[simp] theorem Wave.setAcc_resident (n i : Nat) (y : Word) : (x.setAcc n i y).resident = x.resident := rfl
@[simp] theorem Wave.setAcc_grid (n i : Nat) (y : Word) : (x.setAcc n i y).grid = x.grid := rfl
@[simp] theorem Wave.setAcc_tslot (n i : Nat) (y : Word) : (x.setAcc n i y).tslot = x.tslot := rfl
@[simp] theorem Wave.setAcc_widx (n i : Nat) (y : Word) : (x.setAcc n i y).widx = x.widx := rfl
@[simp] theorem Wave.setAcc_role (n i : Nat) (y : Word) : (x.setAcc n i y).role = x.role := rfl
@[simp] theorem Wave.setAcc_vcount (n i : Nat) (y : Word) : (x.setAcc n i y).vcount = x.vcount := rfl
@[simp] theorem Wave.setAcc_slots (n i : Nat) (y : Word) : (x.setAcc n i y).slots = x.slots := rfl
@[simp] theorem Wave.setAcc_taskWave (n i : Nat) (y : Word) : (x.setAcc n i y).taskWave = x.taskWave := rfl
@[simp] theorem Wave.setAcc_started (n i : Nat) (y : Word) : (x.setAcc n i y).started = x.started := rfl
@[simp] theorem Wave.setAcc_lanes (n i : Nat) (y : Word) : (x.setAcc n i y).lanes = x.lanes := rfl
@[simp] theorem Wave.setAcc_v (n i : Nat) (y : Word) : (x.setAcc n i y).v = x.v := rfl
@[simp] theorem Wave.setAcc_s (n i : Nat) (y : Word) : (x.setAcc n i y).s = x.s := rfl
@[simp] theorem Wave.setAcc_p (n i : Nat) (y : Word) : (x.setAcc n i y).p = x.p := rfl
@[simp] theorem Wave.setAcc_j (n i : Nat) (y : Word) : (x.setAcc n i y).j = x.j := rfl
@[simp] theorem Wave.setAcc_f (n i : Nat) (y : Word) : (x.setAcc n i y).f = x.f := rfl
@[simp] theorem Wave.setAcc_bundles (n i : Nat) (y : Word) : (x.setAcc n i y).bundles = x.bundles := rfl
@[simp] theorem Wave.setAcc_tw (n i : Nat) (y : Word) : (x.setAcc n i y).tw = x.tw := rfl
@[simp] theorem Wave.setAcc_satf (n i : Nat) (y : Word) : (x.setAcc n i y).satf = x.satf := rfl
@[simp] theorem Wave.setAcc_hmode (n i : Nat) (y : Word) : (x.setAcc n i y).hmode = x.hmode := rfl
@[simp] theorem Wave.setAcc_trappc (n i : Nat) (y : Word) : (x.setAcc n i y).trappc = x.trappc := rfl
@[simp] theorem Wave.setAcc_trapcause (n i : Nat) (y : Word) : (x.setAcc n i y).trapcause = x.trapcause := rfl
@[simp] theorem Wave.setAcc_trapmask (n i : Nat) (y : Word) : (x.setAcc n i y).trapmask = x.trapmask := rfl
@[simp] theorem Wave.setAcc_hlanes (n i : Nat) (y : Word) : (x.setAcc n i y).hlanes = x.hlanes := rfl
@[simp] theorem Wave.setAcc_left (n i : Nat) (y : Word) : (x.setAcc n i y).left = x.left := rfl
@[simp] theorem Wave.setAcc_saved (n i : Nat) (y : Word) : (x.setAcc n i y).saved = x.saved := rfl
@[simp] theorem Wave.setAcc_rngkey (n i : Nat) (y : Word) : (x.setAcc n i y).rngkey = x.rngkey := rfl
@[simp] theorem Wave.setAcc_rngctr (n i : Nat) (y : Word) : (x.setAcc n i y).rngctr = x.rngctr := rfl
@[simp] theorem Wave.setAcc_mprog (n i : Nat) (y : Word) : (x.setAcc n i y).mprog = x.mprog := rfl
@[simp] theorem Wave.setAcc_mpc (n i : Nat) (y : Word) : (x.setAcc n i y).mpc = x.mpc := rfl
@[simp] theorem Wave.setAcc_mlanes (n i : Nat) (y : Word) : (x.setAcc n i y).mlanes = x.mlanes := rfl
@[simp] theorem Wave.setAcc_cfr (n i : Nat) (y : Word) : (x.setAcc n i y).cfr = x.cfr := rfl
@[simp] theorem Wave.setAcc_snaps (n i : Nat) (y : Word) : (x.setAcc n i y).snaps = x.snaps := rfl
@[simp] theorem Wave.setAcc_latches (n i : Nat) (y : Word) : (x.setAcc n i y).latches = x.latches := rfl
@[simp] theorem Wave.setAcc_ibuf (n i : Nat) (y : Word) : (x.setAcc n i y).ibuf = x.ibuf := rfl
@[simp] theorem Wave.setAcc_routes (n i : Nat) (y : Word) : (x.setAcc n i y).routes = x.routes := rfl
@[simp] theorem Wave.setAcc_frel (n i : Nat) (y : Word) : (x.setAcc n i y).frel = x.frel := rfl
@[simp] theorem Wave.setAcc_frelDom (n i : Nat) (y : Word) : (x.setAcc n i y).frelDom = x.frelDom := rfl
@[simp] theorem Wave.setAcc_po (n i : Nat) (y : Word) : (x.setAcc n i y).po = x.po := rfl
@[simp] theorem Wave.setAcc_stuck (n i : Nat) (y : Word) : (x.setAcc n i y).stuck = x.stuck := rfl
@[simp] theorem Wave.setAcc_discard (n i : Nat) (y : Word) : (x.setAcc n i y).discard = x.discard := rfl
@[simp] theorem Wave.setAcc_yieldUntil (n i : Nat) (y : Word) : (x.setAcc n i y).yieldUntil = x.yieldUntil := rfl
@[simp] theorem Wave.setAcc_waited (n i : Nat) (y : Word) : (x.setAcc n i y).waited = x.waited := rfl
@[simp] theorem Wave.setAcc_parity (n i : Nat) (y : Word) : (x.setAcc n i y).parity = x.parity := rfl
@[simp] theorem Wave.setAcc_redun (n i : Nat) (y : Word) : (x.setAcc n i y).redun = x.redun := rfl
@[simp] theorem Wave.setAcc_shadow (n i : Nat) (y : Word) : (x.setAcc n i y).shadow = x.shadow := rfl
@[simp] theorem Wave.setAcc_vreg (n i : Nat) (y : Word) (i j : Nat) : (x.setAcc n i y).vreg i j = x.vreg i j := rfl
@[simp] theorem Wave.setAcc_sreg (n i : Nat) (y : Word) (i : Nat) : (x.setAcc n i y).sreg i = x.sreg i := rfl
@[simp] theorem Wave.setAcc_pmask (n i : Nat) (y : Word) (i : Nat) : (x.setAcc n i y).pmask i = x.pmask i := rfl
@[simp] theorem Wave.setAcc_join (n i : Nat) (y : Word) (i : Nat) : (x.setAcc n i y).join i = x.join i := rfl
@[simp] theorem Wave.setAcc_flag (n i : Nat) (y : Word) (i : Nat) : (x.setAcc n i y).flag i = x.flag i := rfl
@[simp] theorem Wave.setAcc_lane (n i : Nat) (y : Word) (i : Nat) : (x.setAcc n i y).lane i = x.lane i := rfl
@[simp] theorem Wave.setAcc_routeRec (n i : Nat) (y : Word) (i : Nat) : (x.setAcc n i y).routeRec i = x.routeRec i := rfl

/-! ### Wave.setLane -/

@[simp] theorem Wave.setLane_resident (l : Nat) (y : Lane) : (x.setLane l y).resident = x.resident := rfl
@[simp] theorem Wave.setLane_grid (l : Nat) (y : Lane) : (x.setLane l y).grid = x.grid := rfl
@[simp] theorem Wave.setLane_tslot (l : Nat) (y : Lane) : (x.setLane l y).tslot = x.tslot := rfl
@[simp] theorem Wave.setLane_widx (l : Nat) (y : Lane) : (x.setLane l y).widx = x.widx := rfl
@[simp] theorem Wave.setLane_role (l : Nat) (y : Lane) : (x.setLane l y).role = x.role := rfl
@[simp] theorem Wave.setLane_vcount (l : Nat) (y : Lane) : (x.setLane l y).vcount = x.vcount := rfl
@[simp] theorem Wave.setLane_slots (l : Nat) (y : Lane) : (x.setLane l y).slots = x.slots := rfl
@[simp] theorem Wave.setLane_taskWave (l : Nat) (y : Lane) : (x.setLane l y).taskWave = x.taskWave := rfl
@[simp] theorem Wave.setLane_started (l : Nat) (y : Lane) : (x.setLane l y).started = x.started := rfl
@[simp] theorem Wave.setLane_v (l : Nat) (y : Lane) : (x.setLane l y).v = x.v := rfl
@[simp] theorem Wave.setLane_s (l : Nat) (y : Lane) : (x.setLane l y).s = x.s := rfl
@[simp] theorem Wave.setLane_p (l : Nat) (y : Lane) : (x.setLane l y).p = x.p := rfl
@[simp] theorem Wave.setLane_j (l : Nat) (y : Lane) : (x.setLane l y).j = x.j := rfl
@[simp] theorem Wave.setLane_f (l : Nat) (y : Lane) : (x.setLane l y).f = x.f := rfl
@[simp] theorem Wave.setLane_acc (l : Nat) (y : Lane) : (x.setLane l y).acc = x.acc := rfl
@[simp] theorem Wave.setLane_bundles (l : Nat) (y : Lane) : (x.setLane l y).bundles = x.bundles := rfl
@[simp] theorem Wave.setLane_tw (l : Nat) (y : Lane) : (x.setLane l y).tw = x.tw := rfl
@[simp] theorem Wave.setLane_satf (l : Nat) (y : Lane) : (x.setLane l y).satf = x.satf := rfl
@[simp] theorem Wave.setLane_hmode (l : Nat) (y : Lane) : (x.setLane l y).hmode = x.hmode := rfl
@[simp] theorem Wave.setLane_trappc (l : Nat) (y : Lane) : (x.setLane l y).trappc = x.trappc := rfl
@[simp] theorem Wave.setLane_trapcause (l : Nat) (y : Lane) : (x.setLane l y).trapcause = x.trapcause := rfl
@[simp] theorem Wave.setLane_trapmask (l : Nat) (y : Lane) : (x.setLane l y).trapmask = x.trapmask := rfl
@[simp] theorem Wave.setLane_hlanes (l : Nat) (y : Lane) : (x.setLane l y).hlanes = x.hlanes := rfl
@[simp] theorem Wave.setLane_left (l : Nat) (y : Lane) : (x.setLane l y).left = x.left := rfl
@[simp] theorem Wave.setLane_saved (l : Nat) (y : Lane) : (x.setLane l y).saved = x.saved := rfl
@[simp] theorem Wave.setLane_rngkey (l : Nat) (y : Lane) : (x.setLane l y).rngkey = x.rngkey := rfl
@[simp] theorem Wave.setLane_rngctr (l : Nat) (y : Lane) : (x.setLane l y).rngctr = x.rngctr := rfl
@[simp] theorem Wave.setLane_mprog (l : Nat) (y : Lane) : (x.setLane l y).mprog = x.mprog := rfl
@[simp] theorem Wave.setLane_mpc (l : Nat) (y : Lane) : (x.setLane l y).mpc = x.mpc := rfl
@[simp] theorem Wave.setLane_mlanes (l : Nat) (y : Lane) : (x.setLane l y).mlanes = x.mlanes := rfl
@[simp] theorem Wave.setLane_cfr (l : Nat) (y : Lane) : (x.setLane l y).cfr = x.cfr := rfl
@[simp] theorem Wave.setLane_snaps (l : Nat) (y : Lane) : (x.setLane l y).snaps = x.snaps := rfl
@[simp] theorem Wave.setLane_latches (l : Nat) (y : Lane) : (x.setLane l y).latches = x.latches := rfl
@[simp] theorem Wave.setLane_ibuf (l : Nat) (y : Lane) : (x.setLane l y).ibuf = x.ibuf := rfl
@[simp] theorem Wave.setLane_routes (l : Nat) (y : Lane) : (x.setLane l y).routes = x.routes := rfl
@[simp] theorem Wave.setLane_frel (l : Nat) (y : Lane) : (x.setLane l y).frel = x.frel := rfl
@[simp] theorem Wave.setLane_frelDom (l : Nat) (y : Lane) : (x.setLane l y).frelDom = x.frelDom := rfl
@[simp] theorem Wave.setLane_po (l : Nat) (y : Lane) : (x.setLane l y).po = x.po := rfl
@[simp] theorem Wave.setLane_stuck (l : Nat) (y : Lane) : (x.setLane l y).stuck = x.stuck := rfl
@[simp] theorem Wave.setLane_discard (l : Nat) (y : Lane) : (x.setLane l y).discard = x.discard := rfl
@[simp] theorem Wave.setLane_yieldUntil (l : Nat) (y : Lane) : (x.setLane l y).yieldUntil = x.yieldUntil := rfl
@[simp] theorem Wave.setLane_waited (l : Nat) (y : Lane) : (x.setLane l y).waited = x.waited := rfl
@[simp] theorem Wave.setLane_parity (l : Nat) (y : Lane) : (x.setLane l y).parity = x.parity := rfl
@[simp] theorem Wave.setLane_redun (l : Nat) (y : Lane) : (x.setLane l y).redun = x.redun := rfl
@[simp] theorem Wave.setLane_shadow (l : Nat) (y : Lane) : (x.setLane l y).shadow = x.shadow := rfl
@[simp] theorem Wave.setLane_vreg (l : Nat) (y : Lane) (i j : Nat) : (x.setLane l y).vreg i j = x.vreg i j := rfl
@[simp] theorem Wave.setLane_sreg (l : Nat) (y : Lane) (i : Nat) : (x.setLane l y).sreg i = x.sreg i := rfl
@[simp] theorem Wave.setLane_pmask (l : Nat) (y : Lane) (i : Nat) : (x.setLane l y).pmask i = x.pmask i := rfl
@[simp] theorem Wave.setLane_join (l : Nat) (y : Lane) (i : Nat) : (x.setLane l y).join i = x.join i := rfl
@[simp] theorem Wave.setLane_flag (l : Nat) (y : Lane) (i : Nat) : (x.setLane l y).flag i = x.flag i := rfl
@[simp] theorem Wave.setLane_accElem (l : Nat) (y : Lane) (i j : Nat) : (x.setLane l y).accElem i j = x.accElem i j := rfl
@[simp] theorem Wave.setLane_routeRec (l : Nat) (y : Lane) (i : Nat) : (x.setLane l y).routeRec i = x.routeRec i := rfl

/-! ### Wave.setRouteRec -/

@[simp] theorem Wave.setRouteRec_resident (r : Nat) (y : Route1) : (x.setRouteRec r y).resident = x.resident := rfl
@[simp] theorem Wave.setRouteRec_grid (r : Nat) (y : Route1) : (x.setRouteRec r y).grid = x.grid := rfl
@[simp] theorem Wave.setRouteRec_tslot (r : Nat) (y : Route1) : (x.setRouteRec r y).tslot = x.tslot := rfl
@[simp] theorem Wave.setRouteRec_widx (r : Nat) (y : Route1) : (x.setRouteRec r y).widx = x.widx := rfl
@[simp] theorem Wave.setRouteRec_role (r : Nat) (y : Route1) : (x.setRouteRec r y).role = x.role := rfl
@[simp] theorem Wave.setRouteRec_vcount (r : Nat) (y : Route1) : (x.setRouteRec r y).vcount = x.vcount := rfl
@[simp] theorem Wave.setRouteRec_slots (r : Nat) (y : Route1) : (x.setRouteRec r y).slots = x.slots := rfl
@[simp] theorem Wave.setRouteRec_taskWave (r : Nat) (y : Route1) : (x.setRouteRec r y).taskWave = x.taskWave := rfl
@[simp] theorem Wave.setRouteRec_started (r : Nat) (y : Route1) : (x.setRouteRec r y).started = x.started := rfl
@[simp] theorem Wave.setRouteRec_lanes (r : Nat) (y : Route1) : (x.setRouteRec r y).lanes = x.lanes := rfl
@[simp] theorem Wave.setRouteRec_v (r : Nat) (y : Route1) : (x.setRouteRec r y).v = x.v := rfl
@[simp] theorem Wave.setRouteRec_s (r : Nat) (y : Route1) : (x.setRouteRec r y).s = x.s := rfl
@[simp] theorem Wave.setRouteRec_p (r : Nat) (y : Route1) : (x.setRouteRec r y).p = x.p := rfl
@[simp] theorem Wave.setRouteRec_j (r : Nat) (y : Route1) : (x.setRouteRec r y).j = x.j := rfl
@[simp] theorem Wave.setRouteRec_f (r : Nat) (y : Route1) : (x.setRouteRec r y).f = x.f := rfl
@[simp] theorem Wave.setRouteRec_acc (r : Nat) (y : Route1) : (x.setRouteRec r y).acc = x.acc := rfl
@[simp] theorem Wave.setRouteRec_bundles (r : Nat) (y : Route1) : (x.setRouteRec r y).bundles = x.bundles := rfl
@[simp] theorem Wave.setRouteRec_tw (r : Nat) (y : Route1) : (x.setRouteRec r y).tw = x.tw := rfl
@[simp] theorem Wave.setRouteRec_satf (r : Nat) (y : Route1) : (x.setRouteRec r y).satf = x.satf := rfl
@[simp] theorem Wave.setRouteRec_hmode (r : Nat) (y : Route1) : (x.setRouteRec r y).hmode = x.hmode := rfl
@[simp] theorem Wave.setRouteRec_trappc (r : Nat) (y : Route1) : (x.setRouteRec r y).trappc = x.trappc := rfl
@[simp] theorem Wave.setRouteRec_trapcause (r : Nat) (y : Route1) : (x.setRouteRec r y).trapcause = x.trapcause := rfl
@[simp] theorem Wave.setRouteRec_trapmask (r : Nat) (y : Route1) : (x.setRouteRec r y).trapmask = x.trapmask := rfl
@[simp] theorem Wave.setRouteRec_hlanes (r : Nat) (y : Route1) : (x.setRouteRec r y).hlanes = x.hlanes := rfl
@[simp] theorem Wave.setRouteRec_left (r : Nat) (y : Route1) : (x.setRouteRec r y).left = x.left := rfl
@[simp] theorem Wave.setRouteRec_saved (r : Nat) (y : Route1) : (x.setRouteRec r y).saved = x.saved := rfl
@[simp] theorem Wave.setRouteRec_rngkey (r : Nat) (y : Route1) : (x.setRouteRec r y).rngkey = x.rngkey := rfl
@[simp] theorem Wave.setRouteRec_rngctr (r : Nat) (y : Route1) : (x.setRouteRec r y).rngctr = x.rngctr := rfl
@[simp] theorem Wave.setRouteRec_mprog (r : Nat) (y : Route1) : (x.setRouteRec r y).mprog = x.mprog := rfl
@[simp] theorem Wave.setRouteRec_mpc (r : Nat) (y : Route1) : (x.setRouteRec r y).mpc = x.mpc := rfl
@[simp] theorem Wave.setRouteRec_mlanes (r : Nat) (y : Route1) : (x.setRouteRec r y).mlanes = x.mlanes := rfl
@[simp] theorem Wave.setRouteRec_cfr (r : Nat) (y : Route1) : (x.setRouteRec r y).cfr = x.cfr := rfl
@[simp] theorem Wave.setRouteRec_snaps (r : Nat) (y : Route1) : (x.setRouteRec r y).snaps = x.snaps := rfl
@[simp] theorem Wave.setRouteRec_latches (r : Nat) (y : Route1) : (x.setRouteRec r y).latches = x.latches := rfl
@[simp] theorem Wave.setRouteRec_ibuf (r : Nat) (y : Route1) : (x.setRouteRec r y).ibuf = x.ibuf := rfl
@[simp] theorem Wave.setRouteRec_frel (r : Nat) (y : Route1) : (x.setRouteRec r y).frel = x.frel := rfl
@[simp] theorem Wave.setRouteRec_frelDom (r : Nat) (y : Route1) : (x.setRouteRec r y).frelDom = x.frelDom := rfl
@[simp] theorem Wave.setRouteRec_po (r : Nat) (y : Route1) : (x.setRouteRec r y).po = x.po := rfl
@[simp] theorem Wave.setRouteRec_stuck (r : Nat) (y : Route1) : (x.setRouteRec r y).stuck = x.stuck := rfl
@[simp] theorem Wave.setRouteRec_discard (r : Nat) (y : Route1) : (x.setRouteRec r y).discard = x.discard := rfl
@[simp] theorem Wave.setRouteRec_yieldUntil (r : Nat) (y : Route1) : (x.setRouteRec r y).yieldUntil = x.yieldUntil := rfl
@[simp] theorem Wave.setRouteRec_waited (r : Nat) (y : Route1) : (x.setRouteRec r y).waited = x.waited := rfl
@[simp] theorem Wave.setRouteRec_parity (r : Nat) (y : Route1) : (x.setRouteRec r y).parity = x.parity := rfl
@[simp] theorem Wave.setRouteRec_redun (r : Nat) (y : Route1) : (x.setRouteRec r y).redun = x.redun := rfl
@[simp] theorem Wave.setRouteRec_shadow (r : Nat) (y : Route1) : (x.setRouteRec r y).shadow = x.shadow := rfl
@[simp] theorem Wave.setRouteRec_vreg (r : Nat) (y : Route1) (i j : Nat) : (x.setRouteRec r y).vreg i j = x.vreg i j := rfl
@[simp] theorem Wave.setRouteRec_sreg (r : Nat) (y : Route1) (i : Nat) : (x.setRouteRec r y).sreg i = x.sreg i := rfl
@[simp] theorem Wave.setRouteRec_pmask (r : Nat) (y : Route1) (i : Nat) : (x.setRouteRec r y).pmask i = x.pmask i := rfl
@[simp] theorem Wave.setRouteRec_join (r : Nat) (y : Route1) (i : Nat) : (x.setRouteRec r y).join i = x.join i := rfl
@[simp] theorem Wave.setRouteRec_flag (r : Nat) (y : Route1) (i : Nat) : (x.setRouteRec r y).flag i = x.flag i := rfl
@[simp] theorem Wave.setRouteRec_accElem (r : Nat) (y : Route1) (i j : Nat) : (x.setRouteRec r y).accElem i j = x.accElem i j := rfl
@[simp] theorem Wave.setRouteRec_lane (r : Nat) (y : Route1) (i : Nat) : (x.setRouteRec r y).lane i = x.lane i := rfl

/-! ### Wave.setBundle -/

@[simp] theorem Wave.setBundle_resident (m : Mask) (b : Bundle) : (x.setBundle m b).resident = x.resident := rfl
@[simp] theorem Wave.setBundle_grid (m : Mask) (b : Bundle) : (x.setBundle m b).grid = x.grid := rfl
@[simp] theorem Wave.setBundle_tslot (m : Mask) (b : Bundle) : (x.setBundle m b).tslot = x.tslot := rfl
@[simp] theorem Wave.setBundle_widx (m : Mask) (b : Bundle) : (x.setBundle m b).widx = x.widx := rfl
@[simp] theorem Wave.setBundle_role (m : Mask) (b : Bundle) : (x.setBundle m b).role = x.role := rfl
@[simp] theorem Wave.setBundle_vcount (m : Mask) (b : Bundle) : (x.setBundle m b).vcount = x.vcount := rfl
@[simp] theorem Wave.setBundle_slots (m : Mask) (b : Bundle) : (x.setBundle m b).slots = x.slots := rfl
@[simp] theorem Wave.setBundle_taskWave (m : Mask) (b : Bundle) : (x.setBundle m b).taskWave = x.taskWave := rfl
@[simp] theorem Wave.setBundle_started (m : Mask) (b : Bundle) : (x.setBundle m b).started = x.started := rfl
@[simp] theorem Wave.setBundle_lanes (m : Mask) (b : Bundle) : (x.setBundle m b).lanes = x.lanes := rfl
@[simp] theorem Wave.setBundle_v (m : Mask) (b : Bundle) : (x.setBundle m b).v = x.v := rfl
@[simp] theorem Wave.setBundle_s (m : Mask) (b : Bundle) : (x.setBundle m b).s = x.s := rfl
@[simp] theorem Wave.setBundle_p (m : Mask) (b : Bundle) : (x.setBundle m b).p = x.p := rfl
@[simp] theorem Wave.setBundle_j (m : Mask) (b : Bundle) : (x.setBundle m b).j = x.j := rfl
@[simp] theorem Wave.setBundle_f (m : Mask) (b : Bundle) : (x.setBundle m b).f = x.f := rfl
@[simp] theorem Wave.setBundle_acc (m : Mask) (b : Bundle) : (x.setBundle m b).acc = x.acc := rfl
@[simp] theorem Wave.setBundle_tw (m : Mask) (b : Bundle) : (x.setBundle m b).tw = x.tw := rfl
@[simp] theorem Wave.setBundle_satf (m : Mask) (b : Bundle) : (x.setBundle m b).satf = x.satf := rfl
@[simp] theorem Wave.setBundle_hmode (m : Mask) (b : Bundle) : (x.setBundle m b).hmode = x.hmode := rfl
@[simp] theorem Wave.setBundle_trappc (m : Mask) (b : Bundle) : (x.setBundle m b).trappc = x.trappc := rfl
@[simp] theorem Wave.setBundle_trapcause (m : Mask) (b : Bundle) : (x.setBundle m b).trapcause = x.trapcause := rfl
@[simp] theorem Wave.setBundle_trapmask (m : Mask) (b : Bundle) : (x.setBundle m b).trapmask = x.trapmask := rfl
@[simp] theorem Wave.setBundle_hlanes (m : Mask) (b : Bundle) : (x.setBundle m b).hlanes = x.hlanes := rfl
@[simp] theorem Wave.setBundle_left (m : Mask) (b : Bundle) : (x.setBundle m b).left = x.left := rfl
@[simp] theorem Wave.setBundle_saved (m : Mask) (b : Bundle) : (x.setBundle m b).saved = x.saved := rfl
@[simp] theorem Wave.setBundle_rngkey (m : Mask) (b : Bundle) : (x.setBundle m b).rngkey = x.rngkey := rfl
@[simp] theorem Wave.setBundle_rngctr (m : Mask) (b : Bundle) : (x.setBundle m b).rngctr = x.rngctr := rfl
@[simp] theorem Wave.setBundle_mprog (m : Mask) (b : Bundle) : (x.setBundle m b).mprog = x.mprog := rfl
@[simp] theorem Wave.setBundle_mpc (m : Mask) (b : Bundle) : (x.setBundle m b).mpc = x.mpc := rfl
@[simp] theorem Wave.setBundle_mlanes (m : Mask) (b : Bundle) : (x.setBundle m b).mlanes = x.mlanes := rfl
@[simp] theorem Wave.setBundle_cfr (m : Mask) (b : Bundle) : (x.setBundle m b).cfr = x.cfr := rfl
@[simp] theorem Wave.setBundle_snaps (m : Mask) (b : Bundle) : (x.setBundle m b).snaps = x.snaps := rfl
@[simp] theorem Wave.setBundle_latches (m : Mask) (b : Bundle) : (x.setBundle m b).latches = x.latches := rfl
@[simp] theorem Wave.setBundle_ibuf (m : Mask) (b : Bundle) : (x.setBundle m b).ibuf = x.ibuf := rfl
@[simp] theorem Wave.setBundle_routes (m : Mask) (b : Bundle) : (x.setBundle m b).routes = x.routes := rfl
@[simp] theorem Wave.setBundle_frel (m : Mask) (b : Bundle) : (x.setBundle m b).frel = x.frel := rfl
@[simp] theorem Wave.setBundle_frelDom (m : Mask) (b : Bundle) : (x.setBundle m b).frelDom = x.frelDom := rfl
@[simp] theorem Wave.setBundle_po (m : Mask) (b : Bundle) : (x.setBundle m b).po = x.po := rfl
@[simp] theorem Wave.setBundle_stuck (m : Mask) (b : Bundle) : (x.setBundle m b).stuck = x.stuck := rfl
@[simp] theorem Wave.setBundle_discard (m : Mask) (b : Bundle) : (x.setBundle m b).discard = x.discard := rfl
@[simp] theorem Wave.setBundle_yieldUntil (m : Mask) (b : Bundle) : (x.setBundle m b).yieldUntil = x.yieldUntil := rfl
@[simp] theorem Wave.setBundle_waited (m : Mask) (b : Bundle) : (x.setBundle m b).waited = x.waited := rfl
@[simp] theorem Wave.setBundle_parity (m : Mask) (b : Bundle) : (x.setBundle m b).parity = x.parity := rfl
@[simp] theorem Wave.setBundle_redun (m : Mask) (b : Bundle) : (x.setBundle m b).redun = x.redun := rfl
@[simp] theorem Wave.setBundle_shadow (m : Mask) (b : Bundle) : (x.setBundle m b).shadow = x.shadow := rfl
@[simp] theorem Wave.setBundle_vreg (m : Mask) (b : Bundle) (i j : Nat) : (x.setBundle m b).vreg i j = x.vreg i j := rfl
@[simp] theorem Wave.setBundle_sreg (m : Mask) (b : Bundle) (i : Nat) : (x.setBundle m b).sreg i = x.sreg i := rfl
@[simp] theorem Wave.setBundle_pmask (m : Mask) (b : Bundle) (i : Nat) : (x.setBundle m b).pmask i = x.pmask i := rfl
@[simp] theorem Wave.setBundle_join (m : Mask) (b : Bundle) (i : Nat) : (x.setBundle m b).join i = x.join i := rfl
@[simp] theorem Wave.setBundle_flag (m : Mask) (b : Bundle) (i : Nat) : (x.setBundle m b).flag i = x.flag i := rfl
@[simp] theorem Wave.setBundle_accElem (m : Mask) (b : Bundle) (i j : Nat) : (x.setBundle m b).accElem i j = x.accElem i j := rfl
@[simp] theorem Wave.setBundle_lane (m : Mask) (b : Bundle) (i : Nat) : (x.setBundle m b).lane i = x.lane i := rfl
@[simp] theorem Wave.setBundle_routeRec (m : Mask) (b : Bundle) (i : Nat) : (x.setBundle m b).routeRec i = x.routeRec i := rfl

/-! ### Wave.dropBundle -/

@[simp] theorem Wave.dropBundle_resident (m : Mask) : (x.dropBundle m).resident = x.resident := rfl
@[simp] theorem Wave.dropBundle_grid (m : Mask) : (x.dropBundle m).grid = x.grid := rfl
@[simp] theorem Wave.dropBundle_tslot (m : Mask) : (x.dropBundle m).tslot = x.tslot := rfl
@[simp] theorem Wave.dropBundle_widx (m : Mask) : (x.dropBundle m).widx = x.widx := rfl
@[simp] theorem Wave.dropBundle_role (m : Mask) : (x.dropBundle m).role = x.role := rfl
@[simp] theorem Wave.dropBundle_vcount (m : Mask) : (x.dropBundle m).vcount = x.vcount := rfl
@[simp] theorem Wave.dropBundle_slots (m : Mask) : (x.dropBundle m).slots = x.slots := rfl
@[simp] theorem Wave.dropBundle_taskWave (m : Mask) : (x.dropBundle m).taskWave = x.taskWave := rfl
@[simp] theorem Wave.dropBundle_started (m : Mask) : (x.dropBundle m).started = x.started := rfl
@[simp] theorem Wave.dropBundle_lanes (m : Mask) : (x.dropBundle m).lanes = x.lanes := rfl
@[simp] theorem Wave.dropBundle_v (m : Mask) : (x.dropBundle m).v = x.v := rfl
@[simp] theorem Wave.dropBundle_s (m : Mask) : (x.dropBundle m).s = x.s := rfl
@[simp] theorem Wave.dropBundle_p (m : Mask) : (x.dropBundle m).p = x.p := rfl
@[simp] theorem Wave.dropBundle_j (m : Mask) : (x.dropBundle m).j = x.j := rfl
@[simp] theorem Wave.dropBundle_f (m : Mask) : (x.dropBundle m).f = x.f := rfl
@[simp] theorem Wave.dropBundle_acc (m : Mask) : (x.dropBundle m).acc = x.acc := rfl
@[simp] theorem Wave.dropBundle_tw (m : Mask) : (x.dropBundle m).tw = x.tw := rfl
@[simp] theorem Wave.dropBundle_satf (m : Mask) : (x.dropBundle m).satf = x.satf := rfl
@[simp] theorem Wave.dropBundle_hmode (m : Mask) : (x.dropBundle m).hmode = x.hmode := rfl
@[simp] theorem Wave.dropBundle_trappc (m : Mask) : (x.dropBundle m).trappc = x.trappc := rfl
@[simp] theorem Wave.dropBundle_trapcause (m : Mask) : (x.dropBundle m).trapcause = x.trapcause := rfl
@[simp] theorem Wave.dropBundle_trapmask (m : Mask) : (x.dropBundle m).trapmask = x.trapmask := rfl
@[simp] theorem Wave.dropBundle_hlanes (m : Mask) : (x.dropBundle m).hlanes = x.hlanes := rfl
@[simp] theorem Wave.dropBundle_left (m : Mask) : (x.dropBundle m).left = x.left := rfl
@[simp] theorem Wave.dropBundle_saved (m : Mask) : (x.dropBundle m).saved = x.saved := rfl
@[simp] theorem Wave.dropBundle_rngkey (m : Mask) : (x.dropBundle m).rngkey = x.rngkey := rfl
@[simp] theorem Wave.dropBundle_rngctr (m : Mask) : (x.dropBundle m).rngctr = x.rngctr := rfl
@[simp] theorem Wave.dropBundle_mprog (m : Mask) : (x.dropBundle m).mprog = x.mprog := rfl
@[simp] theorem Wave.dropBundle_mpc (m : Mask) : (x.dropBundle m).mpc = x.mpc := rfl
@[simp] theorem Wave.dropBundle_mlanes (m : Mask) : (x.dropBundle m).mlanes = x.mlanes := rfl
@[simp] theorem Wave.dropBundle_cfr (m : Mask) : (x.dropBundle m).cfr = x.cfr := rfl
@[simp] theorem Wave.dropBundle_snaps (m : Mask) : (x.dropBundle m).snaps = x.snaps := rfl
@[simp] theorem Wave.dropBundle_latches (m : Mask) : (x.dropBundle m).latches = x.latches := rfl
@[simp] theorem Wave.dropBundle_ibuf (m : Mask) : (x.dropBundle m).ibuf = x.ibuf := rfl
@[simp] theorem Wave.dropBundle_routes (m : Mask) : (x.dropBundle m).routes = x.routes := rfl
@[simp] theorem Wave.dropBundle_frel (m : Mask) : (x.dropBundle m).frel = x.frel := rfl
@[simp] theorem Wave.dropBundle_frelDom (m : Mask) : (x.dropBundle m).frelDom = x.frelDom := rfl
@[simp] theorem Wave.dropBundle_po (m : Mask) : (x.dropBundle m).po = x.po := rfl
@[simp] theorem Wave.dropBundle_stuck (m : Mask) : (x.dropBundle m).stuck = x.stuck := rfl
@[simp] theorem Wave.dropBundle_discard (m : Mask) : (x.dropBundle m).discard = x.discard := rfl
@[simp] theorem Wave.dropBundle_yieldUntil (m : Mask) : (x.dropBundle m).yieldUntil = x.yieldUntil := rfl
@[simp] theorem Wave.dropBundle_waited (m : Mask) : (x.dropBundle m).waited = x.waited := rfl
@[simp] theorem Wave.dropBundle_parity (m : Mask) : (x.dropBundle m).parity = x.parity := rfl
@[simp] theorem Wave.dropBundle_redun (m : Mask) : (x.dropBundle m).redun = x.redun := rfl
@[simp] theorem Wave.dropBundle_shadow (m : Mask) : (x.dropBundle m).shadow = x.shadow := rfl
@[simp] theorem Wave.dropBundle_vreg (m : Mask) (i j : Nat) : (x.dropBundle m).vreg i j = x.vreg i j := rfl
@[simp] theorem Wave.dropBundle_sreg (m : Mask) (i : Nat) : (x.dropBundle m).sreg i = x.sreg i := rfl
@[simp] theorem Wave.dropBundle_pmask (m : Mask) (i : Nat) : (x.dropBundle m).pmask i = x.pmask i := rfl
@[simp] theorem Wave.dropBundle_join (m : Mask) (i : Nat) : (x.dropBundle m).join i = x.join i := rfl
@[simp] theorem Wave.dropBundle_flag (m : Mask) (i : Nat) : (x.dropBundle m).flag i = x.flag i := rfl
@[simp] theorem Wave.dropBundle_accElem (m : Mask) (i j : Nat) : (x.dropBundle m).accElem i j = x.accElem i j := rfl
@[simp] theorem Wave.dropBundle_lane (m : Mask) (i : Nat) : (x.dropBundle m).lane i = x.lane i := rfl
@[simp] theorem Wave.dropBundle_routeRec (m : Mask) (i : Nat) : (x.dropBundle m).routeRec i = x.routeRec i := rfl

/-! ### The registers written -/

/-- R54: a v-register of one lane after a write. -/
theorem Wave.setV_vreg (n l : Nat) (y : Word) (i j : Nat) (hl : l < 32) (hj : j < 32) :
    (x.setV n l y).vreg i j = if i = n ∧ j = l then y else x.vreg i j := by
  unfold Wave.vreg Wave.setV
  rw [SMap.get_set]
  by_cases h : i = n ∧ j = l
  · rw [if_pos h, if_pos (by omega)]
  · rw [if_neg h, if_neg (by omega)]

theorem Wave.setS_sreg (n : Nat) (y : Word) (i : Nat) : (x.setS n y).sreg i = if i = n then y else x.sreg i :=
  SMap.get_set _ _ _ _ _

theorem Wave.setP_pmask (n l : Nat) (b : Bool) (i : Nat) :
    (x.setP n l b).pmask i = if i = n then setBit (x.pmask n) l b else x.pmask i := SMap.get_set _ _ _ _ _

theorem Wave.setJoin_join (n : Nat) (y : Join) (i : Nat) : (x.setJoin n y).join i = if i = n then y else x.join i :=
  SMap.get_set _ _ _ _ _

theorem Wave.setFlag_flag (n y : Nat) (i : Nat) : (x.setFlag n y).flag i = if i = n then y else x.flag i :=
  SMap.get_set _ _ _ _ _

theorem Wave.setLane_lane (l : Nat) (y : Lane) (i : Nat) : (x.setLane l y).lane i = if i = l then y else x.lane i :=
  SMap.get_set _ _ _ _ _

theorem Wave.setRouteRec_routeRec (r : Nat) (y : Route1) (i : Nat) :
    (x.setRouteRec r y).routeRec i = if i = r then y else x.routeRec i := SMap.get_set _ _ _ _ _

theorem Wave.setAcc_accElem (n e : Nat) (y : Word) (i j : Nat) (he : e < 256) (hj : j < 256) :
    (x.setAcc n e y).accElem i j = if i = n ∧ j = e then y else x.accElem i j := by
  unfold Wave.accElem Wave.setAcc
  rw [SMap.get_set]
  by_cases h : i = n ∧ j = e
  · rw [if_pos h, if_pos (by omega)]
  · rw [if_neg h, if_neg (by omega)]

/-! ### State.modWave -/

theorem State.modWave_wave (k : Nat) (f : Wave → Wave) (j : Nat) :
    (s.modWave k f).wave j = if j = k then f (s.wave k) else s.wave j := State.setWave_wave _ _ _ _

@[simp] theorem State.modWave_wave_self (k : Nat) (f : Wave → Wave) : (s.modWave k f).wave k = f (s.wave k) :=
  State.setWave_wave_self _ _ _

@[simp] theorem State.modWave_sch (k : Nat) (f : Wave → Wave) : (s.modWave k f).sch = s.sch := rfl
@[simp] theorem State.modWave_reg (k : Nat) (f : Wave → Wave) : (s.modWave k f).reg = s.reg := rfl
@[simp] theorem State.modWave_pk (k : Nat) (f : Wave → Wave) : (s.modWave k f).pk = s.pk := rfl
@[simp] theorem State.modWave_m (k : Nat) (f : Wave → Wave) : (s.modWave k f).m = s.m := rfl
@[simp] theorem State.modWave_o (k : Nat) (f : Wave → Wave) : (s.modWave k f).o = s.o := rfl
@[simp] theorem State.modWave_x_teams (k : Nat) (f : Wave → Wave) : (s.modWave k f).x.teams = s.x.teams := rfl
@[simp] theorem State.modWave_x_cores (k : Nat) (f : Wave → Wave) : (s.modWave k f).x.cores = s.x.cores := rfl
@[simp] theorem State.modWave_x_grids (k : Nat) (f : Wave → Wave) : (s.modWave k f).x.grids = s.x.grids := rfl
@[simp] theorem State.modWave_x_nextGrid (k : Nat) (f : Wave → Wave) : (s.modWave k f).x.nextGrid = s.x.nextGrid := rfl
@[simp] theorem State.modWave_x_rrTenant (k : Nat) (f : Wave → Wave) : (s.modWave k f).x.rrTenant = s.x.rrTenant := rfl
@[simp] theorem State.modWave_x_groups (k : Nat) (f : Wave → Wave) : (s.modWave k f).x.groups = s.x.groups := rfl
@[simp] theorem State.modWave_x_tenants (k : Nat) (f : Wave → Wave) : (s.modWave k f).x.tenants = s.x.tenants := rfl
@[simp] theorem State.modWave_team (k : Nat) (f : Wave → Wave) (j : Nat) : (s.modWave k f).team j = s.team j := rfl
@[simp] theorem State.modWave_core (k : Nat) (f : Wave → Wave) (j : Nat) : (s.modWave k f).core j = s.core j := rfl
@[simp] theorem State.modWave_grid (k : Nat) (f : Wave → Wave) (j : Nat) : (s.modWave k f).grid j = s.grid j := rfl
@[simp] theorem State.modWave_tenant (k : Nat) (f : Wave → Wave) (j : Nat) : (s.modWave k f).tenant j = s.tenant j := rfl
@[simp] theorem State.modWave_op (k : Nat) (f : Wave → Wave) (j : Nat) : (s.modWave k f).op j = s.op j := rfl
@[simp] theorem State.modWave_copy (k : Nat) (f : Wave → Wave) (j : Nat) : (s.modWave k f).copy j = s.copy j := rfl
@[simp] theorem State.modWave_dev (k : Nat) (f : Wave → Wave) (j : Nat) : (s.modWave k f).dev j = s.dev j := rfl
@[simp] theorem State.modWave_route (k : Nat) (f : Wave → Wave) (j : Nat) : (s.modWave k f).route j = s.route j := rfl
@[simp] theorem State.modWave_port (k : Nat) (f : Wave → Wave) (j : Nat) : (s.modWave k f).port j = s.port j := rfl
@[simp] theorem State.modWave_ctrl (k : Nat) (f : Wave → Wave) (j : Nat) : (s.modWave k f).ctrl j = s.ctrl j := rfl
@[simp] theorem State.modWave_slice (k : Nat) (f : Wave → Wave) (j : Nat) : (s.modWave k f).slice j = s.slice j := rfl

/-! ### Bits of a mask -/

/-- A mask with one bit set to a value. -/
theorem setBit_get (m : Mask) (l : Nat) (b : Bool) (i : Nat) (hl : l < 32) (hi : i < 32) :
    (setBit m l b).getLsbD i = if i = l then b else m.getLsbD i := by
  unfold setBit
  by_cases h : i = l
  · subst h; cases b <;> simp [hi]
  · by_cases h2 : i < l <;> cases b <;> simp [h, hi, h2] <;> omega

/-- R54: a predicate of one lane after a write. -/
theorem Wave.setP_pred (n l : Nat) (b : Bool) (i j : Nat) (hl : l < 32) (hj : j < 32) :
    (x.setP n l b).pred i j = if i = n ∧ j = l then b else x.pred i j := by
  unfold Wave.pred
  rw [Wave.setP_pmask]
  by_cases h : i = n
  · subst h; simp [setBit_get _ _ _ _ hl hj]
  · simp [h]

end Sys2Proof.Machine
end

