-- ==== Sys2Proof/Laws/Memory.lean ====
section
/-! SUPPORT. Memory: its canonical form, the bytes of a line, and what the coherent read and write do to every byte. -/

set_option Elab.async false

namespace Sys2Proof.Machine

open Sys2Proof

/-- The memory of a state is canonical. -/
theorem setMemByte_wf {m : List Host.Cell} (a : Nat) (b : Byte) (h : Memory.wf m = true) : Memory.wf (setMemByte m a b) = true :=
  SMap.wf_set _ _ _ h

theorem memByte_set (m : List Host.Cell) (a k : Nat) (b : Byte) : memByte (setMemByte m a b) k = if k = a then b else memByte m k :=
  SMap.get_set _ _ _ _ _

theorem foldl_setMemByte_wf (f : Nat → Nat) (g : Nat → Byte) (ls : List Nat) {m : List Host.Cell} (h : Memory.wf m = true) :
    Memory.wf (ls.foldl (fun m i => setMemByte m (f i) (g i)) m) = true := by
  induction ls generalizing m with
  | nil => exact h
  | cons i ls ih => exact ih (setMemByte_wf _ _ h)

theorem putHome_wf (s : State) (line : Nat) (d : BitVec 512) (bad : Bool) (h : Memory.wf s.m.mem = true) :
    Memory.wf (s.putHome line d bad).m.mem = true :=
  foldl_setMemByte_wf _ _ _ h

/-- A number as bits from bytes laid out from the lowest. -/
theorem bytes_getLsbD (f : Nat → Byte) (n j : Nat) :
    ((List.range n).foldl (fun (d : BitVec 512) i => d ||| ((f i).setWidth 512 <<< (8 * i))) 0#512).getLsbD j =
      (decide (j < 512) && decide (j < 8 * n) && (f (j / 8)).getLsbD (j % 8)) := by
  induction n with
  | zero => simp
  | succ n ih =>
    rw [List.range_succ, List.foldl_append, List.foldl_cons, List.foldl_nil, BitVec.getLsbD_or, ih, BitVec.getLsbD_shiftLeft, BitVec.getLsbD_setWidth]
    by_cases h5 : j < 512 <;> simp only [h5, decide_true, decide_false, Bool.true_and, Bool.false_and, Bool.false_or, Bool.or_false]
    by_cases h : j < 8 * n
    · have h1 : j < 8 * (n + 1) := by omega
      simp [h, h1]
    · by_cases h1 : j < 8 * (n + 1)
      · have h2 : j / 8 = n := by omega
        have h3 : j - 8 * n = j % 8 := by omega
        have h4 : j % 8 < 512 := by omega
        simp [h, h1, h2, h3, h4]
      · have h2 : 8 ≤ j - 8 * n := by omega
        simp [h, h1, BitVec.getLsbD_of_ge _ _ h2]

theorem homeData_getLsbD (s : State) (line j : Nat) :
    (s.homeData line).getLsbD j = (decide (j < 512) && (s.homeByte (64 * line + j / 8)).getLsbD (j % 8)) := by
  unfold State.homeData
  rw [bytes_getLsbD (fun i => s.homeByte (64 * line + i))]
  by_cases h : j < 512
  · have : j < 8 * 64 := by omega
    simp [h, this]
  · simp [h]

theorem byteOf_getLsbD (d : BitVec 512) (i j : Nat) : (byteOf d i).getLsbD j = (decide (j < 8) && d.getLsbD (8 * i + j)) := by
  simp [byteOf]

/-- Byte i of a line at home. -/
theorem byteOf_homeData (s : State) (line i : Nat) (h : i < 64) : byteOf (s.homeData line) i = s.homeByte (64 * line + i) := by
  apply BitVec.eq_of_getLsbD_eq
  intro j hj
  rw [byteOf_getLsbD, homeData_getLsbD]
  have h1 : 8 * i + j < 512 := by omega
  have h2 : (8 * i + j) / 8 = i := by omega
  have h3 : (8 * i + j) % 8 = j := by omega
  simp [hj, h1, h2, h3]

/-- A line is its bytes. -/
theorem line_ext {d e : BitVec 512} (h : ∀ i, i < 64 → byteOf d i = byteOf e i) : d = e := by
  apply BitVec.eq_of_getLsbD_eq
  intro j hj
  have h1 := congrArg (fun b : Byte => b.getLsbD (j % 8)) (h (j / 8) (by omega))
  simp only [byteOf_getLsbD] at h1
  have h2 : j % 8 < 8 := by omega
  have h3 : 8 * (j / 8) + j % 8 = j := by omega
  simpa [h2, h3] using h1

theorem foldl_setMemByte_get (b : Nat) (g : Nat → Byte) (n : Nat) (m : List Host.Cell) (k : Nat) :
    memByte ((List.range n).foldl (fun m i => setMemByte m (b + i) (g i)) m) k = if b ≤ k ∧ k < b + n then g (k - b) else memByte m k := by
  induction n with
  | zero =>
    have : ¬ (b ≤ k ∧ k < b + 0) := by omega
    rw [if_neg this]; rfl
  | succ n ih =>
    rw [List.range_succ, List.foldl_append, List.foldl_cons, List.foldl_nil, memByte_set, ih]
    by_cases h : k = b + n
    · subst h; simp
    · have : (b ≤ k ∧ k < b + (n + 1)) ↔ (b ≤ k ∧ k < b + n) := by omega
      simp [h, this]

theorem homeByte_putHome (s : State) (line : Nat) (d : BitVec 512) (bad : Bool) (a : Nat) :
    (s.putHome line d bad).homeByte a = if a / 64 = line then byteOf d (a % 64) else s.homeByte a := by
  have hc : ∀ k, (s.putHome line d bad).cover k = s.cover k := fun _ => rfl
  unfold State.homeByte
  rw [hc]
  show memByte ((List.range 64).foldl (fun m i => setMemByte m (64 * line + i) (byteOf d i ^^^ s.cover (64 * line + i))) s.m.mem) a ^^^ _ = _
  rw [foldl_setMemByte_get (64 * line) (fun i => byteOf d i ^^^ s.cover (64 * line + i))]
  by_cases h : a / 64 = line
  · have h1 : 64 * line ≤ a ∧ a < 64 * line + 64 := by omega
    have h2 : a - 64 * line = a % 64 := by omega
    have h3 : 64 * line + a % 64 = a := by omega
    simp [h1, h, h2, h3, BitVec.xor_assoc]
  · have h1 : ¬ (64 * line ≤ a ∧ a < 64 * line + 64) := by omega
    simp [h1, h]

theorem homeData_putHome (s : State) (line : Nat) (d : BitVec 512) (bad : Bool) (k : Nat) :
    (s.putHome line d bad).homeData k = if k = line then d else s.homeData k := by
  apply line_ext
  intro i hi
  rw [byteOf_homeData _ _ _ hi, homeByte_putHome]
  have h1 : (64 * k + i) / 64 = k := by omega
  have h2 : (64 * k + i) % 64 = i := by omega
  rw [h1, h2]
  by_cases h : k = line <;> simp [h, byteOf_homeData _ _ _ hi]

theorem ff_shift_getLsbD (i k : Nat) : (0xFF#512 <<< (8 * i)).getLsbD k = (decide (k < 512) && decide (8 * i ≤ k) && decide (k < 8 * i + 8)) := by
  rw [BitVec.getLsbD_shiftLeft]
  have h : ∀ j, (0xFF#512).getLsbD j = decide (j < 8) := by
    intro j
    rw [BitVec.getLsbD_ofNat, show (0xFF : Nat) = 2 ^ 8 - 1 from rfl, Nat.testBit_two_pow_sub_one]
    by_cases h1 : j < 8
    · have : j < 512 := by omega
      simp [h1, this]
    · simp [h1]
  rw [h]
  clear h
  by_cases h1 : k < 512 <;> by_cases h2 : k < 8 * i
  · have : ¬ 8 * i ≤ k := by omega
    simp [h1, h2, this]
  · have h3 : 8 * i ≤ k := by omega
    have h4 : (k - 8 * i < 8) ↔ (k < 8 * i + 8) := by omega
    simp [h1, h2, h3, h4]
  · simp [h1]
  · simp [h1]

theorem putByte_getLsbD (d : BitVec 512) (i k : Nat) (b : Byte) (hk : k < 512) :
    (putByte d i b).getLsbD k = if k / 8 = i then b.getLsbD (k % 8) else d.getLsbD k := by
  unfold putByte
  rw [BitVec.getLsbD_or, BitVec.getLsbD_and, BitVec.getLsbD_not, ff_shift_getLsbD, BitVec.getLsbD_shiftLeft, BitVec.getLsbD_setWidth]
  by_cases h : k / 8 = i
  · have h1 : 8 * i ≤ k := by omega
    have h2 : k < 8 * i + 8 := by omega
    have h3 : k - 8 * i = k % 8 := by omega
    have h4 : k % 8 < 512 := by omega
    simp [hk, h, h1, h2, h3, h4]
  · by_cases h1 : k < 8 * i
    · have h2 : ¬ 8 * i ≤ k := by omega
      simp [hk, h, h1, h2]
    · have h2 : ¬ k < 8 * i + 8 := by omega
      have h3 : 8 ≤ k - 8 * i := by omega
      simp [hk, h, h1, h2, BitVec.getLsbD_of_ge _ _ h3]

theorem byteOf_putByte (d : BitVec 512) (i j : Nat) (b : Byte) (hj : j < 64) :
    byteOf (putByte d i b) j = if j = i then b else byteOf d j := by
  apply BitVec.eq_of_getLsbD_eq
  intro k hk
  rw [byteOf_getLsbD, putByte_getLsbD _ _ _ _ (by omega)]
  have h1 : (8 * j + k) / 8 = j := by omega
  have h2 : (8 * j + k) % 8 = k := by omega
  rw [h1, h2]
  by_cases h : j = i
  · simp [h]; exact fun _ => hk
  · rw [if_neg h, if_neg h, byteOf_getLsbD]

/-- Bytes written into a line. -/
theorem byteOf_putBytes (d : BitVec 512) (o n v j : Nat) (hj : j < 64) :
    byteOf (putBytes d o n v) j = if o ≤ j ∧ j < o + n then BitVec.ofNat 8 (v / 2 ^ (8 * (j - o))) else byteOf d j := by
  unfold putBytes
  induction n with
  | zero =>
    have : ¬ (o ≤ j ∧ j < o + 0) := by omega
    rw [if_neg this]; rfl
  | succ n ih =>
    rw [List.range_succ, List.foldl_append, List.foldl_cons, List.foldl_nil, byteOf_putByte _ _ _ _ hj, ih]
    by_cases h : j = o + n
    · subst h; simp
    · have : (o ≤ j ∧ j < o + (n + 1)) ↔ (o ≤ j ∧ j < o + n) := by omega
      simp [h, this]

/-! The lines of the caches. -/

theorem l1Line_setL1 (s : State) (c line c' line' : Nat) (x : Line) :
    (s.setL1 c line x).l1Line c' line' = if 256 * line' + c' = 256 * line + c then x else s.l1Line c' line' := SMap.get_set _ _ _ _ _

theorem llcLine_setLlc (s : State) (line line' : Nat) (x : Line) :
    (s.setLlc line x).llcLine line' = if line' = line then x else s.llcLine line' := SMap.get_set _ _ _ _ _

theorem SMap.mem_of_get {α : Type} {d : α} {m : SMap α} {k : Nat} (h : SMap.get d m k ≠ d) : ∃ e ∈ m, e.1 = k := by
  induction m with
  | nil => exact absurd rfl h
  | cons e m ih =>
    obtain ⟨a, v⟩ := e
    simp only [SMap.get] at h
    by_cases hk : a = k
    · exact ⟨(a, v), List.mem_cons_self, hk⟩
    · have hb : (k == a) = false := by simpa using fun h => hk h.symm
      rw [hb] at h
      obtain ⟨e', h1, h2⟩ := ih h
      exact ⟨e', List.mem_cons_of_mem _ h1, h2⟩

theorem mem_holders {s : State} {line c : Nat} : c ∈ s.holders line ↔ c < 256 ∧ (s.l1Line c line).valid = true := by
  unfold State.holders
  rw [List.mem_map]
  constructor
  · rintro ⟨e, he, rfl⟩
    rw [List.mem_filter] at he
    simp only [Bool.and_eq_true, beq_iff_eq] at he
    exact ⟨Nat.mod_lt _ (by decide), he.2.2⟩
  · rintro ⟨hc, hv⟩
    have hne : s.l1Line c line ≠ {} := by intro h; rw [h] at hv; exact absurd hv (by decide)
    obtain ⟨e, he, hk⟩ := SMap.mem_of_get hne
    have h1 : e.1 / 256 = line := by omega
    have h2 : e.1 % 256 = c := by omega
    refine ⟨e, ?_, h2⟩
    rw [List.mem_filter]
    simp [h1, h2, he, hv]

theorem owner_some {s : State} {line c : Nat} (h : s.owner line = some c) : c < 256 ∧ (s.l1Line c line).valid = true ∧ (s.l1Line c line).excl = true := by
  have h1 := mem_holders.1 (List.mem_of_find?_eq_some h)
  exact ⟨h1.1, h1.2, by simpa using List.find?_some (p := fun k => (s.l1Line k line).excl) h⟩

/-- The value of a line, without its poison. -/
theorem lineVal_owner {s : State} {line c : Nat} (h : s.owner line = some c) : (s.lineVal line).1 = (s.l1Line c line).data := by
  simp [State.lineVal, h]

theorem lineVal_noOwner {s : State} {line : Nat} (h : s.owner line = none) : (s.lineVal line).1 = (s.below line).1 := by
  simp [State.lineVal, h]

/-- The L1s of a state. -/
theorem owner_congr {s t : State} (h : t.m.l1 = s.m.l1) (line : Nat) : t.owner line = s.owner line := by
  simp [State.owner, State.holders, State.l1Line, h]

theorem l1Line_congr {s t : State} (h : t.m.l1 = s.m.l1) (c line : Nat) : t.l1Line c line = s.l1Line c line := by
  simp [State.l1Line, h]

/-- A copy leaves an L1: which core holds a line exclusively changes only where it was that copy. -/
theorem holders_empty (s : State) (c line line' : Nat) (hc : c < 256) :
    (s.setL1 c line {}).holders line' = (s.holders line').filter fun k => !(line' == line && k == c) := by
  unfold State.holders State.setL1
  simp only [SMap.set, if_true]
  rw [List.filter_filter, List.filter_map, List.filter_filter]
  congr 1
  apply List.filter_congr
  intro e _
  have hl : ∀ k q, SMap.get ({} : Line) (List.filter (fun e => e.1 != 256 * line + c) s.m.l1) (256 * q + k) =
      if 256 * q + k = 256 * line + c then {} else s.l1Line k q := by
    intro k q
    rw [SMap.get_remove]; rfl
  simp only [State.l1Line, Function.comp] at hl ⊢
  rw [hl]
  by_cases h1 : e.1 / 256 = line'
  · by_cases h2 : e.1 = 256 * line + c
    · have h3 : line' = line := by omega
      have h4 : e.1 % 256 = c := by omega
      have h5 : 256 * line' + e.1 % 256 = 256 * line + c := by omega
      rw [h1, if_pos h5]; simp [h3, h4]
    · have h3 : ¬ (line' = line ∧ e.1 % 256 = c) := by omega
      have h4 : ¬ 256 * line' + e.1 % 256 = 256 * line + c := by omega
      have h5 : (!(line' == line && e.1 % 256 == c)) = true := by
        by_cases h6 : line' = line
        · have h7 : e.1 % 256 ≠ c := fun h => h3 ⟨h6, h⟩
          simp [h7]
        · simp [h6]
      rw [h1, if_neg h4, h5]
      have h6 : (e.1 != 256 * line + c) = true := by simpa using h2
      rw [h6]; simp
  · have h6 : (e.1 / 256 == line') = false := by simpa using h1
    rw [h6]; simp

theorem find?_skip (L : List Nat) (p q : Nat → Bool) (c : Nat) (h : L.find? p ≠ some c) (hq : ∀ k ∈ L, k ≠ c → q k = p k) (hc : q c = false) :
    L.find? q = L.find? p := by
  induction L with
  | nil => rfl
  | cons a L ih =>
    rw [List.find?_cons, List.find?_cons]
    rw [List.find?_cons] at h
    have hq' : ∀ k ∈ L, k ≠ c → q k = p k := fun k hk => hq k (List.mem_cons_of_mem _ hk)
    by_cases ha : a = c
    · subst ha
      rw [hc]
      cases hp : p a with
      | true => rw [hp] at h; exact absurd rfl h
      | false => rw [hp] at h; exact ih h hq'
    · rw [hq a List.mem_cons_self ha]
      cases hp : p a with
      | true => rfl
      | false => rw [hp] at h; exact ih h hq'

/-- Who owns a line once a copy of another core is gone. -/
theorem owner_empty (s : State) (c line line' : Nat) (hc : c < 256) (ho : line' = line → s.owner line ≠ some c) :
    (s.setL1 c line {}).owner line' = s.owner line' := by
  unfold State.owner
  rw [holders_empty s c line line' hc, List.find?_filter]
  by_cases hl : line' = line
  · subst hl
    apply find?_skip _ _ _ c (ho rfl)
    · intro k _ hk
      have h1 : ¬ 256 * line' + k = 256 * line' + c := by omega
      rw [l1Line_setL1, if_neg h1]
      simp [hk]
    · simp
  · apply List.find?_congr
    intro k hk
    have hk' := mem_holders.1 hk
    have h1 : ¬ 256 * line' + k = 256 * line + c := by omega
    rw [l1Line_setL1, if_neg h1]
    simp [hl]

/-- A line no core but c owns has no owner once c's copy is gone and no other core holds it. -/
theorem owner_none_of_holders {s : State} {line : Nat} (h : s.holders line = []) : s.owner line = none := by
  simp [State.owner, h]

theorem homeData_congr {s t : State} (h : t.m.mem = s.m.mem) (hc : t.m.scrambled = s.m.scrambled) (line : Nat) : t.homeData line = s.homeData line := by
  simp [State.homeData, State.homeByte, State.cover, h, hc]

theorem below_congr {s t : State} (h : t.m.mem = s.m.mem) (hc : t.m.scrambled = s.m.scrambled) (hp : t.m.memPoison = s.m.memPoison)
    (hl : t.m.llc = s.m.llc) (line : Nat) : t.below line = s.below line := by
  simp only [State.below, State.llcLine, State.homePoison, hl, hp, homeData_congr h hc]
  rfl

theorem homeSlice_congr {s t : State} (h : t.reg = s.reg) (hr : t.pk.remap = s.pk.remap) (line : Nat) : t.homeSlice line = s.homeSlice line := by
  have h1 : ∀ n, t.dev n = s.dev n := fun n => by simp [State.dev, h]
  have h2 : ∀ a, t.ownHbm a = s.ownHbm a := fun a => by simp [State.ownHbm, State.pkgnum, h1]
  have h3 : ∀ k i, t.mapRow k i = s.mapRow k i := fun k i => by simp [State.mapRow, h]
  have h4 : ∀ a, t.location a = s.location a := fun a => by simp only [State.location, h3]
  have h5 : ∀ a, t.homeDie a = s.homeDie a := fun a => by simp only [State.homeDie, h4]
  simp only [State.homeSlice, h2, h5, State.physSlice, hr]

/-- The same outside the clocks, the holders' intervals and the allowances: what the checkers and the links keep. -/
structure Booked (s t : State) : Prop where
  reg : t.reg = s.reg
  pk : t.pk = { s.pk with slices := t.pk.slices, ctrls := t.pk.ctrls, ports := t.pk.ports }
  o : t.o = s.o
  sch : t.sch = s.sch
  x : t.x = { s.x with cores := t.x.cores, tenants := t.x.tenants }
  m : t.m = { s.m with intervals := t.m.intervals, held := t.m.held }

theorem Booked.refl (s : State) : Booked s s := ⟨rfl, rfl, rfl, rfl, rfl, rfl⟩

theorem Booked.trans {s t u : State} (h : Booked s t) (k : Booked t u) : Booked s u where
  reg := k.reg.trans h.reg
  pk := by rw [k.pk, h.pk]
  o := k.o.trans h.o
  sch := k.sch.trans h.sch
  x := by rw [k.x, h.x]
  m := by rw [k.m, h.m]

theorem Booked.ite {s t u : State} {p : Prop} [Decidable p] (h : p → Booked s t) (k : ¬ p → Booked s u) : Booked s (if p then t else u) := by
  split
  · exact h ‹_›
  · exact k ‹_›

theorem Booked.l1 {s t : State} (h : Booked s t) : t.m.l1 = s.m.l1 := by rw [h.m]
theorem Booked.llc {s t : State} (h : Booked s t) : t.m.llc = s.m.llc := by rw [h.m]
theorem Booked.mem {s t : State} (h : Booked s t) : t.m.mem = s.m.mem := by rw [h.m]
theorem Booked.llcLine {s t : State} (h : Booked s t) (k : Nat) : t.llcLine k = s.llcLine k := by
  unfold State.llcLine; rw [h.llc]
theorem Booked.homeData {s t : State} (h : Booked s t) (k : Nat) : t.homeData k = s.homeData k :=
  homeData_congr h.mem (by rw [h.m]) k
theorem Booked.below {s t : State} (h : Booked s t) (k : Nat) : t.below k = s.below k :=
  below_congr h.mem (by rw [h.m]) (by rw [h.m]) h.llc k

theorem setClock_booked (s : State) (h t : Nat) : Booked s (s.setClock h t) := by
  unfold State.setClock
  split <;> exact ⟨rfl, rfl, rfl, rfl, rfl, rfl⟩

theorem sendLt_booked (s : State) (a b : Nat) : Booked s (s.sendLt a b) := setClock_booked _ _ _
theorem tickAt_booked (s : State) (h : Nat) : Booked s (s.tickAt h) := setClock_booked _ _ _

theorem setHeld_booked (s : State) (line h : Nat) (x : Hold) : Booked s (s.setHeld line h x) := ⟨rfl, rfl, rfl, rfl, rfl, rfl⟩

theorem openAt_booked (s : State) (line h : Nat) (sw : Bool) : Booked s (s.openAt line h sw) :=
  .ite (fun _ => .refl s) fun _ => setHeld_booked _ _ _ _

theorem closeAt_booked (s : State) (line h : Nat) : Booked s (s.closeAt line h) :=
  .ite (fun _ => ⟨rfl, rfl, rfl, rfl, rfl, rfl⟩) fun _ => .refl s

theorem passLine_booked (s : State) (line a b : Nat) : Booked s (s.passLine line a b) := by
  have h : Booked s (if (s.held line b).opened then s.closeAt line b else s) := .ite (fun _ => closeAt_booked _ _ _) fun _ => .refl s
  exact (h.trans ((closeAt_booked _ _ _).trans (setClock_booked _ _ _))).trans (.ite (fun _ => openAt_booked _ _ _ _) fun _ => .refl _)

theorem shareAt_booked (s : State) (line h : Nat) : Booked s (s.shareAt line h) :=
  .ite (fun _ => .refl s) fun _ => (closeAt_booked _ _ _).trans ((setClock_booked _ _ _).trans (openAt_booked _ _ _ _))

theorem takeBack_booked (s : State) (line : Nat) : Booked s (s.takeBack line) :=
  .ite (fun _ => (closeAt_booked _ _ _).trans (setClock_booked _ _ _)) fun _ => .refl s

theorem grantLine_booked (s : State) (core line : Nat) (excl : Bool) : Booked s (s.grantLine core line excl) :=
  (Booked.ite (fun _ => (takeBack_booked s line).trans (closeAt_booked _ _ _)) fun _ => shareAt_booked s line _).trans
    ((setClock_booked _ _ _).trans (setHeld_booked _ _ _ _))

theorem returnLine_booked (s : State) (core line : Nat) : Booked s (s.returnLine core line) :=
  ((setClock_booked _ _ _).trans ((closeAt_booked _ _ _).trans (setClock_booked _ _ _))).trans (.ite (fun _ => .refl _) fun _ => openAt_booked _ _ _ _)

theorem writeAt_booked (s : State) (line : Nat) : Booked s (s.writeAt line) :=
  (takeBack_booked s line).trans (.ite (fun _ => (setClock_booked _ _ _).trans (setHeld_booked _ _ _ _))
    fun _ => (closeAt_booked _ _ _).trans ((setClock_booked _ _ _).trans (openAt_booked _ _ _ _)))

theorem payBytes_booked (s : State) (t kind n : Nat) : Booked s (s.payBytes t kind n) :=
  .ite (fun _ => .refl s) fun _ => ⟨rfl, rfl, rfl, rfl, rfl, rfl⟩

theorem bill_booked (s : State) (t : Nat) (links : List Nat) (n : Nat) : Booked s (s.bill t links n) := by
  refine .ite (fun _ => .refl s) fun _ => ?_
  induction links generalizing s with
  | nil => exact .refl s
  | cons l links ih => exact (payBytes_booked s t (linkKind l) n).trans (ih _)

theorem billBack_booked (s : State) (c line : Nat) : Booked s (s.billBack c line) :=
  .ite (fun _ => bill_booked _ _ _ _) fun _ => .refl s

/-- The same outside memory, its caches, and what the checkers and the links keep. -/
structure MemOnly (s t : State) : Prop where
  reg : t.reg = s.reg
  pk : t.pk = { s.pk with slices := t.pk.slices, ctrls := t.pk.ctrls, ports := t.pk.ports }
  o : t.o = s.o
  sch : t.sch = s.sch
  x : t.x = { s.x with cores := t.x.cores, tenants := t.x.tenants }
  m : t.m = { s.m with
    l1 := t.m.l1, llc := t.m.llc, mem := t.m.mem, memPoison := t.m.memPoison, tags := t.m.tags
    intervals := t.m.intervals, held := t.m.held }

theorem MemOnly.refl (s : State) : MemOnly s s := ⟨rfl, rfl, rfl, rfl, rfl, rfl⟩

theorem MemOnly.trans {s t u : State} (h : MemOnly s t) (k : MemOnly t u) : MemOnly s u where
  reg := k.reg.trans h.reg
  pk := by rw [k.pk, h.pk]
  o := k.o.trans h.o
  sch := k.sch.trans h.sch
  x := by rw [k.x, h.x]
  m := by rw [k.m, h.m]

theorem Booked.only {s t : State} (h : Booked s t) : MemOnly s t := ⟨h.reg, h.pk, h.o, h.sch, h.x, by rw [h.m]⟩

theorem setLlc_l1 (s : State) (line : Nat) (x : Line) : (s.setLlc line x).m.l1 = s.m.l1 := rfl
theorem setLlc_mem (s : State) (line : Nat) (x : Line) : (s.setLlc line x).m.mem = s.m.mem := rfl
theorem setL1_mem (s : State) (c line : Nat) (x : Line) : (s.setL1 c line x).m.mem = s.m.mem := rfl
theorem putHome_l1 (s : State) (line : Nat) (d : BitVec 512) (b : Bool) : (s.putHome line d b).m.l1 = s.m.l1 := rfl

theorem setL1_only (s : State) (c line : Nat) (x : Line) : MemOnly s (s.setL1 c line x) := ⟨rfl, rfl, rfl, rfl, rfl, rfl⟩
theorem setLlc_only (s : State) (line : Nat) (x : Line) : MemOnly s (s.setLlc line x) := ⟨rfl, rfl, rfl, rfl, rfl, rfl⟩
theorem putHome_only (s : State) (line : Nat) (d : BitVec 512) (b : Bool) : MemOnly s (s.putHome line d b) := ⟨rfl, rfl, rfl, rfl, rfl, rfl⟩

theorem setL1_congr {s t : State} (h : t.m.l1 = s.m.l1) (c line : Nat) (x : Line) : (t.setL1 c line x).m.l1 = (s.setL1 c line x).m.l1 := by
  simp only [State.setL1, h]

theorem dropL1_only (s : State) (c line : Nat) : MemOnly s (s.dropL1 c line) := by
  unfold State.dropL1
  split
  · exact (returnLine_booked s c line).only.trans (setL1_only _ _ _ _)
  · exact .refl s

theorem dropL1_l1 (s : State) (c line : Nat) :
    (s.dropL1 c line).m.l1 = if (s.l1Line c line).valid then (s.setL1 c line {}).m.l1 else s.m.l1 := by
  unfold State.dropL1
  split
  · exact setL1_congr (returnLine_booked s c line).l1 c line {}
  · rfl

theorem below_setL1 (s : State) (c line : Nat) (x : Line) (k : Nat) : (s.setL1 c line x).below k = s.below k :=
  below_congr rfl rfl rfl rfl k

theorem dropL1_below (s : State) (c line k : Nat) : (s.dropL1 c line).below k = s.below k := by
  unfold State.dropL1
  split
  · exact (below_setL1 _ _ _ _ k).trans ((returnLine_booked s c line).below k)
  · rfl

theorem dropL1_line (s : State) (c line c' line' : Nat) (h : ¬ 256 * line' + c' = 256 * line + c) : (s.dropL1 c line).l1Line c' line' = s.l1Line c' line' := by
  unfold State.l1Line
  rw [dropL1_l1]
  split
  · exact (l1Line_setL1 s c line c' line' {}).trans (if_neg h)
  · rfl

theorem dropL1_gone (s : State) (c line : Nat) : ((s.dropL1 c line).l1Line c line).valid = false := by
  unfold State.l1Line
  rw [dropL1_l1]
  split
  · exact congrArg Line.valid ((l1Line_setL1 s c line c line {}).trans (if_pos rfl))
  · rename_i h; simpa [State.l1Line] using h

theorem dropL1_owner (s : State) (c line line' : Nat) (hc : c < 256) (ho : line' = line → s.owner line ≠ some c) :
    (s.dropL1 c line).owner line' = s.owner line' := by
  by_cases h : (s.l1Line c line).valid
  · rw [owner_congr (t := s.dropL1 c line) (s := s.setL1 c line {}) (by rw [dropL1_l1, if_pos h])]
    exact owner_empty s c line line' hc ho
  · exact owner_congr (by rw [dropL1_l1, if_neg h]) line'

/-- R225: a line is taken from every L1 that does not own it. -/
theorem dropOthers (line : Nat) (o : Option Nat) (L : List Nat) (s : State) (hL : ∀ c ∈ L, c < 256) (ho : s.owner line = o) (u : State)
    (hu : u = L.foldl (fun s c => if (none : Option Nat) == some c || o == some c then s else s.dropL1 c line) s) :
    (∀ k, u.owner k = s.owner k) ∧ (∀ c k, (k ≠ line ∧ c < 256) ∨ o = some c → u.l1Line c k = s.l1Line c k) ∧
    (∀ k, u.below k = s.below k) ∧ (∀ c, c < 256 → (c ∈ L ∧ o ≠ some c) ∨ (s.l1Line c line).valid = false → (u.l1Line c line).valid = false) ∧
    MemOnly s u := by
  induction L generalizing s with
  | nil => subst hu; simp [MemOnly.refl]
  | cons a L ih =>
    rw [List.foldl_cons] at hu
    have ha := hL a List.mem_cons_self
    have hL' : ∀ c ∈ L, c < 256 := fun c hc => hL c (List.mem_cons_of_mem _ hc)
    by_cases h : o = some a
    · have hb : ((none : Option Nat) == some a || o == some a) = true := by simp [h]
      rw [hb, if_pos rfl] at hu
      obtain ⟨h1, h2, h3, h4, h5⟩ := ih s hL' ho hu
      refine ⟨h1, h2, h3, fun c hc h6 => h4 c hc ?_, h5⟩
      rcases h6 with ⟨h6, h7⟩ | h6
      · rcases List.mem_cons.1 h6 with rfl | h6
        · exact absurd h h7
        · exact .inl ⟨h6, h7⟩
      · exact .inr h6
    · have hb : ((none : Option Nat) == some a || o == some a) = false := by
        simp only [Bool.or_eq_false_iff, beq_eq_false_iff_ne]; exact ⟨by simp, h⟩
      rw [hb] at hu
      simp only [Bool.false_eq_true, if_false] at hu
      have hd : (s.dropL1 a line).owner line = o := by rw [dropL1_owner s a line line ha (fun _ => by rw [ho]; exact h), ho]
      obtain ⟨h1, h2, h3, h4, g⟩ := ih (s.dropL1 a line) hL' hd hu
      refine ⟨fun k => (h1 k).trans (dropL1_owner s a line k ha (fun _ => by rw [ho]; exact h)), fun c k hk => (h2 c k hk).trans (dropL1_line _ _ _ _ _ ?_),
        fun k => (h3 k).trans (dropL1_below _ _ _ _), fun c hc h6 => h4 c hc ?_, (dropL1_only s a line).trans g⟩
      · rcases hk with hk | hk
        · omega
        · have : c ≠ a := fun h7 => h (h7 ▸ hk)
          have hc := owner_some (ho.trans hk)
          omega
      · rcases h6 with ⟨h6, h7⟩ | h6
        · rcases List.mem_cons.1 h6 with rfl | h6
          · exact .inr (dropL1_gone _ _ _)
          · exact .inl ⟨h6, h7⟩
        · right
          by_cases h7 : c = a
          · subst h7; exact dropL1_gone _ _ _
          · rw [dropL1_line _ _ _ _ _ (by omega)]; exact h6

theorem below_llc {s : State} {line : Nat} (h : (s.llcLine line).valid = true) : (s.below line).1 = (s.llcLine line).data := by
  simp [State.below, h]

theorem below_home {s : State} {line : Nat} (h : (s.llcLine line).valid = false) : (s.below line).1 = s.homeData line := by
  simp [State.below, h]

theorem putHome_llc (s : State) (line : Nat) (d : BitVec 512) (b : Bool) : (s.putHome line d b).m.llc = s.m.llc := by
  simp only [State.putHome]

theorem homeData_setLlc (s : State) (line k : Nat) (x : Line) : (s.setLlc line x).homeData k = s.homeData k :=
  homeData_congr (by simp only [State.setLlc]) (by simp only [State.setLlc]) k

theorem below_valid {s : State} {line : Nat} (h : (s.llcLine line).valid = true) : s.below line = ((s.llcLine line).data, (s.llcLine line).poison) := by
  simp [State.below, h]

theorem below_setLlc (s : State) (line : Nat) (x : Line) (k : Nat) (hk : k ≠ line) : (s.setLlc line x).below k = s.below k := by
  unfold State.below
  rw [llcLine_setLlc, if_neg hk, homeData_setLlc]
  rfl

theorem llcLine_putHome (s : State) (line : Nat) (d : BitVec 512) (b : Bool) (k : Nat) : (s.putHome line d b).llcLine k = s.llcLine k := by
  unfold State.llcLine; rw [putHome_llc]

theorem below_putHome (s : State) (line : Nat) (d : BitVec 512) (b : Bool) (k : Nat) (hk : k ≠ line) :
    ((s.putHome line d b).below k).1 = (s.below k).1 := by
  unfold State.below
  rw [llcLine_putHome, homeData_putHome, if_neg hk]
  dsimp only
  split <;> rfl

/-- A value goes below every L1. -/
theorem putBelow_below (s : State) (line : Nat) (d : BitVec 512) (p : BitVec 16) (k : Nat) :
    ((s.putBelow line d p).below k).1 = if k = line then d else (s.below k).1 := by
  unfold State.putBelow
  split
  · by_cases hk : k = line
    · subst hk
      rw [below_llc (by rw [llcLine_setLlc, if_pos rfl]), llcLine_setLlc, if_pos rfl, if_pos rfl]
    · rw [below_setLlc _ _ _ _ hk, if_neg hk]
  · rename_i h
    by_cases hk : k = line
    · subst hk
      rw [below_home (by rw [llcLine_putHome]; simpa using h), homeData_putHome, if_pos rfl, if_pos rfl]
    · rw [below_putHome _ _ _ _ _ hk, if_neg hk]

theorem putBelow_only (s : State) (line : Nat) (d : BitVec 512) (p : BitVec 16) : MemOnly s (s.putBelow line d p) := by
  unfold State.putBelow
  split
  · exact setLlc_only _ _ _
  · exact putHome_only _ _ _ _

theorem putBelow_l1 (s : State) (line : Nat) (d : BitVec 512) (p : BitVec 16) : (s.putBelow line d p).m.l1 = s.m.l1 := by
  unfold State.putBelow
  split <;> rfl

/-- R25: a line that comes into its slice has the value it had. -/
theorem fillLlc_below (s : State) (line k : Nat) : (s.fillLlc line).below k = s.below k := by
  unfold State.fillLlc
  split
  · rfl
  · split
    · rfl
    · dsimp only
      generalize hr : s.below line = r
      by_cases hk : k = line
      · subst hk
        rw [below_valid (by rw [llcLine_setLlc, if_pos rfl]), llcLine_setLlc, if_pos rfl, hr]
      · rw [below_setLlc _ _ _ _ hk, (passLine_booked _ _ _ _).below]

theorem fillLlc_only (s : State) (line : Nat) : MemOnly s (s.fillLlc line) := by
  unfold State.fillLlc
  split
  · exact .refl s
  · split
    · exact .refl s
    · exact (passLine_booked _ _ _ _).only.trans (setLlc_only _ _ _)

theorem fillLlc_l1 (s : State) (line : Nat) : (s.fillLlc line).m.l1 = s.m.l1 := by
  unfold State.fillLlc
  split
  · rfl
  · split
    · rfl
    · dsimp only; rw [setLlc_l1, (passLine_booked _ _ _ _).l1]

theorem fillLlc_mem (s : State) (line : Nat) : (s.fillLlc line).m.mem = s.m.mem := by
  unfold State.fillLlc
  split
  · rfl
  · split
    · rfl
    · dsimp only; rw [setLlc_mem, (passLine_booked _ _ _ _).mem]

/-- An L1's data goes below. -/
theorem writeBack_below (s : State) (c line k : Nat) :
    ((s.writeBack c line).below k).1 = if k = line then (s.l1Line c line).data else (s.below k).1 := by
  unfold State.writeBack
  dsimp only
  rw [putBelow_below, (sendLt_booked _ _ _).below, fillLlc_below]

theorem writeBack_only (s : State) (c line : Nat) : MemOnly s (s.writeBack c line) :=
  (fillLlc_only _ _).trans ((setClock_booked _ _ _).only.trans (putBelow_only _ _ _ _))

theorem writeBack_l1 (s : State) (c line : Nat) : (s.writeBack c line).m.l1 = s.m.l1 := by
  unfold State.writeBack
  dsimp only
  exact (putBelow_l1 _ _ _ _).trans ((setClock_booked _ _ _).l1.trans (fillLlc_l1 _ _))

/-- A line's owner gives it up: its value is below, no other line changes. -/
theorem giveL1_owner (s : State) (c line : Nat) (h : s.owner line = some c) (k : Nat) :
    ((s.giveL1 c line).below k).1 = if k = line then (s.l1Line c line).data else (s.below k).1 := by
  have hv := owner_some h
  unfold State.giveL1
  dsimp only
  rw [dropL1_below]
  split
  · exact writeBack_below _ _ _ _
  · rename_i h1
    rw [h] at h1
    unfold State.saveL1
    dsimp only
    by_cases hd : (s.l1Line c line).dirty = true
    · simp only [hv.2.1, hd, Bool.and_self, if_true]
      exact (congrArg Prod.fst (below_setL1 _ _ _ _ k)).trans (writeBack_below _ _ _ _)
    · have hd : (s.l1Line c line).dirty = false := by simpa using hd
      simp only [hd, Bool.and_false, Bool.false_eq_true, if_false]
      simp [hd] at h1
      by_cases hk : k = line
      · subst hk; rw [if_pos rfl, h1]
      · rw [if_neg hk]

theorem evictL1_owner (s : State) (c line : Nat) (h : s.owner line = some c) (k : Nat) :
    ((s.evictL1 c line).below k).1 = if k = line then (s.l1Line c line).data else (s.below k).1 := by
  have hb := billBack_booked s c line
  rw [State.evictL1, giveL1_owner _ _ _ (by rw [owner_congr hb.l1]; exact h), l1Line_congr hb.l1, hb.below]

/-- A line given up is dropped once its data is below: until then at most its own copy becomes clean. -/
theorem evictL1_pre (s : State) (c line : Nat) :
    ∃ u, s.evictL1 c line = u.dropL1 c line ∧
      (u.m.l1 = s.m.l1 ∨ u.m.l1 = (s.setL1 c line { s.l1Line c line with dirty := false }).m.l1) ∧ MemOnly s u := by
  have hb := billBack_booked s c line
  have hl : (s.billBack c line).l1Line c line = s.l1Line c line := l1Line_congr hb.l1 _ _
  refine ⟨_, rfl, ?_⟩
  split
  · exact ⟨.inl ((writeBack_l1 _ _ _).trans hb.l1), hb.only.trans (writeBack_only _ _ _)⟩
  · unfold State.saveL1
    dsimp only
    split
    · refine ⟨.inr ?_, hb.only.trans ((writeBack_only _ c line).trans (setL1_only _ _ _ _))⟩
      simp [State.setL1, writeBack_l1, hb.l1, hl]
    · exact ⟨.inl hb.l1, hb.only⟩

theorem filter_insert {α : Type} (P : Nat × α → Bool) (m : SMap α) (key : Nat) (x : α) (h : ∀ y, P (key, y) = false) :
    List.filter P (SMap.insert m key x) = List.filter P m := by
  induction m with
  | nil => simp [SMap.insert, h]
  | cons e m ih =>
    obtain ⟨a, v⟩ := e
    simp only [SMap.insert]
    split
    · rw [List.filter_cons, h]; rfl
    · split
      · rename_i hk
        have hk : key = a := by simpa using hk
        subst hk
        simp [List.filter_cons, h]
      · rw [List.filter_cons, List.filter_cons, ih]

theorem holders_setL1_other (s : State) (c line k : Nat) (x : Line) (hc : c < 256) (hk : k ≠ line) (hx : x ≠ {}) :
    (s.setL1 c line x).holders k = s.holders k := by
  unfold State.holders
  have h1 : ∀ e : Nat × Line, (e.1 / 256 == k && ((s.setL1 c line x).l1Line (e.1 % 256) k).valid) = (e.1 / 256 == k && (s.l1Line (e.1 % 256) k).valid) := by
    intro e
    rw [l1Line_setL1, if_neg (by omega)]
  simp only [h1]
  congr 1
  show List.filter _ (SMap.set {} s.m.l1 (256 * line + c) x) = _
  unfold SMap.set
  rw [if_neg hx]
  apply filter_insert
  intro y
  have : ((256 * line + c) / 256 == k) = false := by
    have : (256 * line + c) / 256 = line := by omega
    rw [this]; simpa using fun h => hk h.symm
  simp [this]

/-- R225: taking a line from every L1 puts its value below and changes no byte's value. -/
theorem recall_spec (s : State) (line : Nat) :
    (∀ k, ((s.recall line none).lineVal k).1 = (s.lineVal k).1) ∧ (s.recall line none).owner line = none ∧
    (∀ k, k ≠ line → (s.recall line none).owner k = s.owner k) ∧
    (∀ c k, k ≠ line → c < 256 → (s.recall line none).l1Line c k = s.l1Line c k) ∧
    (∀ k, k ≠ line → ((s.recall line none).below k).1 = (s.below k).1) ∧
    MemOnly s (s.recall line none) := by
  have hL : ∀ c ∈ s.holders line, c < 256 := fun c hc => (mem_holders.1 hc).1
  obtain ⟨h1, h2, h3, h4, g⟩ := dropOthers line (s.owner line) (s.holders line) s hL rfl _ rfl
  generalize hu : (s.holders line).foldl (fun s_1 c => if (none : Option Nat) == some c || s.owner line == some c then s_1 else s_1.dropL1 c line) s = u at *
  have hr : s.recall line none = match s.owner line with | some c => u.evictL1 c line | none => u := by
    unfold State.recall
    dsimp only
    rw [hu]
    cases s.owner line <;> rfl
  cases ho : s.owner line with
  | none =>
    rw [ho] at hr
    dsimp only at hr
    rw [hr]
    have hn : u.owner line = none := by rw [h1, ho]
    refine ⟨fun k => ?_, hn, fun k _ => h1 k, fun c k hk hc => h2 c k (.inl ⟨hk, hc⟩), fun k _ => by rw [h3], g⟩
    unfold State.lineVal
    rw [h1]
    cases hk : s.owner k with
    | none => dsimp only; rw [h3]
    | some c =>
      dsimp only
      by_cases hkl : k = line
      · rw [hkl, ho] at hk; cases hk
      · rw [h2 c k (.inl ⟨hkl, (owner_some hk).1⟩)]
  | some c =>
    rw [ho] at hr
    dsimp only at hr
    rw [hr]
    have hc := owner_some ho
    have huo : u.owner line = some c := by rw [h1, ho]
    have hl : u.l1Line c line = s.l1Line c line := h2 c line (.inr ho)
    have hev := evictL1_owner u c line huo
    obtain ⟨w, hev', e1, e2⟩ := evictL1_pre u c line
    -- the copies of other cores and lines
    have hwl : ∀ a k, ¬ 256 * k + a = 256 * line + c → w.l1Line a k = u.l1Line a k := by
      intro a k hak
      rcases e1 with e1 | e1
      · exact l1Line_congr e1 a k
      · rw [l1Line_congr e1 a k, l1Line_setL1, if_neg hak]
    have hwv : (w.l1Line c line).valid = true := by
      rcases e1 with e1 | e1
      · rw [l1Line_congr e1, hl]; exact hc.2.1
      · rw [l1Line_congr e1, l1Line_setL1, if_pos rfl]; exact (congrArg Line.valid hl).trans hc.2.1
    have hwv' : ({ u.l1Line c line with dirty := false } : Line).valid = true := by rw [hl]; exact hc.2.1
    have hgone : (u.evictL1 c line).holders line = [] := by
      rw [List.eq_nil_iff_forall_not_mem]
      intro a ha
      obtain ⟨ha1, ha2⟩ := mem_holders.1 ha
      rw [hev'] at ha2
      by_cases hac : a = c
      · subst hac; rw [dropL1_gone] at ha2; cases ha2
      · rw [dropL1_line _ _ _ _ _ (by omega), hwl a line (by omega)] at ha2
        have : (u.l1Line a line).valid = false := by
          apply h4 a ha1
          by_cases hv : (s.l1Line a line).valid = true
          · exact .inl ⟨mem_holders.2 ⟨ha1, hv⟩, by rw [ho]; simpa using fun h => hac h.symm⟩
          · exact .inr (by simpa using hv)
        rw [this] at ha2; cases ha2
    have hnone := owner_none_of_holders hgone
    have hline : ∀ a k, k ≠ line → a < 256 → (u.evictL1 c line).l1Line a k = s.l1Line a k := by
      intro a k hk ha
      rw [hev', dropL1_line _ _ _ _ _ (by omega), hwl a k (by omega), h2 a k (.inl ⟨hk, ha⟩)]
    have hown : ∀ k, k ≠ line → (u.evictL1 c line).owner k = s.owner k := by
      intro k hk
      rw [hev', dropL1_owner w c line k hc.1 (fun h => absurd h hk)]
      rcases e1 with e1 | e1
      · rw [owner_congr e1, h1]
      · rw [owner_congr e1]
        have : (u.setL1 c line { u.l1Line c line with dirty := false }).owner k = u.owner k := by
          have hh : (u.setL1 c line { u.l1Line c line with dirty := false }).holders k = u.holders k := by
            exact holders_setL1_other u c line k _ hc.1 hk (by intro h0; rw [h0] at hwv'; exact absurd hwv' (by decide))
          unfold State.owner
          rw [hh]
          apply List.find?_congr
          intro a ha
          rw [l1Line_setL1, if_neg (by have := (mem_holders.1 ha).1; omega)]
        rw [this, h1]
    have hbel : ∀ k, k ≠ line → ((u.evictL1 c line).below k).1 = (s.below k).1 := fun k hk => by rw [hev, if_neg hk, h3]
    refine ⟨fun k => ?_, hnone, hown, hline, hbel, by rw [hev']; exact g.trans (e2.trans (dropL1_only w c line))⟩
    · by_cases hk : k = line
      · subst hk
        rw [lineVal_noOwner hnone, hev, if_pos rfl, lineVal_owner ho, hl]
      · unfold State.lineVal
        rw [hown k hk]
        cases hok : s.owner k with
        | none => exact hbel k hk
        | some a => dsimp only; rw [hline a k hk (owner_some hok).1]

/-- Dirty data of the LLC goes home: no line's value changes. -/
theorem cleanLlc_below (s : State) (line k : Nat) : ((s.cleanLlc line).below k).1 = (s.below k).1 := by
  unfold State.cleanLlc
  dsimp only
  split
  · rename_i h
    have hv : (s.llcLine line).valid = true := by simp only [Bool.and_eq_true] at h; exact h.1
    by_cases hk : k = line
    · subst hk
      rw [below_llc (by rw [llcLine_setLlc, if_pos rfl]; exact hv), llcLine_setLlc, if_pos rfl, below_llc hv]
    · rw [below_setLlc _ _ _ _ hk, below_putHome _ _ _ _ _ hk, (sendLt_booked _ _ _).below]
  · rfl

theorem cleanLlc_only (s : State) (line : Nat) : MemOnly s (s.cleanLlc line) := by
  unfold State.cleanLlc
  dsimp only
  split
  · exact (setClock_booked _ _ _).only.trans ((putHome_only _ _ _ _).trans (setLlc_only _ _ _))
  · exact .refl s

theorem cleanLlc_l1 (s : State) (line : Nat) : (s.cleanLlc line).m.l1 = s.m.l1 := by
  unfold State.cleanLlc
  dsimp only
  split
  · rw [setLlc_l1, putHome_l1, (sendLt_booked _ _ _).l1]
  · rfl

/-- The LLC drops a line: no other line's value changes, and none is valid there. -/
theorem dropLlc_below (s : State) (line k : Nat) (hk : k ≠ line) : ((s.dropLlc line).below k).1 = (s.below k).1 := by
  unfold State.dropLlc
  split
  · rw [below_setLlc _ _ _ _ hk, (passLine_booked _ _ _ _).below]
  · rfl

theorem dropLlc_gone (s : State) (line : Nat) : ((s.dropLlc line).llcLine line).valid = false := by
  unfold State.dropLlc
  split
  · rw [llcLine_setLlc, if_pos rfl]
  · rename_i h; simpa using h

theorem dropLlc_only (s : State) (line : Nat) : MemOnly s (s.dropLlc line) := by
  unfold State.dropLlc
  split
  · exact (passLine_booked _ _ _ _).only.trans (setLlc_only _ _ _)
  · exact .refl s

theorem dropLlc_l1 (s : State) (line : Nat) : (s.dropLlc line).m.l1 = s.m.l1 := by
  unfold State.dropLlc
  split
  · rw [setLlc_l1, (passLine_booked _ _ _ _).l1]
  · rfl

theorem lineVal_of {s t : State} (k : Nat) (ho : t.owner k = s.owner k) (hl : ∀ c, c < 256 → t.l1Line c k = s.l1Line c k)
    (hb : (t.below k).1 = (s.below k).1) : (t.lineVal k).1 = (s.lineVal k).1 := by
  unfold State.lineVal
  rw [ho]
  cases h : s.owner k with
  | none => exact hb
  | some c => dsimp only; rw [hl c (owner_some h).1]

/-- R225: a write at the line's home changes the bytes written and no other. -/
theorem writeHome_spec (s : State) (pa n v cache : Nat) (bad : Bool) :
    MemOnly s (s.writeHome pa n v cache bad) ∧ (s.writeHome pa n v cache bad).owner (pa / 64) = none ∧
    ∀ k, ((s.writeHome pa n v cache bad).lineVal k).1 = if k = pa / 64 then putBytes (s.lineVal k).1 (pa % 64) n v else (s.lineVal k).1 := by
  obtain ⟨r1, r2, r3, r4, r5, ro⟩ := recall_spec s (pa / 64)
  have rb : ((s.recall (pa / 64) none).below (pa / 64)).1 = (s.lineVal (pa / 64)).1 := by rw [← lineVal_noOwner r2, r1]
  unfold State.writeHome
  dsimp only
  generalize hu : s.recall (pa / 64) none = u at *
  generalize hd : putBytes (u.below (pa / 64)).1 (pa % 64) n v = d at *
  -- whatever the way, the L1s stay and the value goes below
  have fin : ∀ w : State, MemOnly u w → w.m.l1 = u.m.l1 → (∀ k, (w.below k).1 = if k = pa / 64 then d else (u.below k).1) →
      MemOnly s w ∧ w.owner (pa / 64) = none ∧
      ∀ k, (w.lineVal k).1 = if k = pa / 64 then putBytes (s.lineVal k).1 (pa % 64) n v else (s.lineVal k).1 := by
    intro w hw hl hb
    have hown : ∀ k, w.owner k = u.owner k := fun k => owner_congr hl k
    refine ⟨ro.trans hw, (hown _).trans r2, fun k => ?_⟩
    by_cases hk : k = pa / 64
    · subst hk
      rw [if_pos rfl, lineVal_noOwner ((hown _).trans r2), hb, if_pos rfl, ← hd, rb]
    · rw [if_neg hk, ← r1 k]
      exact lineVal_of k (hown k) (fun c _ => l1Line_congr hl c k) (by rw [hb, if_neg hk])
  split
  · generalize (if (u.below (pa / 64)).2 != 0#16 then (!(n == 64) || bad) else bad) = pz
    have hw := writeAt_booked ((u.cleanLlc (pa / 64)).dropLlc (pa / 64)) (pa / 64)
    refine fin _ ((cleanLlc_only _ _).trans ((dropLlc_only _ _).trans (hw.only.trans (putHome_only _ _ _ _))))
      (hw.l1.trans ((dropLlc_l1 _ _).trans (cleanLlc_l1 _ _))) fun k => ?_
    by_cases hk : k = pa / 64
    · subst hk
      rw [below_home (by rw [llcLine_putHome, hw.llcLine]; exact dropLlc_gone _ _), homeData_putHome, if_pos rfl, if_pos rfl]
    · rw [if_neg hk, below_putHome _ _ _ _ _ hk, hw.below, dropLlc_below _ _ _ hk, cleanLlc_below]
  · generalize markPoison _ _ _ _ _ = p
    have hw := writeAt_booked (u.fillLlc (pa / 64)) (pa / 64)
    refine fin _ ((fillLlc_only _ _).trans (hw.only.trans (putBelow_only _ _ _ _)))
      ((putBelow_l1 _ _ _ _).trans (hw.l1.trans (fillLlc_l1 _ _))) fun k => ?_
    rw [putBelow_below, hw.below, fillLlc_below]

theorem find?_insert {α : Type} (R : Nat → Bool) (f : Nat → Nat) (p : Nat → Bool) (m : SMap α) (key : Nat) (x : α) (o : Nat)
    (h : ((List.filter (fun e => R e.1) m).map fun e => f e.1).find? p = some o) (hR : R key = true) (hf : f key = o) (hp : p o = true) :
    ((List.filter (fun e => R e.1) (SMap.insert m key x)).map fun e => f e.1).find? p = some o := by
  induction m with
  | nil => simp at h
  | cons e m ih =>
    obtain ⟨a, v⟩ := e
    simp only [SMap.insert]
    split
    · simp [List.filter_cons, hR, hf, hp]
    · split
      · simp [List.filter_cons, hR, hf, hp]
      · rw [List.filter_cons] at h ⊢
        cases hRa : R a with
        | false => simp only [hRa] at h ⊢; exact ih h
        | true =>
          simp only [hRa, if_true, List.map_cons, List.find?_cons] at h ⊢
          cases hpa : p (f a) with
          | true => rw [hpa] at h; exact h
          | false => rw [hpa] at h; exact ih h

theorem owner_setL1_same (s : State) (c line : Nat) (x : Line) (hc : c < 256) (h : s.owner line = some c) (hv : x.valid = true) (he : x.excl = true) :
    (s.setL1 c line x).owner line = some c := by
  obtain ⟨-, hv0, he0⟩ := owner_some h
  have hx0 : x ≠ {} := by intro h0; rw [h0] at hv; exact absurd hv (by decide)
  have hl : ∀ a, a < 256 → a ≠ c → (s.setL1 c line x).l1Line a line = s.l1Line a line := fun a _ hac => by rw [l1Line_setL1, if_neg (by omega)]
  have hlc : (s.setL1 c line x).l1Line c line = x := by rw [l1Line_setL1, if_pos rfl]
  have hval : ∀ a, a < 256 → ((s.setL1 c line x).l1Line a line).valid = (s.l1Line a line).valid := by
    intro a ha
    by_cases hac : a = c
    · subst hac; rw [hlc, hv, hv0]
    · rw [hl a ha hac]
  have hex : ∀ a, a < 256 → ((s.setL1 c line x).l1Line a line).excl = (s.l1Line a line).excl := by
    intro a ha
    by_cases hac : a = c
    · subst hac; rw [hlc, he, he0]
    · rw [hl a ha hac]
  have key := find?_insert (fun k => k / 256 == line && (s.l1Line (k % 256) line).valid) (fun k => k % 256) (fun a => (s.l1Line a line).excl)
    s.m.l1 (256 * line + c) x c h (by
      have h1 : (256 * line + c) / 256 = line := by omega
      have h2 : (256 * line + c) % 256 = c := by omega
      simp [h1, h2, hv0]) (by omega) he0
  have hm : (s.setL1 c line x).m.l1 = SMap.insert s.m.l1 (256 * line + c) x := by
    simp only [State.setL1, SMap.set, if_neg hx0]
  unfold State.owner State.holders
  rw [hm]
  have h1 : (fun e : Nat × Line => e.1 / 256 == line && ((s.setL1 c line x).l1Line (e.1 % 256) line).valid) =
      fun e => (fun k => k / 256 == line && (s.l1Line (k % 256) line).valid) e.1 := by
    funext e; rw [hval _ (Nat.mod_lt _ (by decide))]
  rw [h1, ← key]
  apply List.find?_congr
  intro a ha
  obtain ⟨e, -, rfl⟩ := List.mem_map.1 ha
  exact hex _ (Nat.mod_lt _ (by decide))

/-- R225: a coherent write by a core changes the bytes written and no other. -/
theorem writePa_spec (s : State) (core pa n v cache : Nat) (bad : Bool) :
    MemOnly s (s.writePa core pa n v cache bad) ∧
    ∀ k, ((s.writePa core pa n v cache bad).lineVal k).1 = if k = pa / 64 then putBytes (s.lineVal k).1 (pa % 64) n v else (s.lineVal k).1 := by
  unfold State.writePa
  dsimp only
  split
  · rename_i h
    have h : s.owner (pa / 64) = some core := by
      simp only [Bool.and_eq_true, beq_iff_eq] at h; exact h.2
    obtain ⟨hc, hv, he⟩ := owner_some h
    generalize hx : ({ s.l1Line core (pa / 64) with dirty := true, data := putBytes (s.l1Line core (pa / 64)).data (pa % 64) n v, poison := markPoison (s.l1Line core (pa / 64)).poison (pa % 64) n 4 bad } : Line) = x
    have hxv : x.valid = true := by rw [← hx]; exact hv
    have hxe : x.excl = true := by rw [← hx]; exact he
    have hxd : x.data = putBytes (s.l1Line core (pa / 64)).data (pa % 64) n v := by rw [← hx]
    have hx0 : x ≠ {} := by intro h0; rw [h0] at hxv; exact absurd hxv (by decide)
    refine ⟨⟨rfl, rfl, rfl, rfl, rfl, rfl⟩, fun k => ?_⟩
    by_cases hk : k = pa / 64
    · subst hk
      have ho : (s.setL1 core (pa / 64) x).owner (pa / 64) = some core := owner_setL1_same s core (pa / 64) x hc h hxv hxe
      rw [if_pos rfl, lineVal_owner ho, lineVal_owner h, l1Line_setL1, if_pos rfl, hxd]
    · rw [if_neg hk]
      have hh := holders_setL1_other s core (pa / 64) k x hc hk hx0
      have hl : ∀ c, c < 256 → (s.setL1 core (pa / 64) x).l1Line c k = s.l1Line c k := fun c hc' => by rw [l1Line_setL1, if_neg (by omega)]
      apply lineVal_of k _ hl (by rw [below_setL1])
      unfold State.owner
      rw [hh]
      apply List.find?_congr
      intro a ha
      rw [hl a (mem_holders.1 ha).1]
  · obtain ⟨h1, -, h3⟩ := writeHome_spec s pa n v cache bad
    exact ⟨h1, h3⟩

/-! One byte as software reads it. -/

theorem byteOf_toNat (d : BitVec 512) (i : Nat) : (byteOf d i).toNat = bytesAt d i 1 := by
  unfold byteOf bytesAt
  exact BitVec.toNat_setWidth _ _

theorem readPhys_byte (s : State) (a : Nat) : s.readPhys a 1 = (byteOf (s.lineVal (a / 64)).1 (a % 64)).toNat := by
  rw [byteOf_toNat]
  unfold State.readPhys State.readPa State.overlay
  dsimp only
  have : ∀ (ps : List Prov) (v : Nat), ps.foldl (fun v (q : Prov) =>
      if (none : Option Nat) == some q.core && decide (q.pa < a + 1) && decide (a < q.pa + q.size) then
        (List.range 1).foldl (fun v i =>
          if decide (q.pa ≤ a + i) && decide (a + i < q.pa + q.size) then
            v - v / 2 ^ (8 * i) % 256 * 2 ^ (8 * i) + q.val / 2 ^ (8 * (a + i - q.pa)) % 256 * 2 ^ (8 * i) else v) v
      else v) v = v := by
    intro ps
    induction ps with
    | nil => exact fun _ => rfl
    | cons q ps ih => intro v; rw [List.foldl_cons, if_neg (by simp)]; exact ih v
  exact this _ _

/-- What a write of n bytes leaves in each byte. -/
def wrote (pa n v a old : Nat) : Nat := if pa ≤ a ∧ a < pa + n then v / 2 ^ (8 * (a - pa)) % 256 else old

theorem byte_after {s t : State} {pa n v : Nat} (hn : pa % 64 + n ≤ 64)
    (h : ∀ k, (t.lineVal k).1 = if k = pa / 64 then putBytes (s.lineVal k).1 (pa % 64) n v else (s.lineVal k).1) (a : Nat) :
    t.readPhys a 1 = wrote pa n v a (s.readPhys a 1) := by
  rw [readPhys_byte, readPhys_byte, h, wrote]
  by_cases hk : a / 64 = pa / 64
  · rw [if_pos hk, byteOf_putBytes _ _ _ _ _ (Nat.mod_lt _ (by decide))]
    have h1 : (pa % 64 ≤ a % 64 ∧ a % 64 < pa % 64 + n) ↔ (pa ≤ a ∧ a < pa + n) := by omega
    by_cases h2 : pa ≤ a ∧ a < pa + n
    · have h3 : a % 64 - pa % 64 = a - pa := by omega
      rw [if_pos (h1.2 h2), if_pos h2, h3, BitVec.toNat_ofNat]
    · rw [if_neg (fun h => h2 (h1.1 h)), if_neg h2]
  · rw [if_neg hk, if_neg (by omega)]

theorem readPhys_writeHome (s : State) (pa n v cache : Nat) (bad : Bool) (hn : pa % 64 + n ≤ 64) (a : Nat) :
    (s.writeHome pa n v cache bad).readPhys a 1 = wrote pa n v a (s.readPhys a 1) :=
  byte_after hn (writeHome_spec s pa n v cache bad).2.2 a

theorem readPhys_writePa (s : State) (core pa n v cache : Nat) (bad : Bool) (hn : pa % 64 + n ≤ 64) (a : Nat) :
    (s.writePa core pa n v cache bad).readPhys a 1 = wrote pa n v a (s.readPhys a 1) :=
  byte_after hn (writePa_spec s core pa n v cache bad).2 a

/-! Every memory operation keeps the canonical form. -/

theorem putBelow_wf {s : State} (line : Nat) (d : BitVec 512) (p : BitVec 16) (h : Memory.wf s.m.mem = true) :
    Memory.wf (s.putBelow line d p).m.mem = true := by
  unfold State.putBelow
  split
  · exact h
  · exact putHome_wf _ _ _ _ h

theorem writeBack_wf {s : State} (core line : Nat) (h : Memory.wf s.m.mem = true) : Memory.wf (s.writeBack core line).m.mem = true := by
  apply putBelow_wf
  rw [(sendLt_booked _ _ _).mem, fillLlc_mem]
  exact h

theorem saveL1_wf {s : State} (core line : Nat) (h : Memory.wf s.m.mem = true) : Memory.wf (s.saveL1 core line).m.mem = true := by
  unfold State.saveL1
  dsimp only
  split
  · rw [setL1_mem]; exact writeBack_wf _ _ h
  · exact h

theorem cleanL1_wf {s : State} (core line : Nat) (h : Memory.wf s.m.mem = true) : Memory.wf (s.cleanL1 core line).m.mem = true :=
  saveL1_wf core line (by rw [(billBack_booked s core line).mem]; exact h)

theorem dropL1_wf {s : State} (core line : Nat) (h : Memory.wf s.m.mem = true) : Memory.wf (s.dropL1 core line).m.mem = true := by
  unfold State.dropL1
  split
  · rw [setL1_mem, (returnLine_booked s core line).mem]; exact h
  · exact h

theorem giveL1_wf {s : State} (core line : Nat) (h : Memory.wf s.m.mem = true) : Memory.wf (s.giveL1 core line).m.mem = true := by
  unfold State.giveL1
  dsimp only
  apply dropL1_wf
  split
  · exact writeBack_wf _ _ h
  · exact saveL1_wf _ _ h

theorem evictL1_wf {s : State} (core line : Nat) (h : Memory.wf s.m.mem = true) : Memory.wf (s.evictL1 core line).m.mem = true :=
  giveL1_wf core line (by rw [(billBack_booked s core line).mem]; exact h)

theorem recall_wf {s : State} (line : Nat) (but : Option Nat) (h : Memory.wf s.m.mem = true) : Memory.wf (s.recall line but).m.mem = true := by
  unfold State.recall
  dsimp only
  have hf : ∀ (L : List Nat) (o : Option Nat) (s : State), Memory.wf s.m.mem = true →
      Memory.wf (L.foldl (fun s c => if but == some c || o == some c then s else s.dropL1 c line) s).m.mem = true := by
    intro L o
    induction L with
    | nil => exact fun _ h => h
    | cons c L ih =>
      intro s h
      rw [List.foldl_cons]
      apply ih
      split
      · exact h
      · exact dropL1_wf _ _ h
  split
  · split
    · exact hf _ _ _ h
    · exact evictL1_wf _ _ (hf _ _ _ h)
  · exact hf _ _ _ h

theorem yieldLine_wf {s : State} (core : Option Nat) (line : Nat) (h : Memory.wf s.m.mem = true) : Memory.wf (s.yieldLine core line).m.mem = true := by
  unfold State.yieldLine
  split
  · split
    · exact h
    · exact recall_wf _ _ h
  · exact h

theorem cleanLlc_wf {s : State} (line : Nat) (h : Memory.wf s.m.mem = true) : Memory.wf (s.cleanLlc line).m.mem = true := by
  unfold State.cleanLlc
  dsimp only
  split
  · rw [setLlc_mem]
    apply putHome_wf
    rw [(sendLt_booked _ _ _).mem]; exact h
  · exact h

theorem dropLlc_wf {s : State} (line : Nat) (h : Memory.wf s.m.mem = true) : Memory.wf (s.dropLlc line).m.mem = true := by
  unfold State.dropLlc
  split
  · rw [setLlc_mem, (passLine_booked _ _ _ _).mem]; exact h
  · exact h

theorem flushLine_wf {s : State} (line : Nat) (h : Memory.wf s.m.mem = true) : Memory.wf (s.flushLine line).m.mem = true :=
  dropLlc_wf _ (cleanLlc_wf _ (recall_wf _ _ h))

theorem gainL1_mem (s : State) (core line : Nat) (excl : Bool) (h : Memory.wf s.m.mem = true) : Memory.wf (s.gainL1 core line excl).m.mem = true := by
  unfold State.gainL1
  extract_lets u
  have h1 : Memory.wf u.m.mem = true := by
    show Memory.wf (if excl = true then s.recall line (some core)
      else match s.owner line with
        | some c => if (c == core) = true then s else s.evictL1 c line
        | none => s).m.mem = true
    split
    · exact recall_wf _ _ h
    · split
      · split
        · exact h
        · exact evictL1_wf _ _ h
      · exact h
  clear_value u
  split
  · exact h1
  · rw [setL1_mem, (grantLine_booked _ _ _ _).mem]; exact dropL1_wf _ _ h1

theorem writeHome_wf {s : State} (pa n v cache : Nat) (bad : Bool) (h : Memory.wf s.m.mem = true) :
    Memory.wf (s.writeHome pa n v cache bad).m.mem = true := by
  unfold State.writeHome
  dsimp only
  split
  · apply putHome_wf
    rw [(writeAt_booked _ _).mem]
    exact dropLlc_wf _ (cleanLlc_wf _ (recall_wf _ _ h))
  · apply putBelow_wf
    rw [(writeAt_booked _ _).mem, fillLlc_mem]
    exact recall_wf _ _ h

theorem writePa_wf {s : State} (core pa n v cache : Nat) (bad : Bool) (h : Memory.wf s.m.mem = true) :
    Memory.wf (s.writePa core pa n v cache bad).m.mem = true := by
  unfold State.writePa
  dsimp only
  split
  · exact h
  · exact writeHome_wf _ _ _ _ _ h

theorem reset_wf : Memory.wf State.reset.m.mem = true := rfl

end Sys2Proof.Machine
end

