-- ==== Sys2Proof/Laws/Access.lean ====
section
/-! SUPPORT. Requests (R29-R31, R335): what the requests of an agent change as they go, and the two ends of an action. -/

set_option Elab.async false

namespace Sys2Proof.Machine

open Sys2Proof

/-- The same outside what requests keep: allowances, turns, served and answered requests, the LLC's copies and the checkers' records. -/
structure Asked (s t : State) : Prop where
  reg : t.reg = s.reg
  pk : t.pk = { s.pk with slices := t.pk.slices, ctrls := t.pk.ctrls, ports := t.pk.ports, turns := t.pk.turns }
  o : t.o = s.o
  sch : t.sch = s.sch
  x : t.x = { s.x with cores := t.x.cores, tenants := t.x.tenants }
  mem : t.m.mem = s.m.mem
  l1 : t.m.l1 = s.m.l1
  below : ∀ k, t.below k = s.below k

theorem Asked.refl (s : State) : Asked s s := ⟨rfl, rfl, rfl, rfl, rfl, rfl, rfl, fun _ => rfl⟩

theorem Asked.trans {s t u : State} (h : Asked s t) (k : Asked t u) : Asked s u where
  reg := k.reg.trans h.reg
  pk := by rw [k.pk, h.pk]
  o := k.o.trans h.o
  sch := k.sch.trans h.sch
  x := by rw [k.x, h.x]
  mem := k.mem.trans h.mem
  l1 := k.l1.trans h.l1
  below := fun i => (k.below i).trans (h.below i)

theorem Asked.wave {s t : State} (h : Asked s t) (w : Nat) : t.wave w = s.wave w := by
  unfold State.wave; rw [h.x]

theorem Asked.team {s t : State} (h : Asked s t) (k : Nat) : t.team k = s.team k := by
  unfold State.team; rw [h.x]

theorem Booked.asked {s t : State} (h : Booked s t) : Asked s t :=
  ⟨h.reg, by rw [h.pk], h.o, h.sch, h.x, h.mem, h.l1, h.below⟩

theorem fillLlc_asked (s : State) (line : Nat) : Asked s (s.fillLlc line) :=
  have h := fillLlc_only s line
  ⟨h.reg, by rw [h.pk], h.o, h.sch, h.x, fillLlc_mem s line, fillLlc_l1 s line, fillLlc_below s line⟩

theorem takeTurns_asked (s : State) (t : Nat) (ls : List Nat) : Asked s (s.takeTurns t ls) := by
  unfold State.takeTurns
  split
  · exact .refl s
  · exact ⟨rfl, rfl, rfl, rfl, rfl, rfl, rfl, fun k => below_congr rfl rfl rfl rfl k⟩

/-- What a request may change as it goes: no register, no byte and no line that a core sees. -/
theorem askGo_asked (s : State) (a : Ask) : Asked s (s.askGo a) := by
  have h : Asked s ((s.bill a.tenant (s.askLinks a) a.bytes).takeTurns a.tenant (s.askLinks a)) :=
    (bill_booked _ _ _ _).asked.trans (takeTurns_asked _ _ _)
  unfold State.askGo
  dsimp only
  split
  · have h' := h.trans (u := { (s.bill a.tenant (s.askLinks a) a.bytes).takeTurns a.tenant (s.askLinks a) with
      m := { ((s.bill a.tenant (s.askLinks a) a.bytes).takeTurns a.tenant (s.askLinks a)).m with
        served := ((s.bill a.tenant (s.askLinks a) a.bytes).takeTurns a.tenant (s.askLinks a)).m.served.erase (a.key, a.line) } })
      ⟨rfl, rfl, rfl, rfl, rfl, rfl, rfl, fun k => below_congr rfl rfl rfl rfl k⟩
    split
    · exact h'
    · exact h'.trans (fillLlc_asked _ _)
  · exact h

/-- What the requests of an agent may change. -/
theorem passAsks_asked (s : State) (as : List Ask) : Asked s (s.passAsks as).2 := by
  induction as generalizing s with
  | nil => exact .refl s
  | cons a as ih =>
    unfold State.passAsks
    split
    · exact ih s
    · split
      · refine (askGo_asked s a).trans (.trans ?_ (ih _))
        exact ⟨rfl, rfl, rfl, rfl, rfl, rfl, rfl, fun k => below_congr rfl rfl rfl rfl k⟩
      · exact ⟨rfl, rfl, rfl, rfl, rfl, rfl, rfl, fun k => below_congr rfl rfl rfl rfl k⟩

/-- Requests that have been answered are not made again. -/
theorem passAsks_got (s : State) (as : List Ask) (h : ∀ a ∈ as, s.m.got.contains a.mark = true) : s.passAsks as = (true, s) := by
  induction as with
  | nil => rfl
  | cons a as ih =>
    unfold State.passAsks
    rw [if_pos (h a (List.mem_cons_self ..))]
    exact ih fun b hb => h b (List.mem_cons_of_mem _ hb)

/-- The two ends of an action: it takes place, once, after all its requests have been answered; or the agent waits. -/
theorem actOr_cases (s : State) (key : Nat) (as : List Ask) (wait f : State → State) :
    (s.passAsks as).1 = true ∧ (∀ a ∈ as, s.heldWrite a = false ∧ s.hostHolds a = false) ∧
      s.actOr key as wait f = (f (s.passAsks as).2).agentDone key ∨
    s.actOr key as wait f = wait (s.passAsks as).2 := by
  unfold State.actOr
  dsimp only
  split
  · next h =>
    simp only [Bool.and_eq_true, Bool.not_eq_true', List.any_eq_false, Bool.or_eq_true, not_or, Bool.not_eq_true] at h
    exact .inl ⟨h.1, h.2, rfl⟩
  · exact .inr rfl

/-- An agent that waits has changed nothing but what its requests keep. -/
theorem act_cases (s : State) (key : Nat) (as : List Ask) (f : State → State) :
    s.act key as f = (f (s.passAsks as).2).agentDone key ∨ Asked s (s.act key as f) := by
  rcases actOr_cases s key as id f with h | h
  · exact .inl h.2.2
  · right; unfold State.act; rw [h]; exact passAsks_asked s as

end Sys2Proof.Machine
end

