-- ==== Sys2Proof/Laws/Lanes.lean ====
section
/-! SUPPORT. The laws of lane masks and of what is done to every lane of a mask. -/

set_option Elab.async false

namespace Sys2Proof.Machine

open Sys2Proof

theorem mem_lanesOf {m : Mask} {l : Nat} : l ∈ lanesOf m ↔ m.getLsbD l = true := by
  unfold lanesOf
  rw [List.mem_filter, List.mem_range]
  exact ⟨fun h => h.2, fun h => ⟨BitVec.lt_of_getLsbD h, h⟩⟩

theorem lanesOf_lt {m : Mask} {l : Nat} (h : l ∈ lanesOf m) : l < 32 := BitVec.lt_of_getLsbD (mem_lanesOf.mp h)

theorem hasLane_lt {m : Mask} {l : Nat} (h : hasLane m l = true) : l < 32 := BitVec.lt_of_getLsbD h

theorem nodup_lanesOf (m : Mask) : (lanesOf m).Nodup := List.nodup_range.filter _

@[simp] theorem contains_lanesOf (m : Mask) (l : Nat) : (lanesOf m).contains l = hasLane m l := by
  by_cases h : hasLane m l = true
  · rw [h]; simp only [List.contains_iff_mem]; exact mem_lanesOf.mpr h
  · have h' : hasLane m l = false := by simpa using h
    rw [h']
    refine Bool.eq_false_iff.mpr fun hc => h ?_
    exact mem_lanesOf.mp (List.contains_iff_mem.mp hc)

/-- The mask of a list of lanes holds exactly those below 32. -/
theorem hasLane_maskOf (ls : List Nat) (l : Nat) : hasLane (maskOf ls) l = (decide (l < 32) && ls.contains l) := by
  unfold maskOf hasLane
  suffices H : ∀ (m : Mask), (ls.foldl (fun m l => m ||| (1#32 <<< l)) m).getLsbD l = (m.getLsbD l || (decide (l < 32) && ls.contains l)) by
    simpa using H 0#32
  induction ls with
  | nil => intro m; simp
  | cons a as ih =>
    intro m
    rw [List.foldl_cons, ih]
    have hbit : (1#32 <<< a).getLsbD l = (decide (l < 32) && (l == a)) := by
      by_cases h1 : l < 32
      · by_cases h2 : l < a
        · have h5 : (l == a) = false := by simp; omega
          simp [h1, h2, h5]
        · by_cases h3 : l = a
          · subst h3; simp [h1]
          · have h4 : l - a ≠ 0 := by omega
            have h5 : (l == a) = false := by simpa using h3
            rw [BitVec.getLsbD_shiftLeft, BitVec.getLsbD_one]
            simp [h1, h2, h4, h5]
      · simp [h1, BitVec.getLsbD_of_ge _ _ (Nat.le_of_not_lt h1)]
    rw [BitVec.getLsbD_or, hbit, List.contains_cons]
    cases m.getLsbD l <;> cases decide (l < 32) <;> simp

/-- What changing every lane of a list, each for itself, leaves of a lane. -/
theorem Wave.foldl_setLaneAt_lane (g : Nat → Lane → Lane) (ls : List Nat) (hn : ls.Nodup) (x : Wave) (l : Nat) :
    (ls.foldl (fun y k => y.setLane k (g k (y.lane k))) x).lane l = if ls.contains l then g l (x.lane l) else x.lane l := by
  induction ls generalizing x with
  | nil => simp
  | cons a as ih =>
    have ha := List.nodup_cons.mp hn
    rw [List.foldl_cons, ih ha.2, Wave.setLane_lane, List.contains_cons]
    by_cases h : l = a
    · subst h
      simp [ha.1]
    · simp [h]

/-- Changing lanes changes nothing else of a wave. -/
theorem Wave.foldl_setLane_rest (g : Wave → Nat → Lane) (ls : List Nat) (x : Wave) :
    ls.foldl (fun y k => y.setLane k (g y k)) x = { x with lanes := (ls.foldl (fun y k => y.setLane k (g y k)) x).lanes } := by
  induction ls generalizing x with
  | nil => rfl
  | cons a as ih => rw [List.foldl_cons, ih]; rfl

theorem Wave.setPcs_lane (x : Wave) (m : Mask) (pc : DWord) (l : Nat) :
    (x.setPcs m pc).lane l = if hasLane m l then { x.lane l with pc := pc } else x.lane l := by
  rw [← contains_lanesOf]
  exact Wave.foldl_setLaneAt_lane (fun _ k => { k with pc := pc }) _ (nodup_lanesOf m) x l

theorem Wave.setStatus_lane (x : Wave) (m : Mask) (st : Status) (l : Nat) :
    (x.setStatus m st).lane l = if hasLane m l then { x.lane l with st := st } else x.lane l := by
  rw [← contains_lanesOf]
  exact Wave.foldl_setLaneAt_lane (fun _ k => { k with st := st }) _ (nodup_lanesOf m) x l

theorem Wave.setPcs_rest (x : Wave) (m : Mask) (pc : DWord) : x.setPcs m pc = { x with lanes := (x.setPcs m pc).lanes } :=
  Wave.foldl_setLane_rest _ _ _

theorem Wave.setStatus_rest (x : Wave) (m : Mask) (st : Status) :
    x.setStatus m st = { x with lanes := (x.setStatus m st).lanes } := Wave.foldl_setLane_rest _ _ _

end Sys2Proof.Machine
end

