-- ==== Sys2Proof/Laws/Issue.lean ====
section
/-! SUPPORT. The spec lemmas of the shared operations of an issue: the checks of R91, the move past an instruction, the
writes of registers; what each answers and what it leaves alone, said once. -/

set_option Elab.async false

namespace Sys2Proof.Safety

open Sys2Proof Sys2Proof.Machine

/-! ### Frames -/

theorem OutsideWaves.refl (ws : List Nat) (s : State) : OutsideWaves ws s s :=
  ⟨rfl, rfl, rfl, rfl, rfl, rfl, rfl, rfl, rfl, rfl, rfl, rfl, fun _ _ => rfl⟩

theorem OutsideWaves.trans {ws : List Nat} {s t u : State} (h : OutsideWaves ws s t) (k : OutsideWaves ws t u) : OutsideWaves ws s u :=
  ⟨k.sch.trans h.sch, k.reg.trans h.reg, k.pk.trans h.pk, k.m.trans h.m, k.o.trans h.o, k.teams.trans h.teams, k.cores.trans h.cores,
   k.grids.trans h.grids, k.nextGrid.trans h.nextGrid, k.rrTenant.trans h.rrTenant, k.groups.trans h.groups, k.tenants.trans h.tenants,
   fun j hj => (k.waves j hj).trans (h.waves j hj)⟩

/-- A change of one wave leaves everything else alone. -/
theorem OutsideWaves.modWave (s : State) (w : Nat) (f : Wave → Wave) : OutsideWaves [w] s (s.modWave w f) :=
  ⟨rfl, rfl, rfl, rfl, rfl, rfl, rfl, rfl, rfl, rfl, rfl, rfl, fun k hk => by
    rw [State.modWave_wave, if_neg (by simpa using hk)]⟩

theorem OutsideWaves.grid {ws : List Nat} {s t : State} (h : OutsideWaves ws s t) (g : Nat) : t.grid g = s.grid g := by
  unfold State.grid; rw [h.grids]

theorem OutsideWaves.team {ws : List Nat} {s t : State} (h : OutsideWaves ws s t) (g : Nat) : t.team g = s.team g := by
  unfold State.team; rw [h.teams]

theorem OutsideWaves.core {ws : List Nat} {s t : State} (h : OutsideWaves ws s t) (g : Nat) : t.core g = s.core g := by
  unfold State.core; rw [h.cores]

theorem OutsideWaves.tenant {ws : List Nat} {s t : State} (h : OutsideWaves ws s t) (g : Nat) : t.tenant g = s.tenant g := by
  unfold State.tenant; rw [h.tenants]

end Sys2Proof.Safety

namespace Sys2Proof.Machine

open Sys2Proof Sys2Proof.Safety

/-! ### The issuing bundle and the checks of R91 -/

theorem State.cx_eq {s : State} {c : Cx} (h : s.cx = some c) :
    c.w = s.sch.cur.1 ∧ c.x = s.wave c.w ∧ c.pc = (c.x.lane (lowest c.b.lanes)).pc ∧ c.act = c.b.cl.act &&& c.b.lanes &&& ~~~c.b.cl.done ∧
    c.g = s.grid c.x.grid ∧ c.b.lanes = s.sch.cur.2 ∧ c.b ∈ c.x.bundles := by
  unfold State.cx at h
  dsimp only at h
  split at h
  · cases h
  · rename_i b hb
    cases h
    refine ⟨rfl, rfl, rfl, rfl, rfl, ?_, List.mem_of_find?_eq_some hb⟩
    simpa using List.find?_some hb

/-- The bundle that issues holds no lane back. -/
theorem State.cx_hold {s : State} {c : Cx} (h : s.cx = some c) : c.hold = 0#32 := by
  unfold State.cx at h
  dsimp only at h
  split at h
  · cases h
  · cases h; rfl

/-- The active lanes are lanes of the bundle. -/
theorem Cx.act_sub {s : State} {c : Cx} (h : s.cx = some c) {l : Nat} (hl : hasLane c.act l = true) : hasLane c.b.lanes l = true := by
  rw [(State.cx_eq h).2.2.2.1] at hl
  unfold hasLane at *
  rw [BitVec.getLsbD_and, BitVec.getLsbD_and, Bool.and_eq_true, Bool.and_eq_true] at hl
  exact hl.1.2

theorem ready_cause {s : State} {c : Cx} {i : Instr} {p : Pre} (h : Ready s c i p) : p.cause c = none := by
  have hi : p.illop c = false := by
    unfold Pre.illop
    have h1 : (p.last && !c.isLast) = false := by
      cases hp : p.last with
      | false => rfl
      | true => simp [h.last hp]
    have h2 : (p.set && c.badSet) = false := by
      cases hp : p.set with
      | false => rfl
      | true => simp [h.set hp]
    simp [h.good, h1, h2, h.flag]
  have hr : (p.role.isSome && p.role != some c.x.role) = false := by
    rcases h.role with hr | hr <;> simp [hr]
  unfold Pre.cause
  rw [hi, hr, h.inside]
  simp [h.bound]

theorem ready_noParity {s : State} {c : Cx} {i : Instr} {p : Pre} (h : Ready s c i p) : p.parity c = none := by
  unfold Pre.parity
  rw [List.find?_eq_none]
  intro r hr
  rw [h.parity r hr]
  simp

/-- R91: an instruction with nothing against it has its own effect. -/
theorem State.run_ready {s : State} {c : Cx} {i : Instr} {p : Pre} (h : Ready s c i p) {q : Cx → Pre} (hq : q c = p)
    (body : Cx → State → State) (own : State → Cx → Option (Nat × Mask) := fun _ _ => none) (ho : own s c = none := by rfl) :
    s.run q body own = body c s := by
  unfold State.run
  rw [h.issuing]
  simp only [hq, ready_cause h, ho, State.runReads, ready_noParity h]

/-- R202: the wave with MPROG clear. -/
theorem State.clearMprog_wave (s : State) (w j : Nat) :
    (s.clearMprog w).wave j = if j = w then { s.wave w with mprog := 0 } else s.wave j := by
  unfold State.clearMprog
  split
  · rename_i h
    have h' : (s.wave w).mprog = 0 := by simpa using h
    split
    · rename_i hj; subst hj
      show s.wave j = { s.wave j with mprog := 0 }
      rw [← h']
    · rfl
  · rw [State.modWave_wave]

@[simp] theorem State.clearMprog_wave_self (s : State) (w : Nat) : (s.clearMprog w).wave w = { s.wave w with mprog := 0 } := by
  rw [State.clearMprog_wave, if_pos rfl]

theorem outside_clearMprog (s : State) (w : Nat) : OutsideWaves [w] s (s.clearMprog w) := by
  unfold State.clearMprog
  split
  · exact OutsideWaves.refl _ s
  · exact OutsideWaves.modWave s w _

/-! ### The move past an instruction (R151, R80) -/

theorem outside_advance (s : State) (c : Cx) : OutsideWaves [c.w] s (s.advance c) := OutsideWaves.modWave s c.w _

/-- The wave of a bundle that moves past its instruction: MPROG is clear (R202). -/
theorem State.advance_wave (s : State) (c : Cx) : (s.advance c).wave c.w =
    { s.wave c.w with lanes := ((s.advance c).wave c.w).lanes, bundles := ((s.advance c).wave c.w).bundles, mprog := 0 } := by
  unfold State.advance
  rw [State.modWave_wave_self]
  dsimp only
  split
  · rfl
  · split <;> rw [Wave.setPcs_rest] <;> rfl

theorem State.advance_lane (s : State) (c : Cx) (hc : c.hold = 0#32) (l : Nat) : ((s.advance c).wave c.w).lane l =
    if hasLane c.b.lanes l then { (s.wave c.w).lane l with pc := c.pc + 4#64 } else (s.wave c.w).lane l := by
  unfold State.advance
  rw [State.modWave_wave_self]
  dsimp only
  rw [if_neg (by simp [hc])]
  have h : ∀ k, ({ (s.wave c.w).setPcs c.b.lanes (c.pc + 4#64) with mprog := 0 } : Wave).lane k = ((s.wave c.w).setPcs c.b.lanes (c.pc + 4#64)).lane k := fun _ => rfl
  split
  · rw [Wave.dropBundle_lane, h, Wave.setPcs_lane]
  · rw [Wave.setBundle_lane, h, Wave.setPcs_lane]

theorem State.advance_bundles (s : State) (c : Cx) (hc : c.hold = 0#32) : ((s.advance c).wave c.w).bundles =
    if c.isLast then (s.wave c.w).bundles.filter (fun b => !(b.lanes == c.b.lanes))
    else (s.wave c.w).bundles.map fun b => if b.lanes == c.b.lanes then { c.b with cl := { c.b.cl with done := 0#32 }, stall := .none, age := 0 } else b := by
  unfold State.advance
  rw [State.modWave_wave_self]
  dsimp only
  rw [if_neg (by simp [hc])]
  split
  · rw [Wave.setPcs_rest]; rfl
  · rw [Wave.setPcs_rest]; rfl

theorem moved_advance (s : State) (c : Cx) (hc : c.hold = 0#32) : Moved c (s.wave c.w) ((s.advance c).wave c.w) :=
  ⟨State.advance_lane s c hc, State.advance_bundles s c hc⟩

/-- A move after a change of the wave that leaves its lanes and bundles alone. -/
theorem moved_after {c : Cx} {x x' y : Wave} (h : Moved c x' y) (hl : ∀ l, x'.lane l = x.lane l) (hb : x'.bundles = x.bundles) : Moved c x y :=
  ⟨fun l => by rw [h.lanes, hl], by rw [h.bundles, hb]⟩

/-! ### Writes of registers (R14) -/

/-- The wave and lane of a write. -/
def Wr.wave : Wr → Nat
  | .v w _ _ _ => w
  | .p w _ _ _ => w
/-- The lane of a write. -/
def Wr.laneOf : Wr → Nat
  | .v _ l _ _ => l
  | .p _ l _ _ => l

/-- What a write leaves in V(n, l) of wave w. -/
def Wr.vget (w n l : Nat) (old : Word) : Wr → Word
  | .v w' l' n' x => if w = w' ∧ n = n' ∧ l = l' then x else old
  | .p .. => old
/-- What a write leaves in P(n, l) of wave w. -/
def Wr.pget (w n l : Nat) (old : Bool) : Wr → Bool
  | .v .. => old
  | .p w' l' n' b => if w = w' ∧ n = n' ∧ l = l' then b else old

theorem State.write1_vreg (s : State) (e : Wr) (he : e.laneOf < 32) (w n l : Nat) (hl : l < 32) :
    ((s.write1 e).wave w).vreg n l = e.vget w n l ((s.wave w).vreg n l) := by
  cases e with
  | v w' l' n' x =>
    simp only [State.write1, Wr.vget, State.modWave_wave]
    by_cases h : w = w'
    · subst h; simp only [if_true, true_and]
      exact Wave.setV_vreg _ _ _ _ _ _ he hl
    · simp [h]
  | p w' l' n' b =>
    simp only [State.write1, Wr.vget, State.modWave_wave]
    by_cases h : w = w'
    · subst h; simp
    · simp [h]

theorem State.write1_pred (s : State) (e : Wr) (he : e.laneOf < 32) (w n l : Nat) (hl : l < 32) :
    ((s.write1 e).wave w).pred n l = e.pget w n l ((s.wave w).pred n l) := by
  cases e with
  | v w' l' n' x =>
    simp only [State.write1, Wr.pget, State.modWave_wave]
    by_cases h : w = w'
    · subst h; rw [if_pos rfl]; rfl
    · simp [h]
  | p w' l' n' b =>
    simp only [State.write1, Wr.pget, State.modWave_wave]
    by_cases h : w = w'
    · subst h; simp only [if_true, true_and]
      exact Wave.setP_pred _ _ _ _ _ _ he hl
    · simp [h]

/-- A write of registers changes nothing else of a wave. -/
theorem State.write1_rest (s : State) (e : Wr) (w : Nat) :
    (s.write1 e).wave w = { s.wave w with v := ((s.write1 e).wave w).v, p := ((s.write1 e).wave w).p } := by
  cases e <;> simp only [State.write1, State.modWave_wave] <;> split <;> rename_i h <;> first | (subst h; rfl) | rfl

theorem outside_write1 (s : State) (e : Wr) : OutsideWaves [e.wave] s (s.write1 e) := by
  cases e with
  | v w l n x => exact OutsideWaves.modWave s w fun y => y.setV n l x
  | p w l n b => exact OutsideWaves.modWave s w fun y => y.setP n l b

theorem State.writeAll_cons (s : State) (e : Wr) (es : List Wr) : s.writeAll (e :: es) = (s.write1 e).writeAll es := rfl

/-- What writes in order leave in V(n, l) of wave w. -/
theorem State.writeAll_vreg (es : List Wr) (s : State) (he : ∀ e ∈ es, e.laneOf < 32) (w n l : Nat) (hl : l < 32) :
    ((s.writeAll es).wave w).vreg n l = es.foldl (fun old e => e.vget w n l old) ((s.wave w).vreg n l) := by
  induction es generalizing s with
  | nil => rfl
  | cons e es ih =>
    rw [State.writeAll_cons, ih _ (fun e h => he e (List.mem_cons_of_mem _ h)), State.write1_vreg _ _ (he e List.mem_cons_self) _ _ _ hl]
    rfl

theorem State.writeAll_pred (es : List Wr) (s : State) (he : ∀ e ∈ es, e.laneOf < 32) (w n l : Nat) (hl : l < 32) :
    ((s.writeAll es).wave w).pred n l = es.foldl (fun old e => e.pget w n l old) ((s.wave w).pred n l) := by
  induction es generalizing s with
  | nil => rfl
  | cons e es ih =>
    rw [State.writeAll_cons, ih _ (fun e h => he e (List.mem_cons_of_mem _ h)), State.write1_pred _ _ (he e List.mem_cons_self) _ _ _ hl]
    rfl

theorem State.writeAll_rest (es : List Wr) (s : State) (w : Nat) :
    (s.writeAll es).wave w = { s.wave w with v := ((s.writeAll es).wave w).v, p := ((s.writeAll es).wave w).p } := by
  induction es generalizing s with
  | nil => rfl
  | cons e es ih =>
    rw [State.writeAll_cons, ih, State.write1_rest]

theorem outside_writeAll (es : List Wr) (ws : List Nat) (he : ∀ e ∈ es, e.wave ∈ ws) (s : State) : OutsideWaves ws s (s.writeAll es) := by
  induction es generalizing s with
  | nil => exact OutsideWaves.refl _ s
  | cons e es ih =>
    have h1 := outside_write1 s e
    have hw := he e List.mem_cons_self
    refine OutsideWaves.trans ⟨h1.sch, h1.reg, h1.pk, h1.m, h1.o, h1.teams, h1.cores, h1.grids, h1.nextGrid, h1.rrTenant, h1.groups, h1.tenants,
      fun k hk => h1.waves k (by simp; rintro rfl; exact hk hw)⟩ (ih (fun e h => he e (List.mem_cons_of_mem _ h)) (s.write1 e))

end Sys2Proof.Machine
end

