-- ==== Sys2Proof/Laws/Compute.lean ====
section
/-! SUPPORT. The spec lemma of the operations of the computation class (R120): what they leave in every register of every lane. -/

set_option Elab.async false

namespace Sys2Proof.Machine

open Sys2Proof Sys2Proof.Safety

/-- Writes grouped by lane leave in a lane what its own group leaves. -/
theorem foldl_vget_byLane (f : Nat → List Wr) (hf : ∀ k, ∀ e ∈ f k, e.laneOf = k) (w n l : Nat) (ls : List Nat) (hn : ls.Nodup) (old : Word) :
    (ls.flatMap f).foldl (fun o e => e.vget w n l o) old = if ls.contains l then (f l).foldl (fun o e => e.vget w n l o) old else old := by
  have skip : ∀ k, k ≠ l → ∀ o, (f k).foldl (fun o e => e.vget w n l o) o = o := by
    intro k hk o
    have : ∀ es : List Wr, (∀ e ∈ es, e.laneOf = k) → ∀ o, es.foldl (fun o e => e.vget w n l o) o = o := by
      intro es
      induction es with
      | nil => intros; rfl
      | cons e es ih =>
        intro he o
        rw [List.foldl_cons, ih (fun e h => he e (List.mem_cons_of_mem _ h))]
        have hl : e.laneOf ≠ l := by rw [he e List.mem_cons_self]; exact hk
        cases e with
        | v w' l' n' x => simp only [Wr.vget]; rw [if_neg]; rintro ⟨-, -, rfl⟩; exact hl rfl
        | p => rfl
    exact this _ (hf k) o
  induction ls generalizing old with
  | nil => simp
  | cons k ks ih =>
    have hk := List.nodup_cons.mp hn
    rw [List.flatMap_cons, List.foldl_append, ih hk.2]
    by_cases h : l = k
    · subst h
      simp [hk.1]
    · rw [skip k (fun e => h e.symm)]
      simp [List.contains_cons, h]

theorem foldl_pget_byLane (f : Nat → List Wr) (hf : ∀ k, ∀ e ∈ f k, e.laneOf = k) (w n l : Nat) (ls : List Nat) (hn : ls.Nodup) (old : Bool) :
    (ls.flatMap f).foldl (fun o e => e.pget w n l o) old = if ls.contains l then (f l).foldl (fun o e => e.pget w n l o) old else old := by
  have skip : ∀ k, k ≠ l → ∀ o, (f k).foldl (fun o e => e.pget w n l o) o = o := by
    intro k hk o
    have : ∀ es : List Wr, (∀ e ∈ es, e.laneOf = k) → ∀ o, es.foldl (fun o e => e.pget w n l o) o = o := by
      intro es
      induction es with
      | nil => intros; rfl
      | cons e es ih =>
        intro he o
        rw [List.foldl_cons, ih (fun e h => he e (List.mem_cons_of_mem _ h))]
        have hl : e.laneOf ≠ l := by rw [he e List.mem_cons_self]; exact hk
        cases e with
        | p w' l' n' x => simp only [Wr.pget]; rw [if_neg]; rintro ⟨-, -, rfl⟩; exact hl rfl
        | v => rfl
    exact this _ (hf k) o
  induction ls generalizing old with
  | nil => simp
  | cons k ks ih =>
    have hk := List.nodup_cons.mp hn
    rw [List.flatMap_cons, List.foldl_append, ih hk.2]
    by_cases h : l = k
    · subst h
      simp [hk.1]
    · rw [skip k (fun e => h e.symm)]
      simp [List.contains_cons, h]

/-- R120: the writes of a lane are writes of that lane and wave. -/
theorem State.laneWrites_at (s : State) (w : Nat) (b : Bundle) (l : Nat) (op : LOp) (e : Wr) (he : e ∈ s.laneWrites w b l op) :
    e.laneOf = l ∧ e.wave = w := by
  cases op <;> simp [State.laneWrites, wrPair] at he
  all_goals first
    | (subst he; exact ⟨rfl, rfl⟩)
    | (rcases he with rfl | rfl <;> exact ⟨rfl, rfl⟩)

theorem State.lanesEffect_flat (s : State) (w : Nat) (b : Bundle) (m : Mask) (op : LOp) :
    s.lanesEffect ((lanesOf m).map fun l => (w, b, l)) op = s.writeAll ((lanesOf m).flatMap fun l => s.laneWrites w b l op) := by
  unfold State.lanesEffect
  rw [List.flatMap_map]

theorem outside_lanesEffect (s : State) (w : Nat) (b : Bundle) (m : Mask) (op : LOp) :
    OutsideWaves [w] s (s.lanesEffect ((lanesOf m).map fun l => (w, b, l)) op) := by
  rw [State.lanesEffect_flat]
  refine outside_writeAll _ _ (fun e he => ?_) s
  obtain ⟨l, -, h⟩ := List.mem_flatMap.mp he
  rw [(State.laneWrites_at s w b l op e h).2]
  exact List.mem_cons_self

/-- R120: the v-registers after the effect in the lanes of a mask. -/
theorem State.lanesEffect_vreg (s : State) (w : Nat) (b : Bundle) (m : Mask) (op : LOp) (n l : Nat) (hl : l < 32) :
    ((s.lanesEffect ((lanesOf m).map fun l => (w, b, l)) op).wave w).vreg n l =
      if hasLane m l then (s.laneWrites w b l op).foldl (fun o e => e.vget w n l o) ((s.wave w).vreg n l) else (s.wave w).vreg n l := by
  rw [State.lanesEffect_flat, State.writeAll_vreg _ _ _ _ _ _ hl,
    foldl_vget_byLane _ (fun k e he => (State.laneWrites_at s w b k op e he).1) _ _ _ _ (nodup_lanesOf m), contains_lanesOf]
  intro e he
  obtain ⟨k, hk, h⟩ := List.mem_flatMap.mp he
  rw [(State.laneWrites_at s w b k op e h).1]
  exact lanesOf_lt hk

/-- R120: the predicates after it. -/
theorem State.lanesEffect_pred (s : State) (w : Nat) (b : Bundle) (m : Mask) (op : LOp) (n l : Nat) (hl : l < 32) :
    ((s.lanesEffect ((lanesOf m).map fun l => (w, b, l)) op).wave w).pred n l =
      if hasLane m l then (s.laneWrites w b l op).foldl (fun o e => e.pget w n l o) ((s.wave w).pred n l) else (s.wave w).pred n l := by
  rw [State.lanesEffect_flat, State.writeAll_pred _ _ _ _ _ _ hl,
    foldl_pget_byLane _ (fun k e he => (State.laneWrites_at s w b k op e he).1) _ _ _ _ (nodup_lanesOf m), contains_lanesOf]
  intro e he
  obtain ⟨k, hk, h⟩ := List.mem_flatMap.mp he
  rw [(State.laneWrites_at s w b k op e h).1]
  exact lanesOf_lt hk

theorem State.lanesEffect_rest (s : State) (ls : List (Nat × Bundle × Nat)) (op : LOp) (w : Nat) :
    (s.lanesEffect ls op).wave w = { s.wave w with v := ((s.lanesEffect ls op).wave w).v, p := ((s.lanesEffect ls op).wave w).p } :=
  State.writeAll_rest _ s w

/-- An extended source reads the same with MPROG clear (R68). -/
theorem State.extVal_clearMprog (s : State) (w : Nat) (b : Bundle) (a : Ext) (l : Nat) :
    (s.clearMprog w).extVal w b a l = s.extVal w b a l := by
  have hx := State.clearMprog_wave_self s w
  have hf := outside_clearMprog s w
  unfold State.extVal State.teamOf State.teamKey State.pkgnum State.dev
  rw [hx, hf.sch, hf.reg]
  simp only [hf.grid, hf.team, Wave.vreg, Wave.sreg, Wave.effTw]

theorem State.extVal64_clearMprog (s : State) (w : Nat) (b : Bundle) (a : Ext) (l : Nat) :
    (s.clearMprog w).extVal64 w b a l = s.extVal64 w b a l := by
  unfold State.extVal64
  cases a <;> simp only [State.extVal_clearMprog, State.clearMprog_wave_self] <;> rfl

end Sys2Proof.Machine
end

