-- ==== Sys2Proof/Laws/Control.lean ====
section
/-! SUPPORT. The spec lemmas of control transfers (R170-R173): targets, links, and the lanes that leave. -/

set_option Elab.async false

namespace Sys2Proof.Machine

open Sys2Proof Sys2Proof.Safety

/-- R170: a displacement counts words. -/
theorem relTarget_relative (c : Cx) (d : Nat) : relTarget c.pc d = relative c d := by
  unfold relTarget relative
  rw [BitVec.shiftLeft_eq_mul_twoPow, BitVec.mul_comm]; rfl

/-- R170: bits [1:0] are ignored. -/
theorem indTarget_aligned (v : DWord) : indTarget v = aligned v := by
  unfold indTarget aligned
  have h : v &&& ~~~3#64 = (v >>> 2) <<< 2 := by
    ext i hi
    have h3 : (3#64).getLsbD i = decide (i < 2) := by
      rcases i with _ | _ | i
      · rfl
      · rfl
      · rw [show (3#64) = BitVec.ofNat 64 (2^2 - 1) from rfl, BitVec.getLsbD_ofNat, Nat.testBit_two_pow_sub_one]
        simp
    simp only [← BitVec.getLsbD_eq_getElem, BitVec.getLsbD_and, BitVec.getLsbD_not, h3, BitVec.getLsbD_shiftLeft, BitVec.getLsbD_ushiftRight]
    by_cases h2 : i < 2
    · simp [h2]
    · simp [h2, hi]; congr 1; omega
  rw [h]
  apply BitVec.eq_of_toNat_eq
  simp [Nat.shiftRight_eq_div_pow, Nat.shiftLeft_eq]

/-- The lanes of a mask that pass a test. -/
theorem hasLane_filter (m : Mask) (p : Nat → Bool) (l : Nat) :
    hasLane (maskOf ((lanesOf m).filter p)) l = (hasLane m l && p l) := by
  rw [hasLane_maskOf]
  by_cases h : hasLane m l = true
  · have hl := hasLane_lt h
    cases hp : p l
    · simp [hp]
    · simp only [hl, decide_true, Bool.true_and, h]
      exact List.contains_iff_mem.mpr (List.mem_filter.mpr ⟨mem_lanesOf.mpr h, hp⟩)
  · have h' : hasLane m l = false := by simpa using h
    rw [h', Bool.false_and, Bool.and_eq_false_iff]
    refine .inr (Bool.eq_false_iff.mpr fun hc => h ?_)
    exact mem_lanesOf.mp (List.mem_filter.mp (List.contains_iff_mem.mp hc)).1

/-- R170: a transfer with canonical targets. -/
theorem State.transfer_canonical (s : State) (c : Cx) (taken : Mask) (target : Nat → DWord) (link : Mask → Wave → Wave)
    (hc : ∀ l, hasLane taken l = true → canonical (target l) = true) :
    s.transfer c taken target link = (s.modWave c.w (link taken)).leave c fun l => if hasLane taken l then target l else c.pc + 4#64 := by
  unfold State.transfer
  dsimp only
  have : badTargets taken target = [] := by
    unfold badTargets
    rw [List.map_eq_nil_iff, List.filter_eq_nil_iff]
    intro l hl
    simp [hc l (mem_lanesOf.mp hl)]
  rw [this]

/-- Every lane of the bundle leaves for its address. -/
theorem left_leave (s : State) (c : Cx) (hc : c.hold = 0#32) (target : Nat → DWord) : Left c target (s.wave c.w) ((s.leave c target).wave c.w) := by
  unfold State.leave
  rw [State.modWave_wave_self]
  dsimp only
  rw [if_pos (by simp [hc]), show c.b.lanes &&& ~~~c.hold = c.b.lanes by rw [hc]; exact BitVec.and_allOnes]
  constructor
  · intro l
    refine (Wave.dropBundle_lane ((s.wave c.w).forLanes c.b.lanes fun y l => y.setLane l { y.lane l with pc := target l }) c.b.lanes l).trans ?_
    unfold Wave.forLanes
    rw [Wave.foldl_setLaneAt_lane (fun l k => { k with pc := target l }) _ (nodup_lanesOf _), contains_lanesOf]
  · unfold Wave.dropBundle Wave.forLanes
    rw [Wave.foldl_setLane_rest]

/-- Nothing else of the wave changes, but that MPROG is clear (R202). -/
theorem State.leave_wave (s : State) (c : Cx) (target : Nat → DWord) : (s.leave c target).wave c.w =
    { s.wave c.w with lanes := ((s.leave c target).wave c.w).lanes, bundles := ((s.leave c target).wave c.w).bundles, mprog := 0 } := by
  unfold State.leave
  rw [State.modWave_wave_self]
  unfold Wave.dropBundle Wave.unbundle Wave.forLanes
  rw [Wave.foldl_setLane_rest]
  split <;> rfl

/-- R171: what linking leaves in every v-register. -/
theorem Wave.linkLanes_vreg (x : Wave) (m : Mask) (d : Nat) (pc : DWord) (n l : Nat) (hl : l < 32) :
    (x.linkLanes m d pc).vreg n l = if hasLane m l then pairAfter (some d) (pc + 4#64) n (x.vreg n l) else x.vreg n l := by
  unfold Wave.linkLanes Wave.forLanes
  rw [← contains_lanesOf]
  have key : ∀ (ls : List Nat), ls.Nodup → (∀ k ∈ ls, k < 32) → ∀ x : Wave,
      (ls.foldl (fun y l => y.setVpair d l (pc + 4#64)) x).vreg n l = if ls.contains l then pairAfter (some d) (pc + 4#64) n (x.vreg n l) else x.vreg n l := by
    intro ls
    induction ls with
    | nil => simp
    | cons a as ih =>
      intro hn hk x
      have ha := List.nodup_cons.mp hn
      have ha32 := hk a List.mem_cons_self
      rw [List.foldl_cons, ih ha.2 (fun k h => hk k (List.mem_cons_of_mem _ h))]
      unfold Wave.setVpair
      rw [Wave.setV_vreg _ _ _ _ _ _ ha32 hl, Wave.setV_vreg _ _ _ _ _ _ ha32 hl, List.contains_cons]
      by_cases h : l = a
      · subst h; simp [ha.1, pairAfter]
      · simp [h]
  exact key _ (nodup_lanesOf m) (fun k h => lanesOf_lt h) x

theorem Wave.linkLanes_rest (x : Wave) (m : Mask) (d : Nat) (pc : DWord) : x.linkLanes m d pc = { x with v := (x.linkLanes m d pc).v } := by
  unfold Wave.linkLanes Wave.forLanes
  generalize lanesOf m = ls
  induction ls generalizing x with
  | nil => rfl
  | cons a as ih => rw [List.foldl_cons, ih]; rfl

theorem Wave.linkLanes_s (x : Wave) (m : Mask) (d : Nat) (pc : DWord) : (x.linkLanes m d pc).s = x.s := by rw [Wave.linkLanes_rest]
theorem Wave.linkLanes_rest' (x : Wave) (m : Mask) (d : Nat) (pc : DWord) : x.linkLanes m d pc = { x with v := (x.linkLanes m d pc).v, s := (x.linkLanes m d pc).s } := by
  rw [Wave.linkLanes_s]; exact Wave.linkLanes_rest x m d pc

theorem Cx.takes_lane (s : State) (c : Cx) (hx : c.x = s.wave c.w) (sense : Bool) (pred l : Nat) : hasLane (c.takes sense pred) l = taking s c sense pred l := by
  unfold Cx.takes taking
  rw [hasLane_filter, hx]

end Sys2Proof.Machine
end

