-- ==== Sys2Proof/Laws/Exec.lean ====
section
/-! SUPPORT. What `exec` calls for each constructor, said once, so that no later proof unfolds the dispatch. -/

set_option Elab.async false

namespace Sys2Proof.Machine

open Sys2Proof

variable (s : State)

@[simp] theorem exec_nop (sc : Scope) : exec (.nop sc) s = execNop sc s := rfl
@[simp] theorem exec_add (sc : Scope) (d : Nat) (a : Ext) (b : Nat) : exec (.add sc d a b) s = execAdd sc d a b s := rfl
@[simp] theorem exec_sub (sc : Scope) (d : Nat) (a : Ext) (b : Nat) : exec (.sub sc d a b) s = execSub sc d a b s := rfl
@[simp] theorem exec_mullo (sc : Scope) (d : Nat) (a : Ext) (b : Nat) : exec (.mullo sc d a b) s = execMullo sc d a b s := rfl
@[simp] theorem exec_mulhiI32 (sc : Scope) (d : Nat) (a : Ext) (b : Nat) : exec (.mulhiI32 sc d a b) s = execMulhiI32 sc d a b s := rfl
@[simp] theorem exec_mulhiN32 (sc : Scope) (d : Nat) (a : Ext) (b : Nat) : exec (.mulhiN32 sc d a b) s = execMulhiN32 sc d a b s := rfl
@[simp] theorem exec_mad (sc : Scope) (d : Nat) (a : Ext) (b : Nat) : exec (.mad sc d a b) s = execMad sc d a b s := rfl
@[simp] theorem exec_minI32 (sc : Scope) (d : Nat) (a : Ext) (b : Nat) : exec (.minI32 sc d a b) s = execMinI32 sc d a b s := rfl
@[simp] theorem exec_minN32 (sc : Scope) (d : Nat) (a : Ext) (b : Nat) : exec (.minN32 sc d a b) s = execMinN32 sc d a b s := rfl
@[simp] theorem exec_maxI32 (sc : Scope) (d : Nat) (a : Ext) (b : Nat) : exec (.maxI32 sc d a b) s = execMaxI32 sc d a b s := rfl
@[simp] theorem exec_maxN32 (sc : Scope) (d : Nat) (a : Ext) (b : Nat) : exec (.maxN32 sc d a b) s = execMaxN32 sc d a b s := rfl
@[simp] theorem exec_and (sc : Scope) (d : Nat) (a : Ext) (b : Nat) : exec (.and sc d a b) s = execAnd sc d a b s := rfl
@[simp] theorem exec_or (sc : Scope) (d : Nat) (a : Ext) (b : Nat) : exec (.or sc d a b) s = execOr sc d a b s := rfl
@[simp] theorem exec_xor (sc : Scope) (d : Nat) (a : Ext) (b : Nat) : exec (.xor sc d a b) s = execXor sc d a b s := rfl
@[simp] theorem exec_shl (sc : Scope) (d : Nat) (a : Ext) (b : Nat) : exec (.shl sc d a b) s = execShl sc d a b s := rfl
@[simp] theorem exec_shrN32 (sc : Scope) (d : Nat) (a : Ext) (b : Nat) : exec (.shrN32 sc d a b) s = execShrN32 sc d a b s := rfl
@[simp] theorem exec_shrI32 (sc : Scope) (d : Nat) (a : Ext) (b : Nat) : exec (.shrI32 sc d a b) s = execShrI32 sc d a b s := rfl
@[simp] theorem exec_rotl (sc : Scope) (d : Nat) (a : Ext) (b : Nat) : exec (.rotl sc d a b) s = execRotl sc d a b s := rfl
@[simp] theorem exec_clz (sc : Scope) (d : Nat) (a : Ext) : exec (.clz sc d a) s = execClz sc d a s := rfl
@[simp] theorem exec_popc (sc : Scope) (d : Nat) (a : Ext) : exec (.popc sc d a) s = execPopc sc d a s := rfl
@[simp] theorem exec_brev (sc : Scope) (d : Nat) (a : Ext) : exec (.brev sc d a) s = execBrev sc d a s := rfl
@[simp] theorem exec_sel (sc : Scope) (d : Nat) (a : Ext) (b : Nat) : exec (.sel sc d a b) s = execSel sc d a b s := rfl
@[simp] theorem exec_mov (sc : Scope) (d : Nat) (a : Ext) : exec (.mov sc d a) s = execMov sc d a s := rfl
@[simp] theorem exec_add64 (sc : Scope) (d : Nat) (a : Ext) (b : Nat) : exec (.add64 sc d a b) s = execAdd64 sc d a b s := rfl
@[simp] theorem exec_lea (sc : Scope) (d : Nat) (a : Ext) (b : Nat) : exec (.lea sc d a b) s = execLea sc d a b s := rfl
@[simp] theorem exec_cmpEq (sc : Scope) (d : Nat) (a : Ext) (b : Nat) : exec (.cmpEq sc d a b) s = execCmpEq sc d a b s := rfl
@[simp] theorem exec_cmpNe (sc : Scope) (d : Nat) (a : Ext) (b : Nat) : exec (.cmpNe sc d a b) s = execCmpNe sc d a b s := rfl
@[simp] theorem exec_cmpLtI32 (sc : Scope) (d : Nat) (a : Ext) (b : Nat) : exec (.cmpLtI32 sc d a b) s = execCmpLtI32 sc d a b s := rfl
@[simp] theorem exec_cmpLeI32 (sc : Scope) (d : Nat) (a : Ext) (b : Nat) : exec (.cmpLeI32 sc d a b) s = execCmpLeI32 sc d a b s := rfl
@[simp] theorem exec_cmpLtN32 (sc : Scope) (d : Nat) (a : Ext) (b : Nat) : exec (.cmpLtN32 sc d a b) s = execCmpLtN32 sc d a b s := rfl
@[simp] theorem exec_cmpLeN32 (sc : Scope) (d : Nat) (a : Ext) (b : Nat) : exec (.cmpLeN32 sc d a b) s = execCmpLeN32 sc d a b s := rfl
@[simp] theorem exec_exit : exec (.exit) s = execExit s := rfl
@[simp] theorem exec_addF32 (sc : Scope) (d : Nat) (a : Ext) (b : Nat) : exec (.addF32 sc d a b) s = execAddF32 sc d a b s := rfl
@[simp] theorem exec_subF32 (sc : Scope) (d : Nat) (a : Ext) (b : Nat) : exec (.subF32 sc d a b) s = execSubF32 sc d a b s := rfl
@[simp] theorem exec_mulF32 (sc : Scope) (d : Nat) (a : Ext) (b : Nat) : exec (.mulF32 sc d a b) s = execMulF32 sc d a b s := rfl
@[simp] theorem exec_fmaF32 (sc : Scope) (d : Nat) (a : Ext) (b : Nat) : exec (.fmaF32 sc d a b) s = execFmaF32 sc d a b s := rfl
@[simp] theorem exec_minF32 (sc : Scope) (d : Nat) (a : Ext) (b : Nat) : exec (.minF32 sc d a b) s = execMinF32 sc d a b s := rfl
@[simp] theorem exec_maxF32 (sc : Scope) (d : Nat) (a : Ext) (b : Nat) : exec (.maxF32 sc d a b) s = execMaxF32 sc d a b s := rfl
@[simp] theorem exec_negF32 (sc : Scope) (d : Nat) (a : Ext) : exec (.negF32 sc d a) s = execNegF32 sc d a s := rfl
@[simp] theorem exec_absF32 (sc : Scope) (d : Nat) (a : Ext) : exec (.absF32 sc d a) s = execAbsF32 sc d a s := rfl
@[simp] theorem exec_cmpEqF32 (sc : Scope) (d : Nat) (a : Ext) (b : Nat) : exec (.cmpEqF32 sc d a b) s = execCmpEqF32 sc d a b s := rfl
@[simp] theorem exec_cmpNeF32 (sc : Scope) (d : Nat) (a : Ext) (b : Nat) : exec (.cmpNeF32 sc d a b) s = execCmpNeF32 sc d a b s := rfl
@[simp] theorem exec_cmpLtF32 (sc : Scope) (d : Nat) (a : Ext) (b : Nat) : exec (.cmpLtF32 sc d a b) s = execCmpLtF32 sc d a b s := rfl
@[simp] theorem exec_cmpLeF32 (sc : Scope) (d : Nat) (a : Ext) (b : Nat) : exec (.cmpLeF32 sc d a b) s = execCmpLeF32 sc d a b s := rfl
@[simp] theorem exec_cmpUnF32 (sc : Scope) (d : Nat) (a : Ext) (b : Nat) : exec (.cmpUnF32 sc d a b) s = execCmpUnF32 sc d a b s := rfl
@[simp] theorem exec_rcp (sc : Scope) (d : Nat) (a : Ext) : exec (.rcp sc d a) s = execRcp sc d a s := rfl
@[simp] theorem exec_rsq (sc : Scope) (d : Nat) (a : Ext) : exec (.rsq sc d a) s = execRsq sc d a s := rfl
@[simp] theorem exec_sqrt (sc : Scope) (d : Nat) (a : Ext) : exec (.sqrt sc d a) s = execSqrt sc d a s := rfl
@[simp] theorem exec_exp2 (sc : Scope) (d : Nat) (a : Ext) : exec (.exp2 sc d a) s = execExp2 sc d a s := rfl
@[simp] theorem exec_log2 (sc : Scope) (d : Nat) (a : Ext) : exec (.log2 sc d a) s = execLog2 sc d a s := rfl
@[simp] theorem exec_sinpi (sc : Scope) (d : Nat) (a : Ext) : exec (.sinpi sc d a) s = execSinpi sc d a s := rfl
@[simp] theorem exec_cospi (sc : Scope) (d : Nat) (a : Ext) : exec (.cospi sc d a) s = execCospi sc d a s := rfl
@[simp] theorem exec_addBf16x2 (sc : Scope) (d : Nat) (a : Ext) (b : Nat) : exec (.addBf16x2 sc d a b) s = execAddBf16x2 sc d a b s := rfl
@[simp] theorem exec_mulBf16x2 (sc : Scope) (d : Nat) (a : Ext) (b : Nat) : exec (.mulBf16x2 sc d a b) s = execMulBf16x2 sc d a b s := rfl
@[simp] theorem exec_fmaBf16x2 (sc : Scope) (d : Nat) (a : Ext) (b : Nat) : exec (.fmaBf16x2 sc d a b) s = execFmaBf16x2 sc d a b s := rfl
@[simp] theorem exec_cvt (sc : Scope) (d : Nat) (a : Ext) (conv : Nat) (mode : Nat) : exec (.cvt sc d a conv mode) s = execCvt sc d a conv mode s := rfl
@[simp] theorem exec_atom (sc : Scope) (d : Nat) (a : Ext) (w : Bool) (opc : Nat) : exec (.atom sc d a w opc) s = execAtom sc d a w opc s := rfl
@[simp] theorem exec_batom (sc : Scope) (d : Nat) (a : Ext) (opc : Nat) : exec (.batom sc d a opc) s = execBatom sc d a opc s := rfl
@[simp] theorem exec_copy (nxt : Bool) (h : Nat) (a : Ext) (dir : Nat) (q : Nat) : exec (.copy nxt h a dir q) s = execCopy nxt h a dir q s := rfl
@[simp] theorem exec_spawn (d : Nat) (a : Ext) (b : Nat) : exec (.spawn d a b) s = execSpawn d a b s := rfl
@[simp] theorem exec_tsget (d : Nat) : exec (.tsget d) s = execTsget d s := rfl
@[simp] theorem exec_brx (d : Nat) (a : Ext) : exec (.brx d a) s = execBrx d a s := rfl
@[simp] theorem exec_ret (a : Ext) : exec (.ret a) s = execRet a s := rfl
@[simp] theorem exec_shfl (sc : Scope) (d : Nat) (a : Ext) (b : Nat) : exec (.shfl sc d a b) s = execShfl sc d a b s := rfl
@[simp] theorem exec_put (sc : Scope) (d : Nat) (a : Ext) (b : Nat) : exec (.put sc d a b) s = execPut sc d a b s := rfl
@[simp] theorem exec_bcast (sc : Scope) (d : Nat) (a : Ext) (b : Nat) : exec (.bcast sc d a b) s = execBcast sc d a b s := rfl
@[simp] theorem exec_voteAny (sc : Scope) (d : Nat) (b : Nat) : exec (.voteAny sc d b) s = execVoteAny sc d b s := rfl
@[simp] theorem exec_voteAll (sc : Scope) (d : Nat) (b : Nat) : exec (.voteAll sc d b) s = execVoteAll sc d b s := rfl
@[simp] theorem exec_ballot (sc : Scope) (d : Nat) (b : Nat) : exec (.ballot sc d b) s = execBallot sc d b s := rfl
@[simp] theorem exec_red (sc : Scope) (d : Nat) (a : Ext) (ty : Nat) (opr : Nat) : exec (.red sc d a ty opr) s = execRed sc d a ty opr s := rfl
@[simp] theorem exec_scan (sc : Scope) (d : Nat) (a : Ext) (x : Bool) (ty : Nat) (opr : Nat) : exec (.scan sc d a x ty opr) s = execScan sc d a x ty opr s := rfl
@[simp] theorem exec_matchrank (sc : Scope) (d : Nat) (a : Ext) : exec (.matchrank sc d a) s = execMatchrank sc d a s := rfl
@[simp] theorem exec_histo (sc : Scope) (d : Nat) (a : Ext) : exec (.histo sc d a) s = execHisto sc d a s := rfl
@[simp] theorem exec_hash (sc : Scope) (d : Nat) (a : Ext) (b : Nat) : exec (.hash sc d a b) s = execHash sc d a b s := rfl
@[simp] theorem exec_rng (d : Nat) : exec (.rng d) s = execRng d s := rfl
@[simp] theorem exec_sample (sc : Scope) (d : Nat) (a : Ext) (b : Nat) : exec (.sample sc d a b) s = execSample sc d a b s := rfl
@[simp] theorem exec_jtab (cnt : Nat) (a : Ext) (b : Nat) : exec (.jtab cnt a b) s = execJtab cnt a b s := rfl
@[simp] theorem exec_join (j : Nat) : exec (.join j) s = execJoin j s := rfl
@[simp] theorem exec_joinleave (j : Nat) : exec (.joinleave j) s = execJoinleave j s := rfl
@[simp] theorem exec_addi (sc : Scope) (d : Nat) (a : Nat) (imm : Nat) : exec (.addi sc d a imm) s = execAddi sc d a imm s := rfl
@[simp] theorem exec_andi (sc : Scope) (d : Nat) (a : Nat) (imm : Nat) : exec (.andi sc d a imm) s = execAndi sc d a imm s := rfl
@[simp] theorem exec_ori (sc : Scope) (d : Nat) (a : Nat) (imm : Nat) : exec (.ori sc d a imm) s = execOri sc d a imm s := rfl
@[simp] theorem exec_xori (sc : Scope) (d : Nat) (a : Nat) (imm : Nat) : exec (.xori sc d a imm) s = execXori sc d a imm s := rfl
@[simp] theorem exec_shli (sc : Scope) (d : Nat) (a : Nat) (imm : Nat) : exec (.shli sc d a imm) s = execShli sc d a imm s := rfl
@[simp] theorem exec_shriN32 (sc : Scope) (d : Nat) (a : Nat) (imm : Nat) : exec (.shriN32 sc d a imm) s = execShriN32 sc d a imm s := rfl
@[simp] theorem exec_shriI32 (sc : Scope) (d : Nat) (a : Nat) (imm : Nat) : exec (.shriI32 sc d a imm) s = execShriI32 sc d a imm s := rfl
@[simp] theorem exec_cmpiEq (sc : Scope) (d : Nat) (a : Nat) (imm : Nat) : exec (.cmpiEq sc d a imm) s = execCmpiEq sc d a imm s := rfl
@[simp] theorem exec_cmpiLtI32 (sc : Scope) (d : Nat) (a : Nat) (imm : Nat) : exec (.cmpiLtI32 sc d a imm) s = execCmpiLtI32 sc d a imm s := rfl
@[simp] theorem exec_cmpiLtN32 (sc : Scope) (d : Nat) (a : Nat) (imm : Nat) : exec (.cmpiLtN32 sc d a imm) s = execCmpiLtN32 sc d a imm s := rfl
@[simp] theorem exec_shfli (sc : Scope) (d : Nat) (a : Nat) (imm : Nat) : exec (.shfli sc d a imm) s = execShfli sc d a imm s := rfl
@[simp] theorem exec_bcasti (sc : Scope) (d : Nat) (a : Nat) (imm : Nat) : exec (.bcasti sc d a imm) s = execBcasti sc d a imm s := rfl
@[simp] theorem exec_ldB8 (sc : Scope) (d : Nat) (base : Nat) (off : Nat) : exec (.ldB8 sc d base off) s = execLdB8 sc d base off s := rfl
@[simp] theorem exec_ldB16 (sc : Scope) (d : Nat) (base : Nat) (off : Nat) : exec (.ldB16 sc d base off) s = execLdB16 sc d base off s := rfl
@[simp] theorem exec_ldB32 (sc : Scope) (d : Nat) (base : Nat) (off : Nat) : exec (.ldB32 sc d base off) s = execLdB32 sc d base off s := rfl
@[simp] theorem exec_ldB64 (sc : Scope) (d : Nat) (base : Nat) (off : Nat) : exec (.ldB64 sc d base off) s = execLdB64 sc d base off s := rfl
@[simp] theorem exec_ldB128 (sc : Scope) (d : Nat) (base : Nat) (off : Nat) : exec (.ldB128 sc d base off) s = execLdB128 sc d base off s := rfl
@[simp] theorem exec_stB8 (sc : Scope) (d : Nat) (base : Nat) (off : Nat) : exec (.stB8 sc d base off) s = execStB8 sc d base off s := rfl
@[simp] theorem exec_stB16 (sc : Scope) (d : Nat) (base : Nat) (off : Nat) : exec (.stB16 sc d base off) s = execStB16 sc d base off s := rfl
@[simp] theorem exec_stB32 (sc : Scope) (d : Nat) (base : Nat) (off : Nat) : exec (.stB32 sc d base off) s = execStB32 sc d base off s := rfl
@[simp] theorem exec_stB64 (sc : Scope) (d : Nat) (base : Nat) (off : Nat) : exec (.stB64 sc d base off) s = execStB64 sc d base off s := rfl
@[simp] theorem exec_stB128 (sc : Scope) (d : Nat) (base : Nat) (off : Nat) : exec (.stB128 sc d base off) s = execStB128 sc d base off s := rfl
@[simp] theorem exec_ldAcqB32 (sc : Scope) (d : Nat) (base : Nat) (off : Nat) : exec (.ldAcqB32 sc d base off) s = execLdAcqB32 sc d base off s := rfl
@[simp] theorem exec_ldAcqB64 (sc : Scope) (d : Nat) (base : Nat) (off : Nat) : exec (.ldAcqB64 sc d base off) s = execLdAcqB64 sc d base off s := rfl
@[simp] theorem exec_stRelB32 (sc : Scope) (d : Nat) (base : Nat) (off : Nat) : exec (.stRelB32 sc d base off) s = execStRelB32 sc d base off s := rfl
@[simp] theorem exec_stRelB64 (sc : Scope) (d : Nat) (base : Nat) (off : Nat) : exec (.stRelB64 sc d base off) s = execStRelB64 sc d base off s := rfl
@[simp] theorem exec_ldf (sc : Scope) (d : Nat) (base : Nat) (k : Nat) (n : Nat) : exec (.ldf sc d base k n) s = execLdf sc d base k n s := rfl
@[simp] theorem exec_stf (sc : Scope) (d : Nat) (base : Nat) (k : Nat) (n : Nat) : exec (.stf sc d base k n) s = execStf sc d base k n s := rfl
@[simp] theorem exec_ldsB32 (sc : Scope) (d : Nat) (base : Nat) (off : Nat) : exec (.ldsB32 sc d base off) s = execLdsB32 sc d base off s := rfl
@[simp] theorem exec_ldsB128 (sc : Scope) (d : Nat) (base : Nat) (off : Nat) : exec (.ldsB128 sc d base off) s = execLdsB128 sc d base off s := rfl
@[simp] theorem exec_stsB32 (sc : Scope) (d : Nat) (base : Nat) (off : Nat) : exec (.stsB32 sc d base off) s = execStsB32 sc d base off s := rfl
@[simp] theorem exec_stsB128 (sc : Scope) (d : Nat) (base : Nat) (off : Nat) : exec (.stsB128 sc d base off) s = execStsB128 sc d base off s := rfl
@[simp] theorem exec_ldm (d : Nat) (base : Nat) (c : Nat) (n : Nat) : exec (.ldm d base c n) s = execLdm d base c n s := rfl
@[simp] theorem exec_stm (d : Nat) (base : Nat) (c : Nat) (n : Nat) : exec (.stm d base c n) s = execStm d base c n s := rfl
@[simp] theorem exec_ldh (sc : Scope) (d : Nat) (h : Nat) (m : Nat) : exec (.ldh sc d h m) s = execLdh sc d h m s := rfl
@[simp] theorem exec_sth (sc : Scope) (d : Nat) (h : Nat) (m : Nat) : exec (.sth sc d h m) s = execSth sc d h m s := rfl
@[simp] theorem exec_bp (sense : Bool) (pred : Nat) (disp : Nat) : exec (.bp sense pred disp) s = execBp sense pred disp s := rfl
@[simp] theorem exec_call (sense : Bool) (pred : Nat) (disp : Nat) : exec (.call sense pred disp) s = execCall sense pred disp s := rfl
@[simp] theorem exec_mma (ec : Nat) (acc : Nat) (atam : Bool) (areg : Nat) (breg : Nat) (fmt : Nat) : exec (.mma ec acc atam areg breg fmt) s = execMma ec acc atam areg breg fmt s := rfl
@[simp] theorem exec_accz (acc : Nat) : exec (.accz acc) s = execAccz acc s := rfl
@[simp] theorem exec_accld (acc : Nat) (areg : Nat) : exec (.accld acc areg) s = execAccld acc areg s := rfl
@[simp] theorem exec_accst (acc : Nat) (areg : Nat) (fmt : Nat) : exec (.accst acc areg fmt) s = execAccst acc areg fmt s := rfl
@[simp] theorem exec_accflush (acc : Nat) (areg : Nat) : exec (.accflush acc areg) s = execAccflush acc areg s := rfl
@[simp] theorem exec_accflushDet (acc : Nat) (areg : Nat) : exec (.accflushDet acc areg) s = execAccflushDet acc areg s := rfl
@[simp] theorem exec_clause (wait : Nat) (first : Nat) (second : Nat) (len : Nat) : exec (.clause wait first second len) s = execClause wait first second len s := rfl
@[simp] theorem exec_uadd (d : Nat) (a : Nat) (b : Nat) : exec (.uadd d a b) s = execUadd d a b s := rfl
@[simp] theorem exec_usub (d : Nat) (a : Nat) (b : Nat) : exec (.usub d a b) s = execUsub d a b s := rfl
@[simp] theorem exec_umul (d : Nat) (a : Nat) (b : Nat) : exec (.umul d a b) s = execUmul d a b s := rfl
@[simp] theorem exec_umulhiI32 (d : Nat) (a : Nat) (b : Nat) : exec (.umulhiI32 d a b) s = execUmulhiI32 d a b s := rfl
@[simp] theorem exec_umulhiN32 (d : Nat) (a : Nat) (b : Nat) : exec (.umulhiN32 d a b) s = execUmulhiN32 d a b s := rfl
@[simp] theorem exec_uminI32 (d : Nat) (a : Nat) (b : Nat) : exec (.uminI32 d a b) s = execUminI32 d a b s := rfl
@[simp] theorem exec_uminN32 (d : Nat) (a : Nat) (b : Nat) : exec (.uminN32 d a b) s = execUminN32 d a b s := rfl
@[simp] theorem exec_umaxI32 (d : Nat) (a : Nat) (b : Nat) : exec (.umaxI32 d a b) s = execUmaxI32 d a b s := rfl
@[simp] theorem exec_umaxN32 (d : Nat) (a : Nat) (b : Nat) : exec (.umaxN32 d a b) s = execUmaxN32 d a b s := rfl
@[simp] theorem exec_uand (d : Nat) (a : Nat) (b : Nat) : exec (.uand d a b) s = execUand d a b s := rfl
@[simp] theorem exec_uor (d : Nat) (a : Nat) (b : Nat) : exec (.uor d a b) s = execUor d a b s := rfl
@[simp] theorem exec_uxor (d : Nat) (a : Nat) (b : Nat) : exec (.uxor d a b) s = execUxor d a b s := rfl
@[simp] theorem exec_ushl (d : Nat) (a : Nat) (b : Nat) : exec (.ushl d a b) s = execUshl d a b s := rfl
@[simp] theorem exec_ushrN32 (d : Nat) (a : Nat) (b : Nat) : exec (.ushrN32 d a b) s = execUshrN32 d a b s := rfl
@[simp] theorem exec_ushrI32 (d : Nat) (a : Nat) (b : Nat) : exec (.ushrI32 d a b) s = execUshrI32 d a b s := rfl
@[simp] theorem exec_urotl (d : Nat) (a : Nat) (b : Nat) : exec (.urotl d a b) s = execUrotl d a b s := rfl
@[simp] theorem exec_uclz (d : Nat) (a : Nat) : exec (.uclz d a) s = execUclz d a s := rfl
@[simp] theorem exec_upopc (d : Nat) (a : Nat) : exec (.upopc d a) s = execUpopc d a s := rfl
@[simp] theorem exec_ubrev (d : Nat) (a : Nat) : exec (.ubrev d a) s = execUbrev d a s := rfl
@[simp] theorem exec_umov (d : Nat) (a : Nat) : exec (.umov d a) s = execUmov d a s := rfl
@[simp] theorem exec_usel (d : Nat) (a : Nat) (b : Nat) : exec (.usel d a b) s = execUsel d a b s := rfl
@[simp] theorem exec_uadd64 (d : Nat) (a : Nat) (b : Nat) : exec (.uadd64 d a b) s = execUadd64 d a b s := rfl
@[simp] theorem exec_ucmpEq (d : Nat) (a : Nat) (b : Nat) : exec (.ucmpEq d a b) s = execUcmpEq d a b s := rfl
@[simp] theorem exec_ucmpNe (d : Nat) (a : Nat) (b : Nat) : exec (.ucmpNe d a b) s = execUcmpNe d a b s := rfl
@[simp] theorem exec_ucmpLtI32 (d : Nat) (a : Nat) (b : Nat) : exec (.ucmpLtI32 d a b) s = execUcmpLtI32 d a b s := rfl
@[simp] theorem exec_ucmpLeI32 (d : Nat) (a : Nat) (b : Nat) : exec (.ucmpLeI32 d a b) s = execUcmpLeI32 d a b s := rfl
@[simp] theorem exec_ucmpLtN32 (d : Nat) (a : Nat) (b : Nat) : exec (.ucmpLtN32 d a b) s = execUcmpLtN32 d a b s := rfl
@[simp] theorem exec_ucmpLeN32 (d : Nat) (a : Nat) (b : Nat) : exec (.ucmpLeN32 d a b) s = execUcmpLeN32 d a b s := rfl
@[simp] theorem exec_uaddF32 (d : Nat) (a : Nat) (b : Nat) : exec (.uaddF32 d a b) s = execUaddF32 d a b s := rfl
@[simp] theorem exec_umulF32 (d : Nat) (a : Nat) (b : Nat) : exec (.umulF32 d a b) s = execUmulF32 d a b s := rfl
@[simp] theorem exec_ufmaF32 (d : Nat) (a : Nat) (b : Nat) : exec (.ufmaF32 d a b) s = execUfmaF32 d a b s := rfl
@[simp] theorem exec_uminF32 (d : Nat) (a : Nat) (b : Nat) : exec (.uminF32 d a b) s = execUminF32 d a b s := rfl
@[simp] theorem exec_umaxF32 (d : Nat) (a : Nat) (b : Nat) : exec (.umaxF32 d a b) s = execUmaxF32 d a b s := rfl
@[simp] theorem exec_ucmpLtF32 (d : Nat) (a : Nat) (b : Nat) : exec (.ucmpLtF32 d a b) s = execUcmpLtF32 d a b s := rfl
@[simp] theorem exec_uret (a : Nat) : exec (.uret a) s = execUret a s := rfl
@[simp] theorem exec_uaddi (d : Nat) (a : Nat) (imm : Nat) : exec (.uaddi d a imm) s = execUaddi d a imm s := rfl
@[simp] theorem exec_uandi (d : Nat) (a : Nat) (imm : Nat) : exec (.uandi d a imm) s = execUandi d a imm s := rfl
@[simp] theorem exec_uori (d : Nat) (a : Nat) (imm : Nat) : exec (.uori d a imm) s = execUori d a imm s := rfl
@[simp] theorem exec_uxori (d : Nat) (a : Nat) (imm : Nat) : exec (.uxori d a imm) s = execUxori d a imm s := rfl
@[simp] theorem exec_ushli (d : Nat) (a : Nat) (imm : Nat) : exec (.ushli d a imm) s = execUshli d a imm s := rfl
@[simp] theorem exec_ushriN32 (d : Nat) (a : Nat) (imm : Nat) : exec (.ushriN32 d a imm) s = execUshriN32 d a imm s := rfl
@[simp] theorem exec_ushriI32 (d : Nat) (a : Nat) (imm : Nat) : exec (.ushriI32 d a imm) s = execUshriI32 d a imm s := rfl
@[simp] theorem exec_movi (d : Nat) (imm : Nat) : exec (.movi d imm) s = execMovi d imm s := rfl
@[simp] theorem exec_ldk (d : Nat) (imm : Nat) : exec (.ldk d imm) s = execLdk d imm s := rfl
@[simp] theorem exec_ucmpiEq (d : Nat) (a : Nat) (imm : Nat) : exec (.ucmpiEq d a imm) s = execUcmpiEq d a imm s := rfl
@[simp] theorem exec_ucmpiLtI32 (d : Nat) (a : Nat) (imm : Nat) : exec (.ucmpiLtI32 d a imm) s = execUcmpiLtI32 d a imm s := rfl
@[simp] theorem exec_ucmpiLtN32 (d : Nat) (a : Nat) (imm : Nat) : exec (.ucmpiLtN32 d a imm) s = execUcmpiLtN32 d a imm s := rfl
@[simp] theorem exec_uldB32 (d : Nat) (a : Nat) (imm : Nat) : exec (.uldB32 d a imm) s = execUldB32 d a imm s := rfl
@[simp] theorem exec_uldB64 (d : Nat) (a : Nat) (imm : Nat) : exec (.uldB64 d a imm) s = execUldB64 d a imm s := rfl
@[simp] theorem exec_ustB32 (d : Nat) (a : Nat) (imm : Nat) : exec (.ustB32 d a imm) s = execUstB32 d a imm s := rfl
@[simp] theorem exec_ustB64 (d : Nat) (a : Nat) (imm : Nat) : exec (.ustB64 d a imm) s = execUstB64 d a imm s := rfl
@[simp] theorem exec_bra (disp : Nat) : exec (.bra disp) s = execBra disp s := rfl
@[simp] theorem exec_bc (sense : Bool) (c : Nat) (disp : Nat) : exec (.bc sense c disp) s = execBc sense c disp s := rfl
@[simp] theorem exec_ucall (c : Nat) (disp : Nat) : exec (.ucall c disp) s = execUcall c disp s := rfl
@[simp] theorem exec_joinset (j : Nat) (a : Nat) (x : Bool) : exec (.joinset j a x) s = execJoinset j a x s := rfl
@[simp] theorem exec_yield : exec (.yield) s = execYield s := rfl
@[simp] theorem exec_part (r : Nat) : exec (.part r) s = execPart r s := rfl
@[simp] theorem exec_arrive (r : Nat) : exec (.arrive r) s = execArrive r s := rfl
@[simp] theorem exec_waitb (r : Nat) : exec (.waitb r) s = execWaitb r s := rfl
@[simp] theorem exec_trap (n : Nat) : exec (.trap n) s = execTrap n s := rfl
@[simp] theorem exec_rett : exec (.rett) s = execRett s := rfl
@[simp] theorem exec_fenceAcq (a : Nat) : exec (.fenceAcq a) s = execFenceAcq a s := rfl
@[simp] theorem exec_fenceRel (a : Nat) : exec (.fenceRel a) s = execFenceRel a s := rfl
@[simp] theorem exec_fenceAr (a : Nat) : exec (.fenceAr a) s = execFenceAr a s := rfl
@[simp] theorem exec_wb (a : Nat) (b : Nat) : exec (.wb a b) s = execWb a b s := rfl
@[simp] theorem exec_inv (a : Nat) (b : Nat) : exec (.inv a b) s = execInv a b s := rfl
@[simp] theorem exec_invn (d : Nat) (a : Nat) (b : Nat) : exec (.invn d a b) s = execInvn d a b s := rfl
@[simp] theorem exec_ifence : exec (.ifence) s = execIfence s := rfl
@[simp] theorem exec_icinv (a : Nat) (b : Nat) : exec (.icinv a b) s = execIcinv a b s := rfl
@[simp] theorem exec_pfi (a : Nat) (b : Nat) : exec (.pfi a b) s = execPfi a b s := rfl
@[simp] theorem exec_hwaitFull (h : Nat) (p : Bool) : exec (.hwaitFull h p) s = execHwaitFull h p s := rfl
@[simp] theorem exec_hwaitFree (h : Nat) : exec (.hwaitFree h) s = execHwaitFree h s := rfl
@[simp] theorem exec_hcfgBind (h : Nat) (a : Nat) (b : Nat) : exec (.hcfgBind h a b) s = execHcfgBind h a b s := rfl
@[simp] theorem exec_hcfgRing (h : Nat) (a : Nat) : exec (.hcfgRing h a) s = execHcfgRing h a s := rfl
@[simp] theorem exec_hcfgMark (h : Nat) : exec (.hcfgMark h) s = execHcfgMark h s := rfl
@[simp] theorem exec_hcfgUnbind (h : Nat) : exec (.hcfgUnbind h) s = execHcfgUnbind h s := rfl
@[simp] theorem exec_hfree (h : Nat) (p : Bool) : exec (.hfree h p) s = execHfree h p s := rfl
@[simp] theorem exec_fsopen (a : Nat) (b : Nat) : exec (.fsopen a b) s = execFsopen a b s := rfl
@[simp] theorem exec_fsclose (a : Nat) : exec (.fsclose a) s = execFsclose a s := rfl
@[simp] theorem exec_fswait (a : Nat) : exec (.fswait a) s = execFswait a s := rfl
@[simp] theorem exec_mfs (r : Nat) (num : Nat) : exec (.mfs r num) s = execMfs r num s := rfl
@[simp] theorem exec_mts (r : Nat) (num : Nat) : exec (.mts r num) s = execMts r num s := rfl
@[simp] theorem exec_rngseed (k : Nat) : exec (.rngseed k) s = execRngseed k s := rfl
@[simp] theorem exec_rgnw (k : Nat) (e : Nat) (t : Nat) : exec (.rgnw k e t) s = execRgnw k e t s := rfl
@[simp] theorem exec_rgnr (k : Nat) (e : Nat) : exec (.rgnr k e) s = execRgnr k e s := rfl
@[simp] theorem exec_bgtw (k : Nat) (e : Nat) : exec (.bgtw k e) s = execBgtw k e s := rfl
@[simp] theorem exec_bgtr (k : Nat) (e : Nat) : exec (.bgtr k e) s = execBgtr k e s := rfl
@[simp] theorem exec_sysregWrite (src : RegSrc) (num : Nat) (v : Word) : exec (.sysregWrite src num v) s = execSysregWrite src num v s := rfl
@[simp] theorem exec_cfrtlRead (wave : Nat) : exec (.cfrtlRead wave) s = execCfrtlRead wave s := rfl
@[simp] theorem exec_trappcWrite (wave : Nat) (v : DWord) : exec (.trappcWrite wave v) s = execTrappcWrite wave v s := rfl
@[simp] theorem exec_wpartWrite (wave : Nat) (v : Word) : exec (.wpartWrite wave v) s = execWpartWrite wave v s := rfl
@[simp] theorem exec_satfWrite (wave : Nat) (v : Word) : exec (.satfWrite wave v) s = execSatfWrite wave v s := rfl
@[simp] theorem exec_measd7Write (v : Word) : exec (.measd7Write v) s = execMeasd7Write v s := rfl
@[simp] theorem exec_fqconsWrite (tenant : Nat) (v : Word) : exec (.fqconsWrite tenant v) s = execFqconsWrite tenant v s := rfl
@[simp] theorem exec_chkkeyWrite (v : DWord) : exec (.chkkeyWrite v) s = execChkkeyWrite v s := rfl
@[simp] theorem exec_firctlWrite (v : Word) : exec (.firctlWrite v) s = execFirctlWrite v s := rfl
@[simp] theorem exec_pkgnumWrite (v : Word) : exec (.pkgnumWrite v) s = execPkgnumWrite v s := rfl
@[simp] theorem exec_ltreset : exec (.ltreset) s = execLtreset s := rfl
@[simp] theorem exec_tlbinvPage (asid : Nat) : exec (.tlbinvPage asid) s = execTlbinvPage asid s := rfl
@[simp] theorem exec_tlbinvAsid (asid : Nat) : exec (.tlbinvAsid asid) s = execTlbinvAsid asid s := rfl
@[simp] theorem exec_tlbinvAll : exec (.tlbinvAll) s = execTlbinvAll s := rfl
@[simp] theorem exec_tlbInvalidateDone : exec (.tlbInvalidateDone) s = execTlbInvalidateDone s := rfl
@[simp] theorem exec_mapcmdSubmit : exec (.mapcmdSubmit) s = execMapcmdSubmit s := rfl
@[simp] theorem exec_mapInstall : exec (.mapInstall) s = execMapInstall s := rfl
@[simp] theorem exec_precmdSave (core tslot : Nat) : exec (.precmdSave core tslot) s = execPrecmdSave core tslot s := rfl
@[simp] theorem exec_saveAreaWrite : exec (.saveAreaWrite) s = execSaveAreaWrite s := rfl
@[simp] theorem exec_precmdRestore (core : Nat) : exec (.precmdRestore core) s = execPrecmdRestore core s := rfl
@[simp] theorem exec_rtapply : exec (.rtapply) s = execRtapply s := rfl
@[simp] theorem exec_wcmdResume (tenant wid : Nat) : exec (.wcmdResume tenant wid) s = execWcmdResume tenant wid s := rfl
@[simp] theorem exec_wcmdKill (tenant wid : Nat) : exec (.wcmdKill tenant wid) s = execWcmdKill tenant wid s := rfl
@[simp] theorem exec_resetcmdWarm : exec (.resetcmdWarm) s = execResetcmdWarm s := rfl
@[simp] theorem exec_resetcmdCore (core : Nat) : exec (.resetcmdCore core) s = execResetcmdCore core s := rfl
@[simp] theorem exec_gatecmdGate (core : Nat) : exec (.gatecmdGate core) s = execGatecmdGate core s := rfl
@[simp] theorem exec_gatecmdWake (core : Nat) : exec (.gatecmdWake core) s = execGatecmdWake core s := rfl
@[simp] theorem exec_coldReset : exec (.coldReset) s = execColdReset s := rfl
@[simp] theorem exec_cxlHotReset : exec (.cxlHotReset) s = execCxlHotReset s := rfl
@[simp] theorem exec_snoopTimeout : exec (.snoopTimeout) s = execSnoopTimeout s := rfl
@[simp] theorem exec_bootSequence : exec (.bootSequence) s = execBootSequence s := rfl
@[simp] theorem exec_powerMeasurement (watts : Nat) : exec (.powerMeasurement watts) s = execPowerMeasurement watts s := rfl
@[simp] theorem exec_budgetPeriodStart : exec (.budgetPeriodStart) s = execBudgetPeriodStart s := rfl
@[simp] theorem exec_hbmRequest (req : HbmReq) : exec (.hbmRequest req) s = execHbmRequest req s := rfl
@[simp] theorem exec_batchForm (ctrl : Nat) : exec (.batchForm ctrl) s = execBatchForm ctrl s := rfl
@[simp] theorem exec_scrubRead (line : Nat) (found : ScrubFound) : exec (.scrubRead line found) s = execScrubRead line found s := rfl
@[simp] theorem exec_scrubConditionalWrite (idx : Nat) : exec (.scrubConditionalWrite idx) s = execScrubConditionalWrite idx s := rfl
@[simp] theorem exec_llcWayDisable (slice set way line : Nat) : exec (.llcWayDisable slice set way line) s = execLlcWayDisable slice set way line s := rfl
@[simp] theorem exec_sliceRetire (die slice : Nat) : exec (.sliceRetire die slice) s = execSliceRetire die slice s := rfl
@[simp] theorem exec_linkFlitRetry (link : Nat) : exec (.linkFlitRetry link) s = execLinkFlitRetry link s := rfl
@[simp] theorem exec_linkDown (link : Nat) : exec (.linkDown link) s = execLinkDown link s := rfl
@[simp] theorem exec_routeloop (who : Requester) (part link : Nat) : exec (.routeloop who part link) s = execRouteloop who part link s := rfl
@[simp] theorem exec_hostSnoop (line : Nat) (inv : Bool) : exec (.hostSnoop line inv) s = execHostSnoop line inv s := rfl
@[simp] theorem exec_hostDeviceAccess (acc : HostAccess) : exec (.hostDeviceAccess acc) s = execHostDeviceAccess acc s := rfl
@[simp] theorem exec_msiDeliverPending (port : Nat) : exec (.msiDeliverPending port) s = execMsiDeliverPending port s := rfl
@[simp] theorem exec_quoteRequest (nonce : BitVec 256) : exec (.quoteRequest nonce) s = execQuoteRequest nonce s := rfl
@[simp] theorem exec_launchAccept : exec (.launchAccept) s = execLaunchAccept s := rfl
@[simp] theorem exec_teamPlace (grid core part : Nat) : exec (.teamPlace grid core part) s = execTeamPlace grid core part s := rfl
@[simp] theorem exec_hamperStage (grid team : Nat) : exec (.hamperStage grid team) s = execHamperStage grid team s := rfl
@[simp] theorem exec_launchComplete (grid : Nat) : exec (.launchComplete grid) s = execLaunchComplete grid s := rfl
@[simp] theorem exec_shuttleDispatch (grid core part : Nat) : exec (.shuttleDispatch grid core part) s = execShuttleDispatch grid core part s := rfl
@[simp] theorem exec_taskFinish (grid id : Nat) : exec (.taskFinish grid id) s = execTaskFinish grid id s := rfl
@[simp] theorem exec_commitPublication : exec (.commitPublication) s = execCommitPublication s := rfl
@[simp] theorem exec_taskNonspecRedispatch (grid part : Nat) : exec (.taskNonspecRedispatch grid part) s = execTaskNonspecRedispatch grid part s := rfl
@[simp] theorem exec_waitCycleResolution (team : Nat) : exec (.waitCycleResolution team) s = execWaitCycleResolution team s := rfl
@[simp] theorem exec_loadDataArrive (op part word : Nat) : exec (.loadDataArrive op part word) s = execLoadDataArrive op part word s := rfl
@[simp] theorem exec_memoryEventPerform (op part : Nat) : exec (.memoryEventPerform op part) s = execMemoryEventPerform op part s := rfl
@[simp] theorem exec_releaseProvisionalPerform (op part : Nat) : exec (.releaseProvisionalPerform op part) s = execReleaseProvisionalPerform op part s := rfl
@[simp] theorem exec_releaseComplete (op part : Nat) : exec (.releaseComplete op part) s = execReleaseComplete op part s := rfl
@[simp] theorem exec_intervalRecord (idx : Nat) : exec (.intervalRecord idx) s = execIntervalRecord idx s := rfl
@[simp] theorem exec_ltRebase : exec (.ltRebase) s = execLtRebase s := rfl
@[simp] theorem exec_arriveCount (op : Nat) : exec (.arriveCount op) s = execArriveCount op s := rfl
@[simp] theorem exec_phaseComplete (route : Nat) : exec (.phaseComplete route) s = execPhaseComplete route s := rfl
@[simp] theorem exec_copyTakeSlot (copy : Nat) : exec (.copyTakeSlot copy) s = execCopyTakeSlot copy s := rfl
@[simp] theorem exec_copyTransferFault (copy : Nat) : exec (.copyTransferFault copy) s = execCopyTransferFault copy s := rfl
@[simp] theorem exec_copyComplete (copy : Nat) : exec (.copyComplete copy) s = execCopyComplete copy s := rfl
@[simp] theorem exec_markPerform (op : Nat) : exec (.markPerform op) s = execMarkPerform op s := rfl
@[simp] theorem exec_handleAcquire (wave lane : Nat) : exec (.handleAcquire wave lane) s = execHandleAcquire wave lane s := rfl
@[simp] theorem exec_accumulateApply (op part elem : Nat) : exec (.accumulateApply op part elem) s = execAccumulateApply op part elem s := rfl
@[simp] theorem exec_detContributionApply (op part elem : Nat) : exec (.detContributionApply op part elem) s = execDetContributionApply op part elem s := rfl
@[simp] theorem exec_pageWalk (walk : Nat) : exec (.pageWalk walk) s = execPageWalk walk s := rfl
@[simp] theorem exec_icacheMissFill (miss : Nat) : exec (.icacheMissFill miss) s = execIcacheMissFill miss s := rfl
@[simp] theorem exec_firDelayedStore : exec (.firDelayedStore) s = execFirDelayedStore s := rfl
@[simp] theorem exec_faultRecordPost (tenant : Nat) : exec (.faultRecordPost tenant) s = execFaultRecordPost tenant s := rfl
@[simp] theorem exec_spawnPerform (op part : Nat) : exec (.spawnPerform op part) s = execSpawnPerform op part s := rfl
@[simp] theorem exec_accumulatorSlotWritten (op part : Nat) : exec (.accumulatorSlotWritten op part) s = execAccumulatorSlotWritten op part s := rfl
@[simp] theorem exec_backInvalidateResponse (line : Nat) : exec (.backInvalidateResponse line) s = execBackInvalidateResponse line s := rfl

end Sys2Proof.Machine
end

