-- ==== Sys2Proof/Laws/PerInstr.lean ====
section
/-! SUPPORT. One lemma per constructor: an instruction whose fields lie in their widths has a word of 32 bits. -/

set_option Elab.async false

namespace Sys2Proof.Laws.Encoding

/-- R65: the instruction has a word where its fields fit. -/
def Statement (i : Instr) : Prop := i.fits = true → ∃ w, encode i = some w ∧ w < 2 ^ 32

theorem scope_lt (sc : Scope) : sc.code < 4 := by cases sc <;> decide

theorem ext_lt {a : Ext} (h : a.fits = true) : a.code < 256 := by
  cases a <;> simp_all [Ext.fits, Ext.code] <;> omega

theorem bool_lt (b : Bool) : b.toNat < 2 := by cases b <;> decide

end Sys2Proof.Laws.Encoding

open Sys2Proof Sys2Proof.Laws.Encoding

theorem Sys2Proof.Laws.Encoding.nop (sc : Scope) : Statement (.nop sc) := by
  intro _; refine ⟨_, rfl, ?_⟩
  have := scope_lt sc
  simp only [place]; omega
theorem Sys2Proof.Laws.Encoding.add (sc : Scope) (d : Nat) (a : Ext) (b : Nat) : Statement (.add sc d a b) := by
  intro hf; replace hf : (d < 128 && a.fits && b < 128 : Bool) = true := hf
  simp only [Bool.and_eq_true, decide_eq_true_eq] at hf
  refine ⟨_, rfl, ?_⟩
  have := scope_lt sc
  have hxa : a.fits = true := by simp only [hf]
  have := ext_lt hxa
  simp only [place]; omega
theorem Sys2Proof.Laws.Encoding.sub (sc : Scope) (d : Nat) (a : Ext) (b : Nat) : Statement (.sub sc d a b) := by
  intro hf; replace hf : (d < 128 && a.fits && b < 128 : Bool) = true := hf
  simp only [Bool.and_eq_true, decide_eq_true_eq] at hf
  refine ⟨_, rfl, ?_⟩
  have := scope_lt sc
  have hxa : a.fits = true := by simp only [hf]
  have := ext_lt hxa
  simp only [place]; omega
theorem Sys2Proof.Laws.Encoding.mullo (sc : Scope) (d : Nat) (a : Ext) (b : Nat) : Statement (.mullo sc d a b) := by
  intro hf; replace hf : (d < 128 && a.fits && b < 128 : Bool) = true := hf
  simp only [Bool.and_eq_true, decide_eq_true_eq] at hf
  refine ⟨_, rfl, ?_⟩
  have := scope_lt sc
  have hxa : a.fits = true := by simp only [hf]
  have := ext_lt hxa
  simp only [place]; omega
theorem Sys2Proof.Laws.Encoding.mulhiI32 (sc : Scope) (d : Nat) (a : Ext) (b : Nat) : Statement (.mulhiI32 sc d a b) := by
  intro hf; replace hf : (d < 128 && a.fits && b < 128 : Bool) = true := hf
  simp only [Bool.and_eq_true, decide_eq_true_eq] at hf
  refine ⟨_, rfl, ?_⟩
  have := scope_lt sc
  have hxa : a.fits = true := by simp only [hf]
  have := ext_lt hxa
  simp only [place]; omega
theorem Sys2Proof.Laws.Encoding.mulhiN32 (sc : Scope) (d : Nat) (a : Ext) (b : Nat) : Statement (.mulhiN32 sc d a b) := by
  intro hf; replace hf : (d < 128 && a.fits && b < 128 : Bool) = true := hf
  simp only [Bool.and_eq_true, decide_eq_true_eq] at hf
  refine ⟨_, rfl, ?_⟩
  have := scope_lt sc
  have hxa : a.fits = true := by simp only [hf]
  have := ext_lt hxa
  simp only [place]; omega
theorem Sys2Proof.Laws.Encoding.mad (sc : Scope) (d : Nat) (a : Ext) (b : Nat) : Statement (.mad sc d a b) := by
  intro hf; replace hf : (d < 128 && a.fits && b < 128 : Bool) = true := hf
  simp only [Bool.and_eq_true, decide_eq_true_eq] at hf
  refine ⟨_, rfl, ?_⟩
  have := scope_lt sc
  have hxa : a.fits = true := by simp only [hf]
  have := ext_lt hxa
  simp only [place]; omega
theorem Sys2Proof.Laws.Encoding.minI32 (sc : Scope) (d : Nat) (a : Ext) (b : Nat) : Statement (.minI32 sc d a b) := by
  intro hf; replace hf : (d < 128 && a.fits && b < 128 : Bool) = true := hf
  simp only [Bool.and_eq_true, decide_eq_true_eq] at hf
  refine ⟨_, rfl, ?_⟩
  have := scope_lt sc
  have hxa : a.fits = true := by simp only [hf]
  have := ext_lt hxa
  simp only [place]; omega
theorem Sys2Proof.Laws.Encoding.minN32 (sc : Scope) (d : Nat) (a : Ext) (b : Nat) : Statement (.minN32 sc d a b) := by
  intro hf; replace hf : (d < 128 && a.fits && b < 128 : Bool) = true := hf
  simp only [Bool.and_eq_true, decide_eq_true_eq] at hf
  refine ⟨_, rfl, ?_⟩
  have := scope_lt sc
  have hxa : a.fits = true := by simp only [hf]
  have := ext_lt hxa
  simp only [place]; omega
theorem Sys2Proof.Laws.Encoding.maxI32 (sc : Scope) (d : Nat) (a : Ext) (b : Nat) : Statement (.maxI32 sc d a b) := by
  intro hf; replace hf : (d < 128 && a.fits && b < 128 : Bool) = true := hf
  simp only [Bool.and_eq_true, decide_eq_true_eq] at hf
  refine ⟨_, rfl, ?_⟩
  have := scope_lt sc
  have hxa : a.fits = true := by simp only [hf]
  have := ext_lt hxa
  simp only [place]; omega
theorem Sys2Proof.Laws.Encoding.maxN32 (sc : Scope) (d : Nat) (a : Ext) (b : Nat) : Statement (.maxN32 sc d a b) := by
  intro hf; replace hf : (d < 128 && a.fits && b < 128 : Bool) = true := hf
  simp only [Bool.and_eq_true, decide_eq_true_eq] at hf
  refine ⟨_, rfl, ?_⟩
  have := scope_lt sc
  have hxa : a.fits = true := by simp only [hf]
  have := ext_lt hxa
  simp only [place]; omega
theorem Sys2Proof.Laws.Encoding.and (sc : Scope) (d : Nat) (a : Ext) (b : Nat) : Statement (.and sc d a b) := by
  intro hf; replace hf : (d < 128 && a.fits && b < 128 : Bool) = true := hf
  simp only [Bool.and_eq_true, decide_eq_true_eq] at hf
  refine ⟨_, rfl, ?_⟩
  have := scope_lt sc
  have hxa : a.fits = true := by simp only [hf]
  have := ext_lt hxa
  simp only [place]; omega
theorem Sys2Proof.Laws.Encoding.or (sc : Scope) (d : Nat) (a : Ext) (b : Nat) : Statement (.or sc d a b) := by
  intro hf; replace hf : (d < 128 && a.fits && b < 128 : Bool) = true := hf
  simp only [Bool.and_eq_true, decide_eq_true_eq] at hf
  refine ⟨_, rfl, ?_⟩
  have := scope_lt sc
  have hxa : a.fits = true := by simp only [hf]
  have := ext_lt hxa
  simp only [place]; omega
theorem Sys2Proof.Laws.Encoding.xor (sc : Scope) (d : Nat) (a : Ext) (b : Nat) : Statement (.xor sc d a b) := by
  intro hf; replace hf : (d < 128 && a.fits && b < 128 : Bool) = true := hf
  simp only [Bool.and_eq_true, decide_eq_true_eq] at hf
  refine ⟨_, rfl, ?_⟩
  have := scope_lt sc
  have hxa : a.fits = true := by simp only [hf]
  have := ext_lt hxa
  simp only [place]; omega
theorem Sys2Proof.Laws.Encoding.shl (sc : Scope) (d : Nat) (a : Ext) (b : Nat) : Statement (.shl sc d a b) := by
  intro hf; replace hf : (d < 128 && a.fits && b < 128 : Bool) = true := hf
  simp only [Bool.and_eq_true, decide_eq_true_eq] at hf
  refine ⟨_, rfl, ?_⟩
  have := scope_lt sc
  have hxa : a.fits = true := by simp only [hf]
  have := ext_lt hxa
  simp only [place]; omega
theorem Sys2Proof.Laws.Encoding.shrN32 (sc : Scope) (d : Nat) (a : Ext) (b : Nat) : Statement (.shrN32 sc d a b) := by
  intro hf; replace hf : (d < 128 && a.fits && b < 128 : Bool) = true := hf
  simp only [Bool.and_eq_true, decide_eq_true_eq] at hf
  refine ⟨_, rfl, ?_⟩
  have := scope_lt sc
  have hxa : a.fits = true := by simp only [hf]
  have := ext_lt hxa
  simp only [place]; omega
theorem Sys2Proof.Laws.Encoding.shrI32 (sc : Scope) (d : Nat) (a : Ext) (b : Nat) : Statement (.shrI32 sc d a b) := by
  intro hf; replace hf : (d < 128 && a.fits && b < 128 : Bool) = true := hf
  simp only [Bool.and_eq_true, decide_eq_true_eq] at hf
  refine ⟨_, rfl, ?_⟩
  have := scope_lt sc
  have hxa : a.fits = true := by simp only [hf]
  have := ext_lt hxa
  simp only [place]; omega
theorem Sys2Proof.Laws.Encoding.rotl (sc : Scope) (d : Nat) (a : Ext) (b : Nat) : Statement (.rotl sc d a b) := by
  intro hf; replace hf : (d < 128 && a.fits && b < 128 : Bool) = true := hf
  simp only [Bool.and_eq_true, decide_eq_true_eq] at hf
  refine ⟨_, rfl, ?_⟩
  have := scope_lt sc
  have hxa : a.fits = true := by simp only [hf]
  have := ext_lt hxa
  simp only [place]; omega
theorem Sys2Proof.Laws.Encoding.clz (sc : Scope) (d : Nat) (a : Ext) : Statement (.clz sc d a) := by
  intro hf; replace hf : (d < 128 && a.fits : Bool) = true := hf
  simp only [Bool.and_eq_true, decide_eq_true_eq] at hf
  refine ⟨_, rfl, ?_⟩
  have := scope_lt sc
  have hxa : a.fits = true := by simp only [hf]
  have := ext_lt hxa
  simp only [place]; omega
theorem Sys2Proof.Laws.Encoding.popc (sc : Scope) (d : Nat) (a : Ext) : Statement (.popc sc d a) := by
  intro hf; replace hf : (d < 128 && a.fits : Bool) = true := hf
  simp only [Bool.and_eq_true, decide_eq_true_eq] at hf
  refine ⟨_, rfl, ?_⟩
  have := scope_lt sc
  have hxa : a.fits = true := by simp only [hf]
  have := ext_lt hxa
  simp only [place]; omega
theorem Sys2Proof.Laws.Encoding.brev (sc : Scope) (d : Nat) (a : Ext) : Statement (.brev sc d a) := by
  intro hf; replace hf : (d < 128 && a.fits : Bool) = true := hf
  simp only [Bool.and_eq_true, decide_eq_true_eq] at hf
  refine ⟨_, rfl, ?_⟩
  have := scope_lt sc
  have hxa : a.fits = true := by simp only [hf]
  have := ext_lt hxa
  simp only [place]; omega
theorem Sys2Proof.Laws.Encoding.sel (sc : Scope) (d : Nat) (a : Ext) (b : Nat) : Statement (.sel sc d a b) := by
  intro hf; replace hf : (d < 128 && a.fits && b < 128 : Bool) = true := hf
  simp only [Bool.and_eq_true, decide_eq_true_eq] at hf
  refine ⟨_, rfl, ?_⟩
  have := scope_lt sc
  have hxa : a.fits = true := by simp only [hf]
  have := ext_lt hxa
  simp only [place]; omega
theorem Sys2Proof.Laws.Encoding.mov (sc : Scope) (d : Nat) (a : Ext) : Statement (.mov sc d a) := by
  intro hf; replace hf : (d < 128 && a.fits : Bool) = true := hf
  simp only [Bool.and_eq_true, decide_eq_true_eq] at hf
  refine ⟨_, rfl, ?_⟩
  have := scope_lt sc
  have hxa : a.fits = true := by simp only [hf]
  have := ext_lt hxa
  simp only [place]; omega
theorem Sys2Proof.Laws.Encoding.add64 (sc : Scope) (d : Nat) (a : Ext) (b : Nat) : Statement (.add64 sc d a b) := by
  intro hf; replace hf : (d < 128 && a.fits && b < 128 : Bool) = true := hf
  simp only [Bool.and_eq_true, decide_eq_true_eq] at hf
  refine ⟨_, rfl, ?_⟩
  have := scope_lt sc
  have hxa : a.fits = true := by simp only [hf]
  have := ext_lt hxa
  simp only [place]; omega
theorem Sys2Proof.Laws.Encoding.lea (sc : Scope) (d : Nat) (a : Ext) (b : Nat) : Statement (.lea sc d a b) := by
  intro hf; replace hf : (d < 128 && a.fits && b < 128 : Bool) = true := hf
  simp only [Bool.and_eq_true, decide_eq_true_eq] at hf
  refine ⟨_, rfl, ?_⟩
  have := scope_lt sc
  have hxa : a.fits = true := by simp only [hf]
  have := ext_lt hxa
  simp only [place]; omega
theorem Sys2Proof.Laws.Encoding.cmpEq (sc : Scope) (d : Nat) (a : Ext) (b : Nat) : Statement (.cmpEq sc d a b) := by
  intro hf; replace hf : (d < 128 && a.fits && b < 128 : Bool) = true := hf
  simp only [Bool.and_eq_true, decide_eq_true_eq] at hf
  refine ⟨_, rfl, ?_⟩
  have := scope_lt sc
  have hxa : a.fits = true := by simp only [hf]
  have := ext_lt hxa
  simp only [place]; omega
theorem Sys2Proof.Laws.Encoding.cmpNe (sc : Scope) (d : Nat) (a : Ext) (b : Nat) : Statement (.cmpNe sc d a b) := by
  intro hf; replace hf : (d < 128 && a.fits && b < 128 : Bool) = true := hf
  simp only [Bool.and_eq_true, decide_eq_true_eq] at hf
  refine ⟨_, rfl, ?_⟩
  have := scope_lt sc
  have hxa : a.fits = true := by simp only [hf]
  have := ext_lt hxa
  simp only [place]; omega
theorem Sys2Proof.Laws.Encoding.cmpLtI32 (sc : Scope) (d : Nat) (a : Ext) (b : Nat) : Statement (.cmpLtI32 sc d a b) := by
  intro hf; replace hf : (d < 128 && a.fits && b < 128 : Bool) = true := hf
  simp only [Bool.and_eq_true, decide_eq_true_eq] at hf
  refine ⟨_, rfl, ?_⟩
  have := scope_lt sc
  have hxa : a.fits = true := by simp only [hf]
  have := ext_lt hxa
  simp only [place]; omega
theorem Sys2Proof.Laws.Encoding.cmpLeI32 (sc : Scope) (d : Nat) (a : Ext) (b : Nat) : Statement (.cmpLeI32 sc d a b) := by
  intro hf; replace hf : (d < 128 && a.fits && b < 128 : Bool) = true := hf
  simp only [Bool.and_eq_true, decide_eq_true_eq] at hf
  refine ⟨_, rfl, ?_⟩
  have := scope_lt sc
  have hxa : a.fits = true := by simp only [hf]
  have := ext_lt hxa
  simp only [place]; omega
theorem Sys2Proof.Laws.Encoding.cmpLtN32 (sc : Scope) (d : Nat) (a : Ext) (b : Nat) : Statement (.cmpLtN32 sc d a b) := by
  intro hf; replace hf : (d < 128 && a.fits && b < 128 : Bool) = true := hf
  simp only [Bool.and_eq_true, decide_eq_true_eq] at hf
  refine ⟨_, rfl, ?_⟩
  have := scope_lt sc
  have hxa : a.fits = true := by simp only [hf]
  have := ext_lt hxa
  simp only [place]; omega
theorem Sys2Proof.Laws.Encoding.cmpLeN32 (sc : Scope) (d : Nat) (a : Ext) (b : Nat) : Statement (.cmpLeN32 sc d a b) := by
  intro hf; replace hf : (d < 128 && a.fits && b < 128 : Bool) = true := hf
  simp only [Bool.and_eq_true, decide_eq_true_eq] at hf
  refine ⟨_, rfl, ?_⟩
  have := scope_lt sc
  have hxa : a.fits = true := by simp only [hf]
  have := ext_lt hxa
  simp only [place]; omega
theorem Sys2Proof.Laws.Encoding.exit : Statement .exit := by
  intro _; refine ⟨_, rfl, ?_⟩
  decide
theorem Sys2Proof.Laws.Encoding.addF32 (sc : Scope) (d : Nat) (a : Ext) (b : Nat) : Statement (.addF32 sc d a b) := by
  intro hf; replace hf : (d < 128 && a.fits && b < 128 : Bool) = true := hf
  simp only [Bool.and_eq_true, decide_eq_true_eq] at hf
  refine ⟨_, rfl, ?_⟩
  have := scope_lt sc
  have hxa : a.fits = true := by simp only [hf]
  have := ext_lt hxa
  simp only [place]; omega
theorem Sys2Proof.Laws.Encoding.subF32 (sc : Scope) (d : Nat) (a : Ext) (b : Nat) : Statement (.subF32 sc d a b) := by
  intro hf; replace hf : (d < 128 && a.fits && b < 128 : Bool) = true := hf
  simp only [Bool.and_eq_true, decide_eq_true_eq] at hf
  refine ⟨_, rfl, ?_⟩
  have := scope_lt sc
  have hxa : a.fits = true := by simp only [hf]
  have := ext_lt hxa
  simp only [place]; omega
theorem Sys2Proof.Laws.Encoding.mulF32 (sc : Scope) (d : Nat) (a : Ext) (b : Nat) : Statement (.mulF32 sc d a b) := by
  intro hf; replace hf : (d < 128 && a.fits && b < 128 : Bool) = true := hf
  simp only [Bool.and_eq_true, decide_eq_true_eq] at hf
  refine ⟨_, rfl, ?_⟩
  have := scope_lt sc
  have hxa : a.fits = true := by simp only [hf]
  have := ext_lt hxa
  simp only [place]; omega
theorem Sys2Proof.Laws.Encoding.fmaF32 (sc : Scope) (d : Nat) (a : Ext) (b : Nat) : Statement (.fmaF32 sc d a b) := by
  intro hf; replace hf : (d < 128 && a.fits && b < 128 : Bool) = true := hf
  simp only [Bool.and_eq_true, decide_eq_true_eq] at hf
  refine ⟨_, rfl, ?_⟩
  have := scope_lt sc
  have hxa : a.fits = true := by simp only [hf]
  have := ext_lt hxa
  simp only [place]; omega
theorem Sys2Proof.Laws.Encoding.minF32 (sc : Scope) (d : Nat) (a : Ext) (b : Nat) : Statement (.minF32 sc d a b) := by
  intro hf; replace hf : (d < 128 && a.fits && b < 128 : Bool) = true := hf
  simp only [Bool.and_eq_true, decide_eq_true_eq] at hf
  refine ⟨_, rfl, ?_⟩
  have := scope_lt sc
  have hxa : a.fits = true := by simp only [hf]
  have := ext_lt hxa
  simp only [place]; omega
theorem Sys2Proof.Laws.Encoding.maxF32 (sc : Scope) (d : Nat) (a : Ext) (b : Nat) : Statement (.maxF32 sc d a b) := by
  intro hf; replace hf : (d < 128 && a.fits && b < 128 : Bool) = true := hf
  simp only [Bool.and_eq_true, decide_eq_true_eq] at hf
  refine ⟨_, rfl, ?_⟩
  have := scope_lt sc
  have hxa : a.fits = true := by simp only [hf]
  have := ext_lt hxa
  simp only [place]; omega
theorem Sys2Proof.Laws.Encoding.negF32 (sc : Scope) (d : Nat) (a : Ext) : Statement (.negF32 sc d a) := by
  intro hf; replace hf : (d < 128 && a.fits : Bool) = true := hf
  simp only [Bool.and_eq_true, decide_eq_true_eq] at hf
  refine ⟨_, rfl, ?_⟩
  have := scope_lt sc
  have hxa : a.fits = true := by simp only [hf]
  have := ext_lt hxa
  simp only [place]; omega
theorem Sys2Proof.Laws.Encoding.absF32 (sc : Scope) (d : Nat) (a : Ext) : Statement (.absF32 sc d a) := by
  intro hf; replace hf : (d < 128 && a.fits : Bool) = true := hf
  simp only [Bool.and_eq_true, decide_eq_true_eq] at hf
  refine ⟨_, rfl, ?_⟩
  have := scope_lt sc
  have hxa : a.fits = true := by simp only [hf]
  have := ext_lt hxa
  simp only [place]; omega
theorem Sys2Proof.Laws.Encoding.cmpEqF32 (sc : Scope) (d : Nat) (a : Ext) (b : Nat) : Statement (.cmpEqF32 sc d a b) := by
  intro hf; replace hf : (d < 128 && a.fits && b < 128 : Bool) = true := hf
  simp only [Bool.and_eq_true, decide_eq_true_eq] at hf
  refine ⟨_, rfl, ?_⟩
  have := scope_lt sc
  have hxa : a.fits = true := by simp only [hf]
  have := ext_lt hxa
  simp only [place]; omega
theorem Sys2Proof.Laws.Encoding.cmpNeF32 (sc : Scope) (d : Nat) (a : Ext) (b : Nat) : Statement (.cmpNeF32 sc d a b) := by
  intro hf; replace hf : (d < 128 && a.fits && b < 128 : Bool) = true := hf
  simp only [Bool.and_eq_true, decide_eq_true_eq] at hf
  refine ⟨_, rfl, ?_⟩
  have := scope_lt sc
  have hxa : a.fits = true := by simp only [hf]
  have := ext_lt hxa
  simp only [place]; omega
theorem Sys2Proof.Laws.Encoding.cmpLtF32 (sc : Scope) (d : Nat) (a : Ext) (b : Nat) : Statement (.cmpLtF32 sc d a b) := by
  intro hf; replace hf : (d < 128 && a.fits && b < 128 : Bool) = true := hf
  simp only [Bool.and_eq_true, decide_eq_true_eq] at hf
  refine ⟨_, rfl, ?_⟩
  have := scope_lt sc
  have hxa : a.fits = true := by simp only [hf]
  have := ext_lt hxa
  simp only [place]; omega
theorem Sys2Proof.Laws.Encoding.cmpLeF32 (sc : Scope) (d : Nat) (a : Ext) (b : Nat) : Statement (.cmpLeF32 sc d a b) := by
  intro hf; replace hf : (d < 128 && a.fits && b < 128 : Bool) = true := hf
  simp only [Bool.and_eq_true, decide_eq_true_eq] at hf
  refine ⟨_, rfl, ?_⟩
  have := scope_lt sc
  have hxa : a.fits = true := by simp only [hf]
  have := ext_lt hxa
  simp only [place]; omega
theorem Sys2Proof.Laws.Encoding.cmpUnF32 (sc : Scope) (d : Nat) (a : Ext) (b : Nat) : Statement (.cmpUnF32 sc d a b) := by
  intro hf; replace hf : (d < 128 && a.fits && b < 128 : Bool) = true := hf
  simp only [Bool.and_eq_true, decide_eq_true_eq] at hf
  refine ⟨_, rfl, ?_⟩
  have := scope_lt sc
  have hxa : a.fits = true := by simp only [hf]
  have := ext_lt hxa
  simp only [place]; omega
theorem Sys2Proof.Laws.Encoding.rcp (sc : Scope) (d : Nat) (a : Ext) : Statement (.rcp sc d a) := by
  intro hf; replace hf : (d < 128 && a.fits : Bool) = true := hf
  simp only [Bool.and_eq_true, decide_eq_true_eq] at hf
  refine ⟨_, rfl, ?_⟩
  have := scope_lt sc
  have hxa : a.fits = true := by simp only [hf]
  have := ext_lt hxa
  simp only [place]; omega
theorem Sys2Proof.Laws.Encoding.rsq (sc : Scope) (d : Nat) (a : Ext) : Statement (.rsq sc d a) := by
  intro hf; replace hf : (d < 128 && a.fits : Bool) = true := hf
  simp only [Bool.and_eq_true, decide_eq_true_eq] at hf
  refine ⟨_, rfl, ?_⟩
  have := scope_lt sc
  have hxa : a.fits = true := by simp only [hf]
  have := ext_lt hxa
  simp only [place]; omega
theorem Sys2Proof.Laws.Encoding.sqrt (sc : Scope) (d : Nat) (a : Ext) : Statement (.sqrt sc d a) := by
  intro hf; replace hf : (d < 128 && a.fits : Bool) = true := hf
  simp only [Bool.and_eq_true, decide_eq_true_eq] at hf
  refine ⟨_, rfl, ?_⟩
  have := scope_lt sc
  have hxa : a.fits = true := by simp only [hf]
  have := ext_lt hxa
  simp only [place]; omega
theorem Sys2Proof.Laws.Encoding.exp2 (sc : Scope) (d : Nat) (a : Ext) : Statement (.exp2 sc d a) := by
  intro hf; replace hf : (d < 128 && a.fits : Bool) = true := hf
  simp only [Bool.and_eq_true, decide_eq_true_eq] at hf
  refine ⟨_, rfl, ?_⟩
  have := scope_lt sc
  have hxa : a.fits = true := by simp only [hf]
  have := ext_lt hxa
  simp only [place]; omega
theorem Sys2Proof.Laws.Encoding.log2 (sc : Scope) (d : Nat) (a : Ext) : Statement (.log2 sc d a) := by
  intro hf; replace hf : (d < 128 && a.fits : Bool) = true := hf
  simp only [Bool.and_eq_true, decide_eq_true_eq] at hf
  refine ⟨_, rfl, ?_⟩
  have := scope_lt sc
  have hxa : a.fits = true := by simp only [hf]
  have := ext_lt hxa
  simp only [place]; omega
theorem Sys2Proof.Laws.Encoding.sinpi (sc : Scope) (d : Nat) (a : Ext) : Statement (.sinpi sc d a) := by
  intro hf; replace hf : (d < 128 && a.fits : Bool) = true := hf
  simp only [Bool.and_eq_true, decide_eq_true_eq] at hf
  refine ⟨_, rfl, ?_⟩
  have := scope_lt sc
  have hxa : a.fits = true := by simp only [hf]
  have := ext_lt hxa
  simp only [place]; omega
theorem Sys2Proof.Laws.Encoding.cospi (sc : Scope) (d : Nat) (a : Ext) : Statement (.cospi sc d a) := by
  intro hf; replace hf : (d < 128 && a.fits : Bool) = true := hf
  simp only [Bool.and_eq_true, decide_eq_true_eq] at hf
  refine ⟨_, rfl, ?_⟩
  have := scope_lt sc
  have hxa : a.fits = true := by simp only [hf]
  have := ext_lt hxa
  simp only [place]; omega
theorem Sys2Proof.Laws.Encoding.addBf16x2 (sc : Scope) (d : Nat) (a : Ext) (b : Nat) : Statement (.addBf16x2 sc d a b) := by
  intro hf; replace hf : (d < 128 && a.fits && b < 128 : Bool) = true := hf
  simp only [Bool.and_eq_true, decide_eq_true_eq] at hf
  refine ⟨_, rfl, ?_⟩
  have := scope_lt sc
  have hxa : a.fits = true := by simp only [hf]
  have := ext_lt hxa
  simp only [place]; omega
theorem Sys2Proof.Laws.Encoding.mulBf16x2 (sc : Scope) (d : Nat) (a : Ext) (b : Nat) : Statement (.mulBf16x2 sc d a b) := by
  intro hf; replace hf : (d < 128 && a.fits && b < 128 : Bool) = true := hf
  simp only [Bool.and_eq_true, decide_eq_true_eq] at hf
  refine ⟨_, rfl, ?_⟩
  have := scope_lt sc
  have hxa : a.fits = true := by simp only [hf]
  have := ext_lt hxa
  simp only [place]; omega
theorem Sys2Proof.Laws.Encoding.fmaBf16x2 (sc : Scope) (d : Nat) (a : Ext) (b : Nat) : Statement (.fmaBf16x2 sc d a b) := by
  intro hf; replace hf : (d < 128 && a.fits && b < 128 : Bool) = true := hf
  simp only [Bool.and_eq_true, decide_eq_true_eq] at hf
  refine ⟨_, rfl, ?_⟩
  have := scope_lt sc
  have hxa : a.fits = true := by simp only [hf]
  have := ext_lt hxa
  simp only [place]; omega
theorem Sys2Proof.Laws.Encoding.cvt (sc : Scope) (d : Nat) (a : Ext) (conv : Nat) (mode : Nat) : Statement (.cvt sc d a conv mode) := by
  intro hf; replace hf : (d < 128 && a.fits && conv < 32 && mode < 4 : Bool) = true := hf
  simp only [Bool.and_eq_true, decide_eq_true_eq] at hf
  refine ⟨_, rfl, ?_⟩
  have := scope_lt sc
  have hxa : a.fits = true := by simp only [hf]
  have := ext_lt hxa
  simp only [place]; omega
theorem Sys2Proof.Laws.Encoding.atom (sc : Scope) (d : Nat) (a : Ext) (w : Bool) (opc : Nat) : Statement (.atom sc d a w opc) := by
  intro hf; replace hf : (d < 128 && a.fits && opc < 16 : Bool) = true := hf
  simp only [Bool.and_eq_true, decide_eq_true_eq] at hf
  refine ⟨_, rfl, ?_⟩
  have := scope_lt sc
  have hxa : a.fits = true := by simp only [hf]
  have := ext_lt hxa
  have := bool_lt w
  simp only [place]; omega
theorem Sys2Proof.Laws.Encoding.batom (sc : Scope) (d : Nat) (a : Ext) (opc : Nat) : Statement (.batom sc d a opc) := by
  intro hf; replace hf : (d < 128 && a.fits && opc < 16 : Bool) = true := hf
  simp only [Bool.and_eq_true, decide_eq_true_eq] at hf
  refine ⟨_, rfl, ?_⟩
  have := scope_lt sc
  have hxa : a.fits = true := by simp only [hf]
  have := ext_lt hxa
  simp only [place]; omega
theorem Sys2Proof.Laws.Encoding.copy (nxt : Bool) (h : Nat) (a : Ext) (dir : Nat) (q : Nat) : Statement (.copy nxt h a dir q) := by
  intro hf; replace hf : (h < 64 && a.fits && dir < 4 && q < 8 : Bool) = true := hf
  simp only [Bool.and_eq_true, decide_eq_true_eq] at hf
  refine ⟨_, rfl, ?_⟩
  have hxa : a.fits = true := by simp only [hf]
  have := ext_lt hxa
  have := bool_lt nxt
  simp only [place]; omega
theorem Sys2Proof.Laws.Encoding.spawn (d : Nat) (a : Ext) (b : Nat) : Statement (.spawn d a b) := by
  intro hf; replace hf : (d < 128 && a.fits && b < 128 : Bool) = true := hf
  simp only [Bool.and_eq_true, decide_eq_true_eq] at hf
  refine ⟨_, rfl, ?_⟩
  have hxa : a.fits = true := by simp only [hf]
  have := ext_lt hxa
  simp only [place]; omega
theorem Sys2Proof.Laws.Encoding.tsget (d : Nat) : Statement (.tsget d) := by
  intro hf; replace hf : (d < 128 : Bool) = true := hf
  simp only [decide_eq_true_eq] at hf
  refine ⟨_, rfl, ?_⟩
  simp only [place]; omega
theorem Sys2Proof.Laws.Encoding.brx (d : Nat) (a : Ext) : Statement (.brx d a) := by
  intro hf; replace hf : (d < 128 && a.fits : Bool) = true := hf
  simp only [Bool.and_eq_true, decide_eq_true_eq] at hf
  refine ⟨_, rfl, ?_⟩
  have hxa : a.fits = true := by simp only [hf]
  have := ext_lt hxa
  simp only [place]; omega
theorem Sys2Proof.Laws.Encoding.ret (a : Ext) : Statement (.ret a) := by
  intro hf; replace hf : (a.fits : Bool) = true := hf
  refine ⟨_, rfl, ?_⟩
  have hxa : a.fits = true := by simp only [hf]
  have := ext_lt hxa
  simp only [place]; omega
theorem Sys2Proof.Laws.Encoding.shfl (sc : Scope) (d : Nat) (a : Ext) (b : Nat) : Statement (.shfl sc d a b) := by
  intro hf; replace hf : (d < 128 && a.fits && b < 128 : Bool) = true := hf
  simp only [Bool.and_eq_true, decide_eq_true_eq] at hf
  refine ⟨_, rfl, ?_⟩
  have := scope_lt sc
  have hxa : a.fits = true := by simp only [hf]
  have := ext_lt hxa
  simp only [place]; omega
theorem Sys2Proof.Laws.Encoding.put (sc : Scope) (d : Nat) (a : Ext) (b : Nat) : Statement (.put sc d a b) := by
  intro hf; replace hf : (d < 128 && a.fits && b < 128 : Bool) = true := hf
  simp only [Bool.and_eq_true, decide_eq_true_eq] at hf
  refine ⟨_, rfl, ?_⟩
  have := scope_lt sc
  have hxa : a.fits = true := by simp only [hf]
  have := ext_lt hxa
  simp only [place]; omega
theorem Sys2Proof.Laws.Encoding.bcast (sc : Scope) (d : Nat) (a : Ext) (b : Nat) : Statement (.bcast sc d a b) := by
  intro hf; replace hf : (d < 128 && a.fits && b < 128 : Bool) = true := hf
  simp only [Bool.and_eq_true, decide_eq_true_eq] at hf
  refine ⟨_, rfl, ?_⟩
  have := scope_lt sc
  have hxa : a.fits = true := by simp only [hf]
  have := ext_lt hxa
  simp only [place]; omega
theorem Sys2Proof.Laws.Encoding.voteAny (sc : Scope) (d : Nat) (b : Nat) : Statement (.voteAny sc d b) := by
  intro hf; replace hf : (d < 128 && b < 128 : Bool) = true := hf
  simp only [Bool.and_eq_true, decide_eq_true_eq] at hf
  refine ⟨_, rfl, ?_⟩
  have := scope_lt sc
  simp only [place]; omega
theorem Sys2Proof.Laws.Encoding.voteAll (sc : Scope) (d : Nat) (b : Nat) : Statement (.voteAll sc d b) := by
  intro hf; replace hf : (d < 128 && b < 128 : Bool) = true := hf
  simp only [Bool.and_eq_true, decide_eq_true_eq] at hf
  refine ⟨_, rfl, ?_⟩
  have := scope_lt sc
  simp only [place]; omega
theorem Sys2Proof.Laws.Encoding.ballot (sc : Scope) (d : Nat) (b : Nat) : Statement (.ballot sc d b) := by
  intro hf; replace hf : (d < 128 && b < 128 : Bool) = true := hf
  simp only [Bool.and_eq_true, decide_eq_true_eq] at hf
  refine ⟨_, rfl, ?_⟩
  have := scope_lt sc
  simp only [place]; omega
theorem Sys2Proof.Laws.Encoding.red (sc : Scope) (d : Nat) (a : Ext) (ty : Nat) (opr : Nat) : Statement (.red sc d a ty opr) := by
  intro hf; replace hf : (d < 128 && a.fits && ty < 4 && opr < 4 : Bool) = true := hf
  simp only [Bool.and_eq_true, decide_eq_true_eq] at hf
  refine ⟨_, rfl, ?_⟩
  have := scope_lt sc
  have hxa : a.fits = true := by simp only [hf]
  have := ext_lt hxa
  simp only [place]; omega
theorem Sys2Proof.Laws.Encoding.scan (sc : Scope) (d : Nat) (a : Ext) (x : Bool) (ty : Nat) (opr : Nat) : Statement (.scan sc d a x ty opr) := by
  intro hf; replace hf : (d < 128 && a.fits && ty < 4 && opr < 4 : Bool) = true := hf
  simp only [Bool.and_eq_true, decide_eq_true_eq] at hf
  refine ⟨_, rfl, ?_⟩
  have := scope_lt sc
  have hxa : a.fits = true := by simp only [hf]
  have := ext_lt hxa
  have := bool_lt x
  simp only [place]; omega
theorem Sys2Proof.Laws.Encoding.matchrank (sc : Scope) (d : Nat) (a : Ext) : Statement (.matchrank sc d a) := by
  intro hf; replace hf : (d < 128 && a.fits : Bool) = true := hf
  simp only [Bool.and_eq_true, decide_eq_true_eq] at hf
  refine ⟨_, rfl, ?_⟩
  have := scope_lt sc
  have hxa : a.fits = true := by simp only [hf]
  have := ext_lt hxa
  simp only [place]; omega
theorem Sys2Proof.Laws.Encoding.histo (sc : Scope) (d : Nat) (a : Ext) : Statement (.histo sc d a) := by
  intro hf; replace hf : (d < 128 && a.fits : Bool) = true := hf
  simp only [Bool.and_eq_true, decide_eq_true_eq] at hf
  refine ⟨_, rfl, ?_⟩
  have := scope_lt sc
  have hxa : a.fits = true := by simp only [hf]
  have := ext_lt hxa
  simp only [place]; omega
theorem Sys2Proof.Laws.Encoding.hash (sc : Scope) (d : Nat) (a : Ext) (b : Nat) : Statement (.hash sc d a b) := by
  intro hf; replace hf : (d < 128 && a.fits && b < 128 : Bool) = true := hf
  simp only [Bool.and_eq_true, decide_eq_true_eq] at hf
  refine ⟨_, rfl, ?_⟩
  have := scope_lt sc
  have hxa : a.fits = true := by simp only [hf]
  have := ext_lt hxa
  simp only [place]; omega
theorem Sys2Proof.Laws.Encoding.rng (d : Nat) : Statement (.rng d) := by
  intro hf; replace hf : (d < 128 : Bool) = true := hf
  simp only [decide_eq_true_eq] at hf
  refine ⟨_, rfl, ?_⟩
  simp only [place]; omega
theorem Sys2Proof.Laws.Encoding.sample (sc : Scope) (d : Nat) (a : Ext) (b : Nat) : Statement (.sample sc d a b) := by
  intro hf; replace hf : (d < 128 && a.fits && b < 128 : Bool) = true := hf
  simp only [Bool.and_eq_true, decide_eq_true_eq] at hf
  refine ⟨_, rfl, ?_⟩
  have := scope_lt sc
  have hxa : a.fits = true := by simp only [hf]
  have := ext_lt hxa
  simp only [place]; omega
theorem Sys2Proof.Laws.Encoding.jtab (cnt : Nat) (a : Ext) (b : Nat) : Statement (.jtab cnt a b) := by
  intro hf; replace hf : (cnt < 64 && a.fits && b < 128 : Bool) = true := hf
  simp only [Bool.and_eq_true, decide_eq_true_eq] at hf
  refine ⟨_, rfl, ?_⟩
  have hxa : a.fits = true := by simp only [hf]
  have := ext_lt hxa
  simp only [place]; omega
theorem Sys2Proof.Laws.Encoding.join (j : Nat) : Statement (.join j) := by
  intro hf; replace hf : (j < 16 : Bool) = true := hf
  simp only [decide_eq_true_eq] at hf
  refine ⟨_, rfl, ?_⟩
  simp only [place]; omega
theorem Sys2Proof.Laws.Encoding.joinleave (j : Nat) : Statement (.joinleave j) := by
  intro hf; replace hf : (j < 16 : Bool) = true := hf
  simp only [decide_eq_true_eq] at hf
  refine ⟨_, rfl, ?_⟩
  simp only [place]; omega
theorem Sys2Proof.Laws.Encoding.addi (sc : Scope) (d : Nat) (a : Nat) (imm : Nat) : Statement (.addi sc d a imm) := by
  intro hf; replace hf : (d < 128 && a < 128 && imm < 256 : Bool) = true := hf
  simp only [Bool.and_eq_true, decide_eq_true_eq] at hf
  refine ⟨_, rfl, ?_⟩
  have := scope_lt sc
  simp only [place]; omega
theorem Sys2Proof.Laws.Encoding.andi (sc : Scope) (d : Nat) (a : Nat) (imm : Nat) : Statement (.andi sc d a imm) := by
  intro hf; replace hf : (d < 128 && a < 128 && imm < 256 : Bool) = true := hf
  simp only [Bool.and_eq_true, decide_eq_true_eq] at hf
  refine ⟨_, rfl, ?_⟩
  have := scope_lt sc
  simp only [place]; omega
theorem Sys2Proof.Laws.Encoding.ori (sc : Scope) (d : Nat) (a : Nat) (imm : Nat) : Statement (.ori sc d a imm) := by
  intro hf; replace hf : (d < 128 && a < 128 && imm < 256 : Bool) = true := hf
  simp only [Bool.and_eq_true, decide_eq_true_eq] at hf
  refine ⟨_, rfl, ?_⟩
  have := scope_lt sc
  simp only [place]; omega
theorem Sys2Proof.Laws.Encoding.xori (sc : Scope) (d : Nat) (a : Nat) (imm : Nat) : Statement (.xori sc d a imm) := by
  intro hf; replace hf : (d < 128 && a < 128 && imm < 256 : Bool) = true := hf
  simp only [Bool.and_eq_true, decide_eq_true_eq] at hf
  refine ⟨_, rfl, ?_⟩
  have := scope_lt sc
  simp only [place]; omega
theorem Sys2Proof.Laws.Encoding.shli (sc : Scope) (d : Nat) (a : Nat) (imm : Nat) : Statement (.shli sc d a imm) := by
  intro hf; replace hf : (d < 128 && a < 128 && imm < 32 : Bool) = true := hf
  simp only [Bool.and_eq_true, decide_eq_true_eq] at hf
  refine ⟨_, rfl, ?_⟩
  have := scope_lt sc
  simp only [place]; omega
theorem Sys2Proof.Laws.Encoding.shriN32 (sc : Scope) (d : Nat) (a : Nat) (imm : Nat) : Statement (.shriN32 sc d a imm) := by
  intro hf; replace hf : (d < 128 && a < 128 && imm < 32 : Bool) = true := hf
  simp only [Bool.and_eq_true, decide_eq_true_eq] at hf
  refine ⟨_, rfl, ?_⟩
  have := scope_lt sc
  simp only [place]; omega
theorem Sys2Proof.Laws.Encoding.shriI32 (sc : Scope) (d : Nat) (a : Nat) (imm : Nat) : Statement (.shriI32 sc d a imm) := by
  intro hf; replace hf : (d < 128 && a < 128 && imm < 32 : Bool) = true := hf
  simp only [Bool.and_eq_true, decide_eq_true_eq] at hf
  refine ⟨_, rfl, ?_⟩
  have := scope_lt sc
  simp only [place]; omega
theorem Sys2Proof.Laws.Encoding.cmpiEq (sc : Scope) (d : Nat) (a : Nat) (imm : Nat) : Statement (.cmpiEq sc d a imm) := by
  intro hf; replace hf : (d < 128 && a < 128 && imm < 256 : Bool) = true := hf
  simp only [Bool.and_eq_true, decide_eq_true_eq] at hf
  refine ⟨_, rfl, ?_⟩
  have := scope_lt sc
  simp only [place]; omega
theorem Sys2Proof.Laws.Encoding.cmpiLtI32 (sc : Scope) (d : Nat) (a : Nat) (imm : Nat) : Statement (.cmpiLtI32 sc d a imm) := by
  intro hf; replace hf : (d < 128 && a < 128 && imm < 256 : Bool) = true := hf
  simp only [Bool.and_eq_true, decide_eq_true_eq] at hf
  refine ⟨_, rfl, ?_⟩
  have := scope_lt sc
  simp only [place]; omega
theorem Sys2Proof.Laws.Encoding.cmpiLtN32 (sc : Scope) (d : Nat) (a : Nat) (imm : Nat) : Statement (.cmpiLtN32 sc d a imm) := by
  intro hf; replace hf : (d < 128 && a < 128 && imm < 256 : Bool) = true := hf
  simp only [Bool.and_eq_true, decide_eq_true_eq] at hf
  refine ⟨_, rfl, ?_⟩
  have := scope_lt sc
  simp only [place]; omega
theorem Sys2Proof.Laws.Encoding.shfli (sc : Scope) (d : Nat) (a : Nat) (imm : Nat) : Statement (.shfli sc d a imm) := by
  intro hf; replace hf : (d < 128 && a < 128 && imm < 32 : Bool) = true := hf
  simp only [Bool.and_eq_true, decide_eq_true_eq] at hf
  refine ⟨_, rfl, ?_⟩
  have := scope_lt sc
  simp only [place]; omega
theorem Sys2Proof.Laws.Encoding.bcasti (sc : Scope) (d : Nat) (a : Nat) (imm : Nat) : Statement (.bcasti sc d a imm) := by
  intro hf; replace hf : (d < 128 && a < 128 && imm < 32 : Bool) = true := hf
  simp only [Bool.and_eq_true, decide_eq_true_eq] at hf
  refine ⟨_, rfl, ?_⟩
  have := scope_lt sc
  simp only [place]; omega
theorem Sys2Proof.Laws.Encoding.ldB8 (sc : Scope) (d : Nat) (base : Nat) (off : Nat) : Statement (.ldB8 sc d base off) := by
  intro hf; replace hf : (d < 128 && base < 128 && off < 256 : Bool) = true := hf
  simp only [Bool.and_eq_true, decide_eq_true_eq] at hf
  refine ⟨_, rfl, ?_⟩
  have := scope_lt sc
  simp only [place]; omega
theorem Sys2Proof.Laws.Encoding.ldB16 (sc : Scope) (d : Nat) (base : Nat) (off : Nat) : Statement (.ldB16 sc d base off) := by
  intro hf; replace hf : (d < 128 && base < 128 && off < 256 : Bool) = true := hf
  simp only [Bool.and_eq_true, decide_eq_true_eq] at hf
  refine ⟨_, rfl, ?_⟩
  have := scope_lt sc
  simp only [place]; omega
theorem Sys2Proof.Laws.Encoding.ldB32 (sc : Scope) (d : Nat) (base : Nat) (off : Nat) : Statement (.ldB32 sc d base off) := by
  intro hf; replace hf : (d < 128 && base < 128 && off < 256 : Bool) = true := hf
  simp only [Bool.and_eq_true, decide_eq_true_eq] at hf
  refine ⟨_, rfl, ?_⟩
  have := scope_lt sc
  simp only [place]; omega
theorem Sys2Proof.Laws.Encoding.ldB64 (sc : Scope) (d : Nat) (base : Nat) (off : Nat) : Statement (.ldB64 sc d base off) := by
  intro hf; replace hf : (d < 128 && base < 128 && off < 256 : Bool) = true := hf
  simp only [Bool.and_eq_true, decide_eq_true_eq] at hf
  refine ⟨_, rfl, ?_⟩
  have := scope_lt sc
  simp only [place]; omega
theorem Sys2Proof.Laws.Encoding.ldB128 (sc : Scope) (d : Nat) (base : Nat) (off : Nat) : Statement (.ldB128 sc d base off) := by
  intro hf; replace hf : (d < 128 && base < 128 && off < 256 : Bool) = true := hf
  simp only [Bool.and_eq_true, decide_eq_true_eq] at hf
  refine ⟨_, rfl, ?_⟩
  have := scope_lt sc
  simp only [place]; omega
theorem Sys2Proof.Laws.Encoding.stB8 (sc : Scope) (d : Nat) (base : Nat) (off : Nat) : Statement (.stB8 sc d base off) := by
  intro hf; replace hf : (d < 128 && base < 128 && off < 256 : Bool) = true := hf
  simp only [Bool.and_eq_true, decide_eq_true_eq] at hf
  refine ⟨_, rfl, ?_⟩
  have := scope_lt sc
  simp only [place]; omega
theorem Sys2Proof.Laws.Encoding.stB16 (sc : Scope) (d : Nat) (base : Nat) (off : Nat) : Statement (.stB16 sc d base off) := by
  intro hf; replace hf : (d < 128 && base < 128 && off < 256 : Bool) = true := hf
  simp only [Bool.and_eq_true, decide_eq_true_eq] at hf
  refine ⟨_, rfl, ?_⟩
  have := scope_lt sc
  simp only [place]; omega
theorem Sys2Proof.Laws.Encoding.stB32 (sc : Scope) (d : Nat) (base : Nat) (off : Nat) : Statement (.stB32 sc d base off) := by
  intro hf; replace hf : (d < 128 && base < 128 && off < 256 : Bool) = true := hf
  simp only [Bool.and_eq_true, decide_eq_true_eq] at hf
  refine ⟨_, rfl, ?_⟩
  have := scope_lt sc
  simp only [place]; omega
theorem Sys2Proof.Laws.Encoding.stB64 (sc : Scope) (d : Nat) (base : Nat) (off : Nat) : Statement (.stB64 sc d base off) := by
  intro hf; replace hf : (d < 128 && base < 128 && off < 256 : Bool) = true := hf
  simp only [Bool.and_eq_true, decide_eq_true_eq] at hf
  refine ⟨_, rfl, ?_⟩
  have := scope_lt sc
  simp only [place]; omega
theorem Sys2Proof.Laws.Encoding.stB128 (sc : Scope) (d : Nat) (base : Nat) (off : Nat) : Statement (.stB128 sc d base off) := by
  intro hf; replace hf : (d < 128 && base < 128 && off < 256 : Bool) = true := hf
  simp only [Bool.and_eq_true, decide_eq_true_eq] at hf
  refine ⟨_, rfl, ?_⟩
  have := scope_lt sc
  simp only [place]; omega
theorem Sys2Proof.Laws.Encoding.ldAcqB32 (sc : Scope) (d : Nat) (base : Nat) (off : Nat) : Statement (.ldAcqB32 sc d base off) := by
  intro hf; replace hf : (d < 128 && base < 128 && off < 256 : Bool) = true := hf
  simp only [Bool.and_eq_true, decide_eq_true_eq] at hf
  refine ⟨_, rfl, ?_⟩
  have := scope_lt sc
  simp only [place]; omega
theorem Sys2Proof.Laws.Encoding.ldAcqB64 (sc : Scope) (d : Nat) (base : Nat) (off : Nat) : Statement (.ldAcqB64 sc d base off) := by
  intro hf; replace hf : (d < 128 && base < 128 && off < 256 : Bool) = true := hf
  simp only [Bool.and_eq_true, decide_eq_true_eq] at hf
  refine ⟨_, rfl, ?_⟩
  have := scope_lt sc
  simp only [place]; omega
theorem Sys2Proof.Laws.Encoding.stRelB32 (sc : Scope) (d : Nat) (base : Nat) (off : Nat) : Statement (.stRelB32 sc d base off) := by
  intro hf; replace hf : (d < 128 && base < 128 && off < 256 : Bool) = true := hf
  simp only [Bool.and_eq_true, decide_eq_true_eq] at hf
  refine ⟨_, rfl, ?_⟩
  have := scope_lt sc
  simp only [place]; omega
theorem Sys2Proof.Laws.Encoding.stRelB64 (sc : Scope) (d : Nat) (base : Nat) (off : Nat) : Statement (.stRelB64 sc d base off) := by
  intro hf; replace hf : (d < 128 && base < 128 && off < 256 : Bool) = true := hf
  simp only [Bool.and_eq_true, decide_eq_true_eq] at hf
  refine ⟨_, rfl, ?_⟩
  have := scope_lt sc
  simp only [place]; omega
theorem Sys2Proof.Laws.Encoding.ldf (sc : Scope) (d : Nat) (base : Nat) (k : Nat) (n : Nat) : Statement (.ldf sc d base k n) := by
  intro hf; replace hf : (d < 128 && base < 128 && k < 8 && n < 32 : Bool) = true := hf
  simp only [Bool.and_eq_true, decide_eq_true_eq] at hf
  refine ⟨_, rfl, ?_⟩
  have := scope_lt sc
  simp only [place]; omega
theorem Sys2Proof.Laws.Encoding.stf (sc : Scope) (d : Nat) (base : Nat) (k : Nat) (n : Nat) : Statement (.stf sc d base k n) := by
  intro hf; replace hf : (d < 128 && base < 128 && k < 8 && n < 32 : Bool) = true := hf
  simp only [Bool.and_eq_true, decide_eq_true_eq] at hf
  refine ⟨_, rfl, ?_⟩
  have := scope_lt sc
  simp only [place]; omega
theorem Sys2Proof.Laws.Encoding.ldsB32 (sc : Scope) (d : Nat) (base : Nat) (off : Nat) : Statement (.ldsB32 sc d base off) := by
  intro hf; replace hf : (d < 128 && base < 128 && off < 256 : Bool) = true := hf
  simp only [Bool.and_eq_true, decide_eq_true_eq] at hf
  refine ⟨_, rfl, ?_⟩
  have := scope_lt sc
  simp only [place]; omega
theorem Sys2Proof.Laws.Encoding.ldsB128 (sc : Scope) (d : Nat) (base : Nat) (off : Nat) : Statement (.ldsB128 sc d base off) := by
  intro hf; replace hf : (d < 128 && base < 128 && off < 256 : Bool) = true := hf
  simp only [Bool.and_eq_true, decide_eq_true_eq] at hf
  refine ⟨_, rfl, ?_⟩
  have := scope_lt sc
  simp only [place]; omega
theorem Sys2Proof.Laws.Encoding.stsB32 (sc : Scope) (d : Nat) (base : Nat) (off : Nat) : Statement (.stsB32 sc d base off) := by
  intro hf; replace hf : (d < 128 && base < 128 && off < 256 : Bool) = true := hf
  simp only [Bool.and_eq_true, decide_eq_true_eq] at hf
  refine ⟨_, rfl, ?_⟩
  have := scope_lt sc
  simp only [place]; omega
theorem Sys2Proof.Laws.Encoding.stsB128 (sc : Scope) (d : Nat) (base : Nat) (off : Nat) : Statement (.stsB128 sc d base off) := by
  intro hf; replace hf : (d < 128 && base < 128 && off < 256 : Bool) = true := hf
  simp only [Bool.and_eq_true, decide_eq_true_eq] at hf
  refine ⟨_, rfl, ?_⟩
  have := scope_lt sc
  simp only [place]; omega
theorem Sys2Proof.Laws.Encoding.ldm (d : Nat) (base : Nat) (c : Nat) (n : Nat) : Statement (.ldm d base c n) := by
  intro hf; replace hf : (d < 128 && base < 128 && c < 16 && n < 16 : Bool) = true := hf
  simp only [Bool.and_eq_true, decide_eq_true_eq] at hf
  refine ⟨_, rfl, ?_⟩
  simp only [place]; omega
theorem Sys2Proof.Laws.Encoding.stm (d : Nat) (base : Nat) (c : Nat) (n : Nat) : Statement (.stm d base c n) := by
  intro hf; replace hf : (d < 128 && base < 128 && c < 16 && n < 16 : Bool) = true := hf
  simp only [Bool.and_eq_true, decide_eq_true_eq] at hf
  refine ⟨_, rfl, ?_⟩
  simp only [place]; omega
theorem Sys2Proof.Laws.Encoding.ldh (sc : Scope) (d : Nat) (h : Nat) (m : Nat) : Statement (.ldh sc d h m) := by
  intro hf; replace hf : (d < 128 && h < 64 && m < 64 : Bool) = true := hf
  simp only [Bool.and_eq_true, decide_eq_true_eq] at hf
  refine ⟨_, rfl, ?_⟩
  have := scope_lt sc
  simp only [place]; omega
theorem Sys2Proof.Laws.Encoding.sth (sc : Scope) (d : Nat) (h : Nat) (m : Nat) : Statement (.sth sc d h m) := by
  intro hf; replace hf : (d < 128 && h < 64 && m < 64 : Bool) = true := hf
  simp only [Bool.and_eq_true, decide_eq_true_eq] at hf
  refine ⟨_, rfl, ?_⟩
  have := scope_lt sc
  simp only [place]; omega
theorem Sys2Proof.Laws.Encoding.bp (sense : Bool) (pred : Nat) (disp : Nat) : Statement (.bp sense pred disp) := by
  intro hf; replace hf : (pred < 64 && disp < 65536 : Bool) = true := hf
  simp only [Bool.and_eq_true, decide_eq_true_eq] at hf
  refine ⟨_, rfl, ?_⟩
  have := bool_lt sense
  simp only [place]; omega
theorem Sys2Proof.Laws.Encoding.call (sense : Bool) (pred : Nat) (disp : Nat) : Statement (.call sense pred disp) := by
  intro hf; replace hf : (pred < 64 && disp < 65536 : Bool) = true := hf
  simp only [Bool.and_eq_true, decide_eq_true_eq] at hf
  refine ⟨_, rfl, ?_⟩
  have := bool_lt sense
  simp only [place]; omega
theorem Sys2Proof.Laws.Encoding.mma (ec : Nat) (acc : Nat) (atam : Bool) (areg : Nat) (breg : Nat) (fmt : Nat) : Statement (.mma ec acc atam areg breg fmt) := by
  intro hf; replace hf : (ec < 4 && acc < 64 && areg < 64 && breg < 64 && fmt < 8 : Bool) = true := hf
  simp only [Bool.and_eq_true, decide_eq_true_eq] at hf
  refine ⟨_, rfl, ?_⟩
  have := bool_lt atam
  simp only [place]; omega
theorem Sys2Proof.Laws.Encoding.accz (acc : Nat) : Statement (.accz acc) := by
  intro hf; replace hf : (acc < 64 : Bool) = true := hf
  simp only [decide_eq_true_eq] at hf
  refine ⟨_, rfl, ?_⟩
  simp only [place]; omega
theorem Sys2Proof.Laws.Encoding.accld (acc : Nat) (areg : Nat) : Statement (.accld acc areg) := by
  intro hf; replace hf : (acc < 64 && areg < 64 : Bool) = true := hf
  simp only [Bool.and_eq_true, decide_eq_true_eq] at hf
  refine ⟨_, rfl, ?_⟩
  simp only [place]; omega
theorem Sys2Proof.Laws.Encoding.accst (acc : Nat) (areg : Nat) (fmt : Nat) : Statement (.accst acc areg fmt) := by
  intro hf; replace hf : (acc < 64 && areg < 64 && fmt < 8 : Bool) = true := hf
  simp only [Bool.and_eq_true, decide_eq_true_eq] at hf
  refine ⟨_, rfl, ?_⟩
  simp only [place]; omega
theorem Sys2Proof.Laws.Encoding.accflush (acc : Nat) (areg : Nat) : Statement (.accflush acc areg) := by
  intro hf; replace hf : (acc < 64 && areg < 64 : Bool) = true := hf
  simp only [Bool.and_eq_true, decide_eq_true_eq] at hf
  refine ⟨_, rfl, ?_⟩
  simp only [place]; omega
theorem Sys2Proof.Laws.Encoding.accflushDet (acc : Nat) (areg : Nat) : Statement (.accflushDet acc areg) := by
  intro hf; replace hf : (acc < 64 && areg < 64 : Bool) = true := hf
  simp only [Bool.and_eq_true, decide_eq_true_eq] at hf
  refine ⟨_, rfl, ?_⟩
  simp only [place]; omega
theorem Sys2Proof.Laws.Encoding.clause (wait : Nat) (first : Nat) (second : Nat) (len : Nat) : Statement (.clause wait first second len) := by
  intro hf; replace hf : (wait < 4096 && first < 16 && second < 16 && len < 16 : Bool) = true := hf
  simp only [Bool.and_eq_true, decide_eq_true_eq] at hf
  refine ⟨_, rfl, ?_⟩
  simp only [place]; omega
theorem Sys2Proof.Laws.Encoding.uadd (d : Nat) (a : Nat) (b : Nat) : Statement (.uadd d a b) := by
  intro hf; replace hf : (d < 64 && a < 64 && b < 64 : Bool) = true := hf
  simp only [Bool.and_eq_true, decide_eq_true_eq] at hf
  refine ⟨_, rfl, ?_⟩
  simp only [place]; omega
theorem Sys2Proof.Laws.Encoding.usub (d : Nat) (a : Nat) (b : Nat) : Statement (.usub d a b) := by
  intro hf; replace hf : (d < 64 && a < 64 && b < 64 : Bool) = true := hf
  simp only [Bool.and_eq_true, decide_eq_true_eq] at hf
  refine ⟨_, rfl, ?_⟩
  simp only [place]; omega
theorem Sys2Proof.Laws.Encoding.umul (d : Nat) (a : Nat) (b : Nat) : Statement (.umul d a b) := by
  intro hf; replace hf : (d < 64 && a < 64 && b < 64 : Bool) = true := hf
  simp only [Bool.and_eq_true, decide_eq_true_eq] at hf
  refine ⟨_, rfl, ?_⟩
  simp only [place]; omega
theorem Sys2Proof.Laws.Encoding.umulhiI32 (d : Nat) (a : Nat) (b : Nat) : Statement (.umulhiI32 d a b) := by
  intro hf; replace hf : (d < 64 && a < 64 && b < 64 : Bool) = true := hf
  simp only [Bool.and_eq_true, decide_eq_true_eq] at hf
  refine ⟨_, rfl, ?_⟩
  simp only [place]; omega
theorem Sys2Proof.Laws.Encoding.umulhiN32 (d : Nat) (a : Nat) (b : Nat) : Statement (.umulhiN32 d a b) := by
  intro hf; replace hf : (d < 64 && a < 64 && b < 64 : Bool) = true := hf
  simp only [Bool.and_eq_true, decide_eq_true_eq] at hf
  refine ⟨_, rfl, ?_⟩
  simp only [place]; omega
theorem Sys2Proof.Laws.Encoding.uminI32 (d : Nat) (a : Nat) (b : Nat) : Statement (.uminI32 d a b) := by
  intro hf; replace hf : (d < 64 && a < 64 && b < 64 : Bool) = true := hf
  simp only [Bool.and_eq_true, decide_eq_true_eq] at hf
  refine ⟨_, rfl, ?_⟩
  simp only [place]; omega
theorem Sys2Proof.Laws.Encoding.uminN32 (d : Nat) (a : Nat) (b : Nat) : Statement (.uminN32 d a b) := by
  intro hf; replace hf : (d < 64 && a < 64 && b < 64 : Bool) = true := hf
  simp only [Bool.and_eq_true, decide_eq_true_eq] at hf
  refine ⟨_, rfl, ?_⟩
  simp only [place]; omega
theorem Sys2Proof.Laws.Encoding.umaxI32 (d : Nat) (a : Nat) (b : Nat) : Statement (.umaxI32 d a b) := by
  intro hf; replace hf : (d < 64 && a < 64 && b < 64 : Bool) = true := hf
  simp only [Bool.and_eq_true, decide_eq_true_eq] at hf
  refine ⟨_, rfl, ?_⟩
  simp only [place]; omega
theorem Sys2Proof.Laws.Encoding.umaxN32 (d : Nat) (a : Nat) (b : Nat) : Statement (.umaxN32 d a b) := by
  intro hf; replace hf : (d < 64 && a < 64 && b < 64 : Bool) = true := hf
  simp only [Bool.and_eq_true, decide_eq_true_eq] at hf
  refine ⟨_, rfl, ?_⟩
  simp only [place]; omega
theorem Sys2Proof.Laws.Encoding.uand (d : Nat) (a : Nat) (b : Nat) : Statement (.uand d a b) := by
  intro hf; replace hf : (d < 64 && a < 64 && b < 64 : Bool) = true := hf
  simp only [Bool.and_eq_true, decide_eq_true_eq] at hf
  refine ⟨_, rfl, ?_⟩
  simp only [place]; omega
theorem Sys2Proof.Laws.Encoding.uor (d : Nat) (a : Nat) (b : Nat) : Statement (.uor d a b) := by
  intro hf; replace hf : (d < 64 && a < 64 && b < 64 : Bool) = true := hf
  simp only [Bool.and_eq_true, decide_eq_true_eq] at hf
  refine ⟨_, rfl, ?_⟩
  simp only [place]; omega
theorem Sys2Proof.Laws.Encoding.uxor (d : Nat) (a : Nat) (b : Nat) : Statement (.uxor d a b) := by
  intro hf; replace hf : (d < 64 && a < 64 && b < 64 : Bool) = true := hf
  simp only [Bool.and_eq_true, decide_eq_true_eq] at hf
  refine ⟨_, rfl, ?_⟩
  simp only [place]; omega
theorem Sys2Proof.Laws.Encoding.ushl (d : Nat) (a : Nat) (b : Nat) : Statement (.ushl d a b) := by
  intro hf; replace hf : (d < 64 && a < 64 && b < 64 : Bool) = true := hf
  simp only [Bool.and_eq_true, decide_eq_true_eq] at hf
  refine ⟨_, rfl, ?_⟩
  simp only [place]; omega
theorem Sys2Proof.Laws.Encoding.ushrN32 (d : Nat) (a : Nat) (b : Nat) : Statement (.ushrN32 d a b) := by
  intro hf; replace hf : (d < 64 && a < 64 && b < 64 : Bool) = true := hf
  simp only [Bool.and_eq_true, decide_eq_true_eq] at hf
  refine ⟨_, rfl, ?_⟩
  simp only [place]; omega
theorem Sys2Proof.Laws.Encoding.ushrI32 (d : Nat) (a : Nat) (b : Nat) : Statement (.ushrI32 d a b) := by
  intro hf; replace hf : (d < 64 && a < 64 && b < 64 : Bool) = true := hf
  simp only [Bool.and_eq_true, decide_eq_true_eq] at hf
  refine ⟨_, rfl, ?_⟩
  simp only [place]; omega
theorem Sys2Proof.Laws.Encoding.urotl (d : Nat) (a : Nat) (b : Nat) : Statement (.urotl d a b) := by
  intro hf; replace hf : (d < 64 && a < 64 && b < 64 : Bool) = true := hf
  simp only [Bool.and_eq_true, decide_eq_true_eq] at hf
  refine ⟨_, rfl, ?_⟩
  simp only [place]; omega
theorem Sys2Proof.Laws.Encoding.uclz (d : Nat) (a : Nat) : Statement (.uclz d a) := by
  intro hf; replace hf : (d < 64 && a < 64 : Bool) = true := hf
  simp only [Bool.and_eq_true, decide_eq_true_eq] at hf
  refine ⟨_, rfl, ?_⟩
  simp only [place]; omega
theorem Sys2Proof.Laws.Encoding.upopc (d : Nat) (a : Nat) : Statement (.upopc d a) := by
  intro hf; replace hf : (d < 64 && a < 64 : Bool) = true := hf
  simp only [Bool.and_eq_true, decide_eq_true_eq] at hf
  refine ⟨_, rfl, ?_⟩
  simp only [place]; omega
theorem Sys2Proof.Laws.Encoding.ubrev (d : Nat) (a : Nat) : Statement (.ubrev d a) := by
  intro hf; replace hf : (d < 64 && a < 64 : Bool) = true := hf
  simp only [Bool.and_eq_true, decide_eq_true_eq] at hf
  refine ⟨_, rfl, ?_⟩
  simp only [place]; omega
theorem Sys2Proof.Laws.Encoding.umov (d : Nat) (a : Nat) : Statement (.umov d a) := by
  intro hf; replace hf : (d < 64 && a < 64 : Bool) = true := hf
  simp only [Bool.and_eq_true, decide_eq_true_eq] at hf
  refine ⟨_, rfl, ?_⟩
  simp only [place]; omega
theorem Sys2Proof.Laws.Encoding.usel (d : Nat) (a : Nat) (b : Nat) : Statement (.usel d a b) := by
  intro hf; replace hf : (d < 64 && a < 64 && b < 64 : Bool) = true := hf
  simp only [Bool.and_eq_true, decide_eq_true_eq] at hf
  refine ⟨_, rfl, ?_⟩
  simp only [place]; omega
theorem Sys2Proof.Laws.Encoding.uadd64 (d : Nat) (a : Nat) (b : Nat) : Statement (.uadd64 d a b) := by
  intro hf; replace hf : (d < 64 && a < 64 && b < 64 : Bool) = true := hf
  simp only [Bool.and_eq_true, decide_eq_true_eq] at hf
  refine ⟨_, rfl, ?_⟩
  simp only [place]; omega
theorem Sys2Proof.Laws.Encoding.ucmpEq (d : Nat) (a : Nat) (b : Nat) : Statement (.ucmpEq d a b) := by
  intro hf; replace hf : (d < 64 && a < 64 && b < 64 : Bool) = true := hf
  simp only [Bool.and_eq_true, decide_eq_true_eq] at hf
  refine ⟨_, rfl, ?_⟩
  simp only [place]; omega
theorem Sys2Proof.Laws.Encoding.ucmpNe (d : Nat) (a : Nat) (b : Nat) : Statement (.ucmpNe d a b) := by
  intro hf; replace hf : (d < 64 && a < 64 && b < 64 : Bool) = true := hf
  simp only [Bool.and_eq_true, decide_eq_true_eq] at hf
  refine ⟨_, rfl, ?_⟩
  simp only [place]; omega
theorem Sys2Proof.Laws.Encoding.ucmpLtI32 (d : Nat) (a : Nat) (b : Nat) : Statement (.ucmpLtI32 d a b) := by
  intro hf; replace hf : (d < 64 && a < 64 && b < 64 : Bool) = true := hf
  simp only [Bool.and_eq_true, decide_eq_true_eq] at hf
  refine ⟨_, rfl, ?_⟩
  simp only [place]; omega
theorem Sys2Proof.Laws.Encoding.ucmpLeI32 (d : Nat) (a : Nat) (b : Nat) : Statement (.ucmpLeI32 d a b) := by
  intro hf; replace hf : (d < 64 && a < 64 && b < 64 : Bool) = true := hf
  simp only [Bool.and_eq_true, decide_eq_true_eq] at hf
  refine ⟨_, rfl, ?_⟩
  simp only [place]; omega
theorem Sys2Proof.Laws.Encoding.ucmpLtN32 (d : Nat) (a : Nat) (b : Nat) : Statement (.ucmpLtN32 d a b) := by
  intro hf; replace hf : (d < 64 && a < 64 && b < 64 : Bool) = true := hf
  simp only [Bool.and_eq_true, decide_eq_true_eq] at hf
  refine ⟨_, rfl, ?_⟩
  simp only [place]; omega
theorem Sys2Proof.Laws.Encoding.ucmpLeN32 (d : Nat) (a : Nat) (b : Nat) : Statement (.ucmpLeN32 d a b) := by
  intro hf; replace hf : (d < 64 && a < 64 && b < 64 : Bool) = true := hf
  simp only [Bool.and_eq_true, decide_eq_true_eq] at hf
  refine ⟨_, rfl, ?_⟩
  simp only [place]; omega
theorem Sys2Proof.Laws.Encoding.uaddF32 (d : Nat) (a : Nat) (b : Nat) : Statement (.uaddF32 d a b) := by
  intro hf; replace hf : (d < 64 && a < 64 && b < 64 : Bool) = true := hf
  simp only [Bool.and_eq_true, decide_eq_true_eq] at hf
  refine ⟨_, rfl, ?_⟩
  simp only [place]; omega
theorem Sys2Proof.Laws.Encoding.umulF32 (d : Nat) (a : Nat) (b : Nat) : Statement (.umulF32 d a b) := by
  intro hf; replace hf : (d < 64 && a < 64 && b < 64 : Bool) = true := hf
  simp only [Bool.and_eq_true, decide_eq_true_eq] at hf
  refine ⟨_, rfl, ?_⟩
  simp only [place]; omega
theorem Sys2Proof.Laws.Encoding.ufmaF32 (d : Nat) (a : Nat) (b : Nat) : Statement (.ufmaF32 d a b) := by
  intro hf; replace hf : (d < 64 && a < 64 && b < 64 : Bool) = true := hf
  simp only [Bool.and_eq_true, decide_eq_true_eq] at hf
  refine ⟨_, rfl, ?_⟩
  simp only [place]; omega
theorem Sys2Proof.Laws.Encoding.uminF32 (d : Nat) (a : Nat) (b : Nat) : Statement (.uminF32 d a b) := by
  intro hf; replace hf : (d < 64 && a < 64 && b < 64 : Bool) = true := hf
  simp only [Bool.and_eq_true, decide_eq_true_eq] at hf
  refine ⟨_, rfl, ?_⟩
  simp only [place]; omega
theorem Sys2Proof.Laws.Encoding.umaxF32 (d : Nat) (a : Nat) (b : Nat) : Statement (.umaxF32 d a b) := by
  intro hf; replace hf : (d < 64 && a < 64 && b < 64 : Bool) = true := hf
  simp only [Bool.and_eq_true, decide_eq_true_eq] at hf
  refine ⟨_, rfl, ?_⟩
  simp only [place]; omega
theorem Sys2Proof.Laws.Encoding.ucmpLtF32 (d : Nat) (a : Nat) (b : Nat) : Statement (.ucmpLtF32 d a b) := by
  intro hf; replace hf : (d < 64 && a < 64 && b < 64 : Bool) = true := hf
  simp only [Bool.and_eq_true, decide_eq_true_eq] at hf
  refine ⟨_, rfl, ?_⟩
  simp only [place]; omega
theorem Sys2Proof.Laws.Encoding.uret (a : Nat) : Statement (.uret a) := by
  intro hf; replace hf : (a < 64 : Bool) = true := hf
  simp only [decide_eq_true_eq] at hf
  refine ⟨_, rfl, ?_⟩
  simp only [place]; omega
theorem Sys2Proof.Laws.Encoding.uaddi (d : Nat) (a : Nat) (imm : Nat) : Statement (.uaddi d a imm) := by
  intro hf; replace hf : (d < 64 && a < 64 && imm < 256 : Bool) = true := hf
  simp only [Bool.and_eq_true, decide_eq_true_eq] at hf
  refine ⟨_, rfl, ?_⟩
  simp only [place]; omega
theorem Sys2Proof.Laws.Encoding.uandi (d : Nat) (a : Nat) (imm : Nat) : Statement (.uandi d a imm) := by
  intro hf; replace hf : (d < 64 && a < 64 && imm < 256 : Bool) = true := hf
  simp only [Bool.and_eq_true, decide_eq_true_eq] at hf
  refine ⟨_, rfl, ?_⟩
  simp only [place]; omega
theorem Sys2Proof.Laws.Encoding.uori (d : Nat) (a : Nat) (imm : Nat) : Statement (.uori d a imm) := by
  intro hf; replace hf : (d < 64 && a < 64 && imm < 256 : Bool) = true := hf
  simp only [Bool.and_eq_true, decide_eq_true_eq] at hf
  refine ⟨_, rfl, ?_⟩
  simp only [place]; omega
theorem Sys2Proof.Laws.Encoding.uxori (d : Nat) (a : Nat) (imm : Nat) : Statement (.uxori d a imm) := by
  intro hf; replace hf : (d < 64 && a < 64 && imm < 256 : Bool) = true := hf
  simp only [Bool.and_eq_true, decide_eq_true_eq] at hf
  refine ⟨_, rfl, ?_⟩
  simp only [place]; omega
theorem Sys2Proof.Laws.Encoding.ushli (d : Nat) (a : Nat) (imm : Nat) : Statement (.ushli d a imm) := by
  intro hf; replace hf : (d < 64 && a < 64 && imm < 32 : Bool) = true := hf
  simp only [Bool.and_eq_true, decide_eq_true_eq] at hf
  refine ⟨_, rfl, ?_⟩
  simp only [place]; omega
theorem Sys2Proof.Laws.Encoding.ushriN32 (d : Nat) (a : Nat) (imm : Nat) : Statement (.ushriN32 d a imm) := by
  intro hf; replace hf : (d < 64 && a < 64 && imm < 32 : Bool) = true := hf
  simp only [Bool.and_eq_true, decide_eq_true_eq] at hf
  refine ⟨_, rfl, ?_⟩
  simp only [place]; omega
theorem Sys2Proof.Laws.Encoding.ushriI32 (d : Nat) (a : Nat) (imm : Nat) : Statement (.ushriI32 d a imm) := by
  intro hf; replace hf : (d < 64 && a < 64 && imm < 32 : Bool) = true := hf
  simp only [Bool.and_eq_true, decide_eq_true_eq] at hf
  refine ⟨_, rfl, ?_⟩
  simp only [place]; omega
theorem Sys2Proof.Laws.Encoding.movi (d : Nat) (imm : Nat) : Statement (.movi d imm) := by
  intro hf; replace hf : (d < 64 && imm < 256 : Bool) = true := hf
  simp only [Bool.and_eq_true, decide_eq_true_eq] at hf
  refine ⟨_, rfl, ?_⟩
  simp only [place]; omega
theorem Sys2Proof.Laws.Encoding.ldk (d : Nat) (imm : Nat) : Statement (.ldk d imm) := by
  intro hf; replace hf : (d < 64 && imm < 256 : Bool) = true := hf
  simp only [Bool.and_eq_true, decide_eq_true_eq] at hf
  refine ⟨_, rfl, ?_⟩
  simp only [place]; omega
theorem Sys2Proof.Laws.Encoding.ucmpiEq (d : Nat) (a : Nat) (imm : Nat) : Statement (.ucmpiEq d a imm) := by
  intro hf; replace hf : (d < 64 && a < 64 && imm < 256 : Bool) = true := hf
  simp only [Bool.and_eq_true, decide_eq_true_eq] at hf
  refine ⟨_, rfl, ?_⟩
  simp only [place]; omega
theorem Sys2Proof.Laws.Encoding.ucmpiLtI32 (d : Nat) (a : Nat) (imm : Nat) : Statement (.ucmpiLtI32 d a imm) := by
  intro hf; replace hf : (d < 64 && a < 64 && imm < 256 : Bool) = true := hf
  simp only [Bool.and_eq_true, decide_eq_true_eq] at hf
  refine ⟨_, rfl, ?_⟩
  simp only [place]; omega
theorem Sys2Proof.Laws.Encoding.ucmpiLtN32 (d : Nat) (a : Nat) (imm : Nat) : Statement (.ucmpiLtN32 d a imm) := by
  intro hf; replace hf : (d < 64 && a < 64 && imm < 256 : Bool) = true := hf
  simp only [Bool.and_eq_true, decide_eq_true_eq] at hf
  refine ⟨_, rfl, ?_⟩
  simp only [place]; omega
theorem Sys2Proof.Laws.Encoding.uldB32 (d : Nat) (a : Nat) (imm : Nat) : Statement (.uldB32 d a imm) := by
  intro hf; replace hf : (d < 64 && a < 64 && imm < 256 : Bool) = true := hf
  simp only [Bool.and_eq_true, decide_eq_true_eq] at hf
  refine ⟨_, rfl, ?_⟩
  simp only [place]; omega
theorem Sys2Proof.Laws.Encoding.uldB64 (d : Nat) (a : Nat) (imm : Nat) : Statement (.uldB64 d a imm) := by
  intro hf; replace hf : (d < 64 && a < 64 && imm < 256 : Bool) = true := hf
  simp only [Bool.and_eq_true, decide_eq_true_eq] at hf
  refine ⟨_, rfl, ?_⟩
  simp only [place]; omega
theorem Sys2Proof.Laws.Encoding.ustB32 (d : Nat) (a : Nat) (imm : Nat) : Statement (.ustB32 d a imm) := by
  intro hf; replace hf : (d < 64 && a < 64 && imm < 256 : Bool) = true := hf
  simp only [Bool.and_eq_true, decide_eq_true_eq] at hf
  refine ⟨_, rfl, ?_⟩
  simp only [place]; omega
theorem Sys2Proof.Laws.Encoding.ustB64 (d : Nat) (a : Nat) (imm : Nat) : Statement (.ustB64 d a imm) := by
  intro hf; replace hf : (d < 64 && a < 64 && imm < 256 : Bool) = true := hf
  simp only [Bool.and_eq_true, decide_eq_true_eq] at hf
  refine ⟨_, rfl, ?_⟩
  simp only [place]; omega
theorem Sys2Proof.Laws.Encoding.bra (disp : Nat) : Statement (.bra disp) := by
  intro hf; replace hf : (disp < 65536 : Bool) = true := hf
  simp only [decide_eq_true_eq] at hf
  refine ⟨_, rfl, ?_⟩
  omega
theorem Sys2Proof.Laws.Encoding.bc (sense : Bool) (c : Nat) (disp : Nat) : Statement (.bc sense c disp) := by
  intro hf; replace hf : (c < 64 && disp < 65536 : Bool) = true := hf
  simp only [Bool.and_eq_true, decide_eq_true_eq] at hf
  refine ⟨_, rfl, ?_⟩
  have := bool_lt sense
  simp only [place]; omega
theorem Sys2Proof.Laws.Encoding.ucall (c : Nat) (disp : Nat) : Statement (.ucall c disp) := by
  intro hf; replace hf : (c < 64 && disp < 65536 : Bool) = true := hf
  simp only [Bool.and_eq_true, decide_eq_true_eq] at hf
  refine ⟨_, rfl, ?_⟩
  simp only [place]; omega
theorem Sys2Proof.Laws.Encoding.joinset (j : Nat) (a : Nat) (x : Bool) : Statement (.joinset j a x) := by
  intro hf; replace hf : (j < 16 && a < 64 : Bool) = true := hf
  simp only [Bool.and_eq_true, decide_eq_true_eq] at hf
  refine ⟨_, rfl, ?_⟩
  have := bool_lt x
  simp only [place]; omega
theorem Sys2Proof.Laws.Encoding.yield : Statement .yield := by
  intro _; refine ⟨_, rfl, ?_⟩
  decide
theorem Sys2Proof.Laws.Encoding.part (r : Nat) : Statement (.part r) := by
  intro hf; replace hf : (r < 8 : Bool) = true := hf
  simp only [decide_eq_true_eq] at hf
  refine ⟨_, rfl, ?_⟩
  omega
theorem Sys2Proof.Laws.Encoding.arrive (r : Nat) : Statement (.arrive r) := by
  intro hf; replace hf : (r < 8 : Bool) = true := hf
  simp only [decide_eq_true_eq] at hf
  refine ⟨_, rfl, ?_⟩
  omega
theorem Sys2Proof.Laws.Encoding.waitb (r : Nat) : Statement (.waitb r) := by
  intro hf; replace hf : (r < 8 : Bool) = true := hf
  simp only [decide_eq_true_eq] at hf
  refine ⟨_, rfl, ?_⟩
  omega
theorem Sys2Proof.Laws.Encoding.trap (n : Nat) : Statement (.trap n) := by
  intro hf; replace hf : (n < 128 : Bool) = true := hf
  simp only [decide_eq_true_eq] at hf
  refine ⟨_, rfl, ?_⟩
  omega
theorem Sys2Proof.Laws.Encoding.rett : Statement .rett := by
  intro _; refine ⟨_, rfl, ?_⟩
  decide
theorem Sys2Proof.Laws.Encoding.fenceAcq (a : Nat) : Statement (.fenceAcq a) := by
  intro hf; replace hf : (a < 64 : Bool) = true := hf
  simp only [decide_eq_true_eq] at hf
  refine ⟨_, rfl, ?_⟩
  simp only [place]; omega
theorem Sys2Proof.Laws.Encoding.fenceRel (a : Nat) : Statement (.fenceRel a) := by
  intro hf; replace hf : (a < 64 : Bool) = true := hf
  simp only [decide_eq_true_eq] at hf
  refine ⟨_, rfl, ?_⟩
  simp only [place]; omega
theorem Sys2Proof.Laws.Encoding.fenceAr (a : Nat) : Statement (.fenceAr a) := by
  intro hf; replace hf : (a < 64 : Bool) = true := hf
  simp only [decide_eq_true_eq] at hf
  refine ⟨_, rfl, ?_⟩
  simp only [place]; omega
theorem Sys2Proof.Laws.Encoding.wb (a : Nat) (b : Nat) : Statement (.wb a b) := by
  intro hf; replace hf : (a < 64 && b < 64 : Bool) = true := hf
  simp only [Bool.and_eq_true, decide_eq_true_eq] at hf
  refine ⟨_, rfl, ?_⟩
  simp only [place]; omega
theorem Sys2Proof.Laws.Encoding.inv (a : Nat) (b : Nat) : Statement (.inv a b) := by
  intro hf; replace hf : (a < 64 && b < 64 : Bool) = true := hf
  simp only [Bool.and_eq_true, decide_eq_true_eq] at hf
  refine ⟨_, rfl, ?_⟩
  simp only [place]; omega
theorem Sys2Proof.Laws.Encoding.invn (d : Nat) (a : Nat) (b : Nat) : Statement (.invn d a b) := by
  intro hf; replace hf : (d < 64 && a < 64 && b < 64 : Bool) = true := hf
  simp only [Bool.and_eq_true, decide_eq_true_eq] at hf
  refine ⟨_, rfl, ?_⟩
  simp only [place]; omega
theorem Sys2Proof.Laws.Encoding.ifence : Statement .ifence := by
  intro _; refine ⟨_, rfl, ?_⟩
  decide
theorem Sys2Proof.Laws.Encoding.icinv (a : Nat) (b : Nat) : Statement (.icinv a b) := by
  intro hf; replace hf : (a < 64 && b < 64 : Bool) = true := hf
  simp only [Bool.and_eq_true, decide_eq_true_eq] at hf
  refine ⟨_, rfl, ?_⟩
  simp only [place]; omega
theorem Sys2Proof.Laws.Encoding.pfi (a : Nat) (b : Nat) : Statement (.pfi a b) := by
  intro hf; replace hf : (a < 64 && b < 64 : Bool) = true := hf
  simp only [Bool.and_eq_true, decide_eq_true_eq] at hf
  refine ⟨_, rfl, ?_⟩
  simp only [place]; omega
theorem Sys2Proof.Laws.Encoding.hwaitFull (h : Nat) (p : Bool) : Statement (.hwaitFull h p) := by
  intro hf; replace hf : (h < 64 : Bool) = true := hf
  simp only [decide_eq_true_eq] at hf
  refine ⟨_, rfl, ?_⟩
  have := bool_lt p
  simp only [place]; omega
theorem Sys2Proof.Laws.Encoding.hwaitFree (h : Nat) : Statement (.hwaitFree h) := by
  intro hf; replace hf : (h < 64 : Bool) = true := hf
  simp only [decide_eq_true_eq] at hf
  refine ⟨_, rfl, ?_⟩
  simp only [place]; omega
theorem Sys2Proof.Laws.Encoding.hcfgBind (h : Nat) (a : Nat) (b : Nat) : Statement (.hcfgBind h a b) := by
  intro hf; replace hf : (h < 64 && a < 64 && b < 64 : Bool) = true := hf
  simp only [Bool.and_eq_true, decide_eq_true_eq] at hf
  refine ⟨_, rfl, ?_⟩
  simp only [place]; omega
theorem Sys2Proof.Laws.Encoding.hcfgRing (h : Nat) (a : Nat) : Statement (.hcfgRing h a) := by
  intro hf; replace hf : (h < 64 && a < 64 : Bool) = true := hf
  simp only [Bool.and_eq_true, decide_eq_true_eq] at hf
  refine ⟨_, rfl, ?_⟩
  simp only [place]; omega
theorem Sys2Proof.Laws.Encoding.hcfgMark (h : Nat) : Statement (.hcfgMark h) := by
  intro hf; replace hf : (h < 64 : Bool) = true := hf
  simp only [decide_eq_true_eq] at hf
  refine ⟨_, rfl, ?_⟩
  simp only [place]; omega
theorem Sys2Proof.Laws.Encoding.hcfgUnbind (h : Nat) : Statement (.hcfgUnbind h) := by
  intro hf; replace hf : (h < 64 : Bool) = true := hf
  simp only [decide_eq_true_eq] at hf
  refine ⟨_, rfl, ?_⟩
  simp only [place]; omega
theorem Sys2Proof.Laws.Encoding.hfree (h : Nat) (p : Bool) : Statement (.hfree h p) := by
  intro hf; replace hf : (h < 64 : Bool) = true := hf
  simp only [decide_eq_true_eq] at hf
  refine ⟨_, rfl, ?_⟩
  have := bool_lt p
  simp only [place]; omega
theorem Sys2Proof.Laws.Encoding.fsopen (a : Nat) (b : Nat) : Statement (.fsopen a b) := by
  intro hf; replace hf : (a < 64 && b < 64 : Bool) = true := hf
  simp only [Bool.and_eq_true, decide_eq_true_eq] at hf
  refine ⟨_, rfl, ?_⟩
  simp only [place]; omega
theorem Sys2Proof.Laws.Encoding.fsclose (a : Nat) : Statement (.fsclose a) := by
  intro hf; replace hf : (a < 64 : Bool) = true := hf
  simp only [decide_eq_true_eq] at hf
  refine ⟨_, rfl, ?_⟩
  simp only [place]; omega
theorem Sys2Proof.Laws.Encoding.fswait (a : Nat) : Statement (.fswait a) := by
  intro hf; replace hf : (a < 64 : Bool) = true := hf
  simp only [decide_eq_true_eq] at hf
  refine ⟨_, rfl, ?_⟩
  simp only [place]; omega
theorem Sys2Proof.Laws.Encoding.mfs (r : Nat) (num : Nat) : Statement (.mfs r num) := by
  intro hf; replace hf : (r < 64 && num < 4096 : Bool) = true := hf
  simp only [Bool.and_eq_true, decide_eq_true_eq] at hf
  refine ⟨_, rfl, ?_⟩
  simp only [place]; omega
theorem Sys2Proof.Laws.Encoding.mts (r : Nat) (num : Nat) : Statement (.mts r num) := by
  intro hf; replace hf : (r < 64 && num < 4096 : Bool) = true := hf
  simp only [Bool.and_eq_true, decide_eq_true_eq] at hf
  refine ⟨_, rfl, ?_⟩
  simp only [place]; omega
theorem Sys2Proof.Laws.Encoding.rngseed (k : Nat) : Statement (.rngseed k) := by
  intro hf; replace hf : (k < 64 : Bool) = true := hf
  simp only [decide_eq_true_eq] at hf
  refine ⟨_, rfl, ?_⟩
  simp only [place]; omega
theorem Sys2Proof.Laws.Encoding.rgnw (k : Nat) (e : Nat) (t : Nat) : Statement (.rgnw k e t) := by
  intro hf; replace hf : (k < 64 && e < 64 && t < 64 : Bool) = true := hf
  simp only [Bool.and_eq_true, decide_eq_true_eq] at hf
  refine ⟨_, rfl, ?_⟩
  simp only [place]; omega
theorem Sys2Proof.Laws.Encoding.rgnr (k : Nat) (e : Nat) : Statement (.rgnr k e) := by
  intro hf; replace hf : (k < 64 && e < 64 : Bool) = true := hf
  simp only [Bool.and_eq_true, decide_eq_true_eq] at hf
  refine ⟨_, rfl, ?_⟩
  simp only [place]; omega
theorem Sys2Proof.Laws.Encoding.bgtw (k : Nat) (e : Nat) : Statement (.bgtw k e) := by
  intro hf; replace hf : (k < 64 && e < 64 : Bool) = true := hf
  simp only [Bool.and_eq_true, decide_eq_true_eq] at hf
  refine ⟨_, rfl, ?_⟩
  simp only [place]; omega
theorem Sys2Proof.Laws.Encoding.bgtr (k : Nat) (e : Nat) : Statement (.bgtr k e) := by
  intro hf; replace hf : (k < 64 && e < 64 : Bool) = true := hf
  simp only [Bool.and_eq_true, decide_eq_true_eq] at hf
  refine ⟨_, rfl, ?_⟩
  simp only [place]; omega
theorem Sys2Proof.Laws.Encoding.sysregWrite (src : RegSrc) (num : Nat) (v : Word) : Statement (.sysregWrite src num v) := by
  intro h; exact absurd h (Bool.false_ne_true)
theorem Sys2Proof.Laws.Encoding.cfrtlRead (wave : Nat) : Statement (.cfrtlRead wave) := by
  intro h; exact absurd h (Bool.false_ne_true)
theorem Sys2Proof.Laws.Encoding.trappcWrite (wave : Nat) (v : DWord) : Statement (.trappcWrite wave v) := by
  intro h; exact absurd h (Bool.false_ne_true)
theorem Sys2Proof.Laws.Encoding.wpartWrite (wave : Nat) (v : Word) : Statement (.wpartWrite wave v) := by
  intro h; exact absurd h (Bool.false_ne_true)
theorem Sys2Proof.Laws.Encoding.satfWrite (wave : Nat) (v : Word) : Statement (.satfWrite wave v) := by
  intro h; exact absurd h (Bool.false_ne_true)
theorem Sys2Proof.Laws.Encoding.measd7Write (v : Word) : Statement (.measd7Write v) := by
  intro h; exact absurd h (Bool.false_ne_true)
theorem Sys2Proof.Laws.Encoding.fqconsWrite (tenant : Nat) (v : Word) : Statement (.fqconsWrite tenant v) := by
  intro h; exact absurd h (Bool.false_ne_true)
theorem Sys2Proof.Laws.Encoding.chkkeyWrite (v : DWord) : Statement (.chkkeyWrite v) := by
  intro h; exact absurd h (Bool.false_ne_true)
theorem Sys2Proof.Laws.Encoding.firctlWrite (v : Word) : Statement (.firctlWrite v) := by
  intro h; exact absurd h (Bool.false_ne_true)
theorem Sys2Proof.Laws.Encoding.pkgnumWrite (v : Word) : Statement (.pkgnumWrite v) := by
  intro h; exact absurd h (Bool.false_ne_true)
theorem Sys2Proof.Laws.Encoding.ltreset : Statement .ltreset := by
  intro h; exact absurd h (Bool.false_ne_true)
theorem Sys2Proof.Laws.Encoding.tlbinvPage (asid : Nat) : Statement (.tlbinvPage asid) := by
  intro h; exact absurd h (Bool.false_ne_true)
theorem Sys2Proof.Laws.Encoding.tlbinvAsid (asid : Nat) : Statement (.tlbinvAsid asid) := by
  intro h; exact absurd h (Bool.false_ne_true)
theorem Sys2Proof.Laws.Encoding.tlbinvAll : Statement .tlbinvAll := by
  intro h; exact absurd h (Bool.false_ne_true)
theorem Sys2Proof.Laws.Encoding.tlbInvalidateDone : Statement .tlbInvalidateDone := by
  intro h; exact absurd h (Bool.false_ne_true)
theorem Sys2Proof.Laws.Encoding.mapcmdSubmit : Statement .mapcmdSubmit := by
  intro h; exact absurd h (Bool.false_ne_true)
theorem Sys2Proof.Laws.Encoding.mapInstall : Statement .mapInstall := by
  intro h; exact absurd h (Bool.false_ne_true)
theorem Sys2Proof.Laws.Encoding.precmdSave (core : Nat) (tslot : Nat) : Statement (.precmdSave core tslot) := by
  intro h; exact absurd h (Bool.false_ne_true)
theorem Sys2Proof.Laws.Encoding.saveAreaWrite : Statement .saveAreaWrite := by
  intro h; exact absurd h (Bool.false_ne_true)
theorem Sys2Proof.Laws.Encoding.precmdRestore (core : Nat) : Statement (.precmdRestore core) := by
  intro h; exact absurd h (Bool.false_ne_true)
theorem Sys2Proof.Laws.Encoding.rtapply : Statement .rtapply := by
  intro h; exact absurd h (Bool.false_ne_true)
theorem Sys2Proof.Laws.Encoding.wcmdResume (tenant : Nat) (wid : Nat) : Statement (.wcmdResume tenant wid) := by
  intro h; exact absurd h (Bool.false_ne_true)
theorem Sys2Proof.Laws.Encoding.wcmdKill (tenant : Nat) (wid : Nat) : Statement (.wcmdKill tenant wid) := by
  intro h; exact absurd h (Bool.false_ne_true)
theorem Sys2Proof.Laws.Encoding.resetcmdWarm : Statement .resetcmdWarm := by
  intro h; exact absurd h (Bool.false_ne_true)
theorem Sys2Proof.Laws.Encoding.resetcmdCore (core : Nat) : Statement (.resetcmdCore core) := by
  intro h; exact absurd h (Bool.false_ne_true)
theorem Sys2Proof.Laws.Encoding.gatecmdGate (core : Nat) : Statement (.gatecmdGate core) := by
  intro h; exact absurd h (Bool.false_ne_true)
theorem Sys2Proof.Laws.Encoding.gatecmdWake (core : Nat) : Statement (.gatecmdWake core) := by
  intro h; exact absurd h (Bool.false_ne_true)
theorem Sys2Proof.Laws.Encoding.coldReset : Statement .coldReset := by
  intro h; exact absurd h (Bool.false_ne_true)
theorem Sys2Proof.Laws.Encoding.cxlHotReset : Statement .cxlHotReset := by
  intro h; exact absurd h (Bool.false_ne_true)
theorem Sys2Proof.Laws.Encoding.snoopTimeout : Statement .snoopTimeout := by
  intro h; exact absurd h (Bool.false_ne_true)
theorem Sys2Proof.Laws.Encoding.bootSequence : Statement .bootSequence := by
  intro h; exact absurd h (Bool.false_ne_true)
theorem Sys2Proof.Laws.Encoding.powerMeasurement (watts : Nat) : Statement (.powerMeasurement watts) := by
  intro h; exact absurd h (Bool.false_ne_true)
theorem Sys2Proof.Laws.Encoding.budgetPeriodStart : Statement .budgetPeriodStart := by
  intro h; exact absurd h (Bool.false_ne_true)
theorem Sys2Proof.Laws.Encoding.hbmRequest (req : HbmReq) : Statement (.hbmRequest req) := by
  intro h; exact absurd h (Bool.false_ne_true)
theorem Sys2Proof.Laws.Encoding.batchForm (ctrl : Nat) : Statement (.batchForm ctrl) := by
  intro h; exact absurd h (Bool.false_ne_true)
theorem Sys2Proof.Laws.Encoding.scrubRead (line : Nat) (found : ScrubFound) : Statement (.scrubRead line found) := by
  intro h; exact absurd h (Bool.false_ne_true)
theorem Sys2Proof.Laws.Encoding.scrubConditionalWrite (idx : Nat) : Statement (.scrubConditionalWrite idx) := by
  intro h; exact absurd h (Bool.false_ne_true)
theorem Sys2Proof.Laws.Encoding.llcWayDisable (slice : Nat) (set : Nat) (way : Nat) (line : Nat) : Statement (.llcWayDisable slice set way line) := by
  intro h; exact absurd h (Bool.false_ne_true)
theorem Sys2Proof.Laws.Encoding.sliceRetire (die : Nat) (slice : Nat) : Statement (.sliceRetire die slice) := by
  intro h; exact absurd h (Bool.false_ne_true)
theorem Sys2Proof.Laws.Encoding.linkFlitRetry (link : Nat) : Statement (.linkFlitRetry link) := by
  intro h; exact absurd h (Bool.false_ne_true)
theorem Sys2Proof.Laws.Encoding.linkDown (link : Nat) : Statement (.linkDown link) := by
  intro h; exact absurd h (Bool.false_ne_true)
theorem Sys2Proof.Laws.Encoding.routeloop (who : Requester) (part link : Nat) : Statement (.routeloop who part link) := by
  intro h; exact absurd h (Bool.false_ne_true)
theorem Sys2Proof.Laws.Encoding.hostSnoop (line : Nat) (inv : Bool) : Statement (.hostSnoop line inv) := by
  intro h; exact absurd h (Bool.false_ne_true)
theorem Sys2Proof.Laws.Encoding.hostDeviceAccess (acc : HostAccess) : Statement (.hostDeviceAccess acc) := by
  intro h; exact absurd h (Bool.false_ne_true)
theorem Sys2Proof.Laws.Encoding.msiDeliverPending (port : Nat) : Statement (.msiDeliverPending port) := by
  intro h; exact absurd h (Bool.false_ne_true)
theorem Sys2Proof.Laws.Encoding.quoteRequest (nonce : BitVec 256) : Statement (.quoteRequest nonce) := by
  intro h; exact absurd h (Bool.false_ne_true)
theorem Sys2Proof.Laws.Encoding.launchAccept : Statement .launchAccept := by
  intro h; exact absurd h (Bool.false_ne_true)
theorem Sys2Proof.Laws.Encoding.teamPlace (grid : Nat) (core : Nat) (part : Nat) : Statement (.teamPlace grid core part) := by
  intro h; exact absurd h (Bool.false_ne_true)
theorem Sys2Proof.Laws.Encoding.hamperStage (grid : Nat) (team : Nat) : Statement (.hamperStage grid team) := by
  intro h; exact absurd h (Bool.false_ne_true)
theorem Sys2Proof.Laws.Encoding.launchComplete (grid : Nat) : Statement (.launchComplete grid) := by
  intro h; exact absurd h (Bool.false_ne_true)
theorem Sys2Proof.Laws.Encoding.shuttleDispatch (grid : Nat) (core : Nat) (part : Nat) : Statement (.shuttleDispatch grid core part) := by
  intro h; exact absurd h (Bool.false_ne_true)
theorem Sys2Proof.Laws.Encoding.taskFinish (grid : Nat) (id : Nat) : Statement (.taskFinish grid id) := by
  intro h; exact absurd h (Bool.false_ne_true)
theorem Sys2Proof.Laws.Encoding.commitPublication : Statement .commitPublication := by
  intro h; exact absurd h (Bool.false_ne_true)
theorem Sys2Proof.Laws.Encoding.taskNonspecRedispatch (grid : Nat) (part : Nat) : Statement (.taskNonspecRedispatch grid part) := by
  intro h; exact absurd h (Bool.false_ne_true)
theorem Sys2Proof.Laws.Encoding.waitCycleResolution (team : Nat) : Statement (.waitCycleResolution team) := by
  intro h; exact absurd h (Bool.false_ne_true)
theorem Sys2Proof.Laws.Encoding.loadDataArrive (op : Nat) (part : Nat) (word : Nat) : Statement (.loadDataArrive op part word) := by
  intro h; exact absurd h (Bool.false_ne_true)
theorem Sys2Proof.Laws.Encoding.memoryEventPerform (op : Nat) (part : Nat) : Statement (.memoryEventPerform op part) := by
  intro h; exact absurd h (Bool.false_ne_true)
theorem Sys2Proof.Laws.Encoding.releaseProvisionalPerform (op : Nat) (part : Nat) : Statement (.releaseProvisionalPerform op part) := by
  intro h; exact absurd h (Bool.false_ne_true)
theorem Sys2Proof.Laws.Encoding.releaseComplete (op : Nat) (part : Nat) : Statement (.releaseComplete op part) := by
  intro h; exact absurd h (Bool.false_ne_true)
theorem Sys2Proof.Laws.Encoding.intervalRecord (idx : Nat) : Statement (.intervalRecord idx) := by
  intro h; exact absurd h (Bool.false_ne_true)
theorem Sys2Proof.Laws.Encoding.ltRebase : Statement .ltRebase := by
  intro h; exact absurd h (Bool.false_ne_true)
theorem Sys2Proof.Laws.Encoding.arriveCount (op : Nat) : Statement (.arriveCount op) := by
  intro h; exact absurd h (Bool.false_ne_true)
theorem Sys2Proof.Laws.Encoding.phaseComplete (route : Nat) : Statement (.phaseComplete route) := by
  intro h; exact absurd h (Bool.false_ne_true)
theorem Sys2Proof.Laws.Encoding.copyTakeSlot (copy : Nat) : Statement (.copyTakeSlot copy) := by
  intro h; exact absurd h (Bool.false_ne_true)
theorem Sys2Proof.Laws.Encoding.copyTransferFault (copy : Nat) : Statement (.copyTransferFault copy) := by
  intro h; exact absurd h (Bool.false_ne_true)
theorem Sys2Proof.Laws.Encoding.copyComplete (copy : Nat) : Statement (.copyComplete copy) := by
  intro h; exact absurd h (Bool.false_ne_true)
theorem Sys2Proof.Laws.Encoding.markPerform (op : Nat) : Statement (.markPerform op) := by
  intro h; exact absurd h (Bool.false_ne_true)
theorem Sys2Proof.Laws.Encoding.handleAcquire (wave : Nat) (lane : Nat) : Statement (.handleAcquire wave lane) := by
  intro h; exact absurd h (Bool.false_ne_true)
theorem Sys2Proof.Laws.Encoding.accumulateApply (op : Nat) (part : Nat) (elem : Nat) : Statement (.accumulateApply op part elem) := by
  intro h; exact absurd h (Bool.false_ne_true)
theorem Sys2Proof.Laws.Encoding.detContributionApply (op : Nat) (part : Nat) (elem : Nat) : Statement (.detContributionApply op part elem) := by
  intro h; exact absurd h (Bool.false_ne_true)
theorem Sys2Proof.Laws.Encoding.pageWalk (walk : Nat) : Statement (.pageWalk walk) := by
  intro h; exact absurd h (Bool.false_ne_true)
theorem Sys2Proof.Laws.Encoding.icacheMissFill (miss : Nat) : Statement (.icacheMissFill miss) := by
  intro h; exact absurd h (Bool.false_ne_true)
theorem Sys2Proof.Laws.Encoding.firDelayedStore : Statement .firDelayedStore := by
  intro h; exact absurd h (Bool.false_ne_true)
theorem Sys2Proof.Laws.Encoding.faultRecordPost (tenant : Nat) : Statement (.faultRecordPost tenant) := by
  intro h; exact absurd h (Bool.false_ne_true)
theorem Sys2Proof.Laws.Encoding.spawnPerform (op : Nat) (part : Nat) : Statement (.spawnPerform op part) := by
  intro h; exact absurd h (Bool.false_ne_true)
theorem Sys2Proof.Laws.Encoding.accumulatorSlotWritten (op : Nat) (part : Nat) : Statement (.accumulatorSlotWritten op part) := by
  intro h; exact absurd h (Bool.false_ne_true)
theorem Sys2Proof.Laws.Encoding.backInvalidateResponse (line : Nat) : Statement (.backInvalidateResponse line) := by
  intro h; exact absurd h (Bool.false_ne_true)
end

