-- ==== Sys2Proof/Laws/Traps.lean ====
section
/-! SUPPORT. The spec lemmas of taking a trap and posting a fault (R164, R315), and of issuing an operation: what each does and
what it leaves alone. -/

set_option Elab.async false

namespace Sys2Proof.Machine

open Sys2Proof Sys2Proof.Safety

/-- R164: every bundle that stays in a wave whose lanes are taken out holds none of them. -/
theorem Wave.unbundle_disjoint (x : Wave) (m : Mask) (b : Bundle) (hb : b ∈ (x.unbundle m).bundles) : b.lanes &&& m = 0#32 := by
  simp only [Wave.unbundle, List.mem_filter, List.mem_map] at hb
  obtain ⟨⟨k, -, rfl⟩, -⟩ := hb
  apply BitVec.eq_of_getLsbD_eq
  intro i hi
  simp only [BitVec.getLsbD_and, BitVec.getLsbD_not, BitVec.getLsbD_zero]
  cases k.lanes.getLsbD i <;> cases m.getLsbD i <;> simp

/-- R164: a wave that enters the handler is in the handler. -/
theorem Wave.enterHandler_inHandler (x : Wave) (vec : DWord) (word : Word) (pc : DWord) (mask : Mask) (ctx : Option Clause) :
    InHandler x (x.enterHandler vec word pc mask (x.trapLanes mask) ctx) vec pc word mask ctx := by
  have hrest : ((x.unbundle (x.trapLanes mask)).setStatus (x.trapLanes mask) .running).setPcs (x.trapLanes mask) vec =
      { x.unbundle (x.trapLanes mask) with lanes := (((x.unbundle (x.trapLanes mask)).setStatus (x.trapLanes mask) .running).setPcs (x.trapLanes mask) vec).lanes } := by
    rw [Wave.setPcs_rest]
    rw [Wave.setStatus_rest (x.unbundle (x.trapLanes mask))]
  have hbs := congrArg Wave.bundles hrest
  refine ⟨rfl, rfl, rfl, rfl, rfl, rfl, fun l => ?_, ⟨_, List.mem_append_right _ (List.mem_singleton.mpr rfl), rfl, rfl, rfl, rfl⟩, fun b hb => ?_, ?_⟩
  · show (((x.unbundle (x.trapLanes mask)).setStatus (x.trapLanes mask) .running).setPcs (x.trapLanes mask) vec).lane l = _
    rw [Wave.setPcs_lane, Wave.setStatus_lane]
    have hl : (x.unbundle (x.trapLanes mask)).lane l = x.lane l := rfl
    rw [hl]
    split <;> rfl
  · have hb' : b ∈ (((x.unbundle (x.trapLanes mask)).setStatus (x.trapLanes mask) .running).setPcs (x.trapLanes mask) vec).bundles ∨ b = { lanes := x.trapLanes mask, cl := { hdr := vec }, handler := true } :=
      (List.mem_append.mp hb).imp id List.mem_singleton.mp
    rcases hb' with h | rfl
    · rw [hbs] at h
      exact Or.inr (Wave.unbundle_disjoint x _ b h)
    · exact Or.inl rfl
  · simp only [Wave.enterHandler]
    rw [hrest]
    rfl

/-- R163, R164: an in-wave trap outside the handler, with a trap vector, enters the handler and changes nothing but its wave. -/
theorem State.inWaveTrap_spec (s : State) (w cause : Nat) (hdr : Bool) (pc : DWord) (mask : Mask) (ctx : Option Clause) (rdv : Bool)
    (hm : (s.wave w).hmode = false) (hv : (s.gridOf w).trapvec ≠ 0#64) :
    OutsideWaves [w] s (s.inWaveTrap w cause hdr pc mask ctx rdv) ∧
      InHandler (s.wave w) ((s.inWaveTrap w cause hdr pc mask ctx rdv).wave w) (s.gridOf w).trapvec pc (trapCauseWord cause hdr) mask ctx := by
  have h : s.inWaveTrap w cause hdr pc mask ctx rdv =
      s.setWave w ((s.wave w).enterHandler (s.gridOf w).trapvec (trapCauseWord cause hdr) pc mask ((s.wave w).trapLanes mask) ctx) := by
    unfold State.inWaveTrap
    dsimp only
    rw [if_neg (by simp [hm, hv])]
  rw [h]
  refine ⟨OutsideWaves.modWave s w (fun _ => (s.wave w).enterHandler (s.gridOf w).trapvec (trapCauseWord cause hdr) pc mask ((s.wave w).trapLanes mask) ctx), ?_⟩
  have hw : (s.setWave w ((s.wave w).enterHandler (s.gridOf w).trapvec (trapCauseWord cause hdr) pc mask ((s.wave w).trapLanes mask) ctx)).wave w =
      (s.wave w).enterHandler (s.gridOf w).trapvec (trapCauseWord cause hdr) pc mask ((s.wave w).trapLanes mask) ctx := by simp
  rw [hw]
  exact Wave.enterHandler_inHandler ..

/-- R315: a system fault keeps every wave, byte and device register; the waves of its group are suspended. -/
theorem State.sysFault_frame (s : State) (ws : List Nat) (susp w lane : Nat) (pc : DWord) (f : FaultInfo) :
    (∀ k, (s.sysFault ws susp w lane pc f).wave k = s.wave k) ∧ (s.sysFault ws susp w lane pc f).m.mem = s.m.mem ∧
    (s.sysFault ws susp w lane pc f).reg = s.reg ∧ (s.sysFault ws susp w lane pc f).o = s.o ∧
    ∀ k ∈ ws, (s.sysFault ws susp w lane pc f).suspended k = true := by
  refine ⟨fun k => rfl, rfl, rfl, rfl, fun k hk => ?_⟩
  simp only [State.sysFault, State.suspended, State.queueRecord, State.modTenant, State.setTenant, State.suspend, State.dropFailed, List.any_append, List.any_cons, List.any_nil]
  simp [hk]

end Sys2Proof.Machine
end

