-- ==== Sys2Proof/Laws/Words.lean ====
section
/-! SUPPORT. What `exec` does with the words of the L and U classes, by the operation each names. -/

set_option Elab.async false

namespace Sys2Proof.Machine

open Sys2Proof Sys2Proof.Safety

/-- An L-word is issued as the operation it names. -/
theorem exec_lword (i : Instr) (sc : Scope) (op : LOp) (s : State) (h : lword i = some (sc, op)) :
    exec i s = .next (s.execL i.illegal.isSome sc op) := by
  cases i <;> simp only [lword, Option.some.injEq, Prod.mk.injEq, reduceCtorEq] at h
  all_goals (obtain ⟨rfl, rfl⟩ := h; rfl)

end Sys2Proof.Machine
end

