-- ==== Sys2Proof/Tests/Slice0.lean ====
section
/-! SUPPORT. The model's own tests: ill-formed terms, written-out words, single steps on small states, and for every obligation with
hypotheses a state and operands that meet them. -/

namespace Sys2Proof.Tests

open Sys2Proof Sys2Proof.Machine Sys2Proof.Safety

set_option maxRecDepth 20000
set_option Elab.async false

/-! ### Helpers -/

/-- A state in front of one instruction word, its bundle chosen. -/
def loaded (w : Nat) : State :=
  let s := State.reset.loadWord (BitVec.ofNat 32 w)
  { s with sch := { s.sch with issueQ := [], cur := (0, allLanes) } }

/-- That state with its wave changed. -/
def tuned (w : Nat) (f : Wave → Wave) : State := (loaded w).modWave 0 f

/-- The issuing bundle. -/
def issuing (s : State) : Cx := s.cx.getD default

/-- `Ready` as a test. -/
def ready (s : State) (i : Instr) (p : Pre) : Bool :=
  let c := issuing s
  s.cx.isSome && (i.illegal).isNone && !p.bad && (!p.last || c.isLast) && p.flag != some 15 && (!p.set || !c.badSet) &&
  (p.role == none || p.role == some c.x.role) && decide (p.top ≤ c.x.vcount) && !p.outside && p.reads.all fun r => !c.x.parity.contains r

theorem issuing_cx {s : State} (h : s.cx.isSome = true) : s.cx = some (issuing s) := by
  unfold issuing
  cases hc : s.cx with
  | none => simp [hc] at h
  | some c => rfl

theorem ready_spec {s : State} {i : Instr} {p : Pre} (h : ready s i p = true) : Ready s (issuing s) i p := by
  simp only [ready, Bool.and_eq_true, Bool.or_eq_true, decide_eq_true_eq, Bool.not_eq_true', bne_iff_ne, beq_iff_eq, List.all_eq_true] at h
  obtain ⟨⟨⟨⟨⟨⟨⟨⟨⟨h1, h2⟩, h3⟩, h4⟩, h5⟩, h6⟩, h7⟩, h8⟩, h9⟩, h10⟩ := h
  exact ⟨issuing_cx h1, by simpa using h2, h3, fun h => by simpa [h] using h4, h5, fun h => by simpa [h] using h6, h7, h8, h9, fun r hr => by simpa using h10 r hr⟩

theorem over_lanes {m : Mask} {p : Nat → Prop} (h : ∀ l, l < 32 → hasLane m l = true → p l) : ∀ l, hasLane m l = true → p l :=
  fun l hl => h l (BitVec.lt_of_getLsbD hl) hl

/-- The state in front of an instruction's word. -/
def front (i : Instr) (f : Wave → Wave) : State := tuned ((encode i).getD 0) f

/-- A core that holds the translation of page 0, to the second page of memory, with every permission, and the region of that page. -/
def mapped (s : State) : State :=
  { s with m := { s.m with tlb := [{ core := 0, asid := 0, vpn := 0, frame := 1, x := true, w := true, rd := true, a := true, d := true }]
                           rgn := [{ core := 0, asid := 0, e := 0, w0 := 0xA0#64, w1 := 0#64 }] } }

/-- A state whose LLC holds some lines. -/
def cached (ls : List Nat) (s : State) : State := { s with m := { s.m with llc := ls.map fun l => (l, { valid := true }) } }

/-- A wave none of whose lanes is active. -/
def unguarded (x : Wave) : Wave := { x with bundles := x.bundles.map fun b => { b with cl := { b.cl with act := 0#32 } } }

/-! ### Witnesses: words at LANE scope, uniform words, control -/

theorem witness_LaneComputationResult : ∃ i op s c, lword i = some (.lane, op) ∧ computes op = true ∧ Ready s c i (op.pre false .lane c) :=
  ⟨.add .lane 5 (.v 3) 4, .alu .add 5 (.v 3) (.reg 4), loaded 0x01028184, issuing (loaded 0x01028184), rfl, rfl, ready_spec (by decide +kernel)⟩

theorem witness_WideWordArrives : ∃ i sc op s c, lword i = some (sc, op) ∧ sc ≠ .lane ∧ (c.x.taskWave = true → sc = .wave ∧ op.noTask sc = false) ∧ Ready s c i (op.pre false sc c) :=
  ⟨.nop .team, .team, .nop, loaded 0x00C00000, issuing (loaded 0x00C00000), rfl, by decide +kernel, by decide +kernel, ready_spec (by decide +kernel)⟩

theorem witness_UniformComputationResult : ∃ i reads after s c, uword i = some (reads, after) ∧ Ready s c i { reads := reads.map fun n => (.s, n) } :=
  ⟨.movi 20 100, [], setsS 20 fun _ => immS 100, loaded 0xB7500064, issuing (loaded 0xB7500064), rfl, ready_spec (by decide +kernel)⟩

/-- BRA 20 words forward from the word at 8, and RET where lane 31 alone goes to an address with bit 63 alone set. -/
theorem witness_ControlTransfers :
    (∃ i k s c, transferOf s c i = some k ∧ Ready s c i k.pre ∧ (∃ l, k.goes l = true) ∧ ∀ l, k.goes l = true → canonical (k.target l) = true) ∧
    (∃ i k s c, transferOf s c i = some k ∧ Ready s c i k.pre ∧ (∀ m, Plain s c.w m) ∧ k.goes 31 = true ∧ canonical (k.target 31) = false ∧
      (∀ n, n < 31 → k.goes n = true → canonical (k.target n) = true) ∧ c.x.taskWave = false) :=
  ⟨⟨.bra 20, _, loaded 0xC0000014, issuing (loaded 0xC0000014), rfl, ready_spec (by decide +kernel), ⟨0, by decide +kernel⟩, over_lanes (by decide +kernel)⟩,
    ⟨.ret (.v 6), _, tuned 0x3E000300 fun x => x.setV 7 31 0x80000000#32, issuing (tuned 0x3E000300 fun x => x.setV 7 31 0x80000000#32), rfl,
     ready_spec (by decide +kernel), fun _ => rfl, by decide +kernel⟩⟩

theorem witness_WaveControlWords :
    Ready (loaded 0xCA000003) (issuing (loaded 0xCA000003)) (.part 3) {} ∧ Ready (loaded 0xC9000000) (issuing (loaded 0xC9000000)) .yield {} ∧
    Ready (loaded 0xD6000000) (issuing (loaded 0xD6000000)) .ifence {} ∧ Ready (loaded 0x1F000000) (issuing (loaded 0x1F000000)) .exit { last := true } ∧
    (∀ l, hasLane (issuing (loaded 0x1F000000)).b.lanes l = true → (((loaded 0x1F000000).wave 0).lane l).st = .running) :=
  ⟨ready_spec (by decide +kernel), ready_spec (by decide +kernel), ready_spec (by decide +kernel), ready_spec (by decide +kernel), over_lanes (by decide +kernel)⟩

/-- JOIN j3 where lane 0 alone is active, of which two lanes (one still to come), or only itself, are expected. -/
def atJoin (expect : Word) : State :=
  tuned 0x4E018000 fun x => { x.setJoin 3 { expect := expect } with bundles := x.bundles.map fun b => { b with cl := { b.cl with act := 1#32 } } }

theorem witness_JoinWordsAndReleases :
    Ready (loaded 0xC8024000) (issuing (loaded 0xC8024000)) (.joinset 0 36 false) { reads := [(.s, 36)] } ∧
    Ready (loaded 0x4F018000) (issuing (loaded 0x4F018000)) (.joinleave 3) {} ∧
    (Ready (atJoin 3#32) (issuing (atJoin 3#32)) (.join 3) { last := true } ∧
      (∃ l, hasLane ((((atJoin 3#32).wave 0).join 3).expect) l = true ∧ hasLane (issuing (atJoin 3#32)).act l = false ∧ (((atJoin 3#32).wave 0).lane l).st ≠ .waiting (.join 3)) ∧
      ∀ l, hasLane (issuing (atJoin 3#32)).b.lanes l = true → (((atJoin 3#32).wave 0).lane l).st = .running) ∧
    (Ready (atJoin 1#32) (issuing (atJoin 1#32)) (.join 3) { last := true } ∧
      (∀ l, hasLane (issuing (atJoin 1#32)).b.lanes l = true →
        ((atJoin 1#32).wave 0).lane l = { pc := (issuing (atJoin 1#32)).pc, st := .running, task := (((atJoin 1#32).wave 0).lane l).task }) ∧
      (∀ l, hasLane (((atJoin 1#32).wave 0).join 3).expect l = true → hasLane (issuing (atJoin 1#32)).act l = true) ∧
      ∃ l, hasLane (issuing (atJoin 1#32)).act l = true ∧ hasLane (((atJoin 1#32).wave 0).join 3).expect l = true) :=
  ⟨ready_spec (by decide +kernel), ready_spec (by decide +kernel), ⟨ready_spec (by decide +kernel), ⟨1, by decide +kernel⟩, over_lanes (by decide +kernel)⟩,
    ⟨ready_spec (by decide +kernel), over_lanes (by decide +kernel), over_lanes (by decide +kernel), ⟨0, by decide +kernel⟩⟩⟩

/-- A state whose launch has a trap vector, its wave changed. -/
def vectored (w : Nat) (f : Wave → Wave) : State := (tuned w f).modGrid 0 fun g => { g with trapvec := 0x1000#64 }

/-- A wave whose lanes all run task 0. -/
def allTask0 (x : Wave) : Wave := { x with taskWave := true, lanes := (List.range 32).map fun l => (l, { (x.lane l) with task := some 0 }) }

/-- A SPAWN in a task wave whose non-speculative task has timestamp 1, its launch with a trap vector. -/
def spawning : State :=
  (vectored ((encode (.spawn 0 .zero 8)).getD 0) allTask0).modGrid 0 fun g => { g with isTask := true, tasks := [(0, { st := .running, nonspec := true, ts := 1#64 })] }

/-- CMP.EQ into predicate 48; ADD of v5 in a wave that declares five v-registers; ACCZ in a GENERAL wave and COPY in a MATRIX one; JTAB whose lane 31
has the index 1 of a table of one; and SPAWN of an earlier child. -/
theorem witness_IllegalWordsTrap :
    (∃ (i : Instr) (s : State) (c : Cx), ((lword i).isSome = true ∨ (uword i).isSome = true) ∧ s.cx = some c ∧ i.illegal.isSome = true ∧ Plain s c.w c.b.lanes ∧ c.x.hmode = false ∧ c.g.trapvec ≠ 0#64) ∧
    (∃ (i : Instr) (sc : Scope) (op : LOp) (s : State) (c : Cx), lword i = some (sc, op) ∧ s.cx = some c ∧ (sc = .set → c.badSet = false) ∧ Plain s c.w c.b.lanes ∧ i.illegal = none ∧ (op.pre false sc c).bad = false ∧
      (op.pre false sc c).flag ≠ some 15 ∧ ((op.pre false sc c).role = none ∨ (op.pre false sc c).role = some c.x.role) ∧ c.x.vcount < op.top (op.o4 c.g) ∧
      c.x.hmode = false ∧ c.g.trapvec ≠ 0#64) ∧
    (∃ (p : Pre) (s : State) (c : Cx), rolePre c (.accz 12) = some p ∧ s.cx = some c ∧ Plain s c.w c.b.lanes ∧ (Instr.accz 12).illegal = none ∧ p.flag ≠ some 15 ∧ (p.set = true → c.badSet = false) ∧
      p.role = some .matrix ∧ .matrix ≠ c.x.role ∧ c.x.hmode = false ∧ c.g.trapvec ≠ 0#64) ∧
    (∃ (p : Pre) (s : State) (c : Cx), rolePre c (.copy false 5 (.s 6) 0 0) = some p ∧ s.cx = some c ∧ Plain s c.w c.b.lanes ∧ (Instr.copy false 5 (.s 6) 0 0).illegal = none ∧ p.flag ≠ some 15 ∧
      (p.set = true → c.badSet = false) ∧ p.role = some .copy ∧ .copy ≠ c.x.role ∧ c.x.hmode = false ∧ c.g.trapvec ≠ 0#64) ∧
    (∃ (m : Mask) (s : State) (c : Cx), s.cx = some c ∧ (∀ l, hasLane m l = (hasLane c.act l && decide (c.x.sreg 4 ≤ c.x.vreg 7 l))) ∧ (Instr.jtab 4 (.v 2) 7).illegal = none ∧ c.isLast = true ∧
      7 + 1 ≤ c.x.vcount ∧ extTop (.v 2) true ≤ c.x.vcount ∧ m ≠ 0#32 ∧ c.x.taskWave = false ∧ c.x.hmode = false ∧ c.g.trapvec ≠ 0#64) ∧
    (∃ (s : State) (c : Cx), s.cx = some c ∧ (∀ l, hasLane c.b.lanes l = true → hasLane c.act l = true ∧ s.extVal64 c.w c.b .zero l < (s.laneTask c.w l).ts) ∧ (Instr.spawn 0 .zero 8).illegal = none ∧
      c.b.cl.second ≠ 15 ∧ c.b.lanes ≠ 0#32 ∧ 0 + 8 ≤ c.x.vcount ∧ 8 + 1 ≤ c.x.vcount ∧ extTop .zero true ≤ c.x.vcount ∧ c.x.taskWave = true ∧ Plain s c.w c.b.lanes ∧
      c.x.hmode = false ∧ c.g.trapvec ≠ 0#64) := by
  refine ⟨⟨.cmpEq .lane 48 (.v 3) 0, vectored 0x19180000 id, _, Or.inl rfl, issuing_cx (by decide +kernel), rfl, rfl, by decide +kernel⟩,
   ⟨.add .lane 5 (.v 3) 4, .lane, .alu .add 5 (.v 3) (.reg 4), vectored 0x01028184 fun x => { x with vcount := 5 }, _, rfl, issuing_cx (by decide +kernel), (fun h => by cases h), rfl, by decide +kernel⟩,
   ⟨_, vectored ((encode (.accz 12)).getD 0) fun x => { x with role := .general }, issuing (vectored ((encode (.accz 12)).getD 0) fun x => { x with role := .general }), rfl,
    issuing_cx (by decide +kernel), rfl, by decide +kernel⟩,
   ⟨_, vectored ((encode (.copy false 5 (.s 6) 0 0)).getD 0) fun x => { x with role := .matrix }, issuing (vectored ((encode (.copy false 5 (.s 6) 0 0)).getD 0) fun x => { x with role := .matrix }), rfl,
    issuing_cx (by decide +kernel), rfl, by decide +kernel⟩,
   ⟨0x80000000#32, vectored ((encode (.jtab 4 (.v 2) 7)).getD 0) fun x => (x.setS 4 1#32).setV 7 31 1#32, _, issuing_cx (by decide +kernel), fun l => ?_, by decide +kernel⟩,
   ⟨spawning, _, issuing_cx (by decide +kernel), over_lanes (by decide +kernel), by unfold Plain; decide +kernel⟩⟩
  by_cases h : l < 32
  · revert l; decide +kernel
  · simp only [hasLane, BitVec.getLsbD_of_ge _ _ (Nat.le_of_not_lt h), Bool.false_and]

/-- TRAP 127 where the launch has a trap vector, and TRAP 0 where it has none. -/
theorem witness_TrapWord :
    (∃ s c, Ready s c (.trap 127) { last := true } ∧ Plain s c.w c.b.lanes ∧ c.b.lanes ≠ 0#32 ∧ c.x.hmode = false ∧ c.g.trapvec ≠ 0#64) ∧
    (∃ s c, Ready s c (.trap 0) { last := true } ∧ Plain s c.w c.b.lanes ∧ c.b.lanes ≠ 0#32 ∧ c.g.trapvec = 0#64) ∧
    (∃ s c, Ready s c (.trap 0) { last := true } ∧ Plain s c.w c.b.lanes ∧ c.b.lanes ≠ 0#32 ∧ c.x.hmode = true) :=
  ⟨⟨vectored 0xCD00007F id, _, ready_spec (by decide +kernel), rfl, by decide +kernel⟩, ⟨loaded 0xCD000000, _, ready_spec (by decide +kernel), rfl, by decide +kernel⟩,
   ⟨vectored 0xCD000000 fun x => { x with hmode := true }, _, ready_spec (by decide +kernel), rfl, by decide +kernel⟩⟩

/-- A wave in its handler, with the context of the clause it left. -/
def handling : State :=
  tuned 0xCE000000 fun x => { x with hmode := true, hlanes := 3#32, trappc := 0x40#64, saved := some { hdr := 0x38#64, act := 3#32 },
                                     bundles := x.bundles.map fun b => { b with handler := true } }

theorem witness_ReturnFromTrap : Ready handling (issuing handling) .rett { last := true } ∧ (issuing handling).x.hmode = true ∧
    (∃ cl, (issuing handling).x.saved = some cl) ∧ ∃ l, hasLane (issuing handling).x.hlanes l = true ∧ ((issuing handling).x.lane l).st.isExited = false :=
  ⟨ready_spec (by decide +kernel), by decide +kernel, ⟨_, rfl⟩, ⟨0, by decide +kernel⟩⟩

/-- The header of a clause of one word, fetched with its extension, behind flag 0; the flag is zero, or not. -/
def atHeader (f0 : Nat) : State := tuned 0x80001FF0 fun x => x.setFlag 0 f0

theorem witness_ClauseStarts : ∀ f0 ∈ [0, 1], ∃ (e : Word) (code : List Word), (Instr.clause 1 15 15 0).illegal = none ∧ (atHeader f0).cx = some (issuing (atHeader f0)) ∧ (issuing (atHeader f0)).b.phase = .header ∧
    (issuing (atHeader f0)).x.fetched ((issuing (atHeader f0)).pc + 4#64) = some e ∧ badExtension e = false ∧ code.length = 1 ∧
    (∀ k, k ≤ 0 → (issuing (atHeader f0)).x.fetched ((issuing (atHeader f0)).pc + BitVec.ofNat 64 (8 + 4 * k)) = code[k]?) ∧ (issuing (atHeader f0)).x.flag 0 = f0 := by
  intro f0 h
  simp only [List.mem_cons, List.not_mem_nil, or_false] at h
  rcases h with rfl | rfl <;> exact ⟨0#32, [0#32], rfl, issuing_cx (by decide +kernel), by decide +kernel, by decide +kernel, by decide +kernel, rfl, by decide +kernel⟩

/-! ### Witnesses: routes, memory words, fences, maintenance, registers -/

/-- A state with route 7 expecting one wave of core 0. -/
def routed (s : State) (r : Nat) : State := s.setRoute r { counts := [(0, 1)] }

/-- The wave in slot 0 before a WAITB of route 7, which expects it, with its record of the route and so many phases of it visible. -/
def atWaitb (q : Route1) (visible : Nat) (ops : SMap Op) : State :=
  let s := front (.waitb 7) fun x => { x with po := 1, routes := [(7, q)] }
  ({ s with o := { s.o with ops := ops } }).setRoute 7 { counts := [(0, 1)], visible := visible }

/-- An ARRIVE; a WAITB of one not counted, of one whose phase is the first not visible, and behind an acquire that has not performed; and a WAITB with none
outstanding and of one whose phase is the last visible. -/
theorem witness_RouteWordsIssue :
    (∃ s c, Ready s c (.arrive 7) {} ∧ SMap.get 0 (s.route 7).counts (coreOf c.w) ≠ 0 ∧ (s.route 7).owner = c.g.tenant ∧ s.windowFull (coreOf c.w) = false) ∧
    (∀ e ∈ [(({ outstanding := true } : Route1), 0, ([] : SMap Op)), ({ outstanding := true, counted := true, seq := 5 }, 5, []),
        ({}, 0, [(0, { cls := .aq, pos := [(0, 0)], parts := [{ pa := 0x10000, size := 4, lanes := allLanes }] })])], ∃ s c, Ready s c (.waitb 7) {} ∧
      SMap.get 0 (s.route 7).counts (coreOf c.w) ≠ 0 ∧ (s.route 7).owner = c.g.tenant ∧
      ((c.x.routeRec 7).outstanding = true ∧ ((c.x.routeRec 7).counted = false ∨ (s.route 7).visible ≤ (c.x.routeRec 7).seq) ∨ s.acquireReady c.w c.b.lanes (s.route 7).dom = false)) ∧
    (∀ e ∈ [(({} : Route1), 0), ({ outstanding := true, counted := true, seq := 5 }, 6)], ∃ s c, Ready s c (.waitb 7) {} ∧ SMap.get 0 (s.route 7).counts (coreOf c.w) ≠ 0 ∧
      (s.route 7).owner = c.g.tenant ∧ ((c.x.routeRec 7).outstanding = false ∨ (c.x.routeRec 7).counted = true ∧ (c.x.routeRec 7).seq < (s.route 7).visible) ∧
      s.acquireReady c.w c.b.lanes (s.route 7).dom = true ∧ s.windowFull (coreOf c.w) = false) :=
  ⟨⟨routed (front (.arrive 7) id) 7, _, ready_spec (by decide +kernel), by decide +kernel⟩,
   fun e he => ⟨atWaitb e.1 e.2.1 e.2.2, issuing (atWaitb e.1 e.2.1 e.2.2), ready_spec (by revert e; decide +kernel), by revert e; decide +kernel⟩,
   fun e he => ⟨atWaitb e.1 e.2 [], issuing (atWaitb e.1 e.2 []), ready_spec (by revert e; decide +kernel), by revert e; decide +kernel⟩⟩

/-- ULD.B32 of the last word of page 0, UST.B64 of its first. -/
theorem witness_UniformMemoryWords :
    (∃ s c k, Ready s c (.uldB32 63 0 255) { flag := some (c.b.cl.flagFor true), reads := [(.s, 0), (.s, 1)] } ∧ s.windowFull (coreOf c.w) = false ∧
      (s.wave c.w).flag (c.b.cl.flagFor true) < 255 ∧ s.check { s.agentOf c.w with joint := c.x.taskWave } .load (c.x.spair 0 + BitVec.ofNat 64 (255 * 4)) 4 = .ok k) ∧
    (∃ s c k, Ready s c (.ustB64 2 0 0) { flag := some (c.b.cl.flagFor false), reads := [(.s, 0), (.s, 1), (.s, 2), (.s, 3)] } ∧ s.windowFull (coreOf c.w) = false ∧
      (s.wave c.w).flag (c.b.cl.flagFor false) < 255 ∧ s.check { s.agentOf c.w with joint := c.x.taskWave } .store (c.x.spair 0 + BitVec.ofNat 64 (0 * 8)) 8 = .ok k) ∧
    (∃ s c, Ready s c (.jtab 4 (.v 2) 7) { last := true, top := 8, reads := c.inLanes [(.s, 4), (.v, 7), (.v, 2), (.v, 3)], perLane := true } ∧
      (∀ l, hasLane c.act l = true → c.x.vreg 7 l < c.x.sreg 4) ∧ c.act = 0#32) ∧
    (∃ s c, Ready s c (.jtab 4 (.v 2) 7) { last := true, top := 8, reads := c.inLanes [(.s, 4), (.v, 7), (.v, 2), (.v, 3)], perLane := true } ∧
      (∀ l, hasLane c.act l = true → c.x.vreg 7 l < c.x.sreg 4) ∧ c.act ≠ 0#32 ∧ s.windowFull (coreOf c.w) = false ∧
      ∃ at_ : Nat → Access, ∀ l, hasLane c.act l = true → s.check (s.agentOf c.w) .load (s.extVal64 c.w c.b (.v 2) l + BitVec.ofNat 64 (4 * (c.x.vreg 7 l).toNat)) 4 = .ok (at_ l)) := by
  refine ⟨⟨mapped (front (.uldB32 63 0 255) fun x => x.setS 0 0xFC00#32), _, { va := 0xFFFC#64, pa := 0x1FFFC }, ready_spec (by decide +kernel), by decide +kernel⟩,
    ⟨mapped (front (.ustB64 2 0 0) id), _, { pa := 0x10000 }, ready_spec (by decide +kernel), by decide +kernel⟩,
    ⟨front (.jtab 4 (.v 2) 7) fun x => { x with bundles := x.bundles.map fun b => { b with cl := { b.cl with act := 0#32 } } }, _, ready_spec (by decide +kernel), over_lanes (by decide +kernel), by decide +kernel⟩,
    ⟨mapped (front (.jtab 4 (.v 2) 7) fun x => x.setS 4 1#32), _, ready_spec (by decide +kernel), over_lanes (by decide +kernel), by decide +kernel, by decide +kernel, fun _ => { pa := 0x10000 }, over_lanes (by decide +kernel)⟩⟩

/-- The checks of a request ask for no walk. -/
def noWalk : ReqChk → Bool
  | .walk .. => false
  | _ => true

/-- The checks of a request pass. -/
def okReq : ReqChk → Bool
  | .ok _ => true
  | _ => false

theorem no_walk {r : ReqChk} (h : noWalk r = true) : ∀ va n, r ≠ .walk va n := by
  rintro va n rfl
  cases h

theorem okReq_spec {r : ReqChk} (h : okReq r = true) : ∃ p, r = .ok p := by
  cases r with
  | ok p => exact ⟨p, rfl⟩
  | _ => cases h

/-- LD.B32, LDS.B128 at the end of scratch, LDH, ATOM.CAS with 64 bits, and an access that fails its alignment check in lane 1. -/
theorem witness_LaneMemoryWords :
    (∃ s c, Ready s c (.ldB32 .lane 127 6 255) ((LOp.mem (.ld 4 false 127 6 255)).pre false .lane c) ∧ c.act = 0#32) ∧
    (∃ s c, Ready s c (.ldB32 .lane 127 6 255) ((LOp.mem (.ld 4 false 127 6 255)).pre false .lane c) ∧ c.act ≠ 0#32 ∧ s.windowFull (coreOf c.w) = false ∧
      (s.wave c.w).flag (c.b.cl.flagFor true) < 255 ∧ ∃ clm, ∃ pa size : Nat → Nat, ∀ l, hasLane c.act l = true → reaches s c l (.ld 4 false 127 6 255) clm (pa l) (size l)) ∧
    (∃ s c, Ready s c (.ldsB128 .lane 124 6 255) ((LOp.mem (.lds 16 124 6 255)).pre false .lane c) ∧ c.act ≠ 0#32 ∧ s.windowFull (coreOf c.w) = false ∧
      (s.wave c.w).flag (c.b.cl.flagFor true) < 255 ∧ ∃ clm, ∃ pa size : Nat → Nat, ∀ l, hasLane c.act l = true → reaches s c l (.lds 16 124 6 255) clm (pa l) (size l)) ∧
    (∃ s c, Ready s c (.atom .lane 4 (.v 6) true 9) ((LOp.mem (.atom 4 (.v 6) true 9)).pre false .lane c) ∧ c.act ≠ 0#32 ∧ s.windowFull (coreOf c.w) = false ∧
      (s.wave c.w).flag (c.b.cl.flagFor true) < 255 ∧ ∃ clm, ∃ pa size : Nat → Nat, ∀ l, hasLane c.act l = true → reaches s c l (.atom 4 (.v 6) true 9) clm (pa l) (size l)) ∧
    (∃ s c f, Ready s c (.stB32 .lane 127 6 0) ((LOp.mem (.st 4 false 127 6 0)).pre false .lane c) ∧ c.x.taskWave = false ∧ s.windowFull (coreOf c.w) = false ∧
      (s.wave c.w).flag (c.b.cl.flagFor false) < 255 ∧ hasLane c.act 1 = true ∧ s.chkLane c (.st 4 false 127 6 0) 1 = .bad f ∧
      (∀ k, hasLane c.act k = true → ∀ va n, s.chkLane c (.st 4 false 127 6 0) k ≠ .walk va n) ∧
      ∀ k, k < 1 → hasLane c.act k = true → ∃ p, s.chkLane c (.st 4 false 127 6 0) k = .ok p) := by
  refine ⟨⟨front (.ldB32 .lane 127 6 255) unguarded, _, ready_spec (by decide +kernel), by decide +kernel⟩,
    ⟨mapped (front (.ldB32 .lane 127 6 255) id), _, ready_spec (by decide +kernel), by decide +kernel, by decide +kernel, by decide +kernel, false, fun _ => 0x103FC, fun _ => 4,
      fun l hl => ⟨rfl, rfl, { va := 1020#64, pa := 0x103FC }, by revert l; exact over_lanes (by decide +kernel), rfl⟩⟩,
    ⟨front (.ldsB128 .lane 124 6 255) id, _, ready_spec (by decide +kernel), by decide +kernel, by decide +kernel, by decide +kernel, true, fun _ => 4080, fun _ => 16, over_lanes (by unfold reaches inScratch; decide +kernel)⟩,
    ⟨mapped (front (.atom .lane 4 (.v 6) true 9) id), _, ready_spec (by decide +kernel), by decide +kernel, by decide +kernel, by decide +kernel, false, fun _ => 0x10000, fun _ => 8,
      fun l hl => ⟨rfl, rfl, { va := 0#64, pa := 0x10000 }, by revert l; exact over_lanes (by decide +kernel), rfl⟩⟩,
    ⟨mapped (front (.stB32 .lane 127 6 0) fun x => x.setV 6 1 2#32), _, { code := 0x11, reason := 1, addr := 2 }, ready_spec (by decide +kernel), by decide +kernel, by decide +kernel, by decide +kernel, by decide +kernel, by decide +kernel,
      fun k hk => no_walk (by revert k; exact over_lanes (by decide +kernel)), fun k hk _ => okReq_spec (by revert k; decide +kernel)⟩⟩

/-- A context whose region entry 0 gives page 0 the domain of core 5. -/
def regional : State :=
  { State.reset with m := { State.reset.m with rgn := [{ core := 0, asid := 0, e := 0, w0 := 0x80#64, w1 := 0x500#64 }] } }

/-- A misaligned access, a canonical and aligned one in a window, and one outside the windows of tenant 1. -/
theorem witness_AccessChecksInOrder :
    (¬ ((0x40000000000000#64).toNat < 2 ^ 54 ∨ 2 ^ 64 - 2 ^ 54 ≤ (0x40000000000000#64).toNat)) ∧
    ((2#64).toNat < 2 ^ 54 ∧ (2#64).toNat % 4 ≠ 0) ∧
    ((0xFFFFFFFFFFFFFFFC#64).toNat % 4 = 0 ∧ 2 ^ 64 - 2 ^ 54 ≤ (0xFFFFFFFFFFFFFFFC#64).toNat) ∧
    (∃ (s : State) (ag : Agent) (pa : Nat), s.rgnFault ag.core ag.asid 0#64 = none ∧ scopeValid ag (s.regionOf ag.core ag.asid 0#64) = true ∧ s.tlbLook (ag.core.getD 0) ag.asid 0#64 .load = some (.ok pa) ∧ s.inWindow ag.tenant pa = true) ∧
    (∃ (s : State) (ag : Agent) (pa : Nat), s.rgnFault ag.core ag.asid 0#64 = none ∧ scopeValid ag (s.regionOf ag.core ag.asid 0#64) = true ∧ s.tlbLook (ag.core.getD 0) ag.asid 0#64 .load = some (.ok pa) ∧ s.inWindow ag.tenant pa = false) ∧
    (∃ (s : State) (ag : Agent), s.rgnFault ag.core ag.asid 0#64 = none ∧ scopeValid ag (s.regionOf ag.core ag.asid 0#64) = false) ∧
    (∃ (s : State) (ag : Agent) (f : FaultInfo), s.rgnFault ag.core ag.asid 0#64 = some f) :=
  ⟨by decide +kernel, by decide +kernel, by decide +kernel, ⟨mapped State.reset, { core := some 0 }, 0x10000, by decide +kernel⟩,
   ⟨mapped State.reset, { core := some 0, tenant := 1 }, 0x10000, by decide +kernel⟩,
   ⟨regional, { core := some 0 }, by decide +kernel⟩,
   ⟨{ State.reset with m := { State.reset.m with llc := [(0, { valid := true, poison := 1#16 })] } }, { core := some 0 }, { code := cECCU, addr := 0, paddr := 0 }, by decide +kernel⟩⟩

/-- The fault a check ends in. -/
def badOf : Chk → FaultInfo
  | .bad f => f
  | _ => default

/-- A check neither passes nor asks for a walk. -/
def fails : Chk → Bool
  | .bad _ => true
  | _ => false

theorem fails_spec {k : Chk} (h : fails k = true) : k = .bad (badOf k) := by
  cases k with
  | bad f => rfl
  | _ => cases h

/-- A check passes. -/
def passesChk : Chk → Bool
  | .ok _ => true
  | _ => false

theorem passesChk_spec {k : Chk} (h : passesChk k = true) : ∃ a, k = .ok a := by
  cases k with
  | ok a => exact ⟨a, rfl⟩
  | _ => cases h

theorem not_walk {k : Chk} (h : passesChk k = true ∨ fails k = true) : ∀ va need, k ≠ .walk va need := by
  rintro va need rfl
  cases h <;> contradiction

/-- LDM of two words at the end of page 0, the second of them in a page that no load may read. -/
def endOfPage : State :=
  let s := mapped (front (.ldm 0 16 1 0) fun x => { x with v := (List.range 32).map fun l => (32 * 16 + l, 0xFFFC#32) })
  { s with m := { s.m with tlb := { core := 0, asid := 0, vpn := 1, frame := 2, a := true } :: s.m.tlb } }

/-- LDM of 16 words from step 15, STM of one word where MPROG counts another word's steps, and LDM whose step 1 fails in lane 0. -/
theorem witness_MultiWordIssues :
    (∃ s c from_, Ready s c (.ldm 0 16 15 15) { flag := some (c.b.cl.flagFor true), top := 18, reads := c.inLanes (vRange 16 2), perLane := true } ∧
      (∃ at_ : Nat → Nat → Access, ∀ l k, hasLane c.act l = true → from_ ≤ k → k ≤ 15 →
        s.check (s.agentOf c.w) .load (c.x.vpair 16 l + BitVec.ofNat 64 (64 * 15 + 4 * k)) 4 = .ok (at_ l k)) ∧ s.windowFull (coreOf c.w) = false ∧
      (s.wave c.w).flag (c.b.cl.flagFor true) < 255 ∧ from_ = (if c.x.mpc = c.pc ∧ c.x.mlanes = c.b.lanes then c.x.mprog else 0) ∧ from_ ≤ 15 ∧ c.act ≠ 0#32) ∧
    (∃ s c from_, Ready s c (.stm 0 16 0 0) { flag := some (c.b.cl.flagFor false), top := 18, reads := c.inLanes (vRange 16 2 ++ vRange 0 1), perLane := true } ∧
      (∃ at_ : Nat → Nat → Access, ∀ l k, hasLane c.act l = true → from_ ≤ k → k ≤ 0 →
        s.check (s.agentOf c.w) .store (c.x.vpair 16 l + BitVec.ofNat 64 (64 * 0 + 4 * k)) 4 = .ok (at_ l k)) ∧ s.windowFull (coreOf c.w) = false ∧
      (s.wave c.w).flag (c.b.cl.flagFor false) < 255 ∧ from_ = (if c.x.mpc = c.pc ∧ c.x.mlanes = c.b.lanes then c.x.mprog else 0) ∧ from_ ≤ 0 ∧ c.act ≠ 0#32) ∧
    (∃ s c f, Ready s c (.ldm 0 16 1 0) { flag := some (c.b.cl.flagFor true), top := 18, reads := c.inLanes (vRange 16 2), perLane := true } ∧
      (∀ at_ k, at_ = (fun j => c.x.vpair 16 j + BitVec.ofNat 64 (64 * 0 + 4 * k)) → 0 ≤ k → k ≤ 1 → ∀ j, hasLane c.act j = true →
        (k < 1 ∨ j < 0 → ∃ a, s.check (s.agentOf c.w) .load (at_ j) 4 = .ok a) ∧ (k = 1 → j = 0 → s.check (s.agentOf c.w) .load (at_ j) 4 = .bad f) ∧
        (∀ va need, s.check (s.agentOf c.w) .load (at_ j) 4 ≠ .walk va need)) ∧
      s.windowFull (coreOf c.w) = false ∧ (s.wave c.w).flag (c.b.cl.flagFor true) < 255 ∧ c.x.taskWave = false ∧
      0 = (if c.x.mpc = c.pc ∧ c.x.mlanes = c.b.lanes then c.x.mprog else 0) ∧ hasLane c.act 0 = true) := by
  refine ⟨⟨mapped (front (.ldm 0 16 15 15) fun x => { x with mprog := 15, mpc := 8#64, mlanes := allLanes }), _, 15, ready_spec (by decide +kernel),
      ⟨fun _ _ => { va := 1020#64, pa := 0x103FC }, fun l k hl h1 h2 => ?_⟩, by decide +kernel⟩,
    ⟨mapped (front (.stm 0 16 0 0) fun x => { x with mprog := 9, mpc := 8#64, mlanes := 1#32 }), _, 0, ready_spec (by decide +kernel),
      ⟨fun _ _ => { pa := 0x10000 }, fun l k hl h1 h2 => ?_⟩, by decide +kernel⟩,
    ⟨endOfPage, _, badOf (endOfPage.check (endOfPage.agentOf 0) .load 0x10000#64 4), ready_spec (by decide +kernel), ?_, by decide +kernel⟩⟩
  · obtain rfl : k = 15 := Nat.le_antisymm h2 h1
    clear h1 h2; revert l; exact over_lanes (by decide +kernel)
  · obtain rfl : k = 0 := Nat.le_zero.mp h2
    clear h1 h2; revert l; exact over_lanes (by decide +kernel)
  · rintro at_ k rfl - hk j hj
    have h : ∀ k, k ≤ 1 → ∀ j, j < 32 → (if k = 0 then passesChk else fails) (endOfPage.check (endOfPage.agentOf 0) .load (((issuing endOfPage).x.vpair 16 j) + BitVec.ofNat 64 (64 * 0 + 4 * k)) 4) = true := by
      decide +kernel
    have h := h k hk j (BitVec.lt_of_getLsbD hj)
    obtain rfl | rfl : k = 0 ∨ k = 1 := by omega
    · exact ⟨fun _ => passesChk_spec h, fun h => absurd h (by decide), not_walk (.inl h)⟩
    · exact ⟨fun h => absurd h (by omega), fun _ hj => by subst hj; exact fails_spec h, not_walk (.inr h)⟩

theorem witness_FenceCompletes : ∀ f ∈ [((.fa : Cls), Instr.fenceAcq 62), (.fr, .fenceRel 62), (.fb, .fenceAr 62)], ∃ s c,
    Ready s c f.2 { reads := [(.s, 62), (.s, 63)] } ∧ canonical (c.x.spair 62) = true ∧ s.windowFull (coreOf c.w) = false ∧
    s.mayPerform { w := c.w, lanes := c.b.lanes, cls := f.1, dom := (s.regionOf (some (coreOf c.w)) c.g.asid (c.x.spair 62)).dom, po := c.x.po, part := {}, fence := true } = true :=
  fun f h => ⟨front f.2 id, issuing (front f.2 id), ready_spec (by revert f; decide +kernel), by revert f; decide +kernel⟩

/-- A region of CORE scope for core 0 over page 0. -/
def ofCore (s : State) : State := { s with m := { s.m with rgn := [{ core := 0, asid := 0, e := 0, w0 := 0x80#64, w1 := 0#64 }] } }

/-- INVN over an empty range; WB of the 64 bytes from 0x3F, which overlap two lines; INVN and ICINV of one line; PFI. -/
theorem witness_CacheWordsIssue :
    (∃ s c, Ready s c (.invn 8 0 2) { flag := some c.b.cl.second, reads := [(.s, 0), (.s, 1), (.s, 2)] } ∧ (c.x.sreg 2).toNat = 0) ∧
    (∃ s c, Ready s c (.wb 0 2) { flag := some c.b.cl.second, reads := [(.s, 0), (.s, 1), (.s, 2)] } ∧
      (∃ at_ : Nat → Access, ∀ k, k < 2 → s.check { s.agentOf c.w with maint := true } .load (aligned64 (c.x.spair 0) + BitVec.ofNat 64 (64 * k)) 0 = .ok (at_ k)) ∧
      (c.x.spair 0).toNat = 0x3F ∧ (c.x.sreg 2).toNat = 64 ∧ s.windowFull (coreOf c.w) = false ∧ (s.wave c.w).flag c.b.cl.second < 255) ∧
    (∃ s c, Ready s c (.invn 8 0 2) { flag := some c.b.cl.second, reads := [(.s, 0), (.s, 1), (.s, 2)] } ∧
      (∃ at_ : Nat → Access, ∀ k, k < 1 → s.check { s.agentOf c.w with maint := true } .store (aligned64 (c.x.spair 0) + BitVec.ofNat 64 (64 * k)) 0 = .ok (at_ k) ∧ (at_ k).dom = .core) ∧
      (c.x.sreg 2).toNat = 64 ∧ s.windowFull (coreOf c.w) = false ∧ (s.wave c.w).flag c.b.cl.second < 255) ∧
    (∃ s c, Ready s c (.icinv 0 2) { flag := some c.b.cl.second, reads := [(.s, 0), (.s, 1), (.s, 2)] } ∧
      (∃ at_ : Nat → Access, ∀ k, k < 1 → s.checkX { s.agentOf c.w with maint := true } (aligned64 (c.x.spair 0) + BitVec.ofNat 64 (64 * k)) = .ok (at_ k)) ∧
      (c.x.sreg 2).toNat = 1 ∧ s.windowFull (coreOf c.w) = false ∧ (s.wave c.w).flag c.b.cl.second < 255) ∧
    (∃ s c, Ready s c (.pfi 0 2) { reads := [(.s, 0), (.s, 1), (.s, 2)] }) :=
  ⟨⟨front (.invn 8 0 2) id, _, ready_spec (by decide +kernel), by decide +kernel⟩,
    ⟨mapped (front (.wb 0 2) fun x => (x.setS 0 0x3F#32).setS 2 64#32), _, ready_spec (by decide +kernel), ⟨fun k => { va := BitVec.ofNat 64 (64 * k), pa := 0x10000 + 64 * k }, by decide +kernel⟩, by decide +kernel⟩,
    ⟨ofCore (mapped (front (.invn 8 0 2) fun x => x.setS 2 64#32)), _, ready_spec (by decide +kernel), ⟨fun _ => { pa := 0x10000, dom := .core }, by decide +kernel⟩, by decide +kernel⟩,
    ⟨mapped (front (.icinv 0 2) fun x => x.setS 2 1#32), _, ready_spec (by decide +kernel), ⟨fun _ => { pa := 0x10000 }, by decide +kernel⟩, by decide +kernel⟩,
    ⟨front (.pfi 0 2) id, _, ready_spec (by decide +kernel)⟩⟩

/-! ### Witnesses: registers, tables, handles, matrix and task words -/

theorem witness_WaveValueWords :
    (∃ s c, Ready s c (.rng 126) { top := 128 }) ∧ (∃ s c, Ready s c (.rngseed 60) { reads := [(.s, 60), (.s, 61), (.s, 62), (.s, 63)] }) ∧
    (∃ s c, Ready s c (.ldk 63 31) {} ∧ 31 < c.g.consts.length) ∧
    (∃ s c, Ready s c (.tsget 124) { top := 128 } ∧ ∃ ts id : DWord, c.x.taskWave = false ∧ ts = 0#64 ∧ id = 0xFFFFFFFFFFFFFFFF#64) :=
  ⟨⟨front (.rng 126) id, _, ready_spec (by decide +kernel)⟩, ⟨front (.rngseed 60) id, _, ready_spec (by decide +kernel)⟩,
   ⟨front (.ldk 63 31) id, _, ready_spec (by decide +kernel), by decide +kernel⟩, ⟨front (.tsget 124) id, _, ready_spec (by decide +kernel), 0#64, _, by decide +kernel, rfl, rfl⟩⟩

/-- MFS of one register of each kind: the wave's, one of its place, the tenant's, the device's, the last queue's three, one that only takes writes, the two halves of
one of 64 bits, and the first and last word of the frontier. -/
theorem witness_SystemRegisterReads :
    (∀ num ∈ [4, 0x31, 0x43, 0x406, 0x1FE, 0x1FF, 0x23F, 0x400, 0, 1, 8, 11], ∃ s c, Ready s c (.mfs 63 num) { bad := (regInfo num).isNone } ∧ regDenied c.g.tenant num = false ∧
      (waveReg c.x 4).isSome = true ∧ (placeReg s c.w 0 0x31).isSome = true ∧ (tenantReg (s.tenant 0) 0x43).isSome = true ∧ (deviceReg s 0x406).isSome = true ∧
      0x400 ∈ writeOnly ∧ (reg64 s c.w 0 0).isSome = true) ∧
    0x1FE = 0x102 + 4 * 63 ∧ 0x1FF = 0x103 + 4 * 63 ∧ 0x23F = 0x200 + 63 :=
  ⟨fun num h => ⟨front (.mfs 63 num) id, issuing (front (.mfs 63 num) id), ready_spec (by revert num; decide +kernel), by revert num; decide +kernel⟩, rfl, rfl, rfl⟩

/-- The word of tenant 31. -/
def owned (i : Instr) : State := (front i id).modGrid 0 fun g => { g with tenant := 31 }

/-- MTS of each register named, TRAPPC's high half in handler mode; and MFS, MTS, BGTW and BGTR of tenant 31 where tenant 0 alone may. -/
theorem witness_SystemRegisterWriteWord :
    (∀ n ∈ [0, 4, 5, 0x20, 2, 3, 6, 7, 0x10, 0x30], ∃ s c, Ready s c (.mts 63 n) { bad := (regInfo n).isNone, reads := [(.s, 63)] } ∧ regDenied c.g.tenant n = false) ∧
    (∃ s c, Ready s c (.mts 63 1) { bad := (regInfo 1).isNone, reads := [(.s, 63)] } ∧ regDenied c.g.tenant 1 = false ∧ c.x.hmode = true) ∧
    (∃ s c, Ready s c (.mfs 63 0x406) { bad := (regInfo 0x406).isNone } ∧ regDenied c.g.tenant 0x406 = true ∧ c.g.tenant ≠ 0 ∧ Plain s c.w c.b.lanes) ∧
    (∃ s c, Ready s c (.mts 63 0x406) { bad := (regInfo 0x406).isNone, reads := [(.s, 63)] } ∧ regDenied c.g.tenant 0x406 = true ∧ c.g.tenant ≠ 0 ∧ Plain s c.w c.b.lanes) ∧
    (∃ s c, Ready s c (.bgtw 60 5) { reads := [(.s, 60), (.s, 61)] } ∧ c.g.tenant ≠ 0 ∧ Plain s c.w c.b.lanes) ∧
    (∃ s c, Ready s c (.bgtr 60 5) { reads := [(.s, 61)] } ∧ c.g.tenant ≠ 0 ∧ Plain s c.w c.b.lanes) := by
  refine ⟨fun n hn => ⟨front (.mts 63 n) id, issuing (front (.mts 63 n) id), ready_spec (by revert n; decide +kernel), by revert n; decide +kernel⟩,
    ⟨front (.mts 63 1) fun x => { x with hmode := true }, _, ready_spec (by decide +kernel), by decide +kernel⟩,
    ⟨owned (.mfs 63 0x406), _, ready_spec (by decide +kernel), by decide +kernel, by decide +kernel, rfl⟩, ⟨owned (.mts 63 0x406), _, ready_spec (by decide +kernel), by decide +kernel, by decide +kernel, rfl⟩,
    ⟨owned (.bgtw 60 5), _, ready_spec (by decide +kernel), by decide +kernel, rfl⟩, ⟨owned (.bgtr 60 5), _, ready_spec (by decide +kernel), by decide +kernel, rfl⟩⟩

/-- The word in a task launch's control team, one task queued and scope 0 open. -/
def tasked (i : Instr) (f : Wave → Wave) : State := (front i f).modGrid 0 fun g => { g with isTask := true, control := true, scopes := [(0, { opened := true })], tasks := [(0, { st := .queued })] }

/-- The request of RGNW or RGNR of entry e. -/
def rgnAsks (s : State) (c : Cx) (e : Nat) (write : Bool) : List Ask :=
  physAsks (askAgent 8 c.w) (dieOf (coreOf c.w)) c.g.tenant (s.ctxRgn c.g.asid + 16 * e) 16 write

/-- RGNW of a refused entry, of a task entry while a task launch runs, of an entry it writes, and of one that it writes after it has looked; RGNR of one that is good, and poisoned; BGTW and BGTR by
tenant 0. -/
theorem witness_TableAndAllowanceWords :
    (∃ s c, Ready s c (.rgnw 0 63 63) { reads := [(.s, 0), (.s, 1), (.s, 2), (.s, 3)] } ∧ entryRefused (c.x.spair 0) (c.x.spair 2) ∧ answered s (rgnAsks s c 63 false)) ∧
    (∃ s c, Ready s c (.rgnw 0 63 63) { reads := [(.s, 0), (.s, 1), (.s, 2), (.s, 3)] } ∧ ¬ entryRefused (c.x.spair 0) (c.x.spair 2) ∧
      (c.x.spair 0).getLsbD 1 = true ∧ s.liveTaskGrid c.g.asid ≠ none ∧ answered s (rgnAsks s c 63 false)) ∧
    (∃ s c, Ready s c (.rgnw 0 0 63) { reads := [(.s, 0), (.s, 1), (.s, 2), (.s, 3)] } ∧ ¬ entryRefused (c.x.spair 0) (c.x.spair 2) ∧
      s.liveTaskGrid c.g.asid = none ∧ s.ctxRgn c.g.asid % 1024 = 0 ∧ answered s (rgnAsks s c 0 true)) ∧
    (∃ s c, Ready s c (.rgnw 0 63 63) { reads := [(.s, 0), (.s, 1), (.s, 2), (.s, 3)] } ∧ ¬ entryRefused (c.x.spair 0) (c.x.spair 2) ∧ (c.x.spair 0).getLsbD 1 = false ∧
      (s.rgnWords none c.g.asid 63).1.getLsbD 1 = false ∧ s.liveTaskGrid c.g.asid ≠ none ∧ answered s (rgnAsks s c 63 true) ∧ s.rgnBad none c.g.asid 63 = false ∧ s.lostAny (askAgent 8 c.w) = false) ∧
    (∃ s c, Ready s c (.rgnr 60 63) {} ∧ answered s (rgnAsks s c 63 false) ∧ s.rgnBad none c.g.asid 63 = false ∧ s.lostAny (askAgent 8 c.w) = false) ∧
    (∃ s c, Ready s c (.rgnr 60 63) {} ∧ answered s (rgnAsks s c 63 false) ∧ s.rgnBad none c.g.asid 63 = true ∧ c.x.taskWave = false) ∧
    (∃ s c, Ready s c (.bgtw 60 5) { reads := [(.s, 60), (.s, 61)] } ∧ c.g.tenant = 0) ∧ (∃ s c, Ready s c (.bgtr 60 0) { reads := [(.s, 61)] } ∧ c.g.tenant = 0) := by
  refine ⟨⟨cached [15] (front (.rgnw 0 63 63) fun x => x.setS 0 0xF0#32), _, ready_spec (by decide +kernel), by unfold entryRefused answered; decide +kernel⟩,
    ⟨cached [15] (tasked (.rgnw 0 63 63) fun x => x.setS 0 0xA2#32), _, ready_spec (by decide +kernel), by unfold entryRefused; decide +kernel, by unfold answered; decide +kernel⟩,
    ⟨cached [0] (front (.rgnw 0 0 63) fun x => x.setS 0 0xA0#32), _, ready_spec (by decide +kernel), by unfold entryRefused; decide +kernel, by unfold answered; decide +kernel⟩,
    ⟨cached [15] (tasked (.rgnw 0 63 63) fun x => x.setS 0 0xA0#32), _, ready_spec (by decide +kernel), by unfold entryRefused; decide +kernel, by unfold answered; decide +kernel⟩,
    ⟨cached [15] (front (.rgnr 60 63) id), _, ready_spec (by decide +kernel), by unfold answered; decide +kernel⟩,
    ⟨{ front (.rgnr 60 63) id with m := { (front (.rgnr 60 63) id).m with llc := [(15, { valid := true, poison := 0xFFFF#16 })] } }, _, ready_spec (by decide +kernel), by unfold answered; decide +kernel⟩,
    ⟨front (.bgtw 60 5) id, _, ready_spec (by decide +kernel), by decide +kernel⟩, ⟨front (.bgtr 60 0) id, _, ready_spec (by decide +kernel), by decide +kernel⟩⟩

/-- A team whose handles are these. -/
def handled (i : Instr) (hs : SMap Handle) : State := (front i fun x => (x.setS 0 4092#32).setS 1 4#32).modTeam 0 fun t => { t with handles := hs }

/-- BIND of handle 63 to the last word of scratch, out of a ring, beside a handle that ends there, RING of 16 handles up to 63, UNBIND of a handle not bound and of
one in a ring; the waits, MARK and HFREE. -/
theorem witness_HandleWords :
    (∃ s c, Ready s c (.hcfgBind 63 0 1) { reads := [(.s, 0), (.s, 1)] } ∧ c.x.taskWave = false ∧ (c.x.sreg 0).toNat < 2 ^ 20 ∧ (c.x.sreg 0).toNat % 4 = 0 ∧ (c.x.sreg 1).toNat % 4 = 0 ∧
      (c.x.sreg 1).toNat ≠ 0 ∧ (c.x.sreg 0).toNat + (c.x.sreg 1).toNat ≤ (s.teamOf c.w).scratch ∧ ((s.teamOf c.w).handle 63).st = .free ∧ inRingOf (s.teamOf c.w) 63 62 = true ∧
      ∀ k, k < 64 → k ≠ 63 → ((s.teamOf c.w).handle k).st ≠ .unbound → (c.x.sreg 0).toNat + (c.x.sreg 1).toNat ≤ ((s.teamOf c.w).handle k).hb ∨
        ((s.teamOf c.w).handle k).hb + ((s.teamOf c.w).handle k).hlen ≤ (c.x.sreg 0).toNat) ∧
    (∃ s c, Ready s c (.hcfgRing 48 2) { reads := [(.s, 2)] } ∧ c.x.taskWave = false ∧ (c.x.sreg 2).toNat % 32 = 16 ∧
      ∀ k, k < 16 → ((s.teamOf c.w).handle (48 + k)).st = .free ∧ ((s.teamOf c.w).handle (48 + k)).count = 1) ∧
    (∃ s c, Ready s c (.hcfgUnbind 0) {} ∧ c.x.taskWave = false ∧ ((s.teamOf c.w).handle 0).st = .unbound) ∧
    (∃ s c, Ready s c (.hcfgUnbind 63) {} ∧ c.x.taskWave = false ∧ ((s.teamOf c.w).handle 63).st = .free ∧ inRingOf (s.teamOf c.w) 63 62 = true) ∧
    (∃ s c, Ready s c (.hwaitFull 5 true) {} ∧ c.x.taskWave = false ∧ ((s.teamOf c.w).handle 5).st = .full ∧ ((s.teamOf c.w).handle 5).fph = true ∧ s.acquireReady c.w c.b.lanes .core = true ∧ s.windowFull (coreOf c.w) = false) ∧
    (∃ s c, Ready s c (.hwaitFree 5) {} ∧ c.x.taskWave = false ∧ ((s.teamOf c.w).handle 5).st = .free ∧ s.acquireReady c.w c.b.lanes .core = true ∧ s.windowFull (coreOf c.w) = false) ∧
    (∃ s c, Ready s c (.hwaitFree 5) {} ∧ c.x.taskWave = false ∧ ((s.teamOf c.w).handle 5).st = .full) ∧
    (∃ s c, Ready s c (.hcfgMark 5) {} ∧ c.x.taskWave = false ∧ ((s.teamOf c.w).handle 5).st = .free ∧ ((s.teamOf c.w).handle 5).count = 1 ∧ s.windowFull (coreOf c.w) = false) ∧
    (∃ s c, Ready s c (.hfree 5 true) {} ∧ c.x.taskWave = false ∧ ((s.teamOf c.w).handle 5).st = .full ∧ ((s.teamOf c.w).handle 5).fph = true ∧ s.windowFull (coreOf c.w) = false) ∧
    (∃ s c, Ready s c (.hfree 5 false) {} ∧ c.x.taskWave = false ∧ ((s.teamOf c.w).handle 5).st ≠ .unbound ∧ ((s.teamOf c.w).handle 5).fph ≠ false) :=
  let ring : SMap Handle := [(0, { st := .free, hb := 0, hlen := 4092 }), (62, { st := .full, hb := 0, hlen := 8, count := 2 }), (63, { st := .free, hb := 0, hlen := 8, first := some 62 })]
  ⟨⟨handled (.hcfgBind 63 0 1) ring, _, ready_spec (by decide +kernel), by decide +kernel⟩,
   ⟨(handled (.hcfgRing 48 2) ((List.range 16).map fun k => (48 + k, { st := .free, hb := 4 * k, hlen := 4 }))).modWave 0 fun x => x.setS 2 16#32, _, ready_spec (by decide +kernel), by decide +kernel⟩,
   ⟨handled (.hcfgUnbind 0) [], _, ready_spec (by decide +kernel), by decide +kernel⟩, ⟨handled (.hcfgUnbind 63) ring, _, ready_spec (by decide +kernel), by decide +kernel⟩,
   ⟨handled (.hwaitFull 5 true) [(5, { st := .full, hlen := 4 })], _, ready_spec (by decide +kernel), by decide +kernel⟩,
   ⟨handled (.hwaitFree 5) [(5, { st := .free, hlen := 4 })], _, ready_spec (by decide +kernel), by decide +kernel⟩,
   ⟨handled (.hwaitFree 5) [(5, { st := .full, hlen := 4 })], _, ready_spec (by decide +kernel), by decide +kernel⟩,
   ⟨handled (.hcfgMark 5) [(5, { st := .free, hlen := 4 })], _, ready_spec (by decide +kernel), by decide +kernel⟩,
   ⟨handled (.hfree 5 true) [(5, { st := .full, hlen := 4 })], _, ready_spec (by decide +kernel), by decide +kernel⟩,
   ⟨handled (.hfree 5 false) [(5, { st := .full, hlen := 4 })], _, ready_spec (by decide +kernel), by decide +kernel⟩⟩

/-- The checks of a range pass. -/
def passes : Except Chk (List Access) → Bool
  | .ok _ => true
  | .error _ => false

theorem passes_spec {r : Except Chk (List Access)} (h : passes r = true) : ∃ as, r = .ok as := by
  cases r with
  | ok as => exact ⟨as, rfl⟩
  | error k => cases h

/-- A matrix word whose wave may name every register it needs and whose launch has a format slot. -/
def matrixFront (i : Instr) (f : Wave → Wave) : State := (mapped (front i f)).modGrid 0 fun g => { g with fmts := [{ fmt := 5 }, { fmt := 5 }] }

theorem witness_MatrixWords :
    (∃ s c, Ready s c (.mma 0 0 false 0 4 0) (mmaPre c 0 false 0 4 0) ∧ c.act ≠ 0#32 ∧ s.windowFull (coreOf c.w) = false ∧ (s.wave c.w).flag (c.b.cl.flagFor true) < 255 ∧
      (∀ q ∈ c.quarters, mmaFault (c.g.slot 0) (c.g.slot 1) false (s.teamOf c.w).scratch (c.qreg 0 q.2) (c.qreg 4 q.2) = none) ∧
      s.mayIssue (coreOf c.w) c.g.tenant (c.quarters.length * 2 ^ 0) = true) ∧
    (∃ s c, Ready s c (.accz 12) (c.lxPre false true false 12 false fun _ => []) ∧ c.act = 0#32) ∧
    (∃ s c, Ready s c (.accz 12) (c.lxPre false true false 12 false fun _ => []) ∧ c.act ≠ 0#32 ∧ s.windowFull (coreOf c.w) = false ∧ (s.wave c.w).flag (c.b.cl.flagFor true) < 255) ∧
    (∃ s c, Ready s c (.accld 12 0) (c.lxPre false true false 12 false fun q => [0 + q]) ∧ c.act ≠ 0#32 ∧ s.windowFull (coreOf c.w) = false ∧ (s.wave c.w).flag (c.b.cl.flagFor true) < 255 ∧
      ∀ q ∈ c.quarters, clmCheck (s.teamOf c.w).scratch (c.qreg 0 q.2) 1024 64 = none) ∧
    (∃ s c, Ready s c (.accst 12 0 0) (c.lxPre false false false 12 true fun q => [0 + q]) ∧ c.act ≠ 0#32 ∧ s.windowFull (coreOf c.w) = false ∧ (s.wave c.w).flag (c.b.cl.flagFor false) < 255 ∧
      ∀ q ∈ c.quarters, accstFault (c.g.slot 0) (s.teamOf c.w).scratch (c.qreg 0 q.2) = none) ∧
    (∃ s c, Ready s c (.accflush 12 0) (c.lxPre false false false 12 true fun q => [0 + 2 * q, 0 + 2 * q + 1]) ∧ c.act ≠ 0#32 ∧ s.windowFull (coreOf c.w) = false ∧
      (s.wave c.w).flag (c.b.cl.flagFor false) < 255 ∧ ∀ q ∈ c.storing, ∃ as, s.flushCheck (s.agentOf c.w) (c.qpair 0 q.2) = .ok as) ∧
    (∃ s c, Ready s c (.mma 1 0 false 0 4 0) (mmaPre c 0 false 0 4 0) ∧ c.act ≠ 0#32 ∧ s.windowFull (coreOf c.w) = false ∧ (s.wave c.w).flag (c.b.cl.flagFor true) < 255 ∧
      (∀ q ∈ c.quarters, mmaFault (c.g.slot 0) (c.g.slot 1) false (s.teamOf c.w).scratch (c.qreg 0 q.2) (c.qreg 4 q.2) = none) ∧
      s.remain (coreOf c.w) c.g.tenant < c.quarters.length * 2 ^ 1 ∧ s.remain (coreOf c.w) c.g.tenant ≠ s.refill c.g.tenant) := by
  refine ⟨⟨matrixFront (.mma 0 0 false 0 4 0) id, _, ready_spec (by decide +kernel), by decide +kernel⟩,
    ⟨front (.accz 12) unguarded, _, ready_spec (by decide +kernel), by decide +kernel⟩,
    ⟨front (.accz 12) id, _, ready_spec (by decide +kernel), by decide +kernel⟩,
    ⟨front (.accld 12 0) id, _, ready_spec (by decide +kernel), by decide +kernel⟩,
    ⟨front (.accst 12 0 0) id, _, ready_spec (by decide +kernel), by decide +kernel⟩,
    ⟨matrixFront (.accflush 12 0) id, _, ready_spec (by decide +kernel), by decide +kernel, by decide +kernel, by decide +kernel, ?_⟩,
    ⟨(matrixFront (.mma 1 0 false 0 4 0) id).modCore 0 fun k => { k with spent := [(0, 511)] }, _, ready_spec (by decide +kernel), by decide +kernel⟩⟩
  · intro q hq
    exact passes_spec (by revert q; decide +kernel)

/-- A task launch whose scope 255, under the open scope 0 with one live task, is open and empty. -/
def withScopes (i : Instr) : State :=
  (tasked i fun x => x.setS 0 255#32).modGrid 0 fun g => { g with scopes := [(0, { opened := true, live := 1 }), (255, { opened := true, parent := some 0 })] }

/-- SPAWN of a child of the same timestamp; FSOPEN, FSCLOSE, FSWAIT of an empty scope and of one with a live task. -/
theorem witness_TaskWords :
    (∃ s c, Ready s c (.spawn 0 .zero 8) { flag := some c.b.cl.second, top := 9, reads := c.inLanes (vRange 0 8 ++ [(.v, 8)]), perLane := true } ∧ c.act = 0#32) ∧
    (∃ s c, Ready s c (.spawn 0 .zero 8) { flag := some c.b.cl.second, top := 9, reads := c.inLanes (vRange 0 8 ++ [(.v, 8)]), perLane := true } ∧ c.act ≠ 0#32 ∧ c.x.taskWave = true ∧ s.windowFull (coreOf c.w) = false ∧
      (s.wave c.w).flag c.b.cl.second < 255 ∧ ∀ l, hasLane c.act l = true → (s.laneTask c.w l).ts ≤ s.extVal64 c.w c.b .zero l ∧ (c.x.vreg 8 l).toNat < 2 ^ 12 ∧
         (c.x.vreg 8 l).toNat / 2 ^ 8 < c.g.entries.length ∧ (c.g.scope ((c.x.vreg 8 l).toNat % 256)).opened = true) ∧
    (∃ s c, Ready s c (.fsopen 0 1) { reads := [(.s, 0), (.s, 1)] } ∧ c.x.taskWave = false ∧ c.g.isTask = true ∧ (c.g.scope 255).opened = false ∧ (c.x.sreg 0).toNat % 256 = 255 ∧
      (c.g.scope ((c.x.sreg 1).toNat % 256)).opened = true) ∧
    (∃ s c, Ready s c (.fsclose 0) { reads := [(.s, 0)] } ∧ c.x.taskWave = false ∧ c.g.isTask = true ∧ (c.x.sreg 0).toNat % 256 = 255 ∧ (c.g.scope 255).opened = true ∧
      c.g.scopeEmpty 257 255 = true ∧ ∀ e ∈ c.g.scopes, e.2.opened = true → e.2.parent ≠ some 255) ∧
    (∃ s c, Ready s c (.fswait 0) { reads := [(.s, 0)] } ∧ c.x.taskWave = false ∧ c.g.isTask = true ∧ (c.g.scope ((c.x.sreg 0).toNat % 256)).opened = true ∧
      (c.g.scopeEmpty 257 ((c.x.sreg 0).toNat % 256) && s.acquireReady c.w c.b.lanes .package && !s.windowFull (coreOf c.w)) = true) ∧
    (∃ s c, Ready s c (.fswait 1) { reads := [(.s, 1)] } ∧ c.x.taskWave = false ∧ c.g.isTask = true ∧ (c.g.scope ((c.x.sreg 1).toNat % 256)).opened = true ∧
      (c.g.scopeEmpty 257 ((c.x.sreg 1).toNat % 256) && s.acquireReady c.w c.b.lanes .package && !s.windowFull (coreOf c.w)) = false) := by
  refine ⟨⟨tasked (.spawn 0 .zero 8) unguarded, _, ready_spec (by decide +kernel), by decide +kernel⟩,
    ⟨(tasked (.spawn 0 .zero 8) fun x => { x with taskWave := true }).modGrid 0 fun g => { g with entries := [0#64] }, _, ready_spec (by decide +kernel), by decide +kernel, by decide +kernel, by decide +kernel, by decide +kernel, over_lanes (by decide +kernel)⟩,
    ⟨tasked (.fsopen 0 1) fun x => x.setS 0 255#32, _, ready_spec (by decide +kernel), by decide +kernel⟩,
    ⟨withScopes (.fsclose 0), _, ready_spec (by decide +kernel), by decide +kernel⟩,
    ⟨withScopes (.fswait 0), _, ready_spec (by decide +kernel), by decide +kernel⟩,
    ⟨withScopes (.fswait 1), _, ready_spec (by decide +kernel), by decide +kernel⟩⟩

/-! ### Witnesses: operations in flight -/

/-- One outstanding operation of the wave in slot 0 of core 0, whose launch has these format slots; the line at 0x10000 stands in its slice. -/
def flying (o : Op) : State :=
  let s := (front (.nop .lane) fun x => { x with po := 1 }).modGrid 0 fun g => { g with fmts := [{ fmt := 3, sk := 1 }] }
  { s with o := { s.o with ops := [(0, { o with wave := 0, pos := [(0, 0)] })], next := 1 }, m := { s.m with llc := [(0x400, { valid := true })] } }

/-- A byte at the end of a line into v127 of lane 31, with an acquire; a uniform word of 8 bytes; the last word of 16 in scratch, whose other granule is bound; a
word already bound of an LDM; and an LDF through a slot with scales. -/
theorem witness_LoadWordArrives :
    (∀ e ∈ [(({ kind := .ld, cls := .aq, parts := [{ pa := 0x1003F, size := 1, lanes := 0x80000000#32, dst := [(0, 31)], reg := 127 }] } : Op), 0, 1),
        ({ kind := .uld, parts := [{ pa := 0x10000, size := 8, lanes := 0xFFFFFFFF#32, dst := [(0, 32)], reg := 62 }] }, 1, 1),
        ({ kind := .lds, parts := [{ clm := true, pa := 4080, size := 16, lanes := 1#32, dst := [(0, 0)], bound := 1, val := some 0 }] }, 3, 3)], ∃ (s : State) (o : Op) (p : Part),
      o = s.op 0 ∧ o.parts[0]? = some p ∧ (o.kind = .ld ∨ o.kind = .lds ∨ o.kind = .uld ∨ o.kind = .ldm) ∧ e.2.1 < (p.size + 3) / 4 ∧ hasBit p.landed e.2.1 = false ∧ p.hurt = false ∧
      s.partTask o p = none ∧ (∀ d ∈ p.dst, d.2 ≤ 32) ∧ p.plt = none ∧ s.partReady 0 0 = true ∧ (p.bound ≠ 0 ∨ s.linkFree 0 0 = true) ∧ hasBit p.bound (e.2.1 / 2) = false ∧
      yieldsWhole s (some o.core) ((p.pa + 8 * (e.2.1 / 2)) / 64) ∧
      (if p.clm then (s.teamOf o.wave).readClm (p.pa + 8 * (e.2.1 / 2)) (Nat.min 8 (p.size - 8 * (e.2.1 / 2)))
        else s.readPa (some o.core) (p.pa + 8 * (e.2.1 / 2)) (Nat.min 8 (p.size - 8 * (e.2.1 / 2)))) = (0, false) ∧ e.2.2 = p.bound + 2 ^ (e.2.1 / 2)) ∧
    (∃ (s : State) (o : Op) (p : Part), o = s.op 0 ∧ o.parts[0]? = some p ∧ o.kind = .ldm ∧ 0 < (p.size + 3) / 4 ∧ hasBit p.landed 0 = false ∧ p.hurt = false ∧ s.partTask o p = none ∧
      (∀ e ∈ p.dst, e.2 ≤ 32) ∧ p.plt.isSome = true ∧ hasBit p.bound (0 / 2) = true) ∧
    (∃ (s : State) (o : Op) (p : Part), o = s.op 0 ∧ o.parts[0]? = some p ∧ o.kind = .ldf ∧ ((s.gridOf o.wave).slot o.fmt).sk = 1 ∧ p.clm = false ∧ p.task = false ∧ p.scaleTask = false ∧
      s.partReady 0 0 = true ∧ s.linkFree 0 0 = true ∧ yieldsWhole s (some o.core) (p.pa / 64) ∧ yieldsWhole s (some o.core) (p.scalePa / 64) ∧ (∀ e ∈ p.dst, e.2 < 32) ∧ s.readPa (some o.core) p.pa p.size = (0, false) ∧ s.readPa (some o.core) p.scalePa 1 = (0, false)) :=
  ⟨fun e he => ⟨flying e.1, _, e.1.parts.headD {}, rfl, by revert e; unfold yieldsWhole; decide +kernel⟩,
   ⟨flying { kind := .ldm, parts := [{ pa := 0x10000, size := 4, dst := [(0, 31)], bound := 1, val := some 7, plt := some 1 }] }, _, { pa := 0x10000, size := 4, dst := [(0, 31)], bound := 1, val := some 7, plt := some 1 }, rfl, by decide +kernel⟩,
   ⟨flying { kind := .ldf, parts := [{ pa := 0x10000, size := 1, dst := [(0, 31)], scalePa := 0x1003F, scaleN := 1 }] }, _, { pa := 0x10000, size := 1, dst := [(0, 31)], scalePa := 0x1003F, scaleN := 1 }, rfl, by unfold yieldsWhole; decide +kernel⟩⟩

/-- What every clause on a write that performs asks for. -/
def writeReady (s : State) (o : Op) (p : Part) : Bool :=
  o.parts[0]? == some p && s.canPerform 0 0 && p.rel == .none && !p.task && !p.hurt && decide (p.pa % 64 + p.size ≤ 64) && !s.differs 0 0 && p.ready == 0 &&
  !s.firMatches o p

theorem writeReady_spec {s : State} {p : Part} (h : writeReady s (s.op 0) p = true) : (s.op 0).parts[0]? = some p ∧ s.canPerform 0 0 = true ∧ p.rel = .none ∧ p.task = false ∧ p.hurt = false ∧
    p.pa % 64 + p.size ≤ 64 ∧ s.differs 0 0 = false ∧ p.ready = 0 ∧ s.firMatches (s.op 0) p = false := by
  simpa [writeReady, and_assoc] using h

/-- A store of a line's last byte; 16 bytes into CLM; a compare-and-swap of 8 bytes that finds another value; the release of HFREE; an STF through a slot with scales, before and
after it has its scale; a BATOM; and an ACCST of two quarters, before and after they are read. -/
theorem witness_WritePerforms :
    (∀ o ∈ [({ kind := .st, parts := [{ pa := 0x1003F, size := 1, data := 0xFF }] } : Op), { kind := .sts, parts := [{ clm := true, pa := 0, size := 16 }] },
        { kind := .atom true 9, parts := [{ pa := 0x10038, size := 8, data := 1, dst := [(0, 31)], reg := 124 }] }, { kind := .hfree 5 true, cls := .rl, parts := [{}] },
        { kind := .stf, parts := [{ pa := 0x10000, size := 1, scalePa := 0x1003F, scaleN := 1 }] }, { kind := .stf, parts := [{ pa := 0x10000, size := 1, scalePa := 0x1003F, scaleN := 1, bound := 1 }] },
        { kind := .batom 9, parts := [{ clm := true, pa := 4092, size := 4, dst := [(0, 31)] }] },
        { kind := .accst, parts := [{ clm := true, pa := 0, size := 0, reg := 3 }, { clm := true, pa := 2048, size := 0, reg := 4 }] },
        { kind := .accst, parts := [{ clm := true, pa := 0, size := 0, reg := 3, bound := 1 }, { clm := true, pa := 2048, size := 0, reg := 4, bound := 1 }] }],
      writeReady (flying o) ((flying o).op 0) (o.parts.headD {}) = true ∧ ((flying o).op 0).kind = o.kind ∧
      (o.kind = .atom true 9 → (flying o).readPa (some 0) 0x10038 8 = (0, false) ∧ yieldsWhole (flying o) (some 0) 0x400 ∧ ((flying o).l1Line 0 0x400).excl = false) ∧
      (o.kind = .stf → ((flying o).grid 0).slot o.fmt = { fmt := 3, sk := 1 } ∧ (flying o).readPa (some 0) 0x1003F 1 = (0, false) ∧ yieldsWhole (flying o) (some 0) 0x400) ∧
      (o.kind = .batom 9 → ((flying o).teamOf 0).readClm 4092 4 = (0, false)) ∧ (o.kind = .accst → (flying o).slotFree 0 3 = true)) := by
  unfold yieldsWhole
  decide +kernel

/-- A store that the fault injector holds until cycle 1. -/
def delayed : State :=
  let s := flying { kind := .st, parts := [{ pa := 0x10000, size := 4, data := 7, ready := 1 }] }
  { s with sch := { s.sch with cycle := 1 } }

theorem witness_DelayedStorePerforms : ∃ (s : State) (o : Op) (p : Part), o = s.op 0 ∧ o.parts[0]? = some p ∧ s.canPerform 0 0 = true ∧ p.rel = .none ∧ p.task = false ∧ p.hurt = false ∧
    p.pa % 64 + p.size ≤ 64 ∧ s.differs 0 0 = false ∧ o.kind = .st ∧ p.clm = false ∧ p.ready ≠ 0 ∧ p.ready ≤ s.sch.cycle ∧
    s.o.ops.find? (fun e => e.2.parts.any fun q => q.ready != 0 && q.plt.isNone) = some (0, o) ∧ o.parts.findIdx (fun q => q.ready != 0 && q.plt.isNone) = 0 :=
  ⟨delayed, _, (delayed.op 0).parts.headD {}, rfl, by decide +kernel⟩

/-- A store to which the shadow issued another address. -/
theorem witness_MismatchIsContained : ∃ (s : State) (o : Op) (p : Part), o = s.op 0 ∧ o.parts[0]? = some p ∧ s.canPerform 0 0 = true ∧ p.rel = .none ∧ p.ready = 0 ∧ s.firMatches o p = false ∧
    o.kind.compared = true ∧ s.differs 0 0 = true ∧ (∀ q ∈ o.parts, q.plt = none) ∧ (∀ e ∈ o.pos, alone s e.1 0 ∧ e.1 < 2 ^ 16) ∧ s.provOf (o.pos.map fun e => e.1) = [] ∧ ∀ k, (s.tenant k).viols = [] :=
  ⟨flying { kind := .st, odd := true, parts := [{ pa := 0x1003F, size := 1, data := 0xFF }] }, _, { pa := 0x1003F, size := 1, data := 0xFF }, rfl, by decide +kernel, by decide +kernel, by decide +kernel,
   by decide +kernel, by decide +kernel, by decide +kernel, by decide +kernel, by decide +kernel, by unfold alone; decide +kernel, by decide +kernel, fun _ => rfl⟩

/-- A release that has performed provisionally. -/
def held : State :=
  let s := flying { kind := .st, cls := .rl, parts := [{ pa := 0x1003C, size := 4, data := 7, rel := .prov, val := some 7, bound := 15, plt := some 1 }] }
  { s with m := { s.m with prov := [{ pa := 0x1003C, size := 4, val := 7 }] } }

theorem witness_ReleasePerforms :
    (∃ (s : State) (o : Op) (p : Part), o = s.op 0 ∧ (∀ e ∈ o.pos, alone s e.1 0) ∧ o.parts[0]? = some p ∧ p.hurt = false ∧ p.pa % 64 + p.size ≤ 64 ∧ p.clm = false ∧ p.scaleBad = false ∧
      s.differs 0 0 = false ∧ o.kind = .st ∧ s.canPerform 0 0 = true ∧ p.rel = .todo ∧ p.ready = 0 ∧ s.firMatches o p = false) ∧
    (∃ (s : State) (o : Op) (p : Part) (q : Prov), o = s.op 0 ∧ o.parts[0]? = some p ∧ p.hurt = false ∧ p.pa % 64 + p.size ≤ 64 ∧ p.clm = false ∧ p.scaleBad = false ∧
      s.differs 0 0 = false ∧ p.rel = .prov ∧ s.mayComplete 0 0 = true ∧ s.m.prov.find? (fun q => q.op == 0 && q.part == 0) = some q ∧ q.pa = p.pa ∧ q.size = p.size) :=
  ⟨⟨flying { kind := .st, cls := .rl, parts := [{ pa := 0x1003C, size := 4, data := 7, rel := .todo }] }, _, { pa := 0x1003C, size := 4, data := 7, rel := .todo }, rfl, by unfold alone; decide +kernel, by decide +kernel⟩,
    ⟨held, _, { pa := 0x1003C, size := 4, data := 7, rel := .prov, val := some 7, bound := 15, plt := some 1 }, { pa := 0x1003C, size := 4, val := 7 }, rfl, by decide +kernel⟩⟩

/-! ### Witnesses: device registers, translation, faults, pre-emption, resets -/

theorem coherent_bare {s : State} (h1 : s.m.l1 = []) (h2 : s.m.llc = []) : Coherent s :=
  ⟨fun line h => by simp [State.llcLine, h2, SMap.get, SMap.find] at h, fun c line _ h => by simp [State.l1Line, h1, SMap.get, SMap.find] at h⟩

/-- A walk of the wave in slot 0 for address 0; the lines its tables lie in stand in their slices. -/
def walking (k : Walk) (vs : List Nat) : State :=
  let s := front (.nop .lane) id
  { s with m := { s.m with walks := [(0, k)],
                           llc := [(0, { valid := true, data := BitVec.ofNat 512 (vs.getD 0 0) }), (0x400, { valid := true, data := BitVec.ofNat 512 (vs.getD 1 0) }),
                                   (0x800, { valid := true, data := BitVec.ofNat 512 (vs.getD 2 0) }), (0xC00, { valid := true, data := BitVec.ofNat 512 (vs.getD 3 0) })] } }

/-- A walk that finds no table, one that finds a leaf at the last level, one begun before an invalidation; a miss; and the end of an invalidation. -/
theorem witness_TranslationEvents :
    (∃ (s : State) (k : Walk) (f : FaultInfo), s.walkNow k.asid k.va = .error f ∧ s.m.walks.find? (fun e => e.1 == 0 && e.2.failed.isNone) = some (0, k) ∧ s.hasWalker 0 k = true ∧
      (s.walkAsks 0 k).all s.askReady = true ∧ s.leafWaits k = false ∧ (∀ a ∈ s.walkAsks 0 k, yieldsWhole s none a.line) ∧ k.drop = false) ∧
    (∃ (s : State) (k : Walk) (r : WalkOk), s.walkNow k.asid k.va = .ok r ∧ s.m.walks.find? (fun e => e.1 == 0 && e.2.failed.isNone) = some (0, k) ∧ s.hasWalker 0 k = true ∧
      (s.walkAsks 0 k).all s.askReady = true ∧ s.leafWaits k = false ∧ (∀ a ∈ s.walkAsks 0 k, yieldsWhole s none a.line) ∧ k.drop = false) ∧
    (∃ (s : State) (k : Walk), s.m.walks.find? (fun e => e.1 == 0 && e.2.failed.isNone) = some (0, k) ∧ s.hasWalker 0 k = true ∧ (s.walkAsks 0 k).all s.askReady = true ∧ s.leafWaits k = false ∧
      (∀ a ∈ s.walkAsks 0 k, yieldsWhole s none a.line) ∧ k.drop = true) ∧
    (∃ (s : State) (k : Miss), s.m.misses.find? (fun e => e.1 == 0) = some (0, k) ∧ s.askReady (s.missAsk 0 k) = true) ∧
    (∃ (s : State), s.reg.tlbBusy = true ∧ ∀ e ∈ s.m.walks, e.2.drop = false) :=
  ⟨⟨walking {} [], {}, { code := 0x10, reason := 1, info := 0 }, by rfl, by unfold yieldsWhole; decide +kernel⟩,
   ⟨walking {} [0x10001, 0x20001, 0x30001, 0x0E], {}, { w := true, rd := true, pte := 0x30000 }, by rfl, by unfold yieldsWhole; decide +kernel⟩,
   ⟨walking { drop := true } [], { drop := true }, by unfold yieldsWhole; decide +kernel⟩,
   ⟨let s := walking {} []; { s with m := { s.m with misses := [(0, {})] } }, {}, by decide +kernel⟩,
   ⟨{ State.reset with reg := { State.reset.reg with tlbBusy := true }, m := { State.reset.m with walks := [(0, {})] } }, by decide +kernel⟩⟩

theorem witness_WaveRegisterEvents : ((front (.nop .lane) id).wave 0).resident = true ∧ ((handling.wave 0).hmode = true ∧ (0x1000#64).toNat % 4 = 0 ∧ canonical 0x1000#64 = true) ∧
    (∃ (s : State) (f : Option (Nat × Nat)), f = (if (s.gridOf 0).isTask then (s.gridOf 0).frontier else ((s.tenant (s.gridOf 0).tenant).lastTask.map fun k => (s.grid k).frontier).getD none)) :=
  ⟨by decide +kernel, by decide +kernel, State.reset, none, by decide +kernel⟩

theorem witness_RegisterWritesByHost : (0x46, 0x1F#32) ∈ plainRegs ∧ (0x431, 0x3F#32) ∈ plainRegs ∧ (0x404, 6) ∈ addressRegs ∧ (0x413, 12) ∈ addressRegs ∧ (31 : Nat) < 32 ∧ (63 : Nat) < 64 ∧
    (((front (.nop .lane) id).wave 0).resident = true ∧ regDenied ((front (.nop .lane) id).gridOf 0).tenant 0x406 = false) ∧ regDenied ((owned (.nop .lane)).gridOf 0).tenant 0x406 = true := by decide +kernel

theorem witness_DeviceCommandWrites : (∃ (s : State) (m : Nat), m = (s.dev 0x420).toNat % 8 ∧ 3 ≤ m) ∧ (∃ s : State, ∃ e ∈ s.x.grids, e.2.live = true) ∧ (∀ e ∈ State.reset.x.grids, e.2.live = false) ∧
    (∃ (s : State) (r : Nat), r = (s.dev 0x417).toNat % 8 ∧ (s.route r).newCounts ≠ []) :=
  ⟨⟨State.reset, 3, by decide +kernel⟩, ⟨front (.nop .lane) id, (0, Grid.loaded), by decide +kernel⟩, by decide +kernel, ⟨State.reset.setRoute 0 { newCounts := [(255, 64)] }, 0, by decide +kernel⟩⟩

/-- A device whose region 7 has a staged map. -/
def staged (rows : List Nat) : State :=
  { State.reset with reg := { State.reset.reg with dev := SMap.set 0#32 State.reset.reg.dev 0x40D 7#32, rows := (List.range 33).map fun i => (64 * 7 + i, rows.getD i 0) } }

theorem witness_AddressMapEvents :
    (∃ s : State, s.reg.mapLoad.isSome = true) ∧
    (∃ (s : State) (rows : List Nat), rows = (List.range 33).map (fun i => SMap.get 0 s.reg.rows (64 * ((s.dev 0x40D).toNat % 8) + i)) ∧ s.reg.mapLoad = none ∧ mapCode rows ≠ 0) ∧
    (∃ (s : State) (rows : List Nat), rows = (List.range 33).map (fun i => SMap.get 0 s.reg.rows (64 * ((s.dev 0x40D).toNat % 8) + i)) ∧ s.reg.mapLoad = none ∧ mapCode rows = 0) ∧
    (∃ (s : State) (v : MapLoad), s.reg.mapLoad = some v ∧ Coherent s ∧ v.region < 8 ∧ v.rows.length = 33 ∧ s.acceptedIn v.region = false ∧
      answered s (s.backAsks (askAgent 12 0) ((s.heldLines.filter (s.inRegion v.region)).eraseDups))) ∧
    (∃ (s : State) (v : MapLoad), s.reg.mapLoad = some v ∧ s.acceptedIn v.region = true) ∧
    (∃ (s : State) (v : MapLoad) (a : Ask), s.reg.mapLoad = some v ∧ s.inRegion v.region a.line = true ∧ a.sort ≠ .back ∧ s.accepted a.key v.region = false) ∧
    (∃ s : State, ∃ l, l < 12 ∧ SMap.get false s.pk.links l = true) ∧
    (∃ s : State, Coherent s ∧ (∀ l, l < 12 → SMap.get false s.pk.links l = false) ∧ Memory.wf s.m.mem = true ∧ SMap.wf 0 s.m.scrambled = true) :=
  let v : MapLoad := { region := 7, rows := (List.range 33).map resetRow }
  let loading : State := { State.reset with reg := { State.reset.reg with mapLoad := some v } }
  ⟨⟨{ State.reset with reg := { State.reset.reg with mapLoad := some {} } }, by decide +kernel⟩,
   ⟨staged [], _, rfl, by decide +kernel⟩, ⟨staged ((List.range 33).map resetRow), _, rfl, by decide +kernel⟩,
   ⟨loading, v, rfl, coherent_bare rfl rfl, by unfold answered; decide +kernel⟩,
   ⟨loading.setCtrl 7 { queue := [{ (default : HbmReq) with line := 7 * 2 ^ 30 }] }, v, rfl, by decide +kernel⟩, ⟨loading, v, { line := 7 * 2 ^ 30 }, rfl, by decide +kernel⟩,
   ⟨{ State.reset with pk := { State.reset.pk with links := [(11, true)] } }, 11, by decide +kernel⟩,
   ⟨State.reset, coherent_bare rfl rfl, by decide +kernel⟩⟩

/-- A tenant with one record that waits. -/
def recorded (ctl : Word) : State := State.reset.modTenant 31 fun t => { t with records := [List.replicate 64 1#8], fqctl := ctl }

theorem witness_FaultRecordsArePosted :
    (∃ (s : State) (r : List Byte) (rest : List (List Byte)), (s.tenant 31).records = r :: rest ∧ r.length = 64 ∧ mayPost (s.tenant 31) ∧
      answered s (physAsks (askAgent 4 31) 0 32 ((s.tenant 31).fqbase.toNat + 64 * ((s.tenant 31).fqprod.toNat % 2 ^ ((s.tenant 31).fqctl.toNat % 32))) 64 true) ∧
      s.lostAny (askAgent 4 31) = false ∧ ∀ g ∈ s.x.groups, g.resumed = false) ∧
    (∃ s : State, (s.tenant 31).records ≠ [] ∧ ¬ mayPost (s.tenant 31)) ∧ (∃ s : State, (s.tenant 31).records = []) :=
  ⟨⟨cached [0] (recorded 0x80000010#32), _, _, by rfl, by unfold mayPost answered; decide +kernel⟩, ⟨recorded 0x80000003#32, by unfold mayPost; decide +kernel⟩, ⟨State.reset, by decide +kernel⟩⟩

/-- The wave in slot 0 suspended by a record that has been posted. -/
def suspendedWave : State :=
  let s := front (.nop .lane) id
  { s with x := { s.x with groups := [{ waves := [0] }] } }

theorem witness_GroupCommands : ∃ (s : State) (wid w : Nat), w = waveOfId wid ∧ (s.wave w).resident = true ∧ s.waveId w = wid ∧ (s.gridOf w).tenant = 0 ∧ s.suspended w = true ∧
    (∀ g ∈ s.x.groups, g.resumed = false ∧ g.copy = none) ∧ ∀ g ∈ s.x.groups, g.waves.contains w = true → s.recordWaits g = false :=
  ⟨suspendedWave, 0, 0, by decide +kernel⟩

/-- A core with one quiet team whose SAVE has been taken. -/
def savingTeam : State :=
  let s := (front (.nop .lane) fun x => { x with vcount := 0, slots := 0, bundles := x.bundles.map fun b => { b with phase := .header } }).modTeam 0 fun t => { t with saving := true, scratch := 0 }
  { s with reg := { s.reg with saving := some {}, dev := SMap.set 0#32 s.reg.dev 0x416 1#32 } }

/-- All that it asks for has been answered, and one line of it was lost on its way, or not. -/
def savedSoon (lost : Bool) : State :=
  { savingTeam with m := { savingTeam.m with got := (savingTeam.saveAsks {}).map Ask.mark, lost := if lost then [(askAgent 5 0, 0)] else [] } }

/-- A saved team of one wave, its save area at 0x1000. -/
def keptTeam : SavedTeam := { area := 0x1000, team := { resident := true, waves := [0], scratch := 0 }, waves := [{ resident := true }] }

/-- Launch 0 with that team saved; what a RESTORE asks for of its header and, with `rest`, of the rest of its area, has been answered. -/
def savedArea (rest : Bool) : State :=
  let s := State.reset.setGrid 0 { Grid.loaded with saved := [(0, keptTeam)] }
  let as := areaAsks (askAgent 6 0) 0 0x1000 (if rest then areaSizes keptTeam.waves 0 else []) false
  { s with m := { s.m with llc := [(64, { valid := true, data := 0x15A585341#512 })], got := as.map Ask.mark }
           reg := { s.reg with dev := SMap.set 0#32 s.reg.dev 0x413 0x1000#32 } }

/-- The RESTORE of core 0 from it, and of core 255. -/
def restoreFrom (core : Nat) : Saving := { core := core, addr := 0x1000 }

/-- The state with a RESTORE in progress. -/
def restoring (v : Saving) (s : State) : State := { s with reg := { s.reg with restoring := some v, dev := SMap.set 0#32 s.reg.dev 0x416 1#32 } }

/-- The state in which the RESTORE `v` of state u judges its area. -/
def restoreRead (u : State) (v : Saving) : State :=
  let x := (u.passAsks (u.restoreAsks v)).2.yieldAsks (u.restoreAsks v)
  { x with reg := { x.reg with restoring := none } }

/-- Its answer WHY, where the area names no saved team that may be placed. -/
def restoreWhy (z : State) (core : Nat) (v : Saving) : Nat :=
  match z.headerTeam v.addr with
  | none => 4
  | some (gk, num, r) =>
    if core ≠ r.core ∧ r.bound (z.grid gk) = true then 3
    else if z.lostAny (askAgent 6 0) = true ∨ z.stateBad v.addr r = true then 4
    else if z.replace gk core num (r.team.waves.headD 0 / 16 % 4) = none then 2 else 0

/-- A lane waits. -/
def waits : Status → Bool
  | .waiting _ => true
  | _ => false

/-- The team that a RESTORE of core 0 places, with its waves. -/
def placedTeam : Option (Nat × State × State) :=
  let z := restoreRead (restoring (restoreFrom 0) (savedArea true)) (restoreFrom 0)
  (z.replace 0 0 0 0).bind fun r => (r.2.loadTasks 0 keptTeam).map fun q => (r.1, r.2, q.loadTeam 0x1000 r.1 keptTeam)

theorem restoreUnder_begun {s : State} {core : Nat} (h : s.reg.restoring = none) (hd : (s.dev 0x416).toNat % 4 ≠ 1) (ha : s.areaOk s.preaddr 4096 = true) :
    RestoreUnder s core { core := core, addr := s.preaddr }
      { s.setDev 0x416 (statusWord 1 0) with reg := { (s.setDev 0x416 (statusWord 1 0)).reg with restoring := some { core := core, addr := s.preaddr } } } :=
  .inr ⟨h, hd, ha, rfl, rfl⟩

/-- A command in progress; SAVE of no team, of one, of one that is quiet and whose lines may go, of one whose line is lost, and of one not quiet; RESTORE from where no memory is, by another core
than the one in progress, before its lines have been read, from an area without a header, where a line is lost, to a core out of service, by another core than the team must return to, and of a
team that comes back: no lane of it waits, and one runs. -/
theorem witness_PreemptionCommands :
    (∃ s : State, (s.dev 0x416).toNat % 4 = 1 ∧ s.reg.restoring = none) ∧
    (∃ s : State, (s.dev 0x416).toNat % 4 ≠ 1 ∧ (s.team (8 * 255 + 7)).resident = false) ∧
    (∃ s : State, (∀ sizes, sizes = areaSizes ((s.team 0).waves.map s.wave) (s.team 0).scratch → s.areaOk s.preaddr ((areaOffsets sizes).getD 5 0 + sizes.getD 5 0) = true) ∧
      (s.dev 0x416).toNat % 4 ≠ 1 ∧ (s.team (8 * 0 + 0)).resident = true) ∧
    (∀ lost ∈ [false, true], ∃ (s : State) (v : Saving), s.reg.saving = some v ∧ s.saveReady (8 * v.core + v.tslot) = true ∧ (s.grid (s.team (8 * v.core + v.tslot)).grid).isTask = false ∧ v.addr % 4096 = 0 ∧
      (s.team (8 * v.core + v.tslot)).waves = [0] ∧ answered s (s.saveAsks v) ∧ s.lostAny (askAgent 5 0) = lost) ∧
    (∃ (s : State) (v : Saving), s.reg.saving = some v ∧ s.saveReady (8 * v.core + v.tslot) = false) ∧
    (∃ s : State, (s.dev 0x416).toNat % 4 ≠ 1 ∧ s.reg.restoring = none ∧ s.areaOk s.preaddr 4096 = false) ∧
    (∃ (s : State) (v : Saving), s.reg.restoring = some v ∧ v.core ≠ 255) ∧
    (∃ (s u : State) (v : Saving), RestoreUnder s 0 v u ∧ ¬ answered u (u.restoreAsks v)) ∧
    (∀ e ∈ [(0, 0, restoring {} (cached [0, 1, 2, 3] State.reset), 4), (0, 0x1000, restoring (restoreFrom 0) { savedArea true with m := { (savedArea true).m with lost := [(askAgent 6 0, 64)] } }, 4),
        (0, 0x1000, restoring (restoreFrom 0) ((savedArea true).modCore 0 fun k => { k with out := true }), 2),
        (255, 0x1000, restoring (restoreFrom 255) ((savedArea true).modGrid 0 fun g => { g with place := [0] }), 3)],
      RestoreUnder e.2.2.1 e.1 { core := e.1, addr := e.2.1 } e.2.2.1 ∧ answered e.2.2.1 (e.2.2.1.restoreAsks { core := e.1, addr := e.2.1 }) ∧
      restoreWhy (restoreRead e.2.2.1 { core := e.1, addr := e.2.1 }) e.1 { core := e.1, addr := e.2.1 } = e.2.2.2) ∧
    (∃ (s : State) (v : Saving) (slot : Nat) (p y : State), RestoreUnder s 0 v s ∧ answered s (s.restoreAsks v) ∧ (restoreRead s v).headerTeam v.addr = some (0, 0, keptTeam) ∧ keptTeam.core = 0 ∧
      (restoreRead s v).lostAny (askAgent 6 0) = false ∧ (restoreRead s v).stateBad v.addr keptTeam = false ∧ (restoreRead s v).maxClock < 2 ^ 47 ∧ (restoreRead s v).pk.rebase = false ∧
      placedTeam = some (slot, p, y) ∧ (p.team slot).waves.Nodup ∧ (∀ w ∈ (p.team slot).waves, ∀ e ∈ (y.wave w).lanes, waits e.2.st = false) ∧
      ∃ w ∈ (p.team slot).waves, ((y.wave w).lane 31).st = .running) := by
  obtain ⟨⟨slot, p, y⟩, hr⟩ := Option.isSome_iff_exists.mp (show placedTeam.isSome = true by decide +kernel)
  have hw : placedTeam.all (fun r => decide ((r.2.1.team r.1).waves.Nodup) && (r.2.1.team r.1).waves.all (fun w => (r.2.2.wave w).lanes.all fun e => !waits e.2.st) &&
      (r.2.1.team r.1).waves.any fun w => ((r.2.2.wave w).lane 31).st == .running) = true := by decide +kernel
  rw [hr] at hw
  simp only [Option.all_some, Bool.and_eq_true, decide_eq_true_eq, List.all_eq_true, List.any_eq_true, Bool.not_eq_true', beq_iff_eq] at hw
  refine ⟨⟨savingTeam, by decide +kernel⟩, ⟨State.reset, by decide +kernel⟩, ⟨front (.nop .lane) id, fun sizes h => by subst h; decide +kernel, by decide +kernel⟩,
   fun lost hl => ⟨savedSoon lost, {}, by revert lost; decide +kernel, by revert lost; unfold answered; decide +kernel⟩,
   ⟨{ savingTeam with o := { savingTeam.o with ops := [(0, { pos := [(0, 0)], parts := [{}] })] } }, {}, by rfl, by decide +kernel⟩,
   ⟨{ State.reset with reg := { State.reset.reg with dev := SMap.set 0#32 (SMap.set 0#32 State.reset.reg.dev 0x413 0xFFFFF000#32) 0x414 0xFFFFFFFF#32 } }, by decide +kernel⟩,
   ⟨restoring {} State.reset, {}, rfl, by decide +kernel⟩,
   ⟨savedArea false, _, _, restoreUnder_begun (core := 0) (by decide +kernel) (by decide +kernel) (by decide +kernel), by unfold answered; decide +kernel⟩,
   fun e he => ⟨.inl ⟨by revert e; decide +kernel, by revert e; decide +kernel, rfl⟩, by revert e; unfold answered; decide +kernel, by revert e; decide +kernel⟩,
   ⟨restoring (restoreFrom 0) (savedArea true), restoreFrom 0, slot, p, y, .inl ⟨by decide +kernel, by decide +kernel, rfl⟩, by unfold answered; decide +kernel, by decide +kernel, by decide +kernel, by decide +kernel, by decide +kernel,
    by decide +kernel, by decide +kernel, hr, hw.1.1, hw.1.2, ?_⟩⟩
  exact hw.2

/-- A warm reset that has waited since cycle 0 for one line, seen at a cycle. -/
def warming (n : Nat) : State :=
  { State.reset with sch := { State.reset.sch with cycle := n }, reg := { State.reset.reg with warm := some { lines := [5] } } }

theorem witness_DeviceResets :
    SMap.wf {} State.reset.x.cores = true ∧ SMap.wf {} State.reset.pk.slices = true ∧ (∃ s : State, (s.dev 0x435).toNat % 4 = 1) ∧
    (∃ s : State, Coherent s ∧ (s.dev 0x435).toNat % 4 ≠ 1 ∧ s.reg.warm = none ∧ s.m.hostLines = [] ∧ Memory.wf s.m.mem = true ∧ SMap.wf 0 s.m.scrambled = true) ∧
    (∃ s : State, (s.dev 0x435).toNat % 4 ≠ 1 ∧ s.reg.warm = none ∧ s.m.hostLines ≠ []) ∧
    (∃ (s : State) (v : WarmWait), s.reg.warm = some v ∧ v.lines.filter (fun l => l != 5) = []) ∧
    (∃ (s : State) (v : WarmWait), s.reg.warm = some v ∧ v.lines.filter (fun l => l != 6) ≠ []) ∧
    (∃ (s : State) (v : WarmWait), s.reg.warm = some v ∧ s.sch.cycle < v.since + 160000000) ∧
    (∃ (s : State) (v : WarmWait), s.reg.warm = some v ∧ v.since + 160000000 ≤ s.sch.cycle ∧ SMap.wf {} s.x.tenants = true ∧ s.pkgnum = 0 ∧ SMap.wf false s.m.memPoison = true) :=
  ⟨by decide +kernel, by decide +kernel, ⟨{ State.reset with reg := { State.reset.reg with dev := [(0x435, 1#32)] } }, by decide +kernel⟩,
   ⟨State.reset, coherent_bare rfl rfl, by decide +kernel⟩,
   ⟨{ State.reset with m := { State.reset.m with hostLines := [5] } }, by decide +kernel⟩,
   ⟨warming 0, { lines := [5] }, rfl, by decide +kernel⟩, ⟨warming 0, { lines := [5] }, rfl, by decide +kernel⟩, ⟨warming 159999999, { lines := [5] }, rfl, by decide +kernel⟩,
   ⟨warming 160000000, { lines := [5] }, rfl, by decide +kernel⟩⟩

theorem witness_CoreCommands :
    (∃ s : State, (s.dev 0x435).toNat % 4 = 1) ∧
    (∃ s : State, (s.dev 0x435).toNat % 4 ≠ 1 ∧ (if (s.core 0).out = true ∨ 256 ≤ 0 then 3 else if s.teamOn 0 = true then 1 else if s.nonspecOn 0 = true then 2 else 0) = 1) ∧
    (∃ s : State, (s.dev 0x435).toNat % 4 ≠ 1 ∧ (if (s.core 255).out = true ∨ 256 ≤ 255 then 3 else if s.teamOn 255 = true then 1 else if s.nonspecOn 255 = true then 2 else 0) = 0 ∧ Coherent s) ∧
    (∃ s : State, s.idle 255 = true ∧ Coherent s) ∧ (∃ s : State, s.idle 0 = false) :=
  ⟨⟨{ State.reset with reg := { State.reset.reg with dev := [(0x435, 1#32)] } }, by decide +kernel⟩, ⟨front (.nop .lane) id, by decide +kernel⟩,
   ⟨State.reset, by decide +kernel, by decide +kernel, coherent_bare rfl rfl⟩, ⟨State.reset, by decide +kernel, coherent_bare rfl rfl⟩, ⟨front (.nop .lane) id, by decide +kernel⟩⟩

/-- A device with two images or none, and its fused hash of the vendor key. -/
def booting (imgs : Bool) (hash : List Byte) : State :=
  { State.reset with pk := { State.reset.pk with rom := { minVersion := 1, vendorHash := hash, slotA := if imgs then some { version := 1 } else none,
                                                          slotB := if imgs then some {} else none, failSlices := [0, 255] } } }

/-- A device that is up; one with no image; one whose vendor key is not the fused one; and one where slot A alone runs, if the open check of its signature lets it. -/
theorem witness_BootSequence : (∃ s : State, s.pk.boot ≠ .off) ∧ (∃ s : State, s.pk.boot = .off ∧ s.pk.rom.pick = none) ∧
    (∀ hash : List Byte, ∃ (s : State) (a b : Image) (ok : Image → Prop), s.pk.boot = .off ∧ s.pk.rom.slotA = some a ∧ s.pk.rom.slotB = some b ∧
      (∀ i, ok i ↔ s.pk.rom.minVersion ≤ i.version ∧ sha256 s.pk.rom.vendorKey = s.pk.rom.vendorHash ∧ Config.slhVerify s.pk.rom.vendorKey i.bytes i.sig = true) ∧ ¬ ok b ∧
      (sha256 [] = hash → Config.slhVerify [] [] [] = true → ok a)) :=
  ⟨⟨{ State.reset with pk := { State.reset.pk with boot := .up } }, by decide +kernel⟩, ⟨booting false [], by decide +kernel⟩,
    fun hash => ⟨booting true hash, { version := 1 }, {}, _, rfl, rfl, rfl, fun _ => Iff.rfl, fun h => Nat.not_succ_le_zero 0 h.1, fun h hv => ⟨Nat.le_refl 1, h, hv⟩⟩⟩

/-! ### Witnesses: periods, memory integrity, links and the host, launches, teams -/

/-- A device at a cycle, with power samples of the milliseconds before, and a hard allowance of tenant 31 about to run out. -/
def periodic (n k : Nat) : State :=
  let s := State.reset.modTenant 31 fun t => { t with budgets := [(5, { allow := 1, limit := 1, pol := 2 })] }
  { s with sch := { s.sch with cycle := n }, pk := { s.pk with powers := List.replicate k 1000, powerAt := n - 1600000 } }

/-- A controller with one request that waits. -/
def requested (marked : Bool) : State :=
  State.reset.setCtrl 7 { queue := [{ ctrl := 7, tenant := 31, die := 3, bank := 0, row := 0, line := 0, waiter := none, write := false, marked := marked }] }

/-- A load that waits for memory. -/
def asking : State := let s := flying { kind := .ld, parts := [{ pa := 0x10000, size := 4 }] }; { s with m := { s.m with llc := [] } }

theorem some_of_any {α : Type} {x : Option α} {p : α → Bool} (h : x.any p = true) : ∃ a, x = some a ∧ p a = true := by
  cases x with
  | none => cases h
  | some a => exact ⟨a, rfl, h⟩

/-- Power samples away from the end of a millisecond, with the first and with the tenth of those that follow each other; periods; requests of no waiter and of an
operation that asks for the line, and one that names another row; and batches. -/
theorem witness_PeriodsAndBatches :
    (∃ s : State, s.sch.cycle % 1600000 ≠ 0) ∧ (∃ s : State, s.sch.cycle ≠ 0 ∧ s.sch.cycle % 1600000 = 0 ∧ s.pk.powerAt ≠ s.sch.cycle ∧ s.sch.cycle ≠ s.pk.powerAt + 1600000) ∧
    (∃ s : State, s.sch.cycle ≠ 0 ∧ s.sch.cycle % 1600000 = 0 ∧ s.pk.powerAt ≠ s.sch.cycle ∧ s.sch.cycle = s.pk.powerAt + 1600000 ∧ s.pk.powers.length = 9) ∧
    (∃ s : State, s.sch.cycle % 1024 ≠ 0) ∧
    (∃ (s : State) (a : Allowance), s.sch.cycle % 1024 = 0 ∧ s.pk.period ≠ s.sch.cycle + 1 ∧ a = (s.tenant 31).budget 5 ∧ budgetDue a ∧ ∀ e ∈ s.m.walks, e.2.failed = none) ∧
    (∃ (s : State) (a : Allowance), s.sch.cycle % 1024 = 0 ∧ s.pk.period ≠ s.sch.cycle + 1 ∧ a = (s.tenant 0).budget 1 ∧ ¬ budgetDue a) ∧
    (∃ (s : State) (q : HbmReq) (y : Nat), y = s.location (64 * q.line % 2 ^ 39) ∧ s.ownHbm (64 * q.line) = true ∧ q.ctrl = y / 2 ^ 30 % 8 ∧ q.bank = y / 2 ^ 18 % 2 ^ 12 ∧
      q.row = y % 2 ^ 14 ∧ q.waiter = none ∧ s.reg.mapLoad = none) ∧
    (∃ (s : State) (q : HbmReq) (y k : Nat), y = s.location (64 * q.line % 2 ^ 39) ∧ s.ownHbm (64 * q.line) = true ∧ q.ctrl = y / 2 ^ 30 % 8 ∧
      q.bank = y / 2 ^ 18 % 2 ^ 12 ∧ q.row = y % 2 ^ 14 ∧ q.waiter = some k ∧ (∀ e ∈ s.pk.ctrls, ∀ p ∈ e.2.queue, p.waiter = some k → p.line ≠ q.line) ∧
      ∃ a, s.askOf k q.line = some a ∧ (!s.hbmDone a && !s.mapHolds a && a.tenant == q.tenant && a.die == q.die && a.write == q.write) = true) ∧
    (∃ (s : State) (q : HbmReq), q.row ≠ s.location (64 * q.line % 2 ^ 39) % 2 ^ 14) ∧
    (∃ (s : State) (q : HbmReq) (v : MapLoad), q.waiter = none ∧ s.reg.mapLoad = some v ∧ s.inRegion v.region q.line = true) ∧
    (∃ (s : State) (q : HbmReq), q.waiter = some 0 ∧ ∃ a, s.askOf 0 q.line = some a ∧ s.mapHolds a = true) ∧
    (∃ s : State, ∃ q ∈ (s.ctrl 7).queue, q.marked = true) ∧ (∃ s : State, (s.ctrl 7).queue ≠ [] ∧ ∀ q ∈ (s.ctrl 7).queue, q.marked = false) :=
  ⟨⟨periodic 1599999 0, by decide +kernel⟩, ⟨periodic 4800000 0 |>.modCore 0 id |> fun s => { s with pk := { s.pk with powerAt := 0 } }, by decide +kernel⟩,
   ⟨periodic 4800000 9, by decide +kernel⟩, ⟨periodic 1023 0, by decide +kernel⟩, ⟨periodic 1024 9, _, by decide +kernel, by decide +kernel, rfl, by unfold budgetDue; decide +kernel⟩,
   ⟨periodic 1024 9, _, by decide +kernel, by decide +kernel, rfl, by unfold budgetDue; decide +kernel⟩,
   ⟨State.reset, { (default : HbmReq) with line := 7 * 2 ^ 30 + 1, bank := (State.reset.location (64 * (7 * 2 ^ 30 + 1))) / 2 ^ 18 % 2 ^ 12, row := State.reset.location (64 * (7 * 2 ^ 30 + 1)) % 2 ^ 14 }, _, rfl, by decide +kernel, by decide +kernel, by decide +kernel, rfl, rfl, rfl⟩,
   ⟨asking, { (default : HbmReq) with line := 0x400, bank := asking.location 0x10000 / 2 ^ 18 % 2 ^ 12, row := asking.location 0x10000 % 2 ^ 14, waiter := some 0 }, _, 0, rfl, by decide +kernel, by decide +kernel, by decide +kernel, by decide +kernel, by decide +kernel, by decide +kernel, some_of_any (by decide +kernel)⟩,
   ⟨State.reset, { (default : HbmReq) with row := 1 }, by decide +kernel⟩,
   ⟨{ State.reset with reg := { State.reset.reg with mapLoad := some { region := 7 } } }, { (default : HbmReq) with line := 7 * 2 ^ 30 }, { region := 7 }, rfl, rfl, by decide +kernel⟩,
   ⟨{ asking with reg := { asking.reg with mapLoad := some {} } }, { (default : HbmReq) with line := 0x400, waiter := some 0 }, rfl, some_of_any (by decide +kernel)⟩, ⟨requested true, by decide +kernel⟩, ⟨requested false, by decide +kernel⟩⟩

/-- A slice 0 of die 0 fifteen of whose ways are disabled in set 0, with these slices of that die retired. -/
def wornSlice (ns : List Nat) : State :=
  { State.reset with pk := { State.reset.pk with slices := (0, { disabled := List.range 15 }) :: ns.map fun k => (k, { retired := true }) } }

theorem witness_MemoryIntegrityEvents :
    (∃ (s : State) (v : Scrub), s.m.scrubs[0]? = some v ∧ ∃ q ∈ (s.ctrl (s.ctrlOf v.line)).queue, q.marked = true) ∧
    (∃ (s : State) (v : Scrub), s.m.scrubs[0]? = some v ∧ v.bad = false ∧ ∀ q ∈ (s.ctrl (s.ctrlOf v.line)).queue, q.marked = false) ∧
    (∃ (s : State) (v : Scrub), s.m.scrubs[0]? = some v ∧ v.bad = true ∧ SMap.get 0 s.m.tags v.line = v.tag ∧ s.writeQueued v.line = false ∧ ∀ q ∈ (s.ctrl (s.ctrlOf v.line)).queue, q.marked = false) ∧
    (∃ (s : State) (v : Scrub), s.m.scrubs[0]? = some v ∧ v.bad = true ∧ SMap.get 0 s.m.tags v.line ≠ v.tag ∧ ∀ q ∈ (s.ctrl (s.ctrlOf v.line)).queue, q.marked = false) ∧
    (∃ (s : State) (slice : Nat), Coherent s ∧ slice / 64 = 3 ∧ slice % 64 = 49 ∧ (s.slice slice).disabled.contains (16 * 8191 + 15) = false ∧ SMap.get 0 (s.slice slice).errors (16 * 8191 + 15) < 2) ∧
    (∃ s : State, Coherent s ∧ (s.slice 0).disabled.contains (16 * 0 + 15) = false ∧ 2 ≤ SMap.get 0 (s.slice 0).errors 15) ∧
    (∃ s : State, (s.slice (s.physSlice 0 0)).wornOut = true ∧ s.spare 0 = none) ∧
    (∃ (s : State) (j : Nat), Coherent s ∧ (s.slice (s.physSlice 0 0)).wornOut = true ∧ s.spare 0 = some j ∧
      answered s (s.backAsks (askAgent 13 (s.physSlice 0 0)) (s.sliceLines (s.physSlice 0 0)))) ∧
    (∃ s : State, (s.slice (s.physSlice 3 47)).wornOut = false) :=
  ⟨⟨let s := State.reset.setCtrl 0 { queue := [{ (default : HbmReq) with marked := true }] }; { s with m := { s.m with scrubs := [{}] } }, {}, rfl, by decide +kernel⟩,
   ⟨{ State.reset with m := { State.reset.m with scrubs := [{}] } }, {}, rfl, by decide +kernel⟩,
   ⟨{ State.reset with m := { State.reset.m with scrubs := [{ bad := true }] } }, { bad := true }, rfl, by decide +kernel⟩,
   ⟨{ State.reset with m := { State.reset.m with scrubs := [{ bad := true, tag := 1 }] } }, { bad := true, tag := 1 }, rfl, by decide +kernel⟩,
   ⟨State.reset, 241, coherent_bare rfl rfl, by decide +kernel⟩, ⟨State.reset.setSlice 0 { errors := [(15, 2)] }, coherent_bare rfl rfl, by decide +kernel⟩,
   ⟨wornSlice [48, 49], by decide +kernel⟩, ⟨wornSlice [49], 48, coherent_bare rfl rfl, by unfold answered; decide +kernel⟩, ⟨State.reset, by decide +kernel⟩⟩

/-- A device that is up, whose ports decode a range each. -/
def decoding (p : Nat) : State :=
  let s := (State.reset.setPort 0 { hdmBase := 0, hdmSize := 64 }).setPort 1 { hdmBase := 64 * p, hdmSize := 64 }
  { s with pk := { s.pk with boot := .up } }

theorem witness_LinkAndHostEvents :
    (∃ s : State, s.linkIsUp 11 = false) ∧ (∃ s : State, s.linkIsUp 17 = true ∧ SMap.get 0 s.pk.retries 17 < 7) ∧ (∃ s : State, s.linkIsUp 12 = true ∧ 7 ≤ SMap.get 0 s.pk.retries 12) ∧
    (∃ s : State, SMap.get 0 s.pk.retries 12 ≠ 8) ∧ (∃ s : State, SMap.get 0 s.pk.retries 12 = 8 ∧ s.onLink 12 = [] ∧ ∀ e ∈ s.o.copies, s.copyPoison e.1 12 = s) ∧
    (∃ (s : State) (c : Copy), s.o.copies = [(0, c)] ∧ SMap.get 0 s.pk.retries 12 = 8 ∧ c.live = true ∧ c.slot.isSome = true ∧ c.stopped = false ∧ c.moved < c.total ∧ 12 ∈ c.pushLinks ∧
      s.elemReady 0 = true) ∧
    (∃ (s : State) (k : Walk) (a : Ask), s.farAsk (s.walkAsks 0 k) = some a ∧ s.m.walks.find? (fun e => e.1 == 0 && e.2.failed.isNone) = some (0, k) ∧ s.hasWalker 0 k = true ∧ k.drop = false) ∧
    (∃ (s : State) (p : Part) (n : Nat), (∀ e ∈ (s.op 0).pos, alone s e.1 0) ∧ (s.op 0).parts[0]? = some p ∧ s.partReady 0 0 = true ∧ p.clm = false ∧ p.size ≠ 0 ∧ (∃ l ∈ s.partLinks 0 0, l < 12) ∧
      (s.op 0).kind = .ld ∧ (s.op 0).sc = .lane ∧ n = (s.gridOf (s.op 0).wave).tenant ∧ n ≠ 0 ∧ (s.wave (s.op 0).wave).taskWave = false ∧ p.scaleBad = false ∧ p.hurtAt = 0) ∧
    (∃ s : State, Coherent s ∧ s.reg.warm = none ∧ s.pk.boot = .up ∧ isHostPa (64 * (hostBase / 64)) = true ∧ s.provLine (hostBase / 64) = false) ∧ (∃ s : State, s.provLine 0 = true) ∧
    (∃ s : State, s.pk.boot ≠ .up) ∧
    (∃ s : State, s.pk.boot = .up ∧ s.reg.warm = none ∧ s.ownHbm 0 = true ∧ s.hdmHits 0 = [0, 1] ∧ s.provLine 0 = false ∧ s.provHeld 0 64 = false ∧ answered s [hostAsk 0 0 64 true] ∧ answered s [hostAsk 0 0 64 false]) ∧
    (∃ s : State, s.pk.boot = .up ∧ s.reg.warm = none ∧ s.ownHbm 0 = true ∧ s.hdmHits 0 = [0, 1] ∧ s.provLine 0 = true ∧ answered s [hostAsk 0 0 64 false]) ∧
    (∃ s : State, s.pk.boot = .up ∧ s.reg.warm = none ∧ s.ownHbm 64 = true ∧ s.hdmHits 64 = [1] ∧ answered s [hostAsk 1 64 64 false]) ∧ (∃ s : State, s.pk.boot = .up ∧ s.ownHbm 128 = true ∧ s.hdmHits 128 = []) ∧
    (∃ s : State, s.pk.boot = .up ∧ ∀ m, (s.meas m).length = 32) :=
  let pushing : State := (front (.nop .lane) id).modTeam 0 fun t => { t with handles := [(5, { st := .draining, hlen := 4 })] }
  ⟨⟨State.reset, by decide +kernel⟩, ⟨State.reset, by decide +kernel⟩, ⟨{ State.reset with pk := { State.reset.pk with retries := [(12, 7)] } }, by decide +kernel⟩, ⟨State.reset, by decide +kernel⟩,
   ⟨{ State.reset with pk := { State.reset.pk with retries := [(12, 8)] } }, by decide +kernel, by decide +kernel, fun e he => absurd he List.not_mem_nil⟩,
   ⟨{ pushing with pk := { pushing.pk with retries := [(12, 8)] }, o := { pushing.o with copies := [(0, { live := true, dir := 2, slot := some 0, members := [0], h := 5, lh := 5, rteamKey := 8 * 64, ctl := 0x0A#32, dims := [1], boxes := [1], strides := [4] })] } },
      _, rfl, by decide +kernel⟩,
   ⟨let s := walking {} []; { s with reg := { s.reg with dev := SMap.set 0#32 s.reg.dev 0x408 0x80#32 } }, {}, _, by rfl, by decide +kernel⟩,
   ⟨(flying { kind := .ld, parts := [{ pa := 2 ^ 39, size := 4, dst := [(0, 0)] }] }).modGrid 0 fun g => { g with tenant := 1 }, { pa := 2 ^ 39, size := 4, dst := [(0, 0)] }, 1, by unfold alone; decide +kernel, by decide +kernel⟩,
   ⟨decoding 0, coherent_bare rfl rfl, by decide +kernel⟩, ⟨{ State.reset with m := { State.reset.m with prov := [{ pa := 60, size := 4 }] } }, by decide +kernel⟩, ⟨State.reset, by decide +kernel⟩,
   ⟨cached [0] (decoding 0), by unfold answered; decide +kernel⟩,
   ⟨let s := cached [0] (decoding 0); { s with m := { s.m with prov := [{ pa := 60, size := 4 }] } }, by unfold answered; decide +kernel⟩,
   ⟨cached [1] (decoding 1), by unfold answered; decide +kernel⟩, ⟨decoding 0, by decide +kernel⟩, ⟨decoding 0, rfl, fun _ => rfl⟩⟩

/-- A queue of two places that holds one record, at 0x1000. -/
def oneRecord : Queue := { base := 0x1000#64, ctl := 0x80000100#32, tail := 1#32 }

/-- A clean line of a slice with these values at these offsets. -/
def cleanLine (vs : List (Nat × Nat)) : Line :=
  { valid := true, data := BitVec.ofNat 512 ((vs.map fun e => e.2 * 2 ^ (8 * e.1)).foldl (· + ·) 0) }

/-- Queue 63 of tenant 0 with one record at 0x1000, its lines and others in the slices. -/
def queued (ls : List (Nat × Line)) : State :=
  let s := State.reset.modTenant 0 fun t => { t with queues := [(63, oneRecord)] }
  { s with pk := { s.pk with boot := .up }, m := { s.m with llc := ls } }

/-- No record: its lines are zero. -/
def blank : State := queued [(0, cleanLine []), (0x40, cleanLine []), (0x41, cleanLine []), (0x42, cleanLine []), (0x43, cleanLine [])]

/-- A record of one team of one wave with 32 constants, of a context that is not valid. -/
def contextless : State :=
  queued [(0, cleanLine []), (0x40, cleanLine [(0, 0x4C520001), (0x10, 1), (0x14, 1), (0x20, 8)]), (0x41, cleanLine [(0x18, 32), (0x1E, 0xFFFF)]), (0x42, cleanLine []),
    (0x43, cleanLine [])]

/-- The same queue before a record that is accepted: its lines, those of its context (0), region table (1), page
tables (0x400, 0x800, 0xC00), constants and format slots (0x80) and variant header (0xC0) in the slices. -/
def acceptable : State := queued [
  (0, cleanLine [(0, 0x10001), (8, 0x40)]), (1, cleanLine [(0, 0xA0), (8, 0xFFFF0000)]),
  (0x40, cleanLine [(0, 0x4C520001), (8, 0x3000), (0x10, 1), (0x14, 1), (0x20, 8)]),
  (0x41, cleanLine [(0x10, 0x2000), (0x18, 32), (0x1E, 0xFFFF), (0x20, 0x2000), (0x28, 0x2000), (0x30, 0x2000)]),
  (0x42, cleanLine []), (0x43, cleanLine []), (0x80, cleanLine []), (0x81, cleanLine []), (0x82, cleanLine []), (0x83, cleanLine []),
  (0xC0, cleanLine [(0, 0x56415201), (4, 1)]), (0x400, cleanLine [(0, 0x20001)]), (0x800, cleanLine [(0, 0x30001)]), (0xC00, cleanLine [(0, 0x86)])]

/-- The requests by which its launch processor takes that record. -/
def takeAsks (s : State) : List Ask := s.asksBy (askAgent 0 0) fun s => s.takeRecord (0, 63, oneRecord)

/-- That record as it is read once they are answered. -/
def recordRead (s : State) : (LRec × Bool) × State := (s.passAsks (takeAsks s)).2.readRec (lpAgent 0 0 0 (askAgent 0 0)) oneRecord.record

/-- What the launch processor answers. -/
def recordAnswer (s : State) : Except Nat Grid :=
  ((recordRead s).2.judge (lpAgent 0 ((recordRead s).1.1.at 6 2) 0 (askAgent 0 0)) 63 (oneRecord.ctl.toNat % 8) (s.tenant 0).seq (recordRead s).1.1).1

/-- The record stands at the head, and its requests are answered. -/
def takes (s : State) : Prop := s.pk.boot = .up ∧ bestHead s.x.rrTenant s.heads = some (0, 63, oneRecord) ∧ 0 = oneRecord.ctl.toNat / 2 ^ 12 % 4 ∧ answered s (takeAsks s)

theorem acceptable_isOk : (recordAnswer acceptable).isOk = true := by decide +kernel

theorem ok_of_isOk {α β : Type} {x : Except α β} (h : x.isOk = true) : ∃ e, x = .ok e := by
  cases x with
  | ok e => exact ⟨e, rfl⟩
  | error _ => cases h

theorem witness_LaunchRecordsAreTaken :
    (∃ s : State, s.pk.boot ≠ .up) ∧ (∃ s : State, takes s ∧ (recordRead s).1.1.bad = true) ∧
    (∃ s : State, takes s ∧ (recordRead s).1.1.bad = false ∧ ((recordRead s).2.readPa none (s.ctxEntry ((recordRead s).1.1.at 6 2)) 24).2 = false ∧
      (recordRead s).2.lostTo (lpAgent 0 ((recordRead s).1.1.at 6 2) 0 (askAgent 0 0)) (s.ctxEntry ((recordRead s).1.1.at 6 2)) = false ∧
      s.badCtx ((recordRead s).1.1.at 6 2) 0 = true ∧ ∃ code, recordAnswer s = .error code) ∧
    (∃ (s : State) (g : Grid), takes s ∧ (recordRead s).1.2 = false ∧ recordAnswer s = .ok g) :=
  ⟨⟨State.reset, by decide +kernel⟩, ⟨blank, by unfold takes answered; decide +kernel, by decide +kernel⟩,
   ⟨contextless, by unfold takes answered; decide +kernel, by decide +kernel, by decide +kernel, by decide +kernel, by decide +kernel, 9, by decide +kernel⟩,
   (ok_of_isOk acceptable_isOk).elim fun g h => ⟨acceptable, g, by unfold takes answered; decide +kernel, by decide +kernel, h⟩⟩

/-! ### Witnesses: teams, tasks, publications, slots, flushes, copies -/

/-- A launch none of whose one team has been placed. -/
def unplaced : State := State.reset.setGrid 0 { Grid.loaded with placed := 0, decl := [8, 8, 8], scratch := 4096 }

/-- A team whose waves wait for its scratch to be staged. -/
def unstaged : State :=
  ((front (.nop .lane) fun x => { x with started := false }).modTeam 0 fun t => { t with started := false }).modGrid 0 fun g => { g with hampers := [{ va := 0#64, len := 0, scratch := true, cdst := 4096 }] }

/-- A launch whose one team has ended, with no interrupt to send or vector 31. -/
def ended (vec : Nat) : State :=
  let s := State.reset.setGrid 0 { Grid.loaded with ended := [0], cmplvec := vec }
  s.setPort 0 { enumerated := true }

/-- A launch that has ended, its completion record at address 0, in a page that may be written, the fifth of memory. -/
def endedAt : State :=
  let s := ended 31
  { s with m := { s.m with llc := acceptable.m.llc } }.setLlc 0xC00 (cleanLine [(0, 0x400CE)]) |>.setLlc 0x1000 (cleanLine [])

/-- Its completion record's requests and, once they are answered, where it goes. -/
def cmplAsks (s : State) : List Ask :=
  let g := s.grid 0
  s.asksBy (askAgent 3 0) fun s => (s.complete (lpAgent g.lp g.asid g.tenant (askAgent 3 0)) (if g.killed then 0x10 else 0) g.seq g.cmplvec g.cmpl).setGrid 0 {}
def cmplTo (s : State) : Except FaultInfo (List Nat) × State :=
  (s.passAsks (cmplAsks s)).2.cmplCheck (lpAgent (s.grid 0).lp (s.grid 0).asid (s.grid 0).tenant (askAgent 3 0)) (pieces (s.grid 0).cmpl.toNat 16)

theorem ok_pair {α β γ : Type} {x : Except α β × γ} {p : β → Bool} (h : (match x.1 with | .ok e => p e | .error _ => false) = true) : ∃ e u, x = (.ok e, u) ∧ p e = true := by
  obtain ⟨x, u⟩ := x
  cases x with
  | error f => cases h
  | ok e => exact ⟨e, u, rfl, h⟩

theorem ended_cmpl : ∃ (s : State) (ps : List Nat) (u : State), s.gridEnded 0 = true ∧ answered s (cmplAsks s) ∧ cmplTo s = (.ok ps, u) ∧ ps.Nodup :=
  (ok_pair (x := cmplTo endedAt) (p := fun e => decide e.Nodup) (by decide +kernel)).elim fun ps h => h.elim fun u h =>
    ⟨endedAt, ps, u, by decide +kernel, by unfold answered; decide +kernel, h.1, by simpa using h.2⟩

/-- The requests by which a team is placed, and staged. -/
def placeAsks (s : State) : List Ask := s.asksBy (askAgent 1 0) fun s => s.placeNext 0 255 3
def stageAsks (s : State) : List Ask := s.asksBy (askAgent 2 0) fun s => s.stageTeam 0 (lpAgent 0 0 0 (askAgent 2 0)) (s.grid 0).hampers

theorem witness_TeamsArePlacedAndEnd :
    (∃ s : State, s.wantsPlace 0 = false) ∧ (∃ s : State, s.wantsPlace 0 = true ∧ s.pk.rebase = true) ∧
    (∃ (s : State) (ts : Nat) (u : State), s.wantsPlace 0 = true ∧ (s.grid 0).mayStand 255 3 = true ∧ s.maxClock < 2 ^ 47 ∧ s.pk.rebase = false ∧
      (∀ e ∈ s.x.grids, e.1 ≠ 0 → s.servedBefore e.1 0 = true → s.fitsNow e.1 = false) ∧ answered s (placeAsks s) ∧
      ((s.passAsks (placeAsks s)).2.codeUses 0).place 0 255 3 (s.grid 0).placed = some (ts, u)) ∧
    (∃ (s : State) (h : Hamper) (bs : List Byte) (v : State), s.findTeam 0 0 = some 0 ∧ (s.team 0).started = false ∧ answered s (stageAsks s) ∧
      (stage 0 (lpAgent 0 0 0 (askAgent 2 0)) (s.grid 0).hampers (s.passAsks (stageAsks s)).2).1 = some () ∧
      (s.grid 0).hampers = [h] ∧ h.scratch = true ∧ lpTake (lpAgent 0 0 0 (askAgent 2 0)) h.va.toNat h.len (s.passAsks (stageAsks s)).2 = (some bs, v)) ∧
    (∃ s : State, s.gridEnded 0 = false) ∧
    (∃ (s : State) (ps : List Nat) (u : State), s.gridEnded 0 = true ∧ answered s (cmplAsks s) ∧ cmplTo s = (.ok ps, u) ∧ ps.Nodup) ∧
    (∃ s : State, s.gridEnded 0 = true ∧ answered s (cmplAsks s) ∧ (s.grid 0).cmplvec < 32 ∧ (s.port (s.tenant (s.grid 0).tenant).msiport).enumerated = true ∧
      (s.port (s.tenant (s.grid 0).tenant).msiport).pending = []) :=
  ⟨⟨State.reset, by decide +kernel⟩, ⟨{ unplaced with pk := { unplaced.pk with rebase := true } }, by decide +kernel⟩,
   ⟨unplaced, 0, _, by decide +kernel, by decide +kernel, by decide +kernel, by decide +kernel, by decide +kernel, by unfold answered; decide +kernel, by rfl⟩,
   ⟨unstaged, _, _, _, by decide +kernel, by decide +kernel, by unfold answered; decide +kernel, by decide +kernel, by rfl, by rfl, by rfl⟩, ⟨front (.nop .lane) id, by decide +kernel⟩, ended_cmpl,
   ⟨endedAt, by unfold answered; decide +kernel⟩⟩

/-- A task launch that may run on core 255, with these tasks. -/
def tasking (ts : SMap Task) : State :=
  let s := tasked (.nop .lane) id
  let s := { s with sch := { s.sch with cycle := 64 } }
  s.modGrid 0 fun g => { g with tasks := ts, tcores := [0, 255], tslots := 64, tvcount := 8, entries := [0x1000#64], nextId := ts.length }

/-- One whose task 0 runs in lane 31 of a task wave, and its SPAWN or nothing in flight. -/
def runningTask (st : Status) (o : Op) : State :=
  let s := (tasking [(0, { st := .running, wave := some 0, lane := 31 })]).modWave 0 fun x => (x.setLane 31 { st := st, task := some 0 })
  { s with o := { s.o with ops := [(0, { o with wave := 0 })] } }

theorem witness_TaskEvents :
    (∃ (s : State) (p : Part) (parent : Nat), (s.op 0).kind = .spawn ∧ (s.op 0).grid = 0 ∧ (s.op 0).parts[0]? = some p ∧ p.plt = none ∧ (∀ q ∈ (s.op 0).parts.take 0, q.plt.isSome = true) ∧
      s.rebasing = false ∧ (∀ q ∈ (s.op 0).parts, q.hurt = false) ∧ ((s.wave (s.op 0).wave).lane p.lane).task = some parent) ∧
    (∃ s : State, (s.grid 0).paused.contains 255 = true) ∧ (∃ s : State, s.taskWaves 0 255 ≥ (s.grid 0).tslots) ∧ (∃ s : State, s.shuttleRoom 0 255 4 = false) ∧
    (∃ (s : State) (w : Nat), SMap.wf {} (s.grid 0).tasks = true ∧ s.shuttleRoom 0 255 3 = true ∧ (s.grid 0).nextTasks 255 ≠ [] ∧ s.freeWave 255 3 = some w) ∧
    (∃ s : State, ((s.grid 0).task 0).st = .running ∧ ((s.grid 0).task 0).wave = some 0 ∧ ((s.wave 0).lane ((s.grid 0).task 0).lane).task = some 0 ∧
      ((s.wave 0).lane ((s.grid 0).task 0).lane).st = .exited ∧ s.laneQuiet 0 ((s.grid 0).task 0).lane = true) ∧
    (∃ s : State, ((s.grid 0).task 0).st = .running ∧ ((s.grid 0).task 0).wave = some 0 ∧ ((s.wave 0).lane ((s.grid 0).task 0).lane).task = some 0 ∧
      ((s.wave 0).lane ((s.grid 0).task 0).lane).st = .exited ∧ s.laneQuiet 0 ((s.grid 0).task 0).lane = false) ∧
    (∃ s : State, (s.grid 0).front = some 0 ∧ ((s.grid 0).task 0).st ≠ .stopped) ∧
    (∃ (s : State) (w : Nat), (s.grid 0).front = some 0 ∧ ((s.grid 0).task 0).st = .stopped ∧ s.shuttleRoom 0 ((s.grid 0).task 0).core 0 = true ∧ s.freeWave ((s.grid 0).task 0).core 0 = some w ∧ Coherent s) :=
  ⟨⟨runningTask .running { kind := .spawn, parts := [{ lane := 31 }] }, { lane := 31 }, 0, by decide +kernel⟩,
   ⟨(tasking []).modGrid 0 fun g => { g with paused := [255] }, by decide +kernel⟩, ⟨(tasking []).modGrid 0 fun g => { g with tslots := 0 }, by decide +kernel⟩,
   ⟨tasking [], by decide +kernel⟩, ⟨tasking [(0, { st := .queued, core := 255 })], waveKey 255 3 0, by decide +kernel⟩,
   ⟨runningTask .exited {}, by decide +kernel⟩,
   ⟨runningTask .exited { kind := .spawn, parts := [{ lane := 31 }] }, by decide +kernel⟩,
   ⟨tasking [(0, { st := .queued })], by decide +kernel⟩,
   ⟨tasking [(0, { st := .stopped })], waveKey 0 0 1, by decide +kernel, by decide +kernel, by decide +kernel, by decide +kernel, coherent_bare rfl rfl⟩⟩

/-- A finished task at its launch's frontier, with one byte of line 0 in its versions and one event that has performed. -/
def publishing : State :=
  let s := tasking [(0, { st := .finished, versions := [(0, { mask := 1#64, data := 7#512 })] })]
  { s with o := { s.o with ops := [(0, { tids := [(0, 0)], parts := [{ plt := some 1 }] })] } }

/-- A publication is due, for one task launch none of whose tasks is doomed. -/
def publishes (s : State) : Bool :=
  s.sch.cycle % 64 == 0 && s.pk.pub != s.sch.cycle + 1 && !s.rebasing && decide ((s.x.grids.filter fun e => e.2.live && e.2.isTask) = [(0, s.grid 0)] ∧ SMap.wf {} (s.grid 0).tasks = true)

/-- Is an event of task 0 still to perform? -/
def performing (s : State) : Prop :=
  ∃ e ∈ s.o.ops, e.2.wave = ((s.grid 0).task 0).ran ∧ e.2.grid = 0 ∧ e.2.tids.contains (((s.grid 0).task 0).lane, 0) = true ∧ ∃ p ∈ e.2.parts, p.lane = ((s.grid 0).task 0).lane ∧ p.plt = none

theorem witness_Publications :
    (∃ s : State, s.sch.cycle % 64 ≠ 0) ∧
    (∃ s : State, publishes s = true ∧ ((s.grid 0).task 0).doomed = true ∧ ((s.grid 0).task 0).st.live = true) ∧
    (∃ s : State, publishes s = true ∧ (∀ e ∈ (s.grid 0).tasks, e.2.doomed = false) ∧ (s.grid 0).front = some 0 ∧ ((s.grid 0).task 0).st ≠ .finished) ∧
    (∃ (s : State) (v : Version), publishes s = true ∧ (∀ e ∈ (s.grid 0).tasks, e.2.doomed = false) ∧ (s.grid 0).front = some 0 ∧ ((s.grid 0).task 0).st = .finished ∧
      ((s.grid 0).task 0).versions = [(0, v)] ∧ 0 ∈ s.m.hostLines) ∧
    (∃ s : State, publishes s = true ∧ (∀ e ∈ (s.grid 0).tasks, e.2.doomed = false) ∧ (s.grid 0).front = some 0 ∧ ((s.grid 0).task 0).st = .finished ∧ performing s) ∧
    (∃ (s : State) (v : Version), publishes s = true ∧ (∀ e ∈ (s.grid 0).tasks, e.2.doomed = false) ∧ (s.grid 0).front = some 0 ∧ ((s.grid 0).task 0).st = .finished ∧
      ((s.grid 0).task 0).versions = [(0, v)] ∧ 0 ∉ s.m.hostLines ∧ s.provLine 0 = false ∧ s.reg.warm = none ∧
      (∀ e ∈ s.o.ops, e.2.wave = ((s.grid 0).task 0).ran → e.2.grid = 0 → e.2.tids.contains (((s.grid 0).task 0).lane, 0) = true → ∀ q ∈ e.2.parts, q.lane = ((s.grid 0).task 0).lane → q.plt.isSome = true) ∧
      ∀ k, k ≠ 0 → ((s.grid 0).task k).st ≠ .finished) := by
  refine ⟨⟨{ State.reset with sch := { State.reset.sch with cycle := 63 } }, by decide +kernel⟩, ⟨tasking [(0, { st := .queued, doomed := true })], by decide +kernel⟩,
   ⟨tasking [(0, { st := .queued })], by decide +kernel⟩,
   ⟨{ publishing with m := { publishing.m with hostLines := [0] } }, _, by decide +kernel, by decide +kernel, by decide +kernel, by decide +kernel, by rfl, by decide +kernel⟩,
   ⟨{ publishing with o := { publishing.o with ops := [(0, { tids := [(0, 0)], parts := [{}] })] } }, by unfold performing; decide +kernel⟩,
   ⟨publishing, _, by decide +kernel, by decide +kernel, by decide +kernel, by decide +kernel, by rfl, by decide +kernel, by decide +kernel, by decide +kernel, by decide +kernel, fun k hk => ?_⟩⟩
  cases k with
  | zero => exact absurd rfl hk
  | succ k =>
    show (SMap.get ({} : Task) [(0, _)] (k + 1)).st ≠ .finished
    simp [SMap.get]

/-- A state whose operation 1 waits behind an older load of the slot. -/
def behind (s : State) : State :=
  { s with o := { s.o with ops := [(0, { kind := .accld, pos := [(0, 0)], parts := List.replicate 5 { reg := 3 } }), (1, { s.op 0 with pos := [(0, 1)] })] } }

theorem witness_SlotsAreWritten :
    (∃ (s : State) (p : Part), (s.op 0).kind = .accz ∧ (s.op 0).parts[5 * 3]? = some p ∧ 3 < (s.op 0).parts.length / 5 ∧ p.plt = none ∧ p.bound ≠ 1 ∧ s.slotsReady 0 = true ∧
      (s.teamOf (s.op 0).wave).clmPoison = []) ∧
    (∃ (s : State) (p : Part), (s.op 0).kind = .accld ∧ (s.op 0).parts[5 * 0]? = some p ∧ 0 < (s.op 0).parts.length / 5 ∧ p.plt = none ∧ p.bound = 1 ∧ p.hurt = false) ∧
    (∃ (s : State) (p qa qb : Part), (s.op 0).kind = .mma ∧ (s.op 0).atam = false ∧ (s.op 0).parts[5 * 0]? = some p ∧ (s.op 0).parts[5 * 0 + 1]? = some qa ∧ (s.op 0).parts[5 * 0 + 2]? = some qb ∧
      0 < (s.op 0).parts.length / 5 ∧ p.plt = none ∧ p.bound ≠ 1 ∧ s.slotsReady 0 = true ∧ (s.teamOf (s.op 0).wave).clmPoison = [] ∧
      (∀ r ∈ slotGranules p.reg, (s.wave (s.op 0).wave).parity.contains r = false) ∧
      ((s.grid (s.op 0).grid).slot (s.op 0).fmt).sk ≠ 1 ∧ ((s.grid (s.op 0).grid).slot (((s.op 0).fmt + 1) % 8)).sk ≠ 1 ∧ ((s.grid (s.op 0).grid).slot (s.op 0).fmt).map = [] ∧
      ((s.grid (s.op 0).grid).slot (((s.op 0).fmt + 1) % 8)).map = [] ∧ ((s.grid (s.op 0).grid).slot (s.op 0).fmt).fmt = 4 ∧ ((s.grid (s.op 0).grid).slot (((s.op 0).fmt + 1) % 8)).fmt = 3) ∧
    (∃ (s : State) (p : Part), (s.op 1).kind = .accz ∧ (s.op 1).parts[5 * 0]? = some p ∧ 0 < (s.op 1).parts.length / 5 ∧ p.plt = none ∧ p.bound ≠ 1 ∧ s.slotsReady 1 = false) :=
  ⟨⟨flying { kind := .accz, parts := List.replicate 20 {} }, {}, by decide +kernel⟩,
   ⟨flying { kind := .accld, parts := [{ bound := 1 }, {}, {}, {}, {}] }, { bound := 1 }, by decide +kernel⟩,
   ⟨(flying { kind := .mma, parts := List.replicate 5 {}, fmt := 7 }).modGrid 0 fun g => { g with fmts := [{ fmt := 3 }, {}, {}, {}, {}, {}, {}, { fmt := 4 }] }, {}, {}, {}, by decide +kernel⟩,
   ⟨behind (flying { kind := .accz, parts := List.replicate 5 { reg := 3 } }), { reg := 3 }, by decide +kernel⟩⟩

/-- R279: what the statement calls past, of the round r and the team t of a contribution's word. -/
def pastOf (s : State) (c : Contribution) (r t : Nat) : Bool :=
  decide (((s.grid c.grid).ended.contains t = true ∨ ∃ d ∈ (s.grid c.grid).detDone, d.word = c.word ∧ d.round = r ∧ d.team = t) ∧
    ∀ e ∈ s.o.ops, e.2.kind = .accdet → e.2.grid = c.grid → e.2.team = t → ∀ p ∈ e.2.parts, p.pa / 4 = c.word → p.data2 = r → p.plt.isSome = true)

theorem pastOf_iff (s : State) (c : Contribution) (r t : Nat) : pastOf s c r t = true ↔ ((s.grid c.grid).ended.contains t = true ∨ ∃ d ∈ (s.grid c.grid).detDone, d.word = c.word ∧ d.round = r ∧ d.team = t) ∧
    ∀ e ∈ s.o.ops, e.2.kind = .accdet → e.2.grid = c.grid → e.2.team = t → ∀ p ∈ e.2.parts, p.pa / 4 = c.word → p.data2 = r → p.plt.isSome = true :=
  decide_eq_true_iff

/-- A contribution of a team, of two, in a round, that its slice holds, and the contributions that have been applied. -/
def detHeld (n r : Nat) (done : List Contribution) : State :=
  let s := (flying { kind := .accdet, team := n, parts := [{ pa := 0x1003C, size := 4, landed := 1, data2 := r }] }).modGrid 0 fun g => { g with nteams := 2, detDone := done }
  { s with o := { s.o with held := [{ team := n, word := 0x1003C / 4, round := r }] } }

/-- A flush that may go to its slice, one that may not; a contribution that may; one whose turn it is: the first of all, and the first of the second round once both teams
have had theirs of the first; and two before their turn. -/
theorem witness_FlushedElementsAreAdded :
    (∃ (s : State) (p : Part), (s.op 0).kind = .accflush ∧ (s.op 0).parts[256 * 0 + 0]? = some p ∧ p.pa % 64 + 4 ≤ 64 ∧ p.hurt = false ∧ p.rel = .none ∧
      s.differs 0 0 = false ∧ s.flushReady 0 0 = true ∧ s.partReady 0 0 = true ∧ p.landed ≠ 1 ∧ s.provHeld p.pa 4 = false) ∧
    (∃ (s : State) (p : Part), (s.op 0).parts[0]? = some p ∧ p.pa % 64 + 4 ≤ 64 ∧ p.hurt = false ∧ p.rel = .none ∧ s.differs 0 0 = false ∧ s.flushReady 0 0 = false) ∧
    (∃ (s : State) (p : Part), (s.op 0).kind = .accdet ∧ (s.op 0).parts[0]? = some p ∧ p.pa % 64 + 4 ≤ 64 ∧ p.hurt = false ∧ p.rel = .none ∧
      s.differs 0 0 = false ∧ s.flushReady 0 0 = true ∧ p.landed ≠ 1) ∧
    (∀ (n r : Nat) (done : List Contribution), (n, r, done) ∈ [(0, 0, []), (0, 1, [{ word := 0x1003C / 4 }, { team := 1, word := 0x1003C / 4 }]), (1, 0, []), (0, 1, [{ word := 0x1003C / 4 }])] →
      ∃ (s : State) (p : Part) (c : Contribution), c = { team := n, word := 0x1003C / 4, round := r } ∧ (s.op 0).parts[0]? = some p ∧ p.pa % 64 + 4 ≤ 64 ∧ p.hurt = false ∧ p.rel = .none ∧
        s.differs 0 0 = false ∧ s.o.held.find? (fun c => c.op == 0 && c.part == 0) = some c ∧ s.partReady 0 0 = true ∧ s.provHeld p.pa 4 = false ∧ (s.sliceAsks 0 0).all s.askReady = true ∧
        (((∀ t, t < c.team → pastOf s c c.round t = true) ∧ (c.round = 0 ∨ ∀ t, t < (s.grid c.grid).nteams → pastOf s c (c.round - 1) t = true)) ↔ (n = 0 ∧ done.length = 2 * r))) := by
  refine ⟨⟨flying { kind := .accflush, parts := [{ pa := 0x1003C, size := 4 }] }, { pa := 0x1003C, size := 4 }, by decide +kernel⟩,
   ⟨flying { kind := .accflush, parts := [{ pa := 0x1003C, size := 4, plt := some 1 }] }, { pa := 0x1003C, size := 4, plt := some 1 }, by decide +kernel⟩,
   ⟨flying { kind := .accdet, parts := [{ pa := 0x1003C, size := 4 }] }, { pa := 0x1003C, size := 4 }, by decide +kernel⟩, fun n r done h => ?_⟩
  refine ⟨detHeld n r done, { pa := 0x1003C, size := 4, landed := 1, data2 := r }, { team := n, word := 0x1003C / 4, round := r }, rfl, by rfl, (by decide : 0x1003C % 64 + 4 ≤ 64), rfl, rfl, ?_, by rfl, ?_, ?_, ?_, ?_⟩ <;>
  · simp only [List.mem_cons, Prod.mk.injEq, List.not_mem_nil, or_false] at h
    rcases h with h | h | h | h <;> obtain ⟨rfl, rfl, rfl⟩ := h <;> decide +kernel

/-! ### Witnesses: copies, meetings, the checkers, a step -/

/-- The page tables, the context entry and the region of `acceptable`, their page 0 the fifth of memory and writable, one line of which stands in its slice. -/
def tables : SMap Line := SMap.set {} (SMap.set {} acceptable.m.llc 0xC00 (cleanLine [(0, 0x400CE)])) 0x1000 (cleanLine [(0, 0x3F800000)])

/-- A copy of one word by the wave of slot 0, with handle 5 of its team in a state, where its elements, of which one is done or none, lie at address 0. -/
def copying (hs : HState) (c : Copy) : State :=
  let s := (mapped (front (.nop .lane) id)).modTeam 0 fun t => { t with handles := [(5, { st := hs, hlen := 4 })], clm := [(0, 0xFF#8), (1, 0xFF#8), (2, 0x7F#8), (3, 0x7F#8)] }
  { s with o := { s.o with copies := [(0, { c with live := true, members := [0], h := 5, lh := 5, ctl := if c.ctl = 0#32 then 0x0A#32 else c.ctl, dims := [1], boxes := [1], strides := [4] })] } }

/-- That copy in slot 15, its tables in the slices, its launch with a format slot of BF16. -/
def engaged (hs : HState) (c : Copy) : State :=
  let s := (copying hs { c with slot := some 15 }).modGrid 0 fun g => { g with fmts := [{ fmt := 1 }] }
  { s with m := { s.m with llc := tables } }

/-- That copy where page 0 grants nothing. -/
def failing : State := { engaged .filling {} with m := { (engaged .filling {}).m with tlb := [{ core := 0, asid := 0, vpn := 0, frame := 1, a := true }] } }

/-- A copy of two halves of one word, its regions all known to the core. -/
def pairing : State :=
  let s := engaged .filling {}
  { s with o := { s.o with copies := [(0, { s.copy 0 with ctl := 0x09#32, dims := [2], boxes := [2], strides := [2] })] }
           m := { s.m with rgn := (List.range 64).map fun e => { core := 0, asid := 0, e := e, w0 := if e = 0 then 0xA0#64 else 0#64, w1 := 0#64 } } }

/-- An engine's check answers an access of which this holds. -/
def checkIs (r : Chk) (p : Access → Bool) : Bool :=
  match r with
  | .ok a => p a
  | _ => false

theorem checkIs_spec {r : Chk} {p : Access → Bool} (h : checkIs r p = true) : ∃ a, r = .ok a ∧ p a = true := by
  cases r with
  | ok a => exact ⟨a, rfl, h⟩
  | bad f => cases h
  | walk va k => cases h

/-- An access that lies in its line. -/
def inLine (n : Nat) (a : Access) : Bool := decide (a.pa % 64 + n ≤ 64)

/-- The wave of slot 0 at the rendezvous of its COPY, whose record in memory is this, with handle 5 of its team in a state. -/
def atCopy (hs : HState) (a b : List (Nat × Nat)) : State :=
  let s := (mapped (front (.nop .lane) fun x => { x with lanes := (List.range 32).map fun l => (l, { pc := 8#64, st := .waiting (.rdv .set 0 true (.copy false 5 (.s 0) 0 2) 0 true) }) })).modTeam 0 fun t => { t with handles := [(5, { st := hs, hlen := 4 })] }
  { s with m := { s.m with llc := [(0x400, cleanLine a), (0x401, cleanLine b)] } }

/-- The bytes of that record. -/
def recordOf (s : State) : List Byte := (List.range 16).flatMap fun i => leBytes 8 (s.readPa (some 0) (0x10000 + 8 * i) 8).1

/-- The copy it makes. -/
def copyAt (s : State) : Copy :=
  copyOfRecord (recordOf s) { live := true, team := 0, grid := 0, sset := 0, members := [0], pc := 8#64, next := false, h := 5, dir := 0, flags := s.wideFlags (s.arrivals (.set 0 0)) false,
                              order := s.o.next, coords := [(List.range 5).map fun i => ((s.wave 0).sreg (8 * 2 + i)).toInt] }

/-- What the rendezvous of a COPY asks for, as a test. -/
def copyMeets (s : State) : Bool :=
  let as := s.arrivals (.set 0 0)
  as.all (fun k => k.pc == 8#64 && k.op == .copy false 5 (.s 0) 0 2 && k.ok) && decide (as.length = (s.members (.set 0 0)).length) && (s.lvlWaves (.set 0 0)).all (fun e => !s.suspended e.1) &&
  s.fbReady (s.members (.set 0 0)) && (s.wideParity 0 as (.copy false 5 (.s 0) 0 2)).isNone && !s.flagsFull (s.wideFlags as false) && !s.windowFull 0 && decide (s.teamKey 0 = 0 ∧ s.setWaves 0 0 = [0]) &&
  (s.passAsks (s.recordAsks (s.recordOp 0 0 8#64 (s.recordVa 0 0 (.s 0))))).1 &&
  (List.range 16).all fun i => (match s.check (s.agentOf 0) .load (s.recordVa 0 0 (.s 0) + BitVec.ofNat 64 (8 * i)) 8 with | .ok k => k.pa == 0x10000 + 8 * i | _ => false) &&
    !(s.readPa (some 0) (0x10000 + 8 * i) 8).2

/-- A copy whose handle is not long enough, one whose handle is full, one that may take a slot, of each direction; a transfer that fails and one that does not; its elements, in and
out of bounds, of each direction, and those of a converting store; one that is done and one that is not.  A COPY at its rendezvous whose record is refused for its shape, its handle,
its bounds, its address, and one whose record is accepted. -/
theorem witness_CopyEvents :
    (∃ (s : State) (c : Copy), c = s.copy 0 ∧ c.live = true ∧ c.slot = none ∧ c.failed = false ∧ s.copyReady c = true ∧ s.copyFirst 0 = true ∧ (s.freeSlot (c.team / 8)).isSome = true ∧
      s.copyHandlesOk c = false) ∧
    (∃ (s : State) (c : Copy), c = s.copy 0 ∧ c.live = true ∧ c.slot = none ∧ c.failed = false ∧ s.copyHandlesOk c = true ∧ s.copyReady c = false) ∧
    (∀ d hs, (d, hs) ∈ [(0, HState.free), (1, .full), (3, .full)] → ∃ (s : State) (c : Copy) (k : Nat), c = s.copy 0 ∧ c.live = true ∧ c.slot = none ∧ c.failed = false ∧ s.copyHandlesOk c = true ∧
      s.copyReady c = true ∧ s.copyFirst 0 = true ∧ s.freeSlot (c.team / 8) = some k ∧ c.dir = d ∧ c.members.Nodup ∧ c.flags.Nodup ∧ c.odd = false ∧
      s.windowLacks (c.team / 8) (2 * ((s.slotWaiters 0).map fun e => e.1).eraseDups.length) = false ∧ ∀ w ∈ c.members, quiet s w) ∧
    (∃ (s : State) (c : Copy) (f : FaultInfo), c = s.copy 0 ∧ c.live = true ∧ c.slot = some 15 ∧ c.stopped = false ∧ c.moved < c.total ∧ s.movesNow 0 = 0 ∧ s.stepFault 0 0 = some f) ∧
    (∃ (s : State) (c : Copy), c = s.copy 0 ∧ c.live = true ∧ c.slot.isSome = true ∧ s.movesNow 0 ≠ 0) ∧
    (∃ (s : State) (c : Copy), c = s.copy 0 ∧ c.live = true ∧ c.slot.isSome = true ∧ c.stopped = false ∧ c.moved < c.total ∧ (s.accessSteps 0).findSome? (s.stepWalk 0) = none ∧ s.elemReady 0 = false) ∧
    (∃ (s : State) (c : Copy) (va : DWord) (need : Need), c = s.copy 0 ∧ c.live = true ∧ c.slot.isSome = true ∧ c.stopped = false ∧ c.moved < c.total ∧
      (s.accessSteps 0).findSome? (s.stepWalk 0) = some (va, need)) ∧
    (∀ d ctl co, (d, ctl, co) ∈ [(0, 0x0A, 0), (0, 0x0A, 1), (1, 0x0A, 0), (1, 0x0A, 1), (1, 0x89, 0), (2, 0x0A, 0), (3, 0x0A, 0), (3, 0x0A, 1)] → ∃ (s : State) (c : Copy), c = s.copy 0 ∧ c.live = true ∧
      c.slot.isSome = true ∧ c.stopped = false ∧ c.dir = d ∧ c.ctl = BitVec.ofNat 32 ctl ∧ c.moved < c.total ∧ (s.accessSteps 0).findSome? (s.stepWalk 0) = none ∧ s.elemReady 0 = true ∧
      s.movesNow 0 = 1 ∧ s.copyO4 c = false ∧ c.ahead = [] ∧ (c.inBounds c.moved = true ↔ co = 0) ∧
      (c.dir ≠ 2 → c.inBounds c.moved = true → ∃ a, s.useChk 0 (s.elemAddr c c.moved, c.esz, c.dir != 0) = .ok a ∧ inLine c.esz a = true) ∧
      (c.dir = 1 → c.cvt = true → (s.copyFmt c).sk ≠ 1 ∧ (s.team c.team).clmPoison = [] ∧
        (storeElem (s.copyFmt c) (BitVec.ofNat 32 ((s.team c.team).readClm (((s.team c.team).handle c.lh).hb + c.hsz * c.moved) c.hsz).1) 0#32 none).2 = true)) ∧
    (∃ (s : State) (c : Copy), c = s.copy 0 ∧ c.live = true ∧ c.slot.isSome = true ∧ c.stopped = false ∧ c.moved < c.total ∧ (s.accessSteps 0).findSome? (s.stepWalk 0) = none ∧ s.elemReady 0 = true ∧
      s.movesNow 0 = 2 ∧ c.dir = 0 ∧ c.ahead = [] ∧ (∀ i, i < 2 → c.inBounds (c.moved + i) = true ∧ ∃ a, s.useChk 0 (s.elemAddr c (c.moved + i), c.esz, false) = .ok a ∧ inLine c.esz a = true) ∧
      ∀ e, e < 64 → ∃ r ∈ s.m.rgn, r.core = c.team / 8 ∧ r.asid = (s.grid c.grid).asid ∧ r.e = e) ∧
    (∀ d, d < 4 → ∃ (s : State) (c : Copy), c = s.copy 0 ∧ c.live = true ∧ c.slot.isSome = true ∧ c.total ≤ c.moved ∧ c.dir = d) ∧
    (∀ n hs a b, (n, hs, a, b) ∈ [(0, HState.free, [(8, 0x0A), (0x18, 1), (0x2C, 1)], [(0, 4)]), (1, .free, [], []), (2, .unbound, [(8, 0x0A), (0x18, 1), (0x2C, 1)], [(0, 4)]),
        (3, .free, [(8, 0x0A), (0x2C, 1)], [(0, 4)]), (4, .free, [(7, 0x40), (8, 0x4A), (0x18, 1), (0x2C, 1)], [(0, 4)])] →
      ∃ (s : State) (c : Copy), c = copyAt s ∧ (s.arrivals (.set 0 0)).find? (fun k => k.act) = some ⟨0, 0, 8#64, true, .copy false 5 (.s 0) 0 2, 0, true⟩ ∧ copyMeets s = true ∧
        (shapeRefused (recordOf s) c ((s.grid c.grid).slot (c.ctl.toNat / 2 ^ 8 % 8)) ↔ n = 1) ∧ (s.copyHandlesOk c = false ↔ n = 2) ∧ (leavesBounds c 0 0 ↔ n = 3) ∧
        (n = 4 → c.ctl.getLsbD 6 = true ∧ s.badAddr c = some 0) ∧ (n = 0 → s.badAddr c = none ∧ c.members.length = 1 ∧ c.ctl.toNat / 8 % 8 = 1)) := by
  refine ⟨⟨(copying .free {}).modTeam 0 fun t => { t with handles := [(5, { st := .free, hlen := 3 })] }, _, rfl, by decide +kernel⟩, ⟨copying .full {}, _, rfl, by decide +kernel⟩,
   fun d hs h => ⟨copying hs { dir := d }, _, 0, rfl, ?_⟩,
   ⟨failing, _, _, rfl, by decide +kernel, by decide +kernel, by decide +kernel, by decide +kernel, by decide +kernel, by rfl⟩, ⟨engaged .filling {}, _, rfl, by decide +kernel⟩,
   ⟨{ engaged .filling {} with reg := { (engaged .filling {}).reg with warm := some {} } }, _, rfl, by decide +kernel⟩,
   ⟨{ engaged .filling {} with m := { (engaged .filling {}).m with tlb := [] } }, _, _, _, rfl, by decide +kernel, by decide +kernel, by decide +kernel, by decide +kernel, by rfl⟩,
   fun d ctl co h => ⟨engaged .filling { dir := d, ctl := BitVec.ofNat 32 ctl, coords := [[co]] }, _, rfl, ?_⟩,
   ⟨pairing, _, rfl, by decide +kernel, by decide +kernel, by decide +kernel, by decide +kernel, by decide +kernel, by decide +kernel, by decide +kernel, by decide +kernel, by decide +kernel,
     fun i hi => ⟨?_, checkIs_spec ?_⟩, by decide +kernel⟩, fun d hd => ⟨copying .filling { slot := some 0, moved := 1, dir := d }, _, rfl, ?_⟩,
   fun n hs a b h => ⟨atCopy hs a b, _, rfl, ?_⟩⟩
  · simp only [List.mem_cons, Prod.mk.injEq, List.not_mem_nil, or_false] at h
    rcases h with ⟨rfl, rfl⟩ | ⟨rfl, rfl⟩ | ⟨rfl, rfl⟩ <;> unfold quiet <;> decide +kernel
  · simp only [List.mem_cons, Prod.mk.injEq, List.not_mem_nil, or_false] at h
    rcases h with h | h | h | h | h | h | h | h <;> obtain ⟨rfl, rfl, rfl⟩ := h <;>
    refine ⟨by decide +kernel, by decide +kernel, by decide +kernel, by decide +kernel, by decide +kernel, by decide +kernel, by decide +kernel, by decide +kernel, by decide +kernel, by decide +kernel,
      by decide +kernel, by decide +kernel, fun _ _ => checkIs_spec ?_, by decide +kernel⟩
    all_goals decide +kernel
  · interval_cases i <;> decide +kernel
  · interval_cases i <;> decide +kernel
  · interval_cases d <;> decide +kernel
  · simp only [List.mem_cons, Prod.mk.injEq, List.not_mem_nil, or_false] at h
    rcases h with h | h | h | h | h <;> obtain ⟨rfl, rfl, rfl, rfl⟩ := h <;>
    refine ⟨by decide +kernel, by decide +kernel, by unfold shapeRefused; decide +kernel, by decide +kernel, by unfold leavesBounds; decide +kernel, by decide +kernel, by decide +kernel⟩

/-- The wave in slot 0 with every lane waiting at one place. -/
def waiting (w : Wait) : State :=
  front (.nop .lane) fun x => { x with lanes := (List.range 32).map fun l => (l, { pc := 8#64, st := .waiting w }) }

/-- A route 7 that expects n arrivals of core 0, of which some have been made, and an ARRIVE of the wave in slot 0. -/
def arriving (n a : Nat) : State :=
  let s := flying { kind := .arrive 7, cls := .rl, parts := [{}] }
  s.setRoute 7 { counts := [(0, n)], arrived := if a = 0 then [] else [(0, a)] }

/-- Two lanes, each waiting at a join for the other. -/
def crossed : State :=
  front (.nop .lane) fun x => { (x.setJoin 0 { expect := 3#32 }).setJoin 1 { expect := 3#32 } with
    lanes := [(0, { pc := 8#64, st := .waiting (.join 0) }), (1, { pc := 8#64, st := .waiting (.join 1) })] }

/-- Two lanes, one waiting for its team and the other, at a higher address, for its wave. -/
def mixed : State :=
  (front (.nop .lane) fun x => { x with
    lanes := [(0, { pc := 8#64, st := .waiting (.rdv .team 0 true .nop 0 false) }), (1, { pc := 12#64, st := .waiting (.rdv .wave 0 true .nop 0 false) })] }).modGrid 0 fun g =>
      { g with trapvec := 0x1000#64 }

theorem mixed_setB : mixed.setB 0 =
    [{ join := none, lvl := some (.team 0, 8#64), waiting := [(0, 0)], need := [(0, 1)] }, { join := none, lvl := some (.tile 0 0, 12#64), waiting := [(0, 1)], need := [(0, 0)] }] := by
  decide +kernel

/-- A wave whose lanes wait at a WAITB of route 7, of which it has counted its first phase and so many are visible; suspended or not. -/
def atPhase (n : Nat) (sp : Bool) : State :=
  let s := ((waiting (.waitb 7)).modWave 0 fun x => { x with routes := [(7, { outstanding := true, counted := true })] }).setRoute 7 { visible := n }
  { s with x := { s.x with groups := if sp then [{ waves := [0] }] else [] } }

/-- Two lanes of a wave, each waiting for the whole wave, the second, which has arrived this cycle, at a higher address. -/
def parted : State :=
  let s := (front (.nop .lane) fun x => { x with
    lanes := [(0, { pc := 8#64, st := .waiting (.rdv .wave 0 true .nop 0 false) }), (1, { pc := 12#64, st := .waiting (.rdv .wave 0 true .nop 1 false) })] }).modGrid 0 fun g =>
      { g with trapvec := 0x1000#64 }
  { s with sch := { s.sch with cycle := 1 } }

/-- The wave of slot 0 with SATF set at a TEAM rendezvous that all have reached, SATCTL armed. -/
def armed : State :=
  ((waiting (.rdv .team 0 true .nop 0 false)).modWave 0 fun x => { x with satf := true }).modTeam 0 (fun t => { t with satctl := true }) |>.modGrid 0 fun g => { g with trapvec := 0x1000#64 }

/-- An arrival at another address than a later one; the arrival that stays; what RDVMIX asks for. -/
theorem witness_MeetingEvents_dissolved : ∃ (s : State) (v : Lvl) (a b : Arr), s.arrivals v = [a, b] ∧ a.pc ≠ b.pc ∧ a.ord < b.ord ∧ s.fresh b = true ∧ s.dissolved v = [a] ∧ a.w = 0 ∧ a.l = 0 ∧
    0 ∈ (s.team 0).waves ∧ (s.team 0).waves.Nodup ∧ (∀ k ∈ s.dissolved v, k.w = 0 → a.pc ≤ k.pc) ∧ (∀ l, hasLane 1#32 l = true ↔ ∃ k ∈ s.dissolved v, k.w = 0 ∧ k.l = l ∧ k.pc = a.pc) ∧
    (s.wave 0).hmode = false ∧ (s.wave 0).taskWave = false ∧ s.suspended 0 = false ∧ (s.gridOf 0).trapvec ≠ 0#64 := by
  have hd : parted.dissolved (.tile 0 0) = [⟨0, 0, 8#64, true, .nop, 0, false⟩] := by decide +kernel
  refine ⟨parted, .tile 0 0, _, ⟨0, 1, 12#64, true, .nop, 1, false⟩, by decide +kernel, by decide, by decide, by decide +kernel, hd, rfl, rfl, by decide +kernel, by decide +kernel, ?_, fun l => ?_, by decide +kernel⟩
  · rw [hd]; decide
  · rw [hd]
    unfold hasLane
    rw [BitVec.getLsbD_one]
    simp [eq_comm]

/-- An arrival of an earlier cycle that RDVMIX had been put off for. -/
theorem witness_MeetingEvents_left : ∃ (s : State) (v : Lvl) (a b : Arr), s.arrivals v = [a, b] ∧ a.pc ≠ b.pc ∧ a.ord < b.ord ∧ s.fresh b = false ∧ hasLane (s.wave a.w).left a.l = true :=
  ⟨let s := parted.modWave 0 fun x => { x with left := 1#32 }; { s with sch := { s.sch with cycle := 9 } }, .tile 0 0, ⟨0, 0, 8#64, true, .nop, 0, false⟩, ⟨0, 1, 12#64, true, .nop, 1, false⟩,
    by decide +kernel⟩

/-- What SATARM asks for. -/
theorem witness_MeetingEvents_satarm : ∃ s : State, s.arrivals (.team 0) ≠ [] ∧ (∀ a ∈ s.arrivals (.team 0), a.pc = 8#64) ∧ (s.arrivals (.team 0)).length = (s.members (.team 0)).length ∧
    (∀ e ∈ s.lvlWaves (.team 0), s.suspended e.1 = false) ∧ (∃ a ∈ s.arrivals (.team 0), a.ok = false) ∧ (s.team 0).satctl = true ∧ (s.team 0).waves.Nodup ∧
    ∃ w ∈ (s.team 0).waves, (s.wave w).satf = true ∧ (s.wave w).live ≠ 0#32 ∧ (s.wave w).hmode = false ∧ (s.gridOf w).trapvec ≠ 0#64 :=
  ⟨armed, by decide +kernel⟩

theorem witness_MeetingEvents :
    (∃ (s : State) (h : Nat), (s.op 0).kind = .mark h ∧ s.partReady 0 0 = true) ∧
    (∃ (s : State) (h : Nat), (s.op 0).kind = .mark h ∧ s.partReady 0 0 = false) ∧
    (∀ r, ∃ (s : State) (b : Bundle) (h : Nat), (s.wave 0).bundleOf 31 = some b ∧ ((s.wave 0).lane 31).st = .waiting (.hwait h true true true) ∧ s.acquireReady 0 b.lanes .core = r) ∧
    (∃ (s : State) (b : Bundle) (h : Nat), (s.wave 0).bundleOf 31 = some b ∧ ((s.wave 0).lane 31).st = .waiting (.hwait h true true true) ∧ s.acquireReady 0 b.lanes .core = true ∧ s.windowFull (coreOf 0) = false ∧ quiet s 0) ∧
    (∃ s : State, (s.op 0).kind = .arrive 7 ∧ s.partReady 0 0 = false) ∧ (∃ s : State, (s.op 0).kind = .arrive 7 ∧ s.relsBefore (s.op 0) = false) ∧
    (∃ s : State, (s.op 0).kind = .arrive 7 ∧ s.partReady 0 0 = true ∧ s.relsBefore (s.op 0) = true ∧ s.latestArrive (s.op 0) 7 = false) ∧
    (∃ s : State, (s.op 0).kind = .arrive 7 ∧ s.partReady 0 0 = true ∧ s.relsBefore (s.op 0) = true ∧ s.latestArrive (s.op 0) 7 = true ∧
      SMap.get 0 (s.route 7).counts (s.op 0).core ≤ SMap.get 0 (s.route 7).arrived (s.op 0).core) ∧
    (∃ s : State, (s.op 0).kind = .arrive 7 ∧ s.partReady 0 0 = true ∧ s.relsBefore (s.op 0) = true ∧ SMap.get 0 (s.route 7).arrived (s.op 0).core < SMap.get 0 (s.route 7).counts (s.op 0).core ∧
      ∃ e ∈ (s.route 7).counts, SMap.get 0 (SMap.set 0 (s.route 7).arrived (s.op 0).core (SMap.get 0 (s.route 7).arrived (s.op 0).core + 1)) e.1 < e.2) ∧
    (∃ s : State, (s.op 0).kind = .arrive 7 ∧ s.partReady 0 0 = true ∧ s.relsBefore (s.op 0) = true ∧ SMap.get 0 (s.route 7).arrived (s.op 0).core < SMap.get 0 (s.route 7).counts (s.op 0).core ∧
      (∀ e ∈ (s.route 7).counts, e.2 ≤ SMap.get 0 (SMap.set 0 (s.route 7).arrived (s.op 0).core (SMap.get 0 (s.route 7).arrived (s.op 0).core + 1)) e.1) ∧ ∀ k, SMap.get 0 (s.route 7).ahead k = 0) ∧
    (∀ n sp, n < 2 → ∃ s : State, (∀ w, quiet s w) ∧ s.maxClock + 8 * s.x.waves.length < 2 ^ 47 ∧ ((s.wave 0).lane 31).st = .waiting (.waitb 7) ∧ s.suspended 0 = sp ∧ ((s.wave 0).routeRec 7).outstanding = true ∧
      ((s.wave 0).routeRec 7).counted = true ∧ ((s.wave 0).routeRec 7).seq + n = (s.route 7).visible ∧ (s.route 7).doneAt = []) ∧
    (∃ s : State, s.setB 0 = []) ∧ (∃ s : State, ∃ p ∈ s.setB 0, p.join.isSome = true) ∧
    (∃ (s : State) (b : List Pend) (m : Mask), b = s.setB 0 ∧ (∀ p ∈ b, p.join = none) ∧ (s.team 0).waves.Nodup ∧ (∀ w ∈ (s.team 0).waves, ∀ m, Plain s w m) ∧ 0 ∈ (s.team 0).waves ∧
      (∃ p ∈ b, ∃ v, p.lvl = some (v, 8#64) ∧ ∃ l, (0, l) ∈ p.waiting) ∧ (∀ p ∈ b, ∀ v k l, p.lvl = some (v, k) → (0, l) ∈ p.waiting → 8#64 ≤ k) ∧
      (∀ l, hasLane m l = true ↔ ∃ p ∈ b, ∃ v, p.lvl = some (v, 8#64) ∧ (0, l) ∈ p.waiting) ∧ (s.wave 0).hmode = false ∧ s.suspended 0 = false ∧ (s.gridOf 0).trapvec ≠ 0#64) := by
  refine ⟨⟨flying { kind := .mark 5, parts := [{}] }, 5, by decide +kernel⟩, ⟨flying { kind := .mark 5, parts := [{ plt := some 1 }] }, 5, by decide +kernel⟩,
   fun r => ⟨{ waiting (.hwait 5 true true true) with o := { ops := if r then [] else [(0, { cls := .aq, pos := [(0, 0xFFFFFFFF)], parts := [{ lanes := allLanes }] })] } },
     { lanes := allLanes, phase := .body, cl := { hdr := 0#64, word := 0x80000010#32, act := allLanes, code := [0#32] } }, 5, by cases r <;> decide +kernel⟩,
   ⟨waiting (.hwait 5 true true true), { lanes := allLanes, phase := .body, cl := { hdr := 0#64, word := 0x80000010#32, act := allLanes, code := [0#32] } }, 5, by decide +kernel, by decide +kernel, by decide +kernel, by decide +kernel, by unfold quiet; decide +kernel⟩,
   ⟨(arriving 1 1).setOp 0 { (arriving 1 1).op 0 with parts := [{ plt := some 1 }] }, by decide +kernel⟩,
   ⟨(arriving 1 1).setOp 1 { (arriving 1 1).op 0 with pos := [(0, 0xFFFFFFFF)] }, by decide +kernel⟩, ⟨(arriving 1 1).setOp 1 { (arriving 1 1).op 0 with pos := [(0, 1)] }, by decide +kernel⟩,
   ⟨arriving 1 1, by decide +kernel⟩, ⟨arriving 64 62, by decide +kernel⟩,
   ⟨arriving 64 63, by decide +kernel, by decide +kernel, by decide +kernel, by decide +kernel, by decide +kernel, fun _ => rfl⟩,
   fun n sp hn => ⟨atPhase n sp, ?_, ?_⟩,
   ⟨State.reset, by decide +kernel⟩, ⟨crossed, by decide +kernel⟩, ⟨mixed, _, 1#32, mixed_setB.symm, by decide +kernel, by decide +kernel, ?_, by decide +kernel, ⟨_, List.mem_cons_self, _, rfl, 0, by decide +kernel⟩, ?_, ?_, by decide +kernel⟩⟩
  · exact fun w e he => absurd he List.not_mem_nil
  · cases sp <;> interval_cases n <;> decide +kernel
  · intro w hw m
    obtain rfl : w = 0 := by simpa using (show w ∈ [0] from hw)
    rfl
  · intro p hp v k l h1 _
    simp only [List.mem_cons, List.not_mem_nil, or_false] at hp
    rcases hp with rfl | rfl <;> cases h1 <;> decide
  · intro l
    have h : hasLane 1#32 l = true ↔ l = 0 := by
      unfold hasLane
      rw [BitVec.getLsbD_one]
      simp
    simp [h]

/-- The lanes of the wave of slot 0, active or not, at the rendezvous of a scope for a word, which the check of R110 has passed. -/
def meeting (sc : Scope) (act : Bool) (op : LOp) : State :=
  mapped (front (.nop .lane) fun x => { x with lanes := (List.range 32).map fun l => (l, { pc := 8#64, st := .waiting (.rdv sc 0 act op 0 true) }) })

/-- The level of that rendezvous. -/
def levelOf : Scope → Lvl
  | .set => .set 0 0
  | .team => .team 0
  | _ => .tile 0 0

/-- What a rendezvous asks for, as a test. -/
def meets (s : State) (v : Lvl) (op : LOp) : Bool :=
  let as := s.arrivals v
  as.all (fun a => a.pc == 8#64 && a.op == op && a.ok) && decide (as ≠ [] ∧ as.length = (s.members v).length ∧ (s.members v).Nodup) && (s.lvlWaves v).all (fun e => !s.suspended e.1) &&
  (s.satArmed v).isEmpty && s.fbReady (s.members v) && as.all fun a => !a.act || (granules (1#32 <<< a.l) (op.regs false)).all fun r => !(s.wave a.w).parity.contains r

theorem meets_spec {s : State} {v : Lvl} {op : LOp} (h : meets s v op = true) :
    (∀ a ∈ s.arrivals v, a.pc = 8#64 ∧ a.op = op ∧ a.ok = true) ∧ s.arrivals v ≠ [] ∧ (s.arrivals v).length = (s.members v).length ∧ (s.members v).Nodup ∧ (∀ e ∈ s.lvlWaves v, s.suspended e.1 = false) ∧
      s.satArmed v = [] ∧ s.fbReady (s.members v) = true ∧ ∀ a ∈ s.arrivals v, a.act = true → ∀ r ∈ granules (1#32 <<< a.l) (op.regs false), (s.wave a.w).parity.contains r = false := by
  simp only [meets, Bool.and_eq_true, decide_eq_true_eq, List.all_eq_true, beq_iff_eq, Bool.not_eq_true', List.isEmpty_iff, Bool.or_eq_true] at h
  obtain ⟨⟨⟨⟨⟨h1, h2, h3, h4⟩, h5⟩, h6⟩, h7⟩, h8⟩ := h
  exact ⟨fun a ha => ⟨(h1 a ha).1.1, (h1 a ha).1.2, (h1 a ha).2⟩, h2, h3, h4, h5, h6, h7, fun a ha hact r hr => (h8 a ha).elim (fun h => by simp [h] at hact) fun h => h r hr⟩

/-- Every group of 32 lanes has a value of its tree (the cumulative weights of SAMPLE). -/
theorem witness_RendezvousCompletes_groups (f : Word → Word → Word) (unit : Word) (x : Nat → Word) : ∃ r, GroupValue False 32 f unit x r :=
  ⟨treeOf f 5 x, fun m _ h => by
    have : m = 5 := (Nat.pow_right_injective (le_refl 2) (by simpa using h)).symm
    rw [this], fun _ _ h => h.elim⟩

/-- A load of memory and one of the team memory at WAVE, SET and TEAM scope: with no lane active, one that reaches its word, and one past the team's scratch. -/
theorem witness_RendezvousCompletes_memory : ∀ sc act m, sc ∈ [Scope.wave, .set, .team] → m ∈ [MemL.ld 4 false 5 6 255, .lds 16 124 6 255, .sts 4 5 6 1024] →
    ∃ (s : State) (v : Lvl) (ld : Arr) (c : Cx), (∀ a ∈ s.arrivals v, a.pc = 8#64 ∧ a.op = .mem m ∧ a.ok = true) ∧ s.arrivals v ≠ [] ∧ (s.arrivals v).length = (s.members v).length ∧ (s.members v).Nodup ∧
      (∀ e ∈ s.lvlWaves v, s.suspended e.1 = false) ∧ s.fbReady (s.members v) = true ∧ s.wideParity 0 (s.arrivals v) (.mem m) = none ∧ (act = false → ∀ a ∈ s.arrivals v, a.act = false) ∧
      (act = true → (s.arrivals v).find? (fun a => a.act) = some ld) ∧ c = { w := ld.w, x := s.wave ld.w, b := s.arrBundle ld, pc := 8#64, act := 1#32 <<< ld.l, g := s.gridOf ld.w } ∧
      (s.wave ld.w).taskWave = false ∧ (∀ a ∈ s.arrivals v, (s.wave a.w).flag (((s.wave a.w).clauseOf a.l).flagFor m.isLoad) < 255) ∧ s.windowLacks (coreOf ld.w) ((s.arrivals v).map fun a => a.w).eraseDups.length = false ∧
      (m = .ld 4 false 5 6 255 → reaches s c ld.l m false 0x103FC 4) ∧ (m = .lds 16 124 6 255 → reaches s c ld.l m true 4080 16) ∧
      (m = .sts 4 5 6 1024 → ∃ f, s.chkLane c m ld.l = .bad f) := by
  intro sc act m hsc hm
  have h : meets (meeting sc act (.mem m)) (levelOf sc) (.mem m) = true ∧ (meeting sc act (.mem m)).wideParity 0 ((meeting sc act (.mem m)).arrivals (levelOf sc)) (.mem m) = none ∧
      (act = false → ∀ a ∈ (meeting sc act (.mem m)).arrivals (levelOf sc), a.act = false) ∧
      (act = true → ((meeting sc act (.mem m)).arrivals (levelOf sc)).find? (fun a => a.act) = some ⟨0, 0, 8#64, true, .mem m, 0, true⟩) ∧ ((meeting sc act (.mem m)).wave 0).taskWave = false ∧
      (∀ a ∈ (meeting sc act (.mem m)).arrivals (levelOf sc), ((meeting sc act (.mem m)).wave a.w).flag ((((meeting sc act (.mem m)).wave a.w).clauseOf a.l).flagFor m.isLoad) < 255) ∧
      (meeting sc act (.mem m)).windowLacks 0 (((meeting sc act (.mem m)).arrivals (levelOf sc)).map fun a => a.w).eraseDups.length = false := by
    simp only [List.mem_cons, List.not_mem_nil, or_false] at hsc hm
    cases act <;> rcases hsc with rfl | rfl | rfl <;> rcases hm with rfl | rfl | rfl <;> decide +kernel
  obtain ⟨h1, h2, h3, h4, h5, -, h7, -⟩ := meets_spec h.1
  refine ⟨meeting sc act (.mem m), levelOf sc, ⟨0, 0, 8#64, true, .mem m, 0, true⟩, _, h1, h2, h3, h4, h5, h7, h.2.1, h.2.2.1, h.2.2.2.1, rfl, h.2.2.2.2.1, h.2.2.2.2.2.1, h.2.2.2.2.2.2, ?_, ?_, ?_⟩
  · rintro rfl
    refine ⟨rfl, rfl, { va := 1020#64, pa := 0x103FC }, ?_, rfl⟩
    simp only [List.mem_cons, List.not_mem_nil, or_false] at hsc
    cases act <;> rcases hsc with rfl | rfl | rfl <;> decide +kernel
  · rintro rfl
    unfold reaches inScratch
    simp only [List.mem_cons, List.not_mem_nil, or_false] at hsc
    cases act <;> rcases hsc with rfl | rfl | rfl <;> decide +kernel
  · rintro rfl
    refine ⟨{ code := 0x11, reason := 4, addr := 4096 }, ?_⟩
    simp only [List.mem_cons, List.not_mem_nil, or_false] at hsc
    cases act <;> rcases hsc with rfl | rfl | rfl <;> decide +kernel

/-- Every collective and a computation word at WAVE scope, BALLOT at SET scope, with every lane of the wave and with none of them active. -/
theorem witness_RendezvousCompletes : ∀ sc act op, (sc, op) ∈ (Scope.set, LOp.coll (.ballot 5 47)) :: ([.alu .add 5 (.v 3) (.reg 4), .coll (.shfl 5 (.v 3) 4), .coll (.shfli 5 (.v 3) 31), .coll (.put 5 (.v 3) 4),
      .coll (.bcast 5 (.v 3) 4), .coll (.bcasti 5 (.v 3) 31), .coll (.vote true 5 47), .coll (.ballot 5 47), .coll (.red 5 (.v 3) 2 0), .coll (.red 5 (.v 3) 1 0), .coll (.scan 5 (.v 3) true 0 2),
      .coll (.matchrank 5 (.v 3)), .coll (.histo 5 (.v 3)), .coll (.sample 5 (.v 3) 4)].map fun op => (Scope.wave, op)) →
    ∃ (s : State) (v : Lvl) (places : List (Nat × Nat)), (∀ a ∈ s.arrivals v, a.pc = 8#64 ∧ a.op = op ∧ a.ok = true) ∧ s.arrivals v ≠ [] ∧ (∀ a ∈ s.arrivals v, a.act = act) ∧
      (s.arrivals v).length = (s.members v).length ∧ (∀ e ∈ s.lvlWaves v, s.suspended e.1 = false) ∧ s.satArmed v = [] ∧ s.fbReady (s.members v) = true ∧
      (∀ a ∈ s.arrivals v, a.act = true → ∀ r ∈ granules (1#32 <<< a.l) (op.regs false), (s.wave a.w).parity.contains r = false) ∧
      places = (s.lvlWaves v).flatMap (fun e => (lanesOf e.2).map fun l => (e.1, l)) ∧ places.Nodup ∧ places.length = 32 * 1 ∧ (computes op = true ∨ ∃ c, op = .coll c) := by
  intro sc act op h
  have hm : meets (meeting sc act op) (levelOf sc) op = true ∧ (∀ a ∈ (meeting sc act op).arrivals (levelOf sc), a.act = act) ∧
      (((meeting sc act op).lvlWaves (levelOf sc)).flatMap fun e => (lanesOf e.2).map fun l => (e.1, l)).Nodup ∧
      (((meeting sc act op).lvlWaves (levelOf sc)).flatMap fun e => (lanesOf e.2).map fun l => (e.1, l)).length = 32 * 1 := by
    simp only [List.map_cons, List.map_nil, List.mem_cons, Prod.mk.injEq, List.not_mem_nil, or_false] at h
    cases act <;> rcases h with h | h | h | h | h | h | h | h | h | h | h | h | h | h | h <;> obtain ⟨rfl, rfl⟩ := h <;> decide +kernel
  obtain ⟨h1, h2, h3, -, h5, h6, h7, h8⟩ := meets_spec hm.1
  refine ⟨meeting sc act op, levelOf sc, _, h1, h2, hm.2.1, h3, h5, h6, h7, h8, rfl, hm.2.2.1, hm.2.2.2, ?_⟩
  revert h
  simp only [List.map_cons, List.map_nil, List.mem_cons, Prod.mk.injEq, List.not_mem_nil, or_false]
  rintro (h | h | h | h | h | h | h | h | h | h | h | h | h | h | h) <;> obtain ⟨-, rfl⟩ := h <;>
    simp [computes]

/-- A record on its way and one received, of the same line and other holders. -/
def received (v h : Interval) : State := { State.reset with m := { State.reset.m with intervals := [v], history := [h] } }

/-- A record whose line has no home; one that is waiting, one that an earlier one of its line keeps waiting; one with no violation; and one with each kind: it meets a writer, its start is not
its predecessor's end, it is read-only and changes, and the same of one that it becomes the predecessor of.  Clocks below, at and far above 2^47, with and without launches. -/
theorem witness_CheckerEvents :
    (∃ s : State, s.m.intervals[7]? = none) ∧ (∃ (s : State) (v : Interval), s.m.intervals[0]? = some v ∧ s.homeSlice v.line = none) ∧
    (∃ (s : State) (v : Interval) (k : Nat), s.m.intervals[0]? = some v ∧ s.homeSlice v.line = some k ∧ k < 2 ^ 16 ∧ v.waiting = true) ∧
    (∃ (s : State) (v : Interval) (k : Nat), s.m.intervals[1]? = some v ∧ s.homeSlice v.line = some k ∧ k < 2 ^ 16 ∧ v.waiting = false ∧ (∃ h ∈ s.m.intervals.take 1, h.line = v.line) ∧
      ∀ h ∈ s.m.intervals.take 1, h.line = v.line → h.waiting = false) ∧
    (∀ n v h, (n, v, h) ∈ ([(0, { start := 6, fin := 9, sw := true, holder := 1 }, { start := 1, fin := 5, sw := true }), (1, { start := 5, fin := 9, holder := 1 }, { start := 1, fin := 5, sw := true }),
        (1, { start := 6, fin := 9, holder := 1, hstart := 1#64, hend := 1#64 }, { start := 1, fin := 5, sw := true }), (1, { start := 6, fin := 9, hend := 1#64 }, { start := 6, fin := 9, hend := 1#64 }),
        (1, { start := 1, fin := 5, sw := true, hend := 1#64 }, { start := 6, fin := 9, sw := true })] : List (Nat × Interval × Interval)) →
      ∃ (s : State) (k : Nat), s.m.intervals[0]? = some v ∧ s.m.history = [h] ∧ s.homeSlice v.line = some k ∧ k < 2 ^ 16 ∧ v.waiting = false ∧ (∀ h ∈ s.m.intervals.take 0, h.line ≠ v.line) ∧
        (∀ h ∈ s.m.intervals, h.line = v.line → h.waiting = false) ∧ (s.violations v).length = n ∧ s.relsOnLine v.line = [] ∧ (s.tenant 0).viols = [] ∧
        ∀ p ∈ s.m.history, ∀ q ∈ s.m.history, p.line = v.line → q.line = v.line → p.fin = q.fin → p = q) ∧
    (∃ s : State, s.maxClock < 2 ^ 47) ∧ (∃ s : State, 2 ^ 47 ≤ s.maxClock ∧ s.drained = false) ∧
    (∃ s : State, 2 ^ 47 ≤ s.maxClock ∧ s.drained = true ∧ ∀ e ∈ s.x.grids, e.2.live = false) ∧
    (∃ s : State, 2 ^ 47 ≤ s.maxClock ∧ (∃ e ∈ s.x.grids, e.2.live = true) ∧ s.maxClock < 2 ^ 47 + 2 ^ 46) ∧
    (∃ s : State, s.drained = true ∧ (∃ e ∈ s.x.grids, e.2.live = true) ∧ 2 ^ 47 + 2 ^ 46 ≤ s.maxClock) := by
  let late (n : Nat) : State := State.reset.modCore 255 fun k => { k with lt := n }
  refine ⟨⟨State.reset, by decide +kernel⟩, ⟨received { line := 2 ^ 40 } {}, _, rfl, by decide +kernel⟩, ⟨received { waiting := true } {}, _, 0, rfl, by decide +kernel⟩,
   ⟨{ received {} {} with m := { (received {} {}).m with intervals := [{}, {}] } }, _, 0, rfl, by decide +kernel⟩, fun n v h hv => ⟨received v h, 0, rfl, rfl, ?_⟩,
   ⟨State.reset, by decide +kernel⟩, ⟨(late (2 ^ 47)).setOp 0 { pos := [(0, 0)], parts := [{}] }, by decide +kernel⟩, ⟨late (2 ^ 47), by decide +kernel⟩,
   ⟨(late (2 ^ 47)).setGrid 0 Grid.loaded, by decide +kernel, ⟨(0, Grid.loaded), by decide +kernel, rfl⟩, by decide +kernel⟩,
   ⟨(late (2 ^ 47 + 2 ^ 46)).setGrid 0 Grid.loaded, by decide +kernel, ⟨(0, Grid.loaded), by decide +kernel, rfl⟩, by decide +kernel⟩⟩
  simp only [List.mem_cons, Prod.mk.injEq, List.not_mem_nil, or_false] at hv
  rcases hv with h | h | h | h | h <;> obtain ⟨rfl, rfl, rfl⟩ := h <;> decide +kernel

/-- A word in the clause of the wave in slot 0, its shadow's registers those of the leader but register 1, in every lane. -/
def shadowed (w : Nat) (v : Word) : State :=
  let s := State.reset.loadWord (BitVec.ofNat 32 w)
  s.modWave 0 fun x => { x with shadow := some { x.regs with v := (List.range 32).map fun l => (32 + l, v) } }

/-- A test of where a step of the leaders and one of their shadows lead. -/
def bothStep (s : State) (p : State → State → Bool) : Bool :=
  match stepOnce s, stepOnce s.asShadows with
  | .next t, .next u => p t u
  | _, _ => false

theorem bothStep_spec {s : State} {p : State → State → Bool} (h : bothStep s p = true) : ∃ t u, stepOnce s = .next t ∧ stepOnce s.asShadows = .next u ∧ p t u = true := by
  unfold bothStep at h
  split at h
  · rename_i t u ht hu
    exact ⟨t, u, ht, hu, h⟩
  · cases h

/-- A step whose chosen bundle has ADD v3, v2, v1 in its clause; one whose shadow has another v1; a load by v1 that its shadow cannot make; a transfer to v1. -/
theorem witness_StepRunsDecodedInstruction :
    (∃ (s u : State) (c : Cx), s.together = true ∧ s.sch.due = [] ∧ s.sch.issueQ = [(0, allLanes)] ∧ u = { s with sch := { s.sch with issueQ := [], cur := (0, allLanes) } } ∧
      u.cx = some c ∧ u.ready c.w c.b = true ∧ c.b.phase = .body ∧ c.b.cl.code[(c.pc - c.b.cl.hdr - 8#64).toNat / 4]? = some 0x01018101#32 ∧
      decode (0x01018101#32).toNat = .ok (.add .lane 3 (.v 2) 1)) ∧
    (∃ s t u : State, s.together = false ∧ stepOnce s = .next t ∧ stepOnce s.asShadows = .next u ∧
      ((s.wave 0).shadow.isSome && (t.wave 0).shadow == (s.wave 0).shadow && (t.wave 0).redun != 2 && (u.wave 0).regs != (t.wave 0).regs) = true) ∧
    (∃ s t u : State, s.together = false ∧ s.o.ops = [] ∧ stepOnce s = .next t ∧ stepOnce s.asShadows = .next u ∧ (!t.o.ops.isEmpty && u.o.ops.isEmpty) = true) ∧
    (∃ (s : State) (f : State → Host.Outcome State Fault Refusal) (t u : State), (s.wave 0).shadow.isSome = true ∧ f s = .next t ∧ f s.asShadows = .next u ∧
      ∃ l, l < 32 ∧ hasLane allLanes l = true ∧ ((t.wave 0).lane l).pc ≠ ((u.wave 0).lane l).pc) := by
  refine ⟨⟨State.reset.loadWord 0x01018101#32, _, issuing { State.reset.loadWord 0x01018101#32 with sch := { (State.reset.loadWord 0x01018101#32).sch with issueQ := [], cur := (0, allLanes) } },
    by decide +kernel, by decide +kernel, by decide +kernel, rfl, issuing_cx (by decide +kernel), by decide +kernel⟩,
    (bothStep_spec (s := shadowed 0x01018101 8#32) (by decide +kernel)).elim fun t h => h.elim fun u h => ⟨_, t, u, by decide +kernel, h⟩,
    (bothStep_spec (s := shadowed ((encode (.ldsB32 .lane 6 1 0)).getD 0) 3#32) (by decide +kernel)).elim fun t h => h.elim fun u h => ⟨_, t, u, by decide +kernel, by decide +kernel, h⟩,
    ⟨shadowed 0 8#32, fun s => .next (s.modWave 0 fun x => (x.setLane 0 { x.lane 0 with pc := (x.vreg 1 0).setWidth 64 })), _, _, by decide +kernel, rfl, rfl, 0, by decide +kernel⟩⟩

theorem witness_DecodeEncodeRoundTrip : (Instr.add .lane 127 (.reserved 255) 127).fits = true ∧ decode 0x01018101 = .ok (.add .lane 3 (.v 2) 1) ∧ (0x01018101 : Nat) < 2 ^ 32 := by decide +kernel

/-- The reset state keeps what a step keeps, and steps from it and from a chosen bundle answer a next state. -/
theorem witness_StepKeeps : Memory.wf State.reset.m.mem = true ∧ MemoryInv State.reset ∧ (∃ t, step State.reset = .next t) ∧ ∃ t, step (State.reset.loadWord 0x01018101#32) = .next t :=
  ⟨by decide +kernel, ⟨by decide +kernel, by decide +kernel, coherent_bare rfl rfl⟩, ⟨_, rfl⟩, ⟨_, rfl⟩⟩

/-! ### Words written out from the rows of spec/opcode_table.json, one for every word row: its fixed bits with a value in each field -/

theorem test_decode_words_1 : ∀ e ∈ ([(0x00400000, .nop .wave), (0x0196456E, .add .set 44 (.s 10) 110), (0x02D9E0F5, .sub .team 51 .wave 117), (0x035D67FC, .mullo .wave 58 .amask 124),
    (0x04A08283, .mulhiI32 .set 65 (.v 5) 3), (0x05E4450A, .mulhiN32 .team 72 (.s 10) 10), (0x0667E091, .mad .wave 79 .wave 17), (0x07AB6798, .minI32 .set 86 .amask 24), (0x08EE829F, .minN32
    .team 93 (.v 5) 31), (0x09724526, .maxI32 .wave 100 (.s 10) 38), (0x0AB5E0AD, .maxN32 .set 107 .wave 45), (0x0BF967B4, .and .team 114 .amask 52), (0x0C7C82BB, .or .wave 121 (.v 5) 59),
    (0x0D804542, .xor .set 0 (.s 10) 66), (0x0EC3E0C9, .shl .team 7 .wave 73), (0x0F4767D0, .shrN32 .wave 14 .amask 80), (0x108A82D7, .shrI32 .set 21 (.v 5) 87), (0x11CE455E, .rotl .team 28
    (.s 10) 94), (0x1251E080, .clz .wave 35 .wave), (0x13956780, .popc .set 42 .amask), (0x14D88280, .brev .team 49 (.v 5)), (0x155C457A, .sel .wave 56 (.s 10) 122), (0x169FE080, .mov .set
    63 .wave), (0x17E36788, .add64 .team 70 .amask 8)] : List (Nat × Instr)), decode e.1 = .ok e.2 := by decide +kernel

theorem test_decode_words_2 : ∀ e ∈ ([(0x1866828F, .lea .wave 77 (.v 5) 15), (0x19AA4516, .cmpEq .set 84 (.s 10) 22), (0x1AEDE09D, .cmpNe .team 91 .wave 29), (0x1B7167A4, .cmpLtI32 .wave 98
    .amask 36), (0x1CB482AB, .cmpLeI32 .set 105 (.v 5) 43), (0x1DF84532, .cmpLtN32 .team 112 (.s 10) 50), (0x1E7BE0B9, .cmpLeN32 .wave 119 .wave 57), (0x1F000000, .exit), (0x20C282C7,
    .addF32 .team 5 (.v 5) 71), (0x2146454E, .subF32 .wave 12 (.s 10) 78), (0x2289E0D5, .mulF32 .set 19 .wave 85), (0x23CD67DC, .fmaF32 .team 26 .amask 92), (0x245082E3, .minF32 .wave 33 (.v
    5) 99), (0x2594456A, .maxF32 .set 40 (.s 10) 106), (0x26D7E080, .negF32 .team 47 .wave), (0x275B6780, .absF32 .wave 54 .amask), (0x289E82FF, .cmpEqF32 .set 61 (.v 5) 127), (0x29E24506,
    .cmpNeF32 .team 68 (.s 10) 6), (0x2A65E08D, .cmpLtF32 .wave 75 .wave 13), (0x2BA96794, .cmpLeF32 .set 82 .amask 20), (0x2CEC829B, .cmpUnF32 .team 89 (.v 5) 27), (0x2D704500, .rcp .wave
    96 (.s 10)), (0x2EB3E080, .rsq .set 103 .wave), (0x2FF76780, .sqrt .team 110 .amask)] : List (Nat × Instr)), decode e.1 = .ok e.2 := by decide +kernel

theorem test_decode_words_3 : ∀ e ∈ ([(0x307A8280, .exp2 .wave 117 (.v 5)), (0x31BE4500, .log2 .set 124 (.s 10)), (0x32C1E080, .sinpi .team 3 .wave), (0x33456780, .cospi .wave 10 .amask),
    (0x348882D3, .addBf16x2 .set 17 (.v 5) 83), (0x35CC455A, .mulBf16x2 .team 24 (.s 10) 90), (0x364FE0E1, .fmaBf16x2 .wave 31 .wave 97), (0x379367A0, .cvt .set 38 .amask 8 0), (0x38D682C7,
    .atom .team 45 (.v 5) true 7), (0x395A4506, .batom .wave 52 (.s 10) 6), (0x3ABDE0B4, .copy true 59 .wave 1 5), (0x3B2967C0, .spawn 82 .amask 64), (0x3C2C8000, .tsget 89), (0x3D304500,
    .brx 96 (.s 10)), (0x3E006080, .ret .wave), (0x406F67A0, .shfl .wave 94 .amask 32), (0x41B282A7, .put .set 101 (.v 5) 39), (0x42F6452E, .bcast .team 108 (.s 10) 46), (0x43798071,
    .voteAny .wave 115 113), (0x44BD0078, .voteAll .set 122 120), (0x45C0807F, .ballot .team 1 127), (0x4644450A, .red .wave 8 (.s 10) 2 2), (0x4787E096, .scan .set 15 .wave true 1 2),
    (0x48CB6780, .matchrank .team 22 .amask)] : List (Nat × Instr)), decode e.1 = .ok e.2 := by decide +kernel

theorem test_decode_words_4 : ∀ e ∈ ([(0x494E8280, .histo .wave 29 (.v 5)), (0x4A924566, .hash .set 36 (.s 10) 102), (0x4B1D8000, .rng 59), (0x4C5967F4, .sample .wave 50 .amask 116),
    (0x4D0482B7, .jtab 9 (.v 5) 55), (0x4E000000, .join 0), (0x4F038000, .joinleave 7), (0x50A74C90, .addi .set 78 76 144), (0x51EAD397, .andi .team 85 83 151), (0x526E5A9E, .ori .wave 92 90
    158), (0x53B1E1A5, .xori .set 99 97 165), (0x54F5680C, .shli .team 106 104 12), (0x5578EF13, .shriN32 .wave 113 111 19), (0x56BC761A, .shriI32 .set 120 118 26), (0x57FFFDC1, .cmpiEq
    .team 127 125 193), (0x584304C8, .cmpiLtI32 .wave 6 4 200), (0x59868BCF, .cmpiLtN32 .set 13 11 207), (0x5ACA1216, .shfli .team 20 18 22), (0x5B4D991D, .bcasti .wave 27 25 29),
    (0x609120E4, .ldB8 .set 34 32 228), (0x61D4A7EB, .ldB16 .team 41 39 235), (0x62582EF2, .ldB32 .wave 48 46 242), (0x639BB5F9, .ldB64 .set 55 53 249), (0x64DF3C00, .ldB128 .team 62 60 0)]
    : List (Nat × Instr)), decode e.1 = .ok e.2 := by decide +kernel

theorem test_decode_words_5 : ∀ e ∈ ([(0x6562C307, .stB8 .wave 69 67 7), (0x66A64A0E, .stB16 .set 76 74 14), (0x67E9D115, .stB32 .team 83 81 21), (0x686D581C, .stB64 .wave 90 88 28),
    (0x69B0DF23, .stB128 .set 97 95 35), (0x6AF4662A, .ldAcqB32 .team 104 102 42), (0x6B77ED31, .ldAcqB64 .wave 111 109 49), (0x6CBB7438, .stRelB32 .set 118 116 56), (0x6DFEFB3F, .stRelB64
    .team 125 123 63), (0x6E4202CE, .ldf .wave 4 2 6 14), (0x6F8589B5, .stf .set 11 9 5 21), (0x70C91054, .ldsB32 .team 18 16 84), (0x714C975B, .ldsB128 .wave 25 23 91), (0x72901E62, .stsB32
    .set 32 30 98), (0x73D3A569, .stsB128 .team 39 37 105), (0x741F2EC0, .ldm 62 46 12 0), (0x7522B537, .stm 69 53 3 7), (0x76DE3A3E, .ldh .team 60 58 62), (0x77618105, .sth .wave 67 1 5),
    (0x780A19C8, .bp false 10 6600), (0x795119CF, .call true 17 6607), (0x7A183413, .mma 0 24 false 26 2 3), (0x7B2F0000, .accz 47), (0x7C364C00, .accld 54 38)] : List (Nat × Instr)), decode
    e.1 = .ok e.2 := by decide +kernel

theorem test_decode_words_6 : ∀ e ∈ ([(0x7D3D5A03, .accst 61 45 3), (0x7E046800, .accflush 4 52), (0x7F0B7600, .accflushDet 11 59), (0x80D92204, .clause 3474 2 0 4), (0x816491C0, .uadd 25 9
    7), (0x82810380, .usub 32 16 14), (0x839D7540, .umul 39 23 21), (0x84B9E700, .umulhiI32 46 30 28), (0x85D658C0, .umulhiN32 53 37 35), (0x86F2CA80, .uminI32 60 44 42), (0x870F3C40,
    .uminN32 3 51 49), (0x882BAE00, .umaxI32 10 58 56), (0x89441FC0, .umaxN32 17 1 63), (0x8A608180, .uand 24 8 6), (0x8B7CF340, .uor 31 15 13), (0x8C996500, .uxor 38 22 20), (0x8DB5D6C0,
    .ushl 45 29 27), (0x8ED24880, .ushrN32 52 36 34), (0x8FEEBA40, .ushrI32 59 43 41), (0x900B2C00, .urotl 2 50 48), (0x91279000, .uclz 9 57), (0x92400000, .upopc 16 0), (0x935C7000, .ubrev
    23 7), (0x9478E000, .umov 30 14)] : List (Nat × Instr)), decode e.1 = .ok e.2 := by decide +kernel

theorem test_decode_words_7 : ∀ e ∈ ([(0x959554C0, .usel 37 21 19), (0x96B1C680, .uadd64 44 28 26), (0x97CE3840, .ucmpEq 51 35 33), (0x98EAAA00, .ucmpNe 58 42 40), (0x99071BC0, .ucmpLtI32 1
    49 47), (0x9A238D80, .ucmpLeI32 8 56 54), (0x9B3FFF40, .ucmpLtN32 15 63 61), (0x9C586100, .ucmpLeN32 22 6 4), (0xA074D2C0, .uaddF32 29 13 11), (0xA1914480, .umulF32 36 20 18),
    (0xA2ADB640, .ufmaF32 43 27 25), (0xA3CA2800, .uminF32 50 34 32), (0xA4E699C0, .umaxF32 57 41 39), (0xA5030B80, .ucmpLtF32 0 48 46), (0xA6007000, .uret 7), (0xB03BE0FC, .uaddi 14 62
    252), (0xB1545003, .uandi 21 5 3), (0xB270C00A, .uori 28 12 10), (0xB38D3011, .uxori 35 19 17), (0xB4A9A018, .ushli 42 26 24), (0xB5C6101F, .ushriN32 49 33 31), (0xB6E28006, .ushriI32 56
    40 6), (0xB7FC00AF, .movi 63 175), (0xB81800B6, .ldk 6 182)] : List (Nat × Instr)), decode e.1 = .ok e.2 := by decide +kernel

theorem test_decode_words_8 : ∀ e ∈ ([(0xB937D03B, .ucmpiEq 13 61 59), (0xBA504042, .ucmpiLtI32 20 4 66), (0xBB6CB049, .ucmpiLtN32 27 11 73), (0xBC892050, .uldB32 34 18 80), (0xBDA59057,
    .uldB64 41 25 87), (0xBEC2005E, .ustB32 48 32 94), (0xBFDE7065, .ustB64 55 39 101), (0xC0005EFE, .bra 24318), (0xC1751B73, .bc true 53 7027), (0xC20C31FC, .ucall 12 12796), (0xC80C3001,
    .joinset 3 3 true), (0xC9000000, .yield), (0xCA000001, .part 1), (0xCB000000, .arrive 0), (0xCC000007, .waitb 7), (0xCD000036, .trap 54), (0xCE000000, .rett), (0xD0004000, .fenceAcq 4),
    (0xD100B000, .fenceRel 11), (0xD2012000, .fenceAr 18), (0xD3019240, .wb 25 9), (0xD4020400, .inv 32 16), (0xD59D7540, .invn 39 23 21), (0xD6000000, .ifence)] : List (Nat × Instr)),
    decode e.1 = .ok e.2 := by decide +kernel

theorem test_decode_words_9 : ∀ e ∈ ([(0xD7035940, .icinv 53 37), (0xD803CB00, .pfi 60 44), (0xD90C0001, .hwaitFull 3 true), (0xD9280002, .hwaitFree 10), (0xDA441FC0, .hcfgBind 17 1 63),
    (0xDA608001, .hcfgRing 24 8), (0xDA7C0002, .hcfgMark 31), (0xDA980003, .hcfgUnbind 38), (0xDBB40001, .hfree 45 true), (0xDC034900, .fsopen 52 36), (0xDD03B000, .fsclose 59), (0xDE002000,
    .fswait 2), (0xE02402B9, .mfs 9 697), (0xE14002C0, .mts 16 704), (0xE25C0000, .rngseed 23), (0xE378038C, .rgnw 30 14 12), (0xE4940540, .rgnr 37 21), (0xE5B00700, .bgtw 44 28),
    (0xE6CC08C0, .bgtr 51 35)] : List (Nat × Instr)), decode e.1 = .ok e.2 := by decide +kernel

/-! ### Ill-formed terms: every condition of R90 that the word decides, refused by name -/

theorem test_reservedSource : ∀ i ∈ [Instr.add .lane 0 (.reserved 208) 0, .ret (.reserved 255), .spawn 0 (.reserved 208) 0, .cvt .lane 0 (.reserved 208) 0 0, .jtab 0 (.reserved 208) 0, .batom .lane 0 (.reserved 208) 0,
    .brx 0 (.reserved 208), .add64 .lane 0 (.reserved 208) 0, .cmpEq .lane 0 (.reserved 208) 0, .matchrank .wave 0 (.reserved 208)], i.illegal = some .reservedSource := by decide +kernel

theorem test_badPredicate : ∀ i ∈ [Instr.cmpUnF32 .lane 48 (.v 0) 0, .cmpiEq .lane 127 0 0, .voteAny .wave 0 48, .voteAll .wave 48 0, .ballot .set 0 48, .bp false 48 0, .bp true 63 0, .call true 62 0],
    i.illegal = some .badPredicate := by decide +kernel

theorem test_badScope : ∀ i ∈ [Instr.shfl .lane 0 (.v 0) 0, .put .team 0 (.v 0) 0, .bcasti .lane 0 0 0, .red .team 0 (.v 0) 0 0, .voteAny .lane 0 0, .ballot .lane 0 0, .sample .team 0 (.v 0) 0, .histo .lane 0 (.v 0)],
    i.illegal = some .badScope := by decide +kernel

theorem test_unlistedSubcode : ∀ i ∈ [Instr.cvt .lane 0 (.v 0) 14 0, .atom .lane 0 (.v 0) false 12, .atom .lane 0 (.v 0) true 10, .batom .lane 0 (.v 0) 15, .red .wave 0 (.v 0) 3 0, .scan .wave 0 (.v 0) false 0 3,
    .joinset 0 1 true, .bgtw 0 6, .bgtr 0 63], i.illegal = some .unlistedSubcode := by decide +kernel

theorem test_oddPair : ∀ i ∈ [Instr.add64 .lane 1 (.v 0) 0, .lea .lane 0 (.s 1) 0, .atom .lane 1 (.v 0) false 9, .ldB64 .lane 1 0 0, .stB8 .lane 0 1 0, .rng 127, .ret (.v 1), .uadd64 0 1 0, .uret 63, .uldB64 1 0 0,
    .ucall 1 0, .accflush 0 1, .fenceAr 1, .wb 1 0, .invn 0 1 0, .ldm 2 1 0 0, .ldf .lane 0 1 0 0], i.illegal = some .oddPair := by decide +kernel

theorem test_badGroup : ∀ i ∈ [Instr.tsget 2, .ldB128 .lane 2 0 0, .stsB128 .lane 1 0 0, .atom .lane 2 (.v 0) true 9, .rngseed 2, .rgnw 2 0 0, .rgnr 1 0, .bgtw 2 0], i.illegal = some .badGroup := by decide +kernel

theorem test_otherIllegal : (Instr.part 0).illegal = some .tileWidth ∧ (Instr.part 6).illegal = some .tileWidth ∧ (Instr.ldm 0 16 15 0).illegal = none ∧ (Instr.ldm 1 16 15 0).illegal = some .rangeHoldsBase ∧
    (Instr.stm 17 16 0 0).illegal = some .rangeHoldsBase ∧ (Instr.copy false 0 (.v 0) 0 0).illegal = some .copySource ∧ (Instr.copy true 0 (.s 0) 1 0).illegal = some .copySource ∧
    (Instr.clause 0 12 15 0).illegal = some .headerFlags ∧ (Instr.clause 0 15 14 0).illegal = some .headerFlags ∧ (Instr.clause 4095 11 15 15).illegal = none := by decide +kernel

/-! ### Words of the spec's listings (04, 16, 18 and 20 of spec/), and words that are no row -/

theorem test_listing_words : ∀ e ∈ ([(0x01028184, .add .lane 5 (.v 3) 4), (0x1603E000, .mov .lane 7 .lane), (0x500102FF, .addi .lane 2 2 0xFF), (0x62030804, .ldB32 .lane 6 8 4), (0x7843FFF4, .bp true 3 0xFFF4),
    (0x7A810832, .mma 2 1 false 4 6 2), (0x8128B300, .uadd 10 11 12), (0xB7500064, .movi 20 100), (0xC0000014, .bra 20), (0xE00C0030, .mfs 3 0x30), (0x3A804750, .copy false 0 (.s 14) 2 4), (0x77098012, .sth .lane 19 0 18),
    (0x760B0112, .ldh .lane 22 1 18), (0xDA0124C0, .hcfgBind 0 18 19), (0xDA000002, .hcfgMark 0), (0xD9040000, .hwaitFull 1 false), (0xDB040000, .hfree 1 false), (0x7A800830, .mma 2 0 false 4 6 0),
    (0x7F002800, .accflushDet 0 20), (0x3C080000, .tsget 16), (0x170A0816, .add64 .lane 20 (.v 16) 22), (0x620C9A00, .ldB32 .lane 25 26 0), (0x3B040A02, .spawn 8 (.v 20) 2), (0xDE028000, .fswait 40), (0xDD028000, .fsclose 40),
    (0x800000F8, .clause 0 0 15 8), (0x80000F10, .clause 0 15 1 0), (0x80003F12, .clause 3 15 1 2), (0x80001FF0, .clause 1 15 15 0)] : List (Nat × Instr)), decode e.1 = .ok e.2 := by decide +kernel

/-- R87, R89, R90: opcodes that no row has, reserved bits that are not zero, and a scope the opcode does not take. -/
theorem test_refused_words : ∀ w ∈ [0x00000001, 0x3F000000, 0x5C000000, 0xC3000000, 0xFFFFFFFF, 0x3A000000, 0x1F400000, 0xC9000001], (decode w).toOption = none := by decide +kernel

/-! ### Values of the spec's tables -/

/-- 08, the table of special functions (R132, R133). -/
theorem test_special_functions : ∀ e ∈ [(AluOp.exp2, 0xC3150000#32, 1#32), (.exp2, 0xC3160000#32, 0#32), (.exp2, 0x43000000#32, 0x7F800000#32), (.rcp, 0x7F000000#32, 0x00400000#32), (.rcp, 1#32, 0x7F800000#32),
    (.log2, 1#32, 0xC3150000#32), (.rsq, 0x80000000#32, 0xFF800000#32), (.sinpi, 0xC0000000#32, 0x80000000#32), (.sinpi, 0x4B800000#32, 0#32), (.cospi, 0x4B000001#32, 0xBF800000#32), (.cospi, 0xBF000000#32, 0#32)],
    aluVal e.1 e.2.1 0#32 0#32 = e.2.2 := by decide +kernel

/-- 07, the table of R136: −2.5, 2.5, 3.0e9 and a NaN to I32 in the four modes. -/
theorem test_cvt_i32_f32 : [0xC0200000#32, 0x40200000#32, 0x4F32D05E#32, 0x7FC00000#32].map (fun x => [0, 1, 2, 3].map fun m => (cvtVal 0 m x 0#32).toInt) =
    [[-2, -2, -3, -2], [2, 2, 2, 3], [0x7FFFFFFF, 0x7FFFFFFF, 0x7FFFFFFF, 0x7FFFFFFF], [0, 0, 0, 0]] := by decide +kernel

/-- 06: the elements of O4 bytes (R99). -/
theorem test_o4_read : ∀ e ∈ [((0x3D : Nat), (-3 : Int), (3 : Int)), (0x58, 16, 0), (0x85, 0, 16), (0xD8, -16, 0)],
    ((o4Elem e.1 0).add (numOfInt (-e.2.1))).isZero ∧ ((o4Elem e.1 1).add (numOfInt (-e.2.2))).isZero := by decide +kernel

/-- 06: bytes formed from two values, given as F32, and whether either is out of range (R100). -/
theorem test_o4_written : ∀ e ∈ [(0x40200000#32, 0xC0400000#32, 0xD2, false), (0x41380000#32, 0x3F800000#32, 0x17, false), (0x41400000#32, 0x3F800000#32, 0x58, true), (0x40400000#32, 0x42700000#32, 0x86, true),
    (0x42200000#32, 0#32, 0x58, false), (0x41800000#32, 0xC2800000#32, 0x8E, true), (0x43960000#32, 0#32, 0x78, true)],
    (o4Byte (f32 e.1) (f32 e.2.1)).1 = e.2.2.1 ∧ ((o4Byte (f32 e.1) (f32 e.2.1)).2.1 || (o4Byte (f32 e.1) (f32 e.2.1)).2.2) = e.2.2.2 := by decide +kernel

/-- 06: PartnerRow under the map (1), and the product of the duplicated row, 41.0 (R105, R111). -/
theorem test_duplicated_channel : [0, 1, 2, 3, 4].map (partnerRow [1]) = [0, 1, 1, 2, 3] ∧
    dot [(numOfInt 3, numOfInt 1), (numOfInt 6, numOfInt 2), (numOfInt 6, numOfInt 2), (numOfInt (-2), numOfInt 3), (numOfInt 5, numOfInt 4)] 0#32 = 0x42240000#32 := by decide +kernel

/-- 06: 460.0, 470.0, −∞ and a NaN stored as E4M3, with the saturation event (R107). -/
theorem test_e4m3_store : [0x43E60000#32, 0x43EB0000#32, 0xFF800000#32, 0x7FC00000#32].map (fun x => convert .e4m3 .rne (f32 x)) = [(0x7E, false), (0x7E, true), (0xFE, true), (0x7F, false)] := by decide +kernel

/-- R116. -/
theorem test_hash32_zero : hash32 0#32 = 0#32 := by decide +kernel
/-- FIPS 180-4, the example "abc" (log 14). -/
theorem test_sha256_abc : sha256 [0x61#8, 0x62#8, 0x63#8] = [0xBA#8, 0x78#8, 0x16#8, 0xBF#8, 0x8F#8, 0x01#8, 0xCF#8, 0xEA#8, 0x41#8, 0x41#8, 0x40#8, 0xDE#8, 0x5D#8, 0xAE#8, 0x22#8, 0x23#8, 0xB0#8, 0x03#8, 0x61#8, 0xA3#8, 0x96#8, 0x17#8, 0x7A#8, 0x9C#8, 0xB4#8, 0x10#8, 0xFF#8, 0x61#8, 0xF2#8, 0x00#8, 0x15#8, 0xAD#8] := by decide +kernel

/-! ### One step on a small state -/

/-- 04: ADD.i32 v5, v3, v4 with 3 and 4 in every lane. -/
theorem test_step_add : (match step { tuned 0x01028184 (fun x => (x.setV 3 31 3#32).setV 4 31 4#32) with sch := { (loaded 0x01028184).sch with issueQ := [(0, allLanes)] } } with
    | .next t => ((t.wave 0).vreg 5 31, ((t.wave 0).lane 31).pc)
    | _ => (0#32, 0#64)) = (7#32, 12#64) := by decide +kernel

/-- 00: an integer sum that wraps. -/
theorem test_add_wraps : (match exec (.add .lane 5 (.v 3) 4) (tuned 0x01028184 fun x => (x.setV 3 0 0x7FFFFFFF#32).setV 4 0 1#32) with
    | .next t => (t.wave 0).vreg 5 0
    | _ => 0#32) = 0x80000000#32 := by decide +kernel

/-- 04: BP on !p3, 12 words back, goes to its own address less 48 in the lanes whose p3 is false. -/
theorem test_bp_back : (match exec (.bp true 3 0xFFF4) (tuned 0x7843FFF4 fun x => x.setP 3 1 true) with
    | .next t => (((t.wave 0).lane 0).pc, ((t.wave 0).lane 1).pc)
    | _ => (0#64, 0#64)) = (8#64 - 48#64, 12#64) := by decide +kernel

/-- 08: RED.ADD.i32.w over tiles of eight lanes that hold their lane numbers. -/
theorem test_red_tiles : ((((meeting .wave true (.coll (.red 2 (.v 1) 1 0))).modWave 0 fun x => (List.range 32).foldl (fun x l => x.setV 1 l (BitVec.ofNat 32 l)) { x with tw := 3 }).tryComplete (.tile 0 3) .wave 0).wave 0).vreg 2 31 = 220#32 := by
  decide +kernel

/-- R180: TRAP 127 with no trap vector leaves the trap registers and queues the record; with one it enters the handler. -/
theorem test_trap_vector : (match exec (.trap 127) (vectored 0xCD00007F id) with
    | .next t => ((t.wave 0).hmode, (t.wave 0).trapcause, ((t.wave 0).lane 0).pc, (t.wave 0).trappc)
    | _ => (false, 0#32, 0#64, 0#64)) = (true, 0xFF#32, 0x1000#64, 12#64) := by decide +kernel

/-- R313: RGNW writes both words of the entry and answers 0; RGNR's place is the entry's. -/
theorem test_rgnw_writes : (match exec (.rgnw 0 0 63) (cached [0] <| front (.rgnw 0 0 63) fun x => (x.setS 0 0x2000A0#32).setS 2 0x200000#32) with
    | .next t => ((t.wave 0).sreg 63, t.readPhys 0 8, t.readPhys 8 8)
    | _ => (1#32, 0, 0)) = (0#32, 0x2000A0, 0x200000) := by decide +kernel

end Sys2Proof.Tests
end

section
/-! SUPPORT. Frames of the device's own actions: what leaves the program's registers, its teams and the device registers alone; and the
association lists that an action maps or filters entry by entry. -/

set_option Elab.async false

namespace Sys2Proof.Machine

open Sys2Proof Sys2Proof.Safety

variable {α β : Type}

/-- A map whose entries are changed one by one, where the value of an unlisted key goes to that of an unlisted key. -/
theorem SMap.get_map (d : α) (d' : β) (g : Nat → α → β) (hd : ∀ k, g k d = d') (m : SMap α) (k : Nat) :
    SMap.get d' (m.map fun e => (e.1, g e.1 e.2)) k = g k (SMap.get d m k) := by
  induction m with
  | nil => exact (hd k).symm
  | cons e rest ih =>
    obtain ⟨j, v⟩ := e
    simp only [List.map_cons, SMap.get]
    by_cases h : k = j
    · subst h; simp
    · simp [h, ih]

/-- A map of which the entries at some keys are kept. -/
theorem SMap.get_filter_key (d : α) (p : Nat → Bool) (m : SMap α) (k : Nat) :
    SMap.get d (m.filter fun e => p e.1) k = if p k then SMap.get d m k else d := by
  induction m with
  | nil => simp
  | cons e rest ih =>
    obtain ⟨j, v⟩ := e
    by_cases h : k = j
    · subst h
      by_cases hp : p k = true <;> simp_all [SMap.get]
    · by_cases hj : p j = true <;> simp_all [SMap.get]

end Sys2Proof.Machine

namespace Sys2Proof.Safety

open Sys2Proof Sys2Proof.Machine

theorem KeepsRegisters.refl (s : State) : KeepsRegisters s s := ⟨fun _ => rfl, fun _ => rfl, fun _ => rfl, fun _ => rfl⟩

theorem KeepsRegisters.trans {s t u : State} (h : KeepsRegisters s t) (k : KeepsRegisters t u) : KeepsRegisters s u where
  v w := (k.v w).trans (h.v w)
  sregs w := (k.sregs w).trans (h.sregs w)
  p w := (k.p w).trans (h.p w)
  acc w := (k.acc w).trans (h.acc w)

/-- Waves that are the same keep their registers. -/
theorem KeepsRegisters.of_wave {s t : State} (h : ∀ w, t.wave w = s.wave w) : KeepsRegisters s t :=
  ⟨fun w => by rw [h], fun w => by rw [h], fun w => by rw [h], fun w => by rw [h]⟩

theorem KeepsRegisters.of_waves {s t : State} (h : t.x.waves = s.x.waves) : KeepsRegisters s t :=
  .of_wave fun w => by unfold State.wave; rw [h]

end Sys2Proof.Safety

namespace Sys2Proof.Machine

open Sys2Proof Sys2Proof.Safety

/-- The program's registers, its teams and the device registers stay as they are. -/
structure KeepsProgram (s t : State) : Prop where
  regs : KeepsRegisters s t
  teams : t.x.teams = s.x.teams
  reg : t.reg = s.reg

theorem KeepsProgram.refl (s : State) : KeepsProgram s s := ⟨.refl s, rfl, rfl⟩

theorem KeepsProgram.trans {s t u : State} (h : KeepsProgram s t) (k : KeepsProgram t u) : KeepsProgram s u :=
  ⟨h.regs.trans k.regs, k.teams.trans h.teams, k.reg.trans h.reg⟩

theorem KeepsProgram.of_waves {s t : State} (hw : t.x.waves = s.x.waves) (ht : t.x.teams = s.x.teams) (hr : t.reg = s.reg) : KeepsProgram s t :=
  ⟨.of_waves hw, ht, hr⟩

theorem KeepsProgram.withGroups {s t : State} (h : KeepsProgram s t) (gs : List Group) : KeepsProgram s { t with x := { t.x with groups := gs } } :=
  h.trans (.of_waves rfl rfl rfl)

theorem KeepsProgram.withM {s t : State} (h : KeepsProgram s t) (m : MemSys) : KeepsProgram s { t with m := m } := h.trans (.of_waves rfl rfl rfl)

theorem KeepsProgram.ite {s t u : State} {p : Prop} [Decidable p] (h : p → KeepsProgram s t) (k : ¬ p → KeepsProgram s u) :
    KeepsProgram s (if p then t else u) := by
  split
  · exact h ‹_›
  · exact k ‹_›

/-- Actions one after another. -/
theorem KeepsProgram.foldl {γ : Type} (f : State → γ → State) (h : ∀ s a, KeepsProgram s (f s a)) (l : List γ) (s : State) :
    KeepsProgram s (l.foldl f s) := by
  induction l generalizing s with
  | nil => exact .refl s
  | cons a l ih => exact (h s a).trans (ih _)

theorem MemOnly.keepsProgram {s t : State} (h : MemOnly s t) : KeepsProgram s t :=
  .of_waves (by rw [h.x]) (by rw [h.x]) h.reg

theorem Booked.keepsProgram {s t : State} (h : Booked s t) : KeepsProgram s t := h.only.keepsProgram

theorem Asked.keepsProgram {s t : State} (h : Asked s t) : KeepsProgram s t :=
  .of_waves (by rw [h.x]) (by rw [h.x]) h.reg

/-- A wave changes outside its registers. -/
theorem modWave_keepsProgram (s : State) (w : Nat) (f : Wave → Wave) (hv : ∀ x, (f x).v = x.v) (hs : ∀ x, (f x).s = x.s) (hp : ∀ x, (f x).p = x.p)
    (ha : ∀ x, (f x).acc = x.acc) : KeepsProgram s (s.modWave w f) where
  teams := rfl
  reg := rfl
  regs := by
    have h : ∀ {γ : Type} (g : Wave → γ), (∀ x, g (f x) = g x) → ∀ k, g ((s.modWave w f).wave k) = g (s.wave k) := by
      intro γ g hg k
      unfold State.modWave
      rw [State.setWave_wave]
      split
      · next e => rw [hg, e]
      · rfl
    exact ⟨h _ hv, h _ hs, h _ hp, h _ ha⟩

theorem setOp_keepsProgram (s : State) (n : Nat) (o : Op) : KeepsProgram s (s.setOp n o) := .of_waves rfl rfl rfl

theorem modPart_keepsProgram (s : State) (id i : Nat) (f : Part → Part) : KeepsProgram s (s.modPart id i f) := setOp_keepsProgram _ _ _

theorem modTenant_keepsProgram (s : State) (n : Nat) (f : Tenant → Tenant) : KeepsProgram s (s.modTenant n f) := .of_waves rfl rfl rfl

theorem queueRecord_keepsProgram (s : State) (n : Nat) (r : List Byte) : KeepsProgram s (s.queueRecord n r) := modTenant_keepsProgram _ _ _

theorem poisonHome_only (s : State) (line : Nat) : MemOnly s (s.poisonHome line) := ⟨rfl, rfl, rfl, rfl, rfl, rfl⟩

theorem poisonLine_only (s : State) (line : Nat) : MemOnly s (s.poisonLine line) := by
  refine (recall_spec s line).2.2.2.2.2.trans ?_
  dsimp only [State.poisonLine]
  split
  · exact setLlc_only _ _ _
  · exact poisonHome_only _ _

theorem discardRels_keepsProgram (s : State) (qs : List (Nat × Nat)) : KeepsProgram s (s.discardRels qs) := by
  refine KeepsProgram.trans (t := { s with m := { s.m with prov := s.m.prov.filter fun q => !qs.contains (q.op, q.part) } }) (.of_waves rfl rfl rfl) ?_
  refine .foldl _ (fun s e => ?_) qs _
  refine (modPart_keepsProgram s e.1 e.2 fun p => { p with rel := .discarded }).trans (.foldl _ (fun s k => ?_) _ _)
  exact modWave_keepsProgram s k.1 _ (fun _ => rfl) (fun _ => rfl) (fun _ => rfl) fun _ => rfl

theorem postViolation_keepsProgram (s : State) (g : Group) (ck : Nat) (r : List Byte) : KeepsProgram s (s.postViolation g ck r) := by
  unfold State.postViolation
  dsimp only
  exact .withGroups ((queueRecord_keepsProgram s g.tenant r).trans (modTenant_keepsProgram _ g.tenant _)) _

theorem containLine_keepsProgram (s : State) (line kind lo hi : Nat) : KeepsProgram s (s.containLine line kind lo hi) := by
  refine (poisonLine_only s line).keepsProgram.trans ?_
  unfold State.containLine
  dsimp only
  split
  · exact postViolation_keepsProgram _ _ _ _
  · exact (discardRels_keepsProgram _ _).trans (.foldl _ (fun _ _ => postViolation_keepsProgram _ _ _ _) _ _)

end Sys2Proof.Machine
end

section
/-! SUPPORT. The device's commands (R51, R167, R231, R239, R246): what the check of every interval and the restart of the clocks leave alone. -/

set_option Elab.async false

namespace Sys2Proof.Machine

open Sys2Proof Sys2Proof.Safety

theorem checkInterval_keepsProgram (s : State) (v : Interval) : KeepsProgram s (s.checkInterval v) := by
  unfold State.checkInterval
  exact (KeepsProgram.withM (.refl s) _).trans (.foldl _ (fun s b => containLine_keepsProgram s _ _ _ _) _ _)

theorem checkWaiting_keepsProgram (s : State) (line n : Nat) : KeepsProgram s (s.checkWaiting line n) := by
  induction n generalizing s with
  | zero => exact .refl s
  | succ n ih =>
    unfold State.checkWaiting
    split
    · exact .refl s
    · next v _ =>
      exact .ite (fun _ => ((KeepsProgram.withM (.refl s) _).trans (checkInterval_keepsProgram _ v)).trans (ih _)) fun _ => .refl s

theorem receiveInterval_keepsProgram (s : State) (idx : Nat) : KeepsProgram s (s.receiveInterval idx) := by
  unfold State.receiveInterval
  split
  · exact .refl s
  · next v _ =>
    split
    · exact .of_waves rfl rfl rfl
    · next k _ =>
      exact .ite (fun _ => .refl s) fun _ => (KeepsProgram.withM (setClock_booked _ _ _).keepsProgram _).trans (checkWaiting_keepsProgram _ _ _)

theorem closeAll_keepsProgram (s : State) : KeepsProgram s s.closeAll := by
  unfold State.closeAll
  dsimp only
  refine (KeepsProgram.foldl _ (fun s e => (closeAt_booked s _ _).keepsProgram) (s.m.held.filter fun e => e.2.opened) s).trans (.foldl _ (fun s _ => ?_) _ _)
  split
  · exact receiveInterval_keepsProgram _ _
  · exact .refl s

/-- R228: as the clocks start anew, every clock is zero, no record is kept, and every interval that stands open opens at zero. -/
structure Restarted (s t : State) : Prop where
  cores : ∀ c, (t.core c).lt = 0
  slices : ∀ k, (t.slice k).lt = 0
  ctrls : ∀ k, (t.ctrl k).lt = 0
  ports : ∀ k, (t.port k).lt = 0
  arbiter : t.pk.arbLt = 0
  intervals : t.m.intervals = []
  history : t.m.history = []
  held : ∀ k, (SMap.get {} t.m.held k).opened = (SMap.get {} s.m.held k).opened ∧
    ((SMap.get {} t.m.held k).opened = true → (SMap.get {} t.m.held k).start = 0)

theorem zeroClocks_keepsProgram (s : State) : KeepsProgram s s.zeroClocks := .of_waves rfl rfl rfl

theorem reopen_opened (s : State) (e : Nat × Hold) : (s.reopen e).2.opened = e.2.opened ∧ ((s.reopen e).2.opened = true → (s.reopen e).2.start = 0) := by
  unfold State.reopen
  split
  · exact ⟨rfl, fun _ => rfl⟩
  · next h => exact ⟨rfl, fun h' => absurd h' h⟩

theorem reopen_key (s : State) (e : Nat × Hold) : s.reopen e = (e.1, (s.reopen e).2) := by
  unfold State.reopen
  split <;> rfl

theorem zeroClocks_restarted (s : State) : Restarted s s.zeroClocks where
  cores c := (congrArg Core.lt (SMap.get_map ({} : Core) ({} : Core) (fun _ v => { v with lt := 0 }) (fun _ => rfl) s.x.cores c)).trans rfl
  slices k := (congrArg Slice.lt (SMap.get_map ({} : Slice) ({} : Slice) (fun _ v => { v with lt := 0 }) (fun _ => rfl) s.pk.slices k)).trans rfl
  ctrls k := (congrArg Ctrl.lt (SMap.get_map ({} : Ctrl) ({} : Ctrl) (fun _ v => { v with lt := 0 }) (fun _ => rfl) s.pk.ctrls k)).trans rfl
  ports k := (congrArg Port.lt (SMap.get_map ({} : Port) ({} : Port) (fun _ v => { v with lt := 0 }) (fun _ => rfl) s.pk.ports k)).trans rfl
  arbiter := rfl
  intervals := rfl
  history := rfl
  held k := by
    have h : SMap.get {} s.zeroClocks.m.held k = (s.reopen (k, SMap.get {} s.m.held k)).2 := by
      have hm : s.zeroClocks.m.held = s.m.held.map fun e => (e.1, (fun k v => (s.reopen (k, v)).2) e.1 e.2) :=
        List.map_congr_left fun e _ => reopen_key s e
      rw [hm]
      exact SMap.get_map ({} : Hold) ({} : Hold) (fun k v => (s.reopen (k, v)).2) (fun _ => rfl) s.m.held k
    rw [h]
    exact reopen_opened s (k, SMap.get {} s.m.held k)

theorem restartClocks_keepsProgram (s : State) : KeepsProgram s s.restartClocks := by
  exact ((closeAll_keepsProgram s).withM _).trans (zeroClocks_keepsProgram _)

theorem restartClocks_restarted (s : State) : Restarted s s.restartClocks := by
  obtain ⟨a, b, c, d, e, f, g, h⟩ := zeroClocks_restarted { s.closeAll with m := { s.closeAll.m with held := s.m.held } }
  exact ⟨a, b, c, d, e, f, g, h⟩

theorem anyLaunch_iff (s : State) : s.anyLaunch = true ↔ ∃ e ∈ s.x.grids, e.2.live = true := by
  simp [State.anyLaunch]

/-- R51: an extend of a measurement register leaves the others. -/
theorem extend_meas (s : State) (m : Nat) (d : List Byte) (k : Nat) :
    (s.extend m d).meas k = if k = m then sha256 (s.meas m ++ d) else s.meas k := SMap.get_set _ _ _ _ _

/-- R309, R51: the write of measd7. -/
theorem writeMeasd7_spec (s : State) (v : Word) :
    DeviceRegsOnly s (s.writeMeasd7 v) ∧ (s.writeMeasd7 v).reg = { s.reg with measd := (s.writeMeasd7 v).reg.measd, meas := (s.writeMeasd7 v).reg.meas } ∧
    (∀ k, SMap.get 0#32 (s.writeMeasd7 v).reg.measd k = if k = 7 then v else SMap.get 0#32 s.reg.measd k) ∧
    ∀ k, (s.writeMeasd7 v).meas k = if k = (s.dev 0x420).toNat % 8 ∧ 3 ≤ (s.dev 0x420).toNat % 8 then
      sha256 (s.meas k ++ (List.range 8).flatMap fun j => leBytes 4 (if j = 7 then v else SMap.get 0#32 s.reg.measd j).toNat) else s.meas k := by
  unfold State.writeMeasd7
  dsimp only
  generalize hm : (({ s with reg := { s.reg with measd := SMap.set 0#32 s.reg.measd 7 v } } : State).dev 0x420).toNat % 8 = m
  have hm' : (s.dev 0x420).toNat % 8 = m := hm
  rw [hm']
  split
  · next h3 =>
    refine ⟨⟨rfl, rfl, rfl, rfl, rfl⟩, rfl, fun k => SMap.get_set _ _ _ _ _, fun k => ?_⟩
    rw [extend_meas]
    simp only [SMap.get_set]
    by_cases hk : k = m
    · subst hk; rw [if_pos rfl, if_pos ⟨rfl, h3⟩]; rfl
    · rw [if_neg hk, if_neg fun h => hk h.1]; rfl
  · next h3 =>
    refine ⟨⟨rfl, rfl, rfl, rfl, rfl⟩, rfl, fun k => SMap.get_set _ _ _ _ _, fun k => ?_⟩
    rw [if_neg fun h => h3 h.2]
    rfl

/-- R245, R246: what a write of firctl leaves in the register. -/
def firctlAfter (old v : Word) : Word := ((if v.toNat / 2 ^ 16 == 0 then v &&& ~~~1#32 else v) &&& 0xFFFFFF03#32) ||| (old &&& 4#32 &&& ~~~v)

theorem firctlAfter_bits (old v : Word) (i : Nat) (hi : i < 32) : (firctlAfter old v).getLsbD i =
    if i = 0 then v.getLsbD 0 && decide (v.toNat / 2 ^ 16 ≠ 0) else if i = 1 then v.getLsbD 1 else if i = 2 then old.getLsbD 2 && !v.getLsbD 2
    else if i < 8 then false else v.getLsbD i := by
  unfold firctlAfter
  by_cases h : v.toNat / 2 ^ 16 = 0
  · simp only [h, beq_self_eq_true, if_true]
    interval_cases i <;> simp
  · have hd : 65536 ≤ v.toNat := by omega
    simp only [beq_iff_eq, h, if_false]
    interval_cases i <;> simp [hd]

theorem firctlAfter_high (old v : Word) : (firctlAfter old v).toNat / 2 ^ 8 = v.toNat / 2 ^ 8 := by
  have h : firctlAfter old v >>> 8 = v >>> 8 := by
    apply BitVec.eq_of_getLsbD_eq
    intro i hi
    rw [BitVec.getLsbD_ushiftRight, BitVec.getLsbD_ushiftRight]
    by_cases h : 8 + i < 32
    · rw [firctlAfter_bits _ _ _ h]
      simp [show 8 + i ≠ 1 by omega, show 8 + i ≠ 2 by omega]
    · rw [BitVec.getLsbD_of_ge _ _ (by omega), BitVec.getLsbD_of_ge _ _ (by omega)]
  simpa [Nat.shiftRight_eq_div_pow] using congrArg BitVec.toNat h

theorem firctlAfter_reserved (old v : Word) : (firctlAfter old v).extractLsb' 3 5 = 0#5 := by
  apply BitVec.eq_of_getLsbD_eq
  intro i hi
  rw [BitVec.getLsbD_extractLsb', firctlAfter_bits _ _ _ (by omega)]
  simp [show 3 + i ≠ 1 by omega, show 3 + i ≠ 2 by omega, show 3 + i < 8 by omega]

theorem writeFirctl_dev (s : State) (v : Word) (k : Nat) : (s.writeFirctl v).dev k = if k = 0x403 then firctlAfter (s.dev 0x403) v else s.dev k := by
  unfold State.writeFirctl
  rw [State.setDev_dev]
  rfl

end Sys2Proof.Machine

open Sys2Proof Sys2Proof.Machine Sys2Proof.Safety

/-- Settles O32: each command write by the lemma about it. -/
theorem deviceCommandWrites : Obligations.DeviceCommandWrites := by
  unfold Obligations.DeviceCommandWrites
  intro s
  refine ⟨?measd7, ?chkkey, ?busy, ?ltreset, ?firctl, ?rtapply⟩
  case measd7 =>
    rintro v m rfl
    exact ⟨_, rfl, writeMeasd7_spec s v⟩
  case chkkey =>
    intro v
    refine ⟨s.writeChkkey v, rfl, ?_⟩
    unfold State.writeChkkey
    by_cases h : s.anyLaunch = true
    · rw [if_pos h, if_pos ((anyLaunch_iff s).1 h)]
      exact ⟨⟨rfl, rfl, rfl, rfl, rfl⟩, rfl⟩
    · rw [if_neg h, if_neg fun h' => h ((anyLaunch_iff s).2 h')]
      exact ⟨⟨rfl, rfl, rfl, rfl, rfl⟩, rfl⟩
  case busy =>
    intro h
    rw [exec_ltreset, execLtreset, State.ltreset, if_pos ((anyLaunch_iff s).2 h)]
  case ltreset =>
    intro h
    have hn : ¬ s.anyLaunch = true := fun h' => by
      obtain ⟨e, he, hl⟩ := (anyLaunch_iff s).1 h'
      rw [h e he] at hl
      cases hl
    obtain ⟨hregs, hteams, hreg⟩ := restartClocks_keepsProgram s
    obtain ⟨hc, hs, hk, hp, ha, hi, hh, ho⟩ := restartClocks_restarted s
    refine ⟨s.restartClocks, ?_, hreg, hregs, hteams, hc, hs, hk, hp, ha, hi, hh, ho⟩
    rw [exec_ltreset, execLtreset, State.ltreset, if_neg hn]
  case firctl =>
    intro v
    refine ⟨s.writeFirctl v, rfl, ⟨rfl, rfl, rfl, rfl, rfl⟩, rfl, fun k hk => ?_, ?_⟩
    · rw [writeFirctl_dev, if_neg hk]
    · rw [writeFirctl_dev, if_pos rfl]
      exact ⟨firctlAfter_high _ _, firctlAfter_reserved _ _, firctlAfter_bits _ _ 1 (by decide), firctlAfter_bits _ _ 0 (by decide),
        firctlAfter_bits _ _ 2 (by decide)⟩
  case rtapply =>
    rintro r rfl
    refine ⟨s.rtapply, rfl, rfl, rfl, rfl, rfl, rfl, fun k => ?_⟩
    unfold State.rtapply
    rw [State.setRoute_route]
    rfl
end

section
/-! SUPPORT. Lines that leave the caches one by one (R25, R29, R46, R225): such an action moves its own line between the L1s, the LLC and
the home, and no value changes where a clean line of the LLC has its home's data. -/

set_option Elab.async false

namespace Sys2Proof.Machine

open Sys2Proof Sys2Proof.Safety

/-- Each step of a list establishes `P` of its own element, and no step undoes it. -/
theorem foldl_reaches {σ γ : Type} {P : γ → σ → Prop} (f : σ → γ → σ) (own : ∀ s a, P a (f s a)) (others : ∀ s a b, P a s → P a (f s b))
    {l : List γ} {a : γ} (h : a ∈ l) (s : σ) : P a (l.foldl f s) := by
  have keep : ∀ (l : List γ) (s : σ), P a s → P a (l.foldl f s) := by
    intro l
    induction l with
    | nil => exact fun _ h => h
    | cons b l ih => exact fun s h => ih _ (others s a b h)
  induction l generalizing s with
  | nil => cases h
  | cons b l ih =>
    rcases List.mem_cons.1 h with rfl | h
    · exact keep l _ (own s a)
    · exact ih h _

/-- A relation that every step of a list keeps. -/
theorem foldl_rel {σ γ : Type} {R : σ → σ → Prop} (refl : ∀ s, R s s) (trans : ∀ {s t u}, R s t → R t u → R s u) (f : σ → γ → σ) (l : List γ)
    (h : ∀ s, ∀ a ∈ l, R s (f s a)) (s : σ) : R s (l.foldl f s) := by
  induction l generalizing s with
  | nil => exact refl s
  | cons a l ih => exact trans (h s a List.mem_cons_self) (ih (fun s b hb => h s b (List.mem_cons_of_mem _ hb)) _)

/-- An L1's copies of a line, as they are listed. -/
def heldCopies (m : SMap Line) (k : Nat) : SMap Line := m.filter fun e => e.1 / 256 == k

/-- Only one line moves between the caches and its home. -/
structure Settles (line : Nat) (s t : State) : Prop where
  only : MemOnly s t
  l1 : ∀ k, k ≠ line → heldCopies t.m.l1 k = heldCopies s.m.l1 k
  llc : ∀ k, k ≠ line → t.llcLine k = s.llcLine k
  home : ∀ k, k ≠ line → t.homeData k = s.homeData k

theorem Settles.refl (line : Nat) (s : State) : Settles line s s := ⟨.refl s, fun _ _ => rfl, fun _ _ => rfl, fun _ _ => rfl⟩

theorem Settles.trans {line : Nat} {s t u : State} (h : Settles line s t) (k : Settles line t u) : Settles line s u :=
  ⟨h.only.trans k.only, fun i hi => (k.l1 i hi).trans (h.l1 i hi), fun i hi => (k.llc i hi).trans (h.llc i hi), fun i hi => (k.home i hi).trans (h.home i hi)⟩

theorem Settles.ite {line : Nat} {s t u : State} {p : Prop} [Decidable p] (h : p → Settles line s t) (k : ¬ p → Settles line s u) :
    Settles line s (if p then t else u) := by
  split
  · exact h ‹_›
  · exact k ‹_›

theorem heldCopies_get {m n : SMap Line} {k c : Nat} (h : heldCopies m k = heldCopies n k) (hc : c < 256) :
    SMap.get {} m (256 * k + c) = SMap.get {} n (256 * k + c) := by
  have e : ∀ m : SMap Line, SMap.get {} m (256 * k + c) = SMap.get {} (heldCopies m k) (256 * k + c) := fun m => by
    refine ((SMap.get_filter_key ({} : Line) (fun j => j / 256 == k) m _).trans (if_pos ?_)).symm
    simp only [beq_iff_eq]
    omega
  rw [e m, e n, h]

theorem Settles.l1Line {line : Nat} {s t : State} (h : Settles line s t) {c k : Nat} (hk : k ≠ line) (hc : c < 256) : t.l1Line c k = s.l1Line c k :=
  heldCopies_get (h.l1 k hk) hc

theorem holders_eq (s : State) (k : Nat) : s.holders k = ((heldCopies s.m.l1 k).filter fun e => (s.l1Line (e.1 % 256) k).valid).map fun e => e.1 % 256 := by
  unfold State.holders heldCopies
  rw [List.filter_filter]
  congr 2
  funext e
  exact Bool.and_comm _ _

theorem Settles.owner {line : Nat} {s t : State} (h : Settles line s t) {k : Nat} (hk : k ≠ line) : t.owner k = s.owner k := by
  have hl : ∀ c, c < 256 → t.l1Line c k = s.l1Line c k := fun c hc => h.l1Line hk hc
  have hh : t.holders k = s.holders k := by
    rw [holders_eq, holders_eq, h.l1 k hk]
    congr 2
    funext e
    rw [hl _ (Nat.mod_lt _ (by decide))]
  unfold State.owner
  rw [hh]
  exact List.find?_congr fun c hc => by rw [hl c (mem_holders.1 hc).1]

theorem Settles.below {line : Nat} {s t : State} (h : Settles line s t) {k : Nat} (hk : k ≠ line) : (t.below k).1 = (s.below k).1 := by
  simp only [State.below, h.llc k hk, h.home k hk]
  split <;> rfl

theorem Settles.lineVal {line : Nat} {s t : State} (h : Settles line s t) {k : Nat} (hk : k ≠ line) : (t.lineVal k).1 = (s.lineVal k).1 :=
  lineVal_of k (h.owner hk) (fun _ hc => h.l1Line hk hc) (h.below hk)

theorem Booked.settles {s t : State} (h : Booked s t) (line : Nat) : Settles line s t :=
  ⟨h.only, fun k _ => by rw [h.l1], fun k _ => h.llcLine k, fun k _ => h.homeData k⟩

theorem setLlc_settles (s : State) (line : Nat) (x : Line) : Settles line s (s.setLlc line x) :=
  ⟨setLlc_only _ _ _, fun _ _ => rfl, fun k hk => by rw [llcLine_setLlc, if_neg hk], fun _ _ => rfl⟩

theorem setL1_settles (s : State) (c line : Nat) (x : Line) (hc : c < 256) : Settles line s (s.setL1 c line x) := by
  refine ⟨setL1_only _ _ _ _, fun k hk => ?_, fun _ _ => rfl, fun _ _ => rfl⟩
  have hkey : ∀ y : Line, ((256 * line + c, y).1 / 256 == k) = false := fun y => by simp only [beq_eq_false_iff_ne]; omega
  show heldCopies (SMap.set {} s.m.l1 (256 * line + c) x) k = heldCopies s.m.l1 k
  unfold SMap.set heldCopies
  split
  · rw [List.filter_filter]
    refine List.filter_congr fun e _ => ?_
    by_cases h : e.1 = 256 * line + c
    · rw [h]; simpa using hkey x
    · simp [h]
  · exact filter_insert _ _ _ _ hkey

theorem putHome_settles (s : State) (line : Nat) (d : BitVec 512) (b : Bool) : Settles line s (s.putHome line d b) :=
  ⟨putHome_only _ _ _ _, fun _ _ => rfl, fun k _ => llcLine_putHome _ _ _ _ _, fun k hk => by rw [homeData_putHome, if_neg hk]⟩

theorem putBelow_settles (s : State) (line : Nat) (d : BitVec 512) (p : BitVec 16) : Settles line s (s.putBelow line d p) :=
  .ite (fun _ => setLlc_settles _ _ _) fun _ => putHome_settles _ _ _ _

theorem fillLlc_settles (s : State) (line : Nat) : Settles line s (s.fillLlc line) := by
  unfold State.fillLlc
  split
  · exact .refl line s
  · exact .ite (fun _ => .refl line s) fun _ => ((passLine_booked _ _ _ _).settles line).trans (setLlc_settles _ _ _)

theorem writeBack_settles (s : State) (c line : Nat) : Settles line s (s.writeBack c line) :=
  (fillLlc_settles s line).trans (((setClock_booked _ _ _).settles line).trans (putBelow_settles _ _ _ _))

theorem saveL1_settles (s : State) (c line : Nat) (hc : c < 256) : Settles line s (s.saveL1 c line) :=
  .ite (fun _ => (writeBack_settles _ _ _).trans (setL1_settles _ _ _ _ hc)) fun _ => .refl line s

theorem dropL1_settles (s : State) (c line : Nat) (hc : c < 256) : Settles line s (s.dropL1 c line) :=
  .ite (fun _ => ((returnLine_booked _ _ _).settles line).trans (setL1_settles _ _ _ _ hc)) fun _ => .refl line s

theorem evictL1_settles (s : State) (c line : Nat) (hc : c < 256) : Settles line s (s.evictL1 c line) := by
  refine ((billBack_booked s c line).settles line).trans (.trans ?_ (dropL1_settles _ c line hc))
  exact .ite (fun _ => writeBack_settles _ _ _) fun _ => saveL1_settles _ _ _ hc

theorem dropLlc_settles (s : State) (line : Nat) : Settles line s (s.dropLlc line) :=
  .ite (fun _ => ((passLine_booked _ _ _ _).settles line).trans (setLlc_settles _ _ _)) fun _ => .refl line s

theorem cleanLlc_settles (s : State) (line : Nat) : Settles line s (s.cleanLlc line) :=
  .ite (fun _ => ((setClock_booked _ _ _).settles line).trans ((putHome_settles _ _ _ _).trans (setLlc_settles _ _ _))) fun _ => .refl line s

/-- A recall drops the copies that are not the owner's, then takes the owner's. -/
theorem recall_eq (s : State) (line : Nat) (u : State)
    (hu : u = (s.holders line).foldl (fun s_1 c => if (none : Option Nat) == some c || s.owner line == some c then s_1 else s_1.dropL1 c line) s) :
    s.recall line none = match s.owner line with | some c => u.evictL1 c line | none => u := by
  subst hu
  unfold State.recall
  dsimp only
  cases s.owner line <;> rfl

theorem recall_settles (s : State) (line : Nat) : Settles line s (s.recall line none) := by
  rw [recall_eq s line _ rfl]
  have hu := foldl_rel (R := Settles line) (.refl line) .trans
    (fun (s_1 : State) c => if (none : Option Nat) == some c || s.owner line == some c then s_1 else s_1.dropL1 c line) (s.holders line)
    (fun t c hc => .ite (fun _ => .refl line t) fun _ => dropL1_settles t c line (mem_holders.1 hc).1) s
  split
  · next c ho => exact hu.trans (evictL1_settles _ c line (owner_some ho).1)
  · exact hu

/-- After a recall no L1 holds the line. -/
theorem recall_gone (s : State) (line c : Nat) (hc : c < 256) : ((s.recall line none).l1Line c line).valid = false := by
  rw [recall_eq s line _ rfl]
  obtain ⟨-, -, -, hdrop, -⟩ := dropOthers line (s.owner line) (s.holders line) s (fun c hc => (mem_holders.1 hc).1) rfl _ rfl
  have hother : s.owner line ≠ some c → c ∈ s.holders line ∧ s.owner line ≠ some c ∨ (s.l1Line c line).valid = false := fun h => by
    by_cases hv : (s.l1Line c line).valid = true
    · exact .inl ⟨mem_holders.2 ⟨hc, hv⟩, h⟩
    · exact .inr (by simpa using hv)
  split
  · next a ho =>
    obtain ⟨w, hw, hl1, -⟩ := evictL1_pre ((s.holders line).foldl (fun s_1 c => if (none : Option Nat) == some c || s.owner line == some c then s_1 else s_1.dropL1 c line) s) a line
    rw [hw]
    by_cases hca : c = a
    · subst hca; exact dropL1_gone _ _ _
    · have hne : ¬ 256 * line + c = 256 * line + a := by omega
      rw [dropL1_line _ _ _ _ _ hne]
      have hinv := hdrop c hc (hother (by rw [ho]; simpa using fun h => hca h.symm))
      rcases hl1 with hl1 | hl1
      · rw [l1Line_congr hl1]; exact hinv
      · rw [l1Line_congr hl1, l1Line_setL1, if_neg hne]; exact hinv
  · next ho => exact hdrop c hc (hother (by rw [ho]; simp))

/-- R190: a line of the LLC, where clean, has its home's data. -/
def CleanAt (s : State) (line : Nat) : Prop := (s.llcLine line).valid = true → (s.llcLine line).dirty = false → (s.llcLine line).data = s.homeData line

theorem CleanAt.congr {s t : State} {line : Nat} (h : CleanAt s line) (hl : t.llcLine line = s.llcLine line) (hd : t.homeData line = s.homeData line) :
    CleanAt t line := by
  unfold CleanAt
  rw [hl, hd]
  exact h

theorem CleanAt.setL1 {s : State} {line : Nat} (h : CleanAt s line) (c : Nat) (x : Line) : CleanAt (s.setL1 c line x) line :=
  h.congr rfl (homeData_congr rfl rfl _)

theorem Settles.cleanAt {line : Nat} {s t : State} (h : Settles line s t) (h0 : CleanAt t line) (hs : ∀ k, CleanAt s k) (k : Nat) : CleanAt t k := by
  by_cases hk : k = line
  · subst hk; exact h0
  · exact (hs k).congr (h.llc k hk) (h.home k hk)

theorem Booked.cleanAt {s t : State} (h : Booked s t) {line : Nat} (hs : CleanAt s line) : CleanAt t line := hs.congr (h.llcLine _) (h.homeData _)

theorem dropL1_cleanAt {s : State} (c : Nat) {line : Nat} (h : CleanAt s line) : CleanAt (s.dropL1 c line) line := by
  unfold State.dropL1
  split
  · exact ((returnLine_booked s c line).cleanAt h).setL1 c {}
  · exact h

/-- What goes below leaves the line dirty in the LLC, or not there at all. -/
theorem writeBack_cleanAt (s : State) (c line : Nat) : CleanAt (s.writeBack c line) line := by
  unfold State.writeBack
  dsimp only
  unfold State.putBelow
  split
  · intro _ hd
    rw [llcLine_setLlc, if_pos rfl] at hd
    cases hd
  · next hv =>
    intro hv'
    rw [llcLine_putHome] at hv'
    exact absurd hv' hv

theorem evictL1_cleanAt {s : State} (c : Nat) {line : Nat} (h : CleanAt s line) : CleanAt (s.evictL1 c line) line := by
  refine dropL1_cleanAt c ?_
  have hb := (billBack_booked s c line).cleanAt h
  split
  · exact writeBack_cleanAt _ _ _
  · unfold State.saveL1
    dsimp only
    split
    · exact (writeBack_cleanAt _ _ _).setL1 c _
    · exact hb

theorem recall_cleanAt {s : State} {line : Nat} (h : CleanAt s line) : CleanAt (s.recall line none) line := by
  rw [recall_eq s line _ rfl]
  have hu := List.foldlRecOn (motive := fun t : State => CleanAt t line) (s.holders line)
    (fun (s_1 : State) c => if (none : Option Nat) == some c || s.owner line == some c then s_1 else s_1.dropL1 c line) h
    (fun t ht c _ => by
      split
      · exact ht
      · exact dropL1_cleanAt c ht)
  split
  · exact evictL1_cleanAt _ hu
  · exact hu

/-- After its write-back the line is clean in the LLC, or not there, and has its home's data. -/
theorem cleanLlc_cleaned {s : State} {line : Nat} (h : CleanAt s line) :
    CleanAt (s.cleanLlc line) line ∧ (((s.cleanLlc line).llcLine line).valid = true → ((s.cleanLlc line).llcLine line).dirty = false) := by
  unfold State.cleanLlc
  dsimp only
  split
  · constructor
    · intro _ _
      rw [homeData_setLlc, homeData_putHome, if_pos rfl, llcLine_setLlc, if_pos rfl]
    · intro _
      rw [llcLine_setLlc, if_pos rfl]
  · next hd =>
    refine ⟨h, fun hv => ?_⟩
    simpa [hv] using hd

/-- R29: a line written back and dropped from the LLC. -/
def State.clearLlc (s : State) (line : Nat) : State := (s.cleanLlc line).dropLlc line

theorem clearLlc_settles (s : State) (line : Nat) : Settles line s (s.clearLlc line) := (cleanLlc_settles s line).trans (dropLlc_settles _ line)

theorem clearLlc_gone (s : State) (line : Nat) : ((s.clearLlc line).llcLine line).valid = false := dropLlc_gone _ _

theorem clearLlc_l1 (s : State) (line : Nat) : (s.clearLlc line).m.l1 = s.m.l1 := (dropLlc_l1 _ _).trans (cleanLlc_l1 _ _)

theorem dropLlc_home (s : State) (line k : Nat) : (s.dropLlc line).homeData k = s.homeData k := by
  unfold State.dropLlc
  split
  · exact (homeData_setLlc _ _ _ _).trans ((passLine_booked _ _ _ _).homeData k)
  · rfl

/-- The home takes the line's value. -/
theorem clearLlc_home {s : State} {line : Nat} (h : CleanAt s line) : (s.clearLlc line).homeData line = (s.below line).1 := by
  obtain ⟨hc, hd⟩ := cleanLlc_cleaned h
  rw [State.clearLlc, dropLlc_home, ← cleanLlc_below s line line]
  by_cases hv : ((s.cleanLlc line).llcLine line).valid = true
  · rw [below_llc hv, hc hv (hd hv)]
  · rw [below_home (by simpa using hv)]

theorem clearLlc_below {s : State} {line : Nat} (h : CleanAt s line) (k : Nat) : ((s.clearLlc line).below k).1 = (s.below k).1 := by
  by_cases hk : k = line
  · subst hk
    rw [below_home (clearLlc_gone s k), clearLlc_home h]
  · exact (clearLlc_settles s line).below hk

/-- Lines move between the caches and their homes: no value changes where clean lines are clean, and no copy comes to be where none was. -/
structure Moves (s t : State) : Prop where
  only : MemOnly s t
  clean : (∀ k, CleanAt s k) → ∀ k, CleanAt t k
  val : (∀ k, CleanAt s k) → ∀ k, (t.lineVal k).1 = (s.lineVal k).1
  llc : ∀ k, (s.llcLine k).valid = false → (t.llcLine k).valid = false
  l1 : ∀ c k, c < 256 → (s.l1Line c k).valid = false → (t.l1Line c k).valid = false

theorem Moves.refl (s : State) : Moves s s := ⟨.refl s, fun h => h, fun _ _ => rfl, fun _ h => h, fun _ _ _ h => h⟩

theorem Moves.trans {s t u : State} (h : Moves s t) (k : Moves t u) : Moves s u where
  only := h.only.trans k.only
  clean hs := k.clean (h.clean hs)
  val hs i := (k.val (h.clean hs) i).trans (h.val hs i)
  llc i hi := k.llc i (h.llc i hi)
  l1 c i hc hi := k.l1 c i hc (h.l1 c i hc hi)

theorem Moves.ite {s t u : State} {p : Prop} [Decidable p] (h : p → Moves s t) (k : ¬ p → Moves s u) : Moves s (if p then t else u) := by
  split
  · exact h ‹_›
  · exact k ‹_›

theorem Moves.foldl {γ : Type} (f : State → γ → State) (l : List γ) (h : ∀ s, ∀ a ∈ l, Moves s (f s a)) (s : State) : Moves s (l.foldl f s) :=
  foldl_rel Moves.refl Moves.trans f l h s

theorem Moves.keepsMemory {s t : State} (h : Moves s t) (hs : Coherent s) : KeepsMemory s t := fun a => by
  rw [readPhys_byte, readPhys_byte, h.val fun k => hs.clean k]

theorem Booked.moves {s t : State} (h : Booked s t) : Moves s t where
  only := h.only
  clean hs k := h.cleanAt (hs k)
  val _ k := lineVal_of k (owner_congr h.l1 k) (fun c _ => l1Line_congr h.l1 c k) (by rw [h.below])
  llc k hk := by rw [h.llcLine]; exact hk
  l1 c k _ hk := by rw [l1Line_congr h.l1]; exact hk

theorem clearLlc_moves (s : State) (line : Nat) : Moves s (s.clearLlc line) where
  only := (clearLlc_settles s line).only
  clean hs := (clearLlc_settles s line).cleanAt (fun hv => absurd hv (by rw [clearLlc_gone]; decide)) hs
  val hs k := lineVal_of k (owner_congr (clearLlc_l1 s line) k) (fun c _ => l1Line_congr (clearLlc_l1 s line) c k) (clearLlc_below (hs line) k)
  llc k hk := by
    by_cases h : k = line
    · subst h; exact clearLlc_gone s k
    · rw [(clearLlc_settles s line).llc k h]; exact hk
  l1 c k _ hk := by rw [l1Line_congr (clearLlc_l1 s line)]; exact hk

theorem flushLine_eq (s : State) (line : Nat) : s.flushLine line = (s.recall line none).clearLlc line := rfl

theorem flushLine_settles (s : State) (line : Nat) : Settles line s (s.flushLine line) := (recall_settles s line).trans (clearLlc_settles _ line)

theorem flushLine_llcGone (s : State) (line : Nat) : ((s.flushLine line).llcLine line).valid = false := clearLlc_gone _ _

theorem flushLine_l1Gone (s : State) (line c : Nat) (hc : c < 256) : ((s.flushLine line).l1Line c line).valid = false := by
  rw [flushLine_eq, l1Line_congr (clearLlc_l1 _ _)]
  exact recall_gone s line c hc

theorem flushLine_moves (s : State) (line : Nat) : Moves s (s.flushLine line) where
  only := (flushLine_settles s line).only
  clean hs := (flushLine_settles s line).cleanAt (fun hv => absurd hv (by rw [flushLine_llcGone]; decide)) hs
  val hs k := by
    rw [← (recall_spec s line).1 k]
    exact (clearLlc_moves _ line).val ((recall_settles s line).cleanAt (recall_cleanAt (hs line)) hs) k
  llc k hk := by
    by_cases h : k = line
    · subst h; exact flushLine_llcGone s k
    · rw [(flushLine_settles s line).llc k h]; exact hk
  l1 c k hc hk := by
    by_cases h : k = line
    · subst h; exact flushLine_l1Gone s k c hc
    · rw [(flushLine_settles s line).l1Line h hc]; exact hk

/-- No cache holds a line. -/
structure Uncached (s : State) (line : Nat) : Prop where
  llc : (s.llcLine line).valid = false
  l1 : ∀ c, c < 256 → (s.l1Line c line).valid = false

theorem Moves.uncached {s t : State} (h : Moves s t) {line : Nat} (hs : Uncached s line) : Uncached t line :=
  ⟨h.llc line hs.llc, fun c hc => h.l1 c line hc (hs.l1 c hc)⟩

theorem flushLine_uncached (s : State) (line : Nat) : Uncached (s.flushLine line) line := ⟨flushLine_llcGone s line, flushLine_l1Gone s line⟩

/-- A line that no cache holds has its home's value. -/
theorem Uncached.lineVal {s : State} {line : Nat} (h : Uncached s line) : (s.lineVal line).1 = s.homeData line := by
  have hh : s.holders line = [] := List.eq_nil_iff_forall_not_mem.2 fun c hc => by
    obtain ⟨hc, hv⟩ := mem_holders.1 hc
    rw [h.l1 c hc] at hv
    cases hv
  rw [lineVal_noOwner (owner_none_of_holders hh), below_home h.llc]

/-- Lines flushed one after another. -/
def State.flushLines (s : State) (lines : List Nat) : State := lines.foldl (fun (s : State) line => s.flushLine line) s

theorem flushLines_moves (s : State) (lines : List Nat) : Moves s (s.flushLines lines) :=
  .foldl _ lines (fun s line _ => flushLine_moves s line) s

theorem flushLines_uncached {lines : List Nat} {line : Nat} (h : line ∈ lines) (s : State) : Uncached (s.flushLines lines) line :=
  foldl_reaches (P := fun line s => Uncached s line) _ flushLine_uncached (fun s _ b h => (flushLine_moves s b).uncached h) h s

/-- A line that no list of the caches names is in none. -/
theorem uncached_of_not_held {s : State} {line : Nat} (h : line ∉ s.heldLines) : Uncached s line := by
  simp only [State.heldLines, List.mem_append, List.mem_map, not_or, not_exists, not_and] at h
  obtain ⟨h1, h2⟩ := h
  constructor
  · by_contra hv
    obtain ⟨e, he, hk⟩ := SMap.mem_of_get (d := ({} : Line)) (m := s.m.llc) (k := line) fun h0 => hv (by unfold State.llcLine; rw [h0])
    exact h2 e he hk
  · intro c hc
    by_contra hv
    obtain ⟨e, he, hk⟩ := SMap.mem_of_get (d := ({} : Line)) (m := s.m.l1) (k := 256 * line + c) fun h0 => hv (by unfold State.l1Line; rw [h0])
    exact h1 e he (by rw [hk]; omega)

/-- Every line of a kind leaves the caches where the lines of that kind that they hold are flushed. -/
theorem flushHeld_uncached (s : State) (p : Nat → Bool) (line : Nat) (h : p line = true) : Uncached (s.flushLines (s.heldLines.filter p)) line := by
  by_cases hl : line ∈ s.heldLines
  · exact flushLines_uncached (List.mem_filter.2 ⟨hl, h⟩) s
  · exact (flushLines_moves s _).uncached (uncached_of_not_held hl)

end Sys2Proof.Machine
end

section
/-! SUPPORT. The address maps and the package's number (R24, R27-R29, R341, R342): the requests that go before an install, the maps
installed, contents that become undefined, and memory as it moves with the number. -/

set_option Elab.async false

namespace Sys2Proof.Machine

open Sys2Proof Sys2Proof.Safety

/-! ### Requests -/

/-- What requests keep beside `Asked`: the covers of memory, and that clean lines of the LLC are clean. -/
structure Requested (s t : State) : Prop where
  asked : Asked s t
  scrambled : t.m.scrambled = s.m.scrambled
  clean : (∀ k, CleanAt s k) → ∀ k, CleanAt t k

theorem Requested.refl (s : State) : Requested s s := ⟨.refl s, rfl, fun h => h⟩

theorem Requested.trans {s t u : State} (h : Requested s t) (k : Requested t u) : Requested s u :=
  ⟨h.asked.trans k.asked, k.scrambled.trans h.scrambled, fun hs => k.clean (h.clean hs)⟩

theorem Booked.requested {s t : State} (h : Booked s t) : Requested s t := ⟨h.asked, by rw [h.m], fun hs k => h.cleanAt (hs k)⟩

/-- A change of what only requests keep. -/
theorem Requested.of_same {s t : State} (h : Asked s t) (hs : t.m.scrambled = s.m.scrambled) (hl : t.m.llc = s.m.llc) : Requested s t :=
  ⟨h, hs, fun hc k => (hc k).congr (by unfold State.llcLine; rw [hl]) (homeData_congr h.mem hs k)⟩

theorem fillLlc_requested (s : State) (line : Nat) : Requested s (s.fillLlc line) where
  asked := fillLlc_asked s line
  scrambled := by rw [(fillLlc_only s line).m]
  clean hs := by
    refine (fillLlc_settles s line).cleanAt ?_ hs
    unfold State.fillLlc
    split
    · exact hs line
    · next k _ =>
      split
      · exact hs line
      · next h =>
        have hv : (s.llcLine line).valid = false := by
          cases hv : (s.llcLine line).valid
          · rfl
          · simp [hv] at h
        intro _ _
        rw [llcLine_setLlc, if_pos rfl, homeData_setLlc, (passLine_booked _ _ _ _).homeData]
        exact below_home hv

theorem takeTurns_requested (s : State) (t : Nat) (ls : List Nat) : Requested s (s.takeTurns t ls) := by
  refine .of_same (takeTurns_asked s t ls) ?_ ?_ <;> unfold State.takeTurns <;> split <;> rfl

theorem askGo_requested (s : State) (a : Ask) : Requested s (s.askGo a) := by
  have h : Requested s ((s.bill a.tenant (s.askLinks a) a.bytes).takeTurns a.tenant (s.askLinks a)) :=
    (bill_booked _ _ _ _).requested.trans (takeTurns_requested _ _ _)
  unfold State.askGo
  dsimp only
  generalize (s.bill a.tenant (s.askLinks a) a.bytes).takeTurns a.tenant (s.askLinks a) = u at h ⊢
  have h' : Requested s { u with m := { u.m with served := u.m.served.erase (a.key, a.line) } } :=
    h.trans (.of_same ⟨rfl, rfl, rfl, rfl, rfl, rfl, rfl, fun k => below_congr rfl rfl rfl rfl k⟩ rfl rfl)
  split
  · split
    · exact h'
    · exact h'.trans (fillLlc_requested _ _)
  · exact h

theorem passAsks_requested (s : State) (as : List Ask) : Requested s (s.passAsks as).2 := by
  induction as generalizing s with
  | nil => exact .refl s
  | cons a as ih =>
    unfold State.passAsks
    split
    · exact ih s
    · split
      · refine (askGo_requested s a).trans (.trans ?_ (ih _))
        exact .of_same ⟨rfl, rfl, rfl, rfl, rfl, rfl, rfl, fun k => below_congr rfl rfl rfl rfl k⟩ rfl rfl
      · exact .of_same ⟨rfl, rfl, rfl, rfl, rfl, rfl, rfl, fun k => below_congr rfl rfl rfl rfl k⟩ rfl rfl

theorem Asked.readPhys {s t : State} (h : Asked s t) (a : Nat) : t.readPhys a 1 = s.readPhys a 1 := by
  rw [readPhys_byte, readPhys_byte,
    lineVal_of (s := s) (t := t) (a / 64) (owner_congr h.l1 _) (fun c _ => l1Line_congr h.l1 c _) (by rw [h.below])]

/-- An agent whose requests have been answered acts. -/
theorem act_of_answered {s : State} {as : List Ask} (h : answered s as) (key : Nat) (f : State → State) :
    s.act key as f = (f (s.passAsks as).2).agentDone key := by
  obtain ⟨hgo, hfree⟩ := h
  have hn : as.any (fun a => s.heldWrite a || s.hostHolds a) = false := by
    rw [List.any_eq_false]
    intro a ha
    simp [hfree a ha]
  unfold State.act State.actOr
  simp [hgo, hn]

/-! ### Values of lines by the bytes of their homes -/

theorem homeData_of_bytes {s t : State} {line : Nat} (h : ∀ i, i < 64 → t.homeByte (64 * line + i) = s.homeByte (64 * line + i)) :
    t.homeData line = s.homeData line :=
  line_ext fun i hi => by rw [byteOf_homeData _ _ _ hi, byteOf_homeData _ _ _ hi, h i hi]

/-- A byte whose line the caches hold as before, with the bytes of its home as before. -/
theorem readPhys_of_bytes {s t : State} (a : Nat) (hl1 : t.m.l1 = s.m.l1) (hllc : t.m.llc = s.m.llc)
    (h : ∀ i, i < 64 → t.homeByte (64 * (a / 64) + i) = s.homeByte (64 * (a / 64) + i)) : t.readPhys a 1 = s.readPhys a 1 := by
  have hb : (t.below (a / 64)).1 = (s.below (a / 64)).1 := by
    have hl : t.llcLine (a / 64) = s.llcLine (a / 64) := by unfold State.llcLine; rw [hllc]
    simp only [State.below, hl, homeData_of_bytes h]
    split <;> rfl
  rw [readPhys_byte, readPhys_byte, lineVal_of (a / 64) (owner_congr hl1 _) (fun c _ => l1Line_congr hl1 c _) hb]

/-- A byte of a line that no cache holds is its home's. -/
theorem Uncached.readPhys {s : State} {a : Nat} (h : Uncached s (a / 64)) : s.readPhys a 1 = (s.homeByte a).toNat := by
  rw [readPhys_byte, h.lineVal, byteOf_homeData _ _ _ (Nat.mod_lt _ (by decide)), Nat.div_add_mod]

/-! ### Submission -/

/-- R309: the write of one device register. -/
theorem setDev_setsDev (s : State) (n : Nat) (v : Word) : SetsDev n v s (s.setDev n v) :=
  ⟨⟨rfl, rfl, rfl, rfl, rfl⟩, rfl, State.setDev_dev s n v⟩

theorem setMapstat_eq (s : State) (code : Nat) (busy : Bool) :
    s.setMapstat code busy = s.setDev 0x412 (BitVec.ofNat 32 (code + busy.toNat * 2 ^ 31)) := rfl

theorem mapstat_busy (code : Nat) (h : code < 2 ^ 31) : (BitVec.ofNat 32 (code + true.toNat * 2 ^ 31)).getLsbD 31 = true := by
  rw [BitVec.getLsbD_ofNat, Bool.toNat_true, Nat.one_mul, Nat.add_comm, Nat.testBit_two_pow_add_eq, Nat.testBit_lt_two_pow h]
  rfl

/-! ### The install -/

/-- Keys written one after another, each once. -/
theorem get_foldl_set [DecidableEq α] (d : α) (f : Nat → Nat) (g : Nat → α) (m : SMap α) (n k : Nat) (hf : ∀ i j, f i = f j → i = j) :
    (∀ i, i < n → SMap.get d ((List.range n).foldl (fun m i => SMap.set d m (f i) (g i)) m) (f i) = g i) ∧
    ((∀ i, i < n → k ≠ f i) → SMap.get d ((List.range n).foldl (fun m i => SMap.set d m (f i) (g i)) m) k = SMap.get d m k) := by
  induction n with
  | zero => exact ⟨fun i hi => absurd hi (Nat.not_lt_zero i), fun _ => rfl⟩
  | succ n ih =>
    rw [List.range_succ, List.foldl_append, List.foldl_cons, List.foldl_nil]
    constructor
    · intro i hi
      rw [SMap.get_set]
      split
      · next h => rw [hf i n h]
      · next h => exact ih.1 i (by rcases Nat.lt_succ_iff_lt_or_eq.1 hi with h' | rfl <;> [exact h'; exact absurd rfl h])
    · intro h
      rw [SMap.get_set_other _ _ _ (h n (Nat.lt_succ_self n))]
      exact ih.2 fun i hi => h i (Nat.lt_succ_of_lt hi)

/-- R29: the rows put in force are those of one region. -/
theorem setMap_mapRow (s : State) (k : Nat) (rows : List Nat) (j i : Nat) (hi : i < 33) :
    (s.setMap k rows).mapRow j i = if j = k then rows.getD i 0 else s.mapRow j i := by
  have h := get_foldl_set none (fun i => 64 * k + i) (fun i => if rows.getD i 0 == resetRow i then none else some (rows.getD i 0)) s.reg.maps 33 (64 * j + i)
    (fun a b hab => by simpa using hab)
  unfold State.mapRow State.setMap
  dsimp only
  split
  · next hj =>
    subst hj
    rw [h.1 i hi]
    split
    · next he => exact (beq_iff_eq.1 he).symm
    · rfl
  · next hj => rw [h.2 fun a ha => by omega]

/-- R27: the region of a byte of this package, by its address. -/
theorem inRegion_of_div {s : State} {k a : Nat} (hk : k < 8) (h : a / 2 ^ 36 = s.pkgnum * 8 + k) : s.inRegion k (a / 64) = true := by
  have hp : s.pkgnum < 64 := Nat.mod_lt _ (by decide)
  simp only [State.inRegion, State.ownHbm, hbmEnd, pkgOf, Bool.and_eq_true, beq_iff_eq]
  refine ⟨⟨decide_eq_true ?_, ?_⟩, ?_⟩ <;> omega

/-- R29: contents become undefined in one region alone. -/
theorem scramble_homeByte (s : State) (k a : Nat) (h : a / 2 ^ 36 ≠ s.pkgnum * 8 + k) : (s.scramble k).homeByte a = s.homeByte a := by
  have hm : memByte (s.scramble k).m.mem a = memByte s.m.mem a := by
    have := SMap.get_filter_key memDefault (fun b => b / 2 ^ 36 != s.pkgnum * 8 + k) s.m.mem a
    rw [if_pos (by simpa using h)] at this
    exact this
  have hc : (s.scramble k).cover a = s.cover a := by
    unfold State.cover
    have : SMap.get 0 (s.scramble k).m.scrambled (a / 2 ^ 36) = SMap.get 0 s.m.scrambled (a / 2 ^ 36) :=
      SMap.get_set_other 0 s.m.scrambled (s.sch.free + 1) h
    rw [this]
  unfold State.homeByte
  rw [hm, hc]

theorem scramble_keepsProgram (s : State) (k : Nat) : KeepsProgram s (s.scramble k) := .of_waves rfl rfl rfl

/-- R29: the map change that MAP_INSTALL makes once all it waits for has come. -/
def State.installMap (s : State) (v : MapLoad) : State :=
  let s := (((s.flushRegion v.region).scramble v.region).setMap v.region v.rows).forgetGot v.region
  ({ s with reg := { s.reg with mapLoad := none } } : State).setMapstat v.code false

theorem flushRegion_eq (s : State) (k : Nat) : s.flushRegion k = s.flushLines (s.heldLines.filter (s.inRegion k)) := rfl

theorem inRegion_congr {s t : State} (h : t.reg = s.reg) (k line : Nat) : t.inRegion k line = s.inRegion k line := by
  simp only [State.inRegion, State.ownHbm, State.pkgnum, State.dev, h]

theorem flushRegion_keepsProgram (s : State) (k : Nat) : KeepsProgram s (s.flushRegion k) := (flushLines_moves s _).only.keepsProgram

theorem installMap_keepsRegisters (s : State) (v : MapLoad) : KeepsRegisters s (s.installMap v) :=
  (flushRegion_keepsProgram s v.region).regs.trans ((scramble_keepsProgram _ v.region).regs.trans (.of_waves rfl))

theorem installMap_teams (s : State) (v : MapLoad) : (s.installMap v).x.teams = s.x.teams := (flushRegion_keepsProgram s v.region).teams

theorem installMap_mapRow (s : State) (v : MapLoad) (j i : Nat) (hi : i < 33) :
    (s.installMap v).mapRow j i = if j = v.region then v.rows.getD i 0 else s.mapRow j i := by
  have h := setMap_mapRow ((s.flushRegion v.region).scramble v.region) v.region v.rows j i hi
  have hr : ((s.flushRegion v.region).scramble v.region).mapRow j i = s.mapRow j i := by
    unfold State.mapRow
    rw [((flushRegion_keepsProgram s v.region).trans (scramble_keepsProgram _ v.region)).reg]
  rw [hr] at h
  exact h

theorem installMap_uncached (s : State) (v : MapLoad) (line : Nat) (h : s.inRegion v.region line = true) : Uncached (s.installMap v) line := by
  obtain ⟨hl, h1⟩ := flushHeld_uncached s (s.inRegion v.region) line h
  exact ⟨hl, h1⟩

theorem installMap_readPhys {s : State} (hs : ∀ k, CleanAt s k) (v : MapLoad) (hk : v.region < 8) (a : Nat) (h : s.inRegion v.region (a / 64) = false) :
    (s.installMap v).readPhys a 1 = s.readPhys a 1 := by
  have hf : (s.flushRegion v.region).readPhys a 1 = s.readPhys a 1 := by
    rw [readPhys_byte, readPhys_byte, flushRegion_eq, (flushLines_moves s _).val hs]
  rw [← hf]
  refine readPhys_of_bytes a rfl rfl fun i hi => ?_
  refine scramble_homeByte (s.flushRegion v.region) v.region _ fun he => ?_
  have hp : (s.flushRegion v.region).pkgnum = s.pkgnum := by
    unfold State.pkgnum State.dev
    rw [(flushRegion_keepsProgram s v.region).reg]
  rw [hp] at he
  have ha : a / 2 ^ 36 = s.pkgnum * 8 + v.region := by omega
  rw [inRegion_of_div hk ha] at h
  cases h

end Sys2Proof.Machine
end

section
/-! SUPPORT. The package's memory as its number changes (R24, R342). -/

set_option Elab.async false

namespace Sys2Proof.Machine

open Sys2Proof Sys2Proof.Safety

variable {α : Type}

theorem SMap.lt_of_rising {m : SMap α} {b : Nat} (h : SMap.rising (some b) m = true) {e : Nat × α} (he : e ∈ m) : b < e.1 := by
  induction m generalizing b with
  | nil => cases he
  | cons f rest ih =>
    simp only [SMap.rising, Bool.and_eq_true, decide_eq_true_eq] at h
    rcases List.mem_cons.1 he with rfl | he
    · exact h.1
    · exact h.1.trans (ih h.2 he)

theorem SMap.rising_tail {b : Option Nat} {e : Nat × α} {rest : SMap α} (h : SMap.rising b (e :: rest) = true) : SMap.rising (some e.1) rest = true := by
  obtain ⟨k, v⟩ := e
  simp only [SMap.rising, Bool.and_eq_true] at h
  exact h.2

/-- A map whose keys move one to one. -/
theorem SMap.get_setAll_move [DecidableEq α] (d : α) (f : Nat → Nat) (hf : ∀ i j, f i = f j → i = j) (m acc : SMap α) (b : Option Nat)
    (h : SMap.rising b m = true) (k : Nat) :
    SMap.get d (SMap.setAll d acc (m.map fun e => (f e.1, e.2))) (f k) = if ∃ e ∈ m, e.1 = k then SMap.get d m k else SMap.get d acc (f k) := by
  induction m generalizing acc b with
  | nil => simp [SMap.setAll]
  | cons e rest ih =>
    obtain ⟨j, v⟩ := e
    have hr := SMap.rising_tail h
    have ih := ih (SMap.set d acc (f j) v) (some j) hr
    rw [List.map_cons, SMap.setAll, List.foldl_cons]
    refine ih.trans ?_
    by_cases hk : k = j
    · subst hk
      have hn : ¬ ∃ e ∈ rest, e.1 = k := fun ⟨e, he, hek⟩ => absurd (SMap.lt_of_rising hr he) (by simp [hek])
      rw [if_neg hn, SMap.get_set_self, if_pos ⟨(k, v), List.mem_cons_self, rfl⟩]
      simp [SMap.get]
    · have hset : SMap.get d (SMap.set d acc (f j) v) (f k) = SMap.get d acc (f k) := SMap.get_set_other _ _ _ fun h => hk (hf _ _ h)
      have hget : SMap.get d ((j, v) :: rest) k = SMap.get d rest k := by simp [SMap.get, hk]
      have hmem : (∃ e ∈ (j, v) :: rest, e.1 = k) ↔ ∃ e ∈ rest, e.1 = k := by
        simp only [List.mem_cons, exists_eq_or_imp]
        exact or_iff_right fun h => hk h.symm
      rw [hset, hget]
      simp only [hmem]

theorem SMap.get_move [DecidableEq α] (d : α) (f : Nat → Nat) (hf : ∀ i j, f i = f j → i = j) {m : SMap α} (h : SMap.wf d m = true) (k : Nat) :
    SMap.get d (SMap.setAll d [] (m.map fun e => (f e.1, e.2))) (f k) = SMap.get d m k := by
  rw [SMap.get_setAll_move d f hf m [] none ((SMap.wf_iff d m).1 h).1 k]
  split
  · rfl
  · next hn =>
    by_contra hne
    obtain ⟨e, he, hek⟩ := SMap.mem_of_get fun h => hne h.symm
    exact hn ⟨e, he, hek⟩

/-! ### The swap of two numbers -/

variable (old new unit a : Nat)

theorem swapPkg_old (b : Nat) (hb : b < unit) : swapPkg old new (old * unit + b) unit = new * unit + b := by
  have h : (old * unit + b) / unit = old := by
    rw [Nat.mul_comm, Nat.mul_add_div (by omega), Nat.div_eq_of_lt hb, Nat.add_zero]
  unfold swapPkg
  rw [if_pos (by simp [h])]
  omega

theorem swapPkg_new (b : Nat) (hb : b < unit) : swapPkg old new (new * unit + b) unit = old * unit + b := by
  have h : (new * unit + b) / unit = new := by
    rw [Nat.mul_comm, Nat.mul_add_div (by omega), Nat.div_eq_of_lt hb, Nat.add_zero]
  unfold swapPkg
  by_cases hn : new = old
  · subst hn; rw [if_pos (by simp [h])]; omega
  · rw [if_neg (by simp [h, hn]), if_pos (by simp [h])]
    omega

theorem swapPkg_other (h1 : a / unit ≠ old) (h2 : a / unit ≠ new) : swapPkg old new a unit = a := by
  unfold swapPkg
  rw [if_neg (by simpa using h1), if_neg (by simpa using h2)]

/-- The three cases of an address. -/
theorem swapPkg_cases (h0 : 0 < unit) :
    (∃ b, b < unit ∧ a = old * unit + b) ∨ (∃ b, b < unit ∧ a = new * unit + b) ∨ (a / unit ≠ old ∧ a / unit ≠ new) := by
  by_cases h1 : a / unit = old
  · exact .inl ⟨a % unit, Nat.mod_lt _ h0, by rw [← h1, Nat.mul_comm, Nat.div_add_mod]⟩
  · by_cases h2 : a / unit = new
    · exact .inr (.inl ⟨a % unit, Nat.mod_lt _ h0, by rw [← h2, Nat.mul_comm, Nat.div_add_mod]⟩)
    · exact .inr (.inr ⟨h1, h2⟩)

theorem swapPkg_involutive (h0 : 0 < unit) : swapPkg old new (swapPkg old new a unit) unit = a := by
  rcases swapPkg_cases old new unit a h0 with ⟨b, hb, rfl⟩ | ⟨b, hb, rfl⟩ | ⟨h1, h2⟩
  · rw [swapPkg_old _ _ _ _ hb, swapPkg_new _ _ _ _ hb]
  · rw [swapPkg_new _ _ _ _ hb, swapPkg_old _ _ _ _ hb]
  · rw [swapPkg_other _ _ _ _ h1 h2, swapPkg_other _ _ _ _ h1 h2]

theorem swapPkg_injective (h0 : 0 < unit) (i j : Nat) (h : swapPkg old new i unit = swapPkg old new j unit) : i = j := by
  rw [← swapPkg_involutive old new unit i h0, h, swapPkg_involutive old new unit j h0]

/-- The region of an address moves as the address does, and its offset in the package stays. -/
theorem swapPkg_region : swapPkg old new a (2 ^ 39) / 2 ^ 36 = swapPkg old new (a / 2 ^ 36) 8 ∧ swapPkg old new a (2 ^ 39) % 2 ^ 39 = a % 2 ^ 39 := by
  rcases swapPkg_cases old new (2 ^ 39) a (by decide) with ⟨b, hb, rfl⟩ | ⟨b, hb, rfl⟩ | ⟨h1, h2⟩
  · have hd : (old * 2 ^ 39 + b) / 2 ^ 36 = old * 8 + b / 2 ^ 36 := by omega
    rw [swapPkg_old _ _ _ _ hb, hd, swapPkg_old _ _ _ _ (by omega)]
    omega
  · have hd : (new * 2 ^ 39 + b) / 2 ^ 36 = new * 8 + b / 2 ^ 36 := by omega
    rw [swapPkg_new _ _ _ _ hb, hd, swapPkg_new _ _ _ _ (by omega)]
    omega
  · rw [swapPkg_other _ _ _ _ h1 h2, swapPkg_other _ _ _ _ (by omega) (by omega)]
    exact ⟨rfl, rfl⟩

/-! ### The package renumbered -/

/-- The lines of the domain's HBM that the caches hold. -/
def State.hbmHeld (s : State) : List Nat := s.heldLines.filter fun l => 64 * l < hbmEnd

variable (s : State)

/-- What a change of the number leaves in a byte's home: what stood at the address it comes from. -/
theorem renumber_homeByte (hm : Memory.wf s.m.mem = true) (hc : SMap.wf 0 s.m.scrambled = true) :
    (s.renumber new).homeByte (swapPkg s.pkgnum new a (2 ^ 39)) = (s.flushLines s.hbmHeld).homeByte a := by
  have hmf : Memory.wf (s.flushLines s.hbmHeld).m.mem = true :=
    List.foldlRecOn (motive := fun t : State => Memory.wf t.m.mem = true) s.hbmHeld _ hm fun t ht line _ => flushLine_wf line ht
  have hmem : memByte (s.renumber new).m.mem (swapPkg s.pkgnum new a (2 ^ 39)) = memByte (s.flushLines s.hbmHeld).m.mem a :=
    SMap.get_move memDefault (fun k => swapPkg s.pkgnum new k (2 ^ 39)) (swapPkg_injective s.pkgnum new (2 ^ 39) (by decide)) hmf a
  have hsame : (s.flushLines s.hbmHeld).m.scrambled = s.m.scrambled := by rw [(flushLines_moves s _).only.m]
  have hscr : SMap.get 0 (s.renumber new).m.scrambled (swapPkg s.pkgnum new (a / 2 ^ 36) 8) = SMap.get 0 (s.flushLines s.hbmHeld).m.scrambled (a / 2 ^ 36) :=
    SMap.get_move 0 (fun k => swapPkg s.pkgnum new k 8) (swapPkg_injective s.pkgnum new 8 (by decide)) (hsame ▸ hc) (a / 2 ^ 36)
  obtain ⟨hd, hr⟩ := swapPkg_region s.pkgnum new a
  unfold State.homeByte State.cover
  rw [hmem, hd, hscr, hr]

theorem renumber_l1 : (s.renumber new).m.l1 = (s.flushLines s.hbmHeld).m.l1 := rfl

theorem renumber_llc : (s.renumber new).m.llc = (s.flushLines s.hbmHeld).m.llc := rfl

theorem hbm_uncached (line : Nat) (h : 64 * line < hbmEnd) : Uncached (s.flushLines s.hbmHeld) line :=
  flushHeld_uncached s (fun l => 64 * l < hbmEnd) line (decide_eq_true h)

theorem renumber_uncached (line : Nat) (h : 64 * line < hbmEnd) : Uncached (s.renumber new) line := by
  obtain ⟨hl, h1⟩ := hbm_uncached s line h
  exact ⟨hl, h1⟩

theorem pkgnum_lt : s.pkgnum < 64 := Nat.mod_lt _ (by decide)

theorem flushHbm_readPhys (hs : ∀ k, CleanAt s k) : (s.flushLines s.hbmHeld).readPhys a 1 = s.readPhys a 1 := by
  rw [readPhys_byte, readPhys_byte, (flushLines_moves s _).val hs]

/-- R24: the package's own bytes move with its number. -/
theorem renumber_own (hs : ∀ k, CleanAt s k) (hm : Memory.wf s.m.mem = true) (hc : SMap.wf 0 s.m.scrambled = true) (hn : new < 64) (ha : a < 2 ^ 39) :
    (s.renumber new).readPhys (new * 2 ^ 39 + a) 1 = s.readPhys (s.pkgnum * 2 ^ 39 + a) 1 := by
  have hp := pkgnum_lt s
  have hb := renumber_homeByte new (s.pkgnum * 2 ^ 39 + a) s hm hc
  rw [swapPkg_old _ _ _ _ ha] at hb
  rw [(renumber_uncached new s _ (by unfold hbmEnd; omega)).readPhys, hb, ← (hbm_uncached s _ (by unfold hbmEnd; omega)).readPhys, flushHbm_readPhys _ s hs]

/-- R24: a byte outside the domain's HBM stays. -/
theorem renumber_outside (hs : ∀ k, CleanAt s k) (hm : Memory.wf s.m.mem = true) (hc : SMap.wf 0 s.m.scrambled = true) (hn : new < 64) (ha : hbmEnd ≤ a) :
    (s.renumber new).readPhys a 1 = s.readPhys a 1 := by
  have hp := pkgnum_lt s
  rw [← flushHbm_readPhys a s hs]
  refine readPhys_of_bytes a (renumber_l1 new s) (renumber_llc new s) fun i hi => ?_
  have hb := renumber_homeByte new (64 * (a / 64) + i) s hm hc
  unfold hbmEnd at ha
  rwa [swapPkg_other _ _ _ _ (by omega) (by omega)] at hb

theorem renumber_pkgnum (hn : new < 64) : (s.renumber new).pkgnum = new := by
  have h : (s.renumber new).dev 0x430 = BitVec.ofNat 32 new := State.setDev_dev_self _ _ _
  unfold State.pkgnum
  rw [h, BitVec.toNat_ofNat]
  omega

theorem renumber_keepsRegisters : KeepsRegisters s (s.renumber new) :=
  (flushLines_moves s s.hbmHeld).only.keepsProgram.regs.trans (.of_waves rfl)

theorem renumber_teams : (s.renumber new).x.teams = s.x.teams := (flushLines_moves s s.hbmHeld).only.keepsProgram.teams

theorem writePkgnum_held (v : Word) (h : ∃ l, l < 12 ∧ SMap.get false s.pk.links l = true) : s.writePkgnum v = s := by
  obtain ⟨l, hl, hup⟩ := h
  exact if_pos (List.any_eq_true.2 ⟨l, List.mem_range.2 hl, hup⟩)

theorem writePkgnum_free (v : Word) (h : ∀ l, l < 12 → SMap.get false s.pk.links l = false) : s.writePkgnum v = s.renumber (v.toNat % 64) := by
  refine if_neg fun hany => ?_
  obtain ⟨l, hl, hup⟩ := List.any_eq_true.1 hany
  rw [h l (List.mem_range.1 hl)] at hup
  cases hup

theorem setMapstat_idle (s : State) (code : Nat) : s.setMapstat code false = s.setDev 0x412 (BitVec.ofNat 32 code) := by
  rw [setMapstat_eq, Bool.toNat_false, Nat.zero_mul, Nat.add_zero]

theorem setMapstat_refused (s : State) : s.setMapstat 3 true = s.setDev 0x412 0x80000003#32 := by
  rw [setMapstat_eq]
  exact congrArg _ (by decide)

/-- The state that keeps a map to be installed, its status written. -/
theorem mapLoad_status {s t : State} {load : MapLoad} {v : Word} (h : t = ({ s with reg := { s.reg with mapLoad := some load } } : State).setDev 0x412 v) :
    DeviceRegsOnly s t ∧ t.reg = { s.reg with dev := t.reg.dev, mapLoad := some load } ∧ t.dev 0x412 = v ∧ ∀ k, k ≠ 0x412 → t.dev k = s.dev k := by
  subst h
  exact ⟨⟨rfl, rfl, rfl, rfl, rfl⟩, rfl, State.setDev_dev_self _ _ _, fun _ hk => (State.setDev_dev _ _ _ _).trans (if_neg hk)⟩

/-- R341: a candidate that passes its checks is kept to be installed, and MAPSTAT says BUSY. -/
theorem mapSubmit_kept (s : State) (hl : s.reg.mapLoad = none) (hc : mapCode ((List.range 33).map (s.stagedRow ((s.dev 0x40D).toNat % 8))) = 0) :
    DeviceRegsOnly s s.mapSubmit ∧
    s.mapSubmit.reg = { s.reg with
      dev := s.mapSubmit.reg.dev
      mapLoad := some { region := (s.dev 0x40D).toNat % 8, rows := (List.range 33).map (s.stagedRow ((s.dev 0x40D).toNat % 8)), code := 0 } } ∧
    (s.mapSubmit.dev 0x412).getLsbD 31 = true ∧ ∀ j, j ≠ 0x412 → s.mapSubmit.dev j = s.dev j := by
  let load : MapLoad := { region := (s.dev 0x40D).toNat % 8, rows := (List.range 33).map (s.stagedRow ((s.dev 0x40D).toNat % 8)) }
  obtain ⟨v, hbit, hm⟩ : ∃ v : Word, v.getLsbD 31 = true ∧ s.mapSubmit = ({ s with reg := { s.reg with mapLoad := some load } } : State).setDev 0x412 v := by
    refine ⟨_, mapstat_busy ((s.dev 0x412).toNat % 4) (by omega), ?_⟩
    unfold State.mapSubmit
    dsimp only
    rw [hl, if_neg (by simp), if_neg (by simpa using hc), setMapstat_eq]
  obtain ⟨honly, hreg, hself, hother⟩ := mapLoad_status hm
  exact ⟨honly, hreg, hself ▸ hbit, hother⟩

/-- R29: a map change holds a request that no controller has accepted. -/
theorem askReady_held (s : State) (a : Ask) (v : MapLoad) (hv : s.reg.mapLoad = some v) (hl : s.inRegion v.region a.line = true) (hb : a.sort ≠ .back)
    (ha : s.accepted a.key v.region = false) : s.askReady a = false := by
  have hm : s.mapHolds a = true := by
    unfold State.mapHolds
    simp [hv, hl, ha, hb]
  unfold State.askReady State.askOpen
  simp [hm]

end Sys2Proof.Machine

open Sys2Proof Sys2Proof.Machine Sys2Proof.Safety

/-- Settles O33: the submission by its three ends, the install by `installMap`, the number by `renumber`. -/
theorem addressMapEvents : Obligations.AddressMapEvents := by
  unfold Obligations.AddressMapEvents
  rintro s k rows rfl hrows
  refine ⟨?busy, ?refused, ?kept, ?install, ?waits, ?holds, ?linked, ?number⟩
  case busy =>
    intro h
    refine ⟨s.setMapstat 3 true, ?_, setMapstat_refused s ▸ setDev_setsDev _ _ _⟩
    rw [exec_mapcmdSubmit, execMapcmdSubmit, State.mapSubmit]
    exact congrArg _ (if_pos h)
  case refused =>
    intro hl hc
    have hm : s.mapSubmit = s.setMapstat (mapCode rows) false := by
      subst hrows
      have hc : mapCode ((List.range 33).map (s.stagedRow ((s.dev 0x40D).toNat % 8))) ≠ 0 := hc
      unfold State.mapSubmit
      dsimp only
      rw [hl, if_neg (by simp), if_pos (by simpa using hc)]
      rfl
    refine ⟨s.mapSubmit, rfl, ?_⟩
    rw [hm, setMapstat_idle]
    exact setDev_setsDev _ _ _
  case kept =>
    subst hrows
    exact fun hl hc => ⟨s.mapSubmit, rfl, mapSubmit_kept s hl hc⟩
  case install =>
    intro v hv hk hlen ha hs hans
    have hp := passAsks_requested s (s.backAsks (askAgent 12 0) ((s.heldLines.filter (s.inRegion v.region)).eraseDups))
    have hact := act_of_answered hans (askAgent 12 0) fun u => u.installMap v
    generalize (s.passAsks (s.backAsks (askAgent 12 0) ((s.heldLines.filter (s.inRegion v.region)).eraseDups))).2 = u at hp hact
    have hex : exec .mapInstall s = .next ((u.installMap v).agentDone (askAgent 12 0)) := by
      rw [exec_mapInstall, execMapInstall, hv, ← hact]
      exact congrArg _ (if_neg (by rw [ha]; decide))
    have hreg : ∀ line, u.inRegion v.region line = s.inRegion v.region line := inRegion_congr hp.asked.reg _
    refine ⟨_, hex, rfl, ?_, ?_, ?_, fun j i hi => ?_, fun line hl => ?_, fun a hr => ?_⟩
    · exact (State.setDev_dev_self _ _ _).trans (by rw [Bool.toNat_false, Nat.zero_mul, Nat.add_zero])
    · exact hp.asked.keepsProgram.regs.trans ((installMap_keepsRegisters u v).trans (.of_waves rfl))
    · exact (installMap_teams u v).trans hp.asked.keepsProgram.teams
    · refine (installMap_mapRow u v j i hi).trans ?_
      unfold State.mapRow
      rw [hp.asked.reg]
    · obtain ⟨hllc, hl1⟩ := installMap_uncached u v line (by rw [hreg]; exact hl)
      exact ⟨hllc, hl1⟩
    · have hi := installMap_readPhys (hp.clean fun k => hs.clean k) v hk a (by rw [hreg]; exact hr)
      rw [← hp.asked.readPhys a, ← hi]
      exact readPhys_of_bytes a rfl rfl fun _ _ => rfl
  case waits =>
    intro v hv ha
    rw [exec_mapInstall, execMapInstall, hv]
    exact congrArg _ (if_pos ha)
  case holds => exact fun v a hv hl hb ha => askReady_held s a v hv hl hb ha
  case linked =>
    intro v h
    rw [exec_pkgnumWrite, execPkgnumWrite, writePkgnum_held s v h]
  case number =>
    intro v h hs hm hc
    have hn : v.toNat % 64 < 64 := Nat.mod_lt _ (by decide)
    have hclean : ∀ k, CleanAt s k := fun k => hs.clean k
    refine ⟨s.renumber (v.toNat % 64), ?_, renumber_pkgnum _ s hn, renumber_keepsRegisters _ s, renumber_teams _ s,
      fun a ha => renumber_own _ a s hclean hm hc hn ha, fun a ha => renumber_outside _ a s hclean hm hc hn ha⟩
    rw [exec_pkgnumWrite, execPkgnumWrite, writePkgnum_free s v h]
end

section
/-! SUPPORT. Device errors (R315-R317) and lines that leave the slices (R36, R37): what a record of the device says, and what a slice keeps
as its lines go. -/

set_option Elab.async false

namespace Sys2Proof.Machine

open Sys2Proof Sys2Proof.Safety

/-! ### Records -/

@[simp] theorem leBytes_length (n v : Nat) : (leBytes n v).length = n := by simp [leBytes]

theorem leBytes_succ (n v : Nat) : leBytes (n + 1) v = BitVec.ofNat 8 v :: leBytes n (v / 256) := by
  simp only [leBytes, List.range_succ_eq_map, List.map_cons, List.map_map]
  refine congrArg₂ _ (by simp) (List.map_congr_left fun i _ => ?_)
  simp only [Function.comp_apply, Nat.div_div_eq_div_mul]
  rw [Nat.mul_succ, Nat.add_comm, Nat.pow_add]

theorem leNat_leBytes (n v : Nat) : leNat (leBytes n v) = v % 2 ^ (8 * n) := by
  induction n generalizing v with
  | zero => simp [leBytes, leNat, Nat.mod_one]
  | succ n ih =>
    rw [leBytes_succ, leNat, ih, BitVec.toNat_ofNat, Nat.mul_succ, Nat.add_comm (8 * n), Nat.pow_add, Nat.mod_mul]

/-- R316: the fields of a record's bytes. -/
theorem recordBytes_fields (f : FaultInfo) (susp lane ctx pc wave lt seq : Nat) :
    let r := recordBytes f susp lane ctx pc wave lt seq
    r.length = 64 ∧ leNat (r.take 1) = f.code % 256 ∧ leNat ((r.drop 1).take 1) = f.reason % 256 ∧ leNat ((r.drop 2).take 1) = susp % 256 ∧
      leNat ((r.drop 0x20).take 8) = f.info % 2 ^ 64 ∧ leNat ((r.drop 0x28).take 8) = f.paddr % 2 ^ 64 ∧ leNat ((r.drop 0x38).take 8) = seq % 2 ^ 64 := by
  refine ⟨by simp [recordBytes], ?_, ?_, ?_, ?_, ?_, ?_⟩ <;>
    simp [recordBytes, List.drop_append, List.drop_eq_nil_of_le, List.take_of_length_le, leNat_leBytes]

theorem noteOvf_records (t : Tenant) : t.noteOvf.records = t.records := by
  unfold Tenant.noteOvf
  split <;> rfl

theorem queueRecord_records (s : State) (t : Nat) (r : List Byte) : ((s.queueRecord t r).tenant t).records = (s.tenant t).records ++ [r] := by
  unfold State.queueRecord State.modTenant
  rw [State.setTenant_tenant, if_pos rfl, noteOvf_records]

/-- A device error changes tenants and the count of free values alone. -/
structure TenantsOnly (s t : State) : Prop where
  m : t.m = s.m
  pk : t.pk = s.pk
  reg : t.reg = s.reg
  o : t.o = s.o
  x : t.x = { s.x with tenants := t.x.tenants }

theorem queueRecord_tenantsOnly (s : State) (t : Nat) (r : List Byte) : TenantsOnly s (s.queueRecord t r) := ⟨rfl, rfl, rfl, rfl, rfl⟩

theorem deviceError_tenantsOnly (s : State) (reason info paddr : Nat) : TenantsOnly s (s.deviceError reason info paddr) :=
  let ⟨hm, hpk, hreg, ho, hx⟩ := queueRecord_tenantsOnly s.draw.2 0 (recordBytes { code := 0x30, reason := reason, info := info, paddr := paddr } 3 255 0 0
    0xFFFFFFFF (Config.freeKey s.draw.1).toNat (s.draw.2.tenant 0).nrec)
  ⟨hm, hpk, hreg, ho, hx⟩

theorem TenantsOnly.keepsProgram {s t : State} (h : TenantsOnly s t) : KeepsProgram s t := .of_waves (by rw [h.x]) (by rw [h.x]) h.reg

/-- R315, R316: what a device error posts. -/
theorem deviceError_reports (s : State) (reason info paddr : Nat) (h : reason < 256) :
    ReportsError reason (info % 2 ^ 64) (paddr % 2 ^ 64) s (s.deviceError reason info paddr) := by
  obtain ⟨hlen, hcode, hreason, hsusp, hinfo, hpaddr, hseq⟩ := recordBytes_fields { code := 0x30, reason := reason, info := info, paddr := paddr } 3 255 0 0
    0xFFFFFFFF (Config.freeKey s.draw.1).toNat (s.tenant 0).nrec
  exact ⟨_, queueRecord_records s.draw.2 0 _, hlen, hcode, hreason.trans (Nat.mod_eq_of_lt h), hsusp, hinfo, hpaddr, hseq⟩

/-! ### What lies below the slices -/

/-- R243: a host port, or a controller. -/
def IsBottom (h : Nat) : Prop := (∃ p, p < 2 ∧ h = 4 * 2 ^ 28 + p) ∨ ∃ c, c < 8 ∧ h = 3 * 2 ^ 28 + c

theorem homeDie_lt (s : State) (line : Nat) : s.homeDie line < 4 := by
  unfold State.homeDie
  split <;> omega

theorem bottomChecker_isBottom (s : State) (line : Nat) : IsBottom (s.bottomChecker line) := by
  unfold State.bottomChecker
  split
  · exact .inl ⟨_, by have := homeDie_lt s line; omega, rfl⟩
  · exact .inr ⟨_, Nat.mod_lt _ (by decide), rfl⟩

/-- Of the program and the package only clocks below the slices move. -/
structure ClocksBelow (s t : State) : Prop where
  x : t.x = s.x
  pk : t.pk = { s.pk with ctrls := t.pk.ctrls, ports := t.pk.ports }
  port : ∀ p, t.port p = if p < 2 then { s.port p with lt := (t.port p).lt } else s.port p

theorem ClocksBelow.of_same {s t : State} (hx : t.x = s.x) (hp : t.pk = s.pk) : ClocksBelow s t where
  x := hx
  pk := by rw [hp]
  port p := by
    have h : t.port p = s.port p := by unfold State.port; rw [hp]
    rw [h]
    split <;> rfl

theorem ClocksBelow.refl (s : State) : ClocksBelow s s := .of_same rfl rfl

theorem ClocksBelow.trans {s t u : State} (h : ClocksBelow s t) (k : ClocksBelow t u) : ClocksBelow s u where
  x := k.x.trans h.x
  pk := by rw [k.pk, h.pk]
  port p := by
    rw [k.port p, h.port p]
    split <;> rfl

theorem ClocksBelow.ite {s t u : State} {p : Prop} [Decidable p] (h : p → ClocksBelow s t) (k : ¬ p → ClocksBelow s u) :
    ClocksBelow s (if p then t else u) := by
  split
  · exact h ‹_›
  · exact k ‹_›

theorem ClocksBelow.slice {s t : State} (h : ClocksBelow s t) (k : Nat) : t.slice k = s.slice k := by
  unfold State.slice
  rw [h.pk]

theorem setPort_clocksBelow (s : State) {p : Nat} (hp : p < 2) (t : Nat) : ClocksBelow s (s.setPort p { s.port p with lt := t }) where
  x := rfl
  pk := rfl
  port q := by
    rw [State.setPort_port]
    by_cases h : q = p
    · subst h; rw [if_pos rfl, if_pos hp]
    · rw [if_neg h]; split <;> rfl

theorem setClock_clocksBelow (s : State) {h : Nat} (hb : IsBottom h) (t : Nat) : ClocksBelow s (s.setClock h t) := by
  rcases hb with ⟨p, hp, rfl⟩ | ⟨c, hc, rfl⟩
  · have hs : s.setClock (4 * 2 ^ 28 + p) t = s.setPort p { s.port p with lt := t } := by
      unfold State.setClock
      rw [show (4 * 2 ^ 28 + p) / 2 ^ 28 = 4 by omega, show (4 * 2 ^ 28 + p) % 2 ^ 16 = p by omega]
      rfl
    rw [hs]
    exact setPort_clocksBelow s hp t
  · have hs : s.setClock (3 * 2 ^ 28 + c) t = s.setCtrl c { s.ctrl c with lt := t } := by
      unfold State.setClock
      rw [show (3 * 2 ^ 28 + c) / 2 ^ 28 = 3 by omega, show (3 * 2 ^ 28 + c) % 2 ^ 16 = c by omega]
      rfl
    rw [hs]
    refine ⟨rfl, rfl, fun p => ?_⟩
    rw [State.setCtrl_port]
    split <;> rfl

theorem closeAt_clocksBelow (s : State) (line h : Nat) : ClocksBelow s (s.closeAt line h) := .ite (fun _ => .of_same rfl rfl) fun _ => .refl s

theorem openAt_clocksBelow (s : State) (line h : Nat) (sw : Bool) : ClocksBelow s (s.openAt line h sw) := .ite (fun _ => .refl s) fun _ => .of_same rfl rfl

theorem passLine_clocksBelow (s : State) (line a : Nat) {b : Nat} (hb : IsBottom b) : ClocksBelow s (s.passLine line a b) := by
  have h : ClocksBelow s (if (s.held line b).opened then s.closeAt line b else s) := .ite (fun _ => closeAt_clocksBelow _ _ _) fun _ => .refl s
  exact (h.trans ((closeAt_clocksBelow _ _ _).trans (setClock_clocksBelow _ hb _))).trans (.ite (fun _ => openAt_clocksBelow _ _ _ _) fun _ => .refl _)

theorem setLlc_clocksBelow (s : State) (line : Nat) (x : Line) : ClocksBelow s (s.setLlc line x) := .of_same rfl rfl

theorem putHome_clocksBelow (s : State) (line : Nat) (d : BitVec 512) (b : Bool) : ClocksBelow s (s.putHome line d b) := .of_same rfl rfl

theorem clearLlc_clocksBelow (s : State) (line : Nat) : ClocksBelow s (s.clearLlc line) := by
  refine ClocksBelow.trans (t := s.cleanLlc line) ?_ ?_
  · exact .ite (fun _ => (setClock_clocksBelow _ (bottomChecker_isBottom s line) _).trans ((putHome_clocksBelow _ _ _ _).trans (setLlc_clocksBelow _ _ _)))
      fun _ => .refl s
  · exact .ite (fun _ => (passLine_clocksBelow _ _ _ (bottomChecker_isBottom _ line)).trans (setLlc_clocksBelow _ _ _)) fun _ => .refl _

/-! ### Lines cleared one after another -/

/-- R36, R37: lines written back and dropped from the LLC. -/
def State.clearLines (s : State) (lines : List Nat) : State := lines.foldl (fun (s : State) line => (s.cleanLlc line).dropLlc line) s

theorem clearLines_moves (s : State) (lines : List Nat) : Moves s (s.clearLines lines) := .foldl _ lines (fun s line _ => clearLlc_moves s line) s

theorem clearLines_clocksBelow (s : State) (lines : List Nat) : ClocksBelow s (s.clearLines lines) :=
  foldl_rel ClocksBelow.refl ClocksBelow.trans _ lines (fun s line _ => clearLlc_clocksBelow s line) s

theorem clearLines_gone {lines : List Nat} {line : Nat} (h : line ∈ lines) (s : State) : ((s.clearLines lines).llcLine line).valid = false :=
  foldl_reaches (P := fun line (s : State) => (s.llcLine line).valid = false) _ clearLlc_gone (fun s _ b h => (clearLlc_moves s b).llc _ h) h s

/-- A line that the LLC's list does not name is not there. -/
theorem mem_llc_of_valid {s : State} {line : Nat} (h : (s.llcLine line).valid = true) : ∃ e ∈ s.m.llc, e.1 = line := by
  refine SMap.mem_of_get (d := ({} : Line)) fun h0 => ?_
  rw [State.llcLine, h0] at h
  cases h

/-- Every line of a kind leaves the LLC where the lines of that kind that it lists are cleared. -/
theorem clearListed_gone (s : State) (p : Nat → Bool) (line : Nat) (h : p line = true) :
    ((s.clearLines ((s.m.llc.filter fun (e : Nat × Line) => p e.1).map fun e => e.1)).llcLine line).valid = false := by
  cases hv : (s.llcLine line).valid
  · exact (clearLines_moves s _).llc line hv
  · obtain ⟨e, he, rfl⟩ := mem_llc_of_valid hv
    exact clearLines_gone (List.mem_map_of_mem (List.mem_filter.2 ⟨he, h⟩)) s

theorem sliceLines_gone (s : State) (p line : Nat) (h : s.homeSlice line = some p) : ((s.clearLines (s.sliceLines p)).llcLine line).valid = false :=
  clearListed_gone s (fun l => s.homeSlice l == some p) line (by simp [h])

theorem emptySet_gone (s : State) (slice set line : Nat) (hs : Config.llcSet line = set) (h : s.homeSlice line = some slice) :
    ((s.emptySet slice set).llcLine line).valid = false :=
  clearListed_gone s (fun l => Config.llcSet l == set && s.homeSlice l == some slice) line (by simp [hs, h])

theorem emptySet_moves (s : State) (slice set : Nat) : Moves s (s.emptySet slice set) := clearLines_moves s _

theorem emptySet_clocksBelow (s : State) (slice set : Nat) : ClocksBelow s (s.emptySet slice set) := clearLines_clocksBelow s _

theorem MemOnly.remap {s t : State} (h : MemOnly s t) : t.pk.remap = s.pk.remap := by rw [h.pk]

theorem MemOnly.homeSlice {s t : State} (h : MemOnly s t) (line : Nat) : t.homeSlice line = s.homeSlice line := homeSlice_congr h.reg h.remap line

theorem logicalOf_congr {s t : State} (h : t.pk.remap = s.pk.remap) (die phys : Nat) : t.logicalOf die phys = s.logicalOf die phys := by
  unfold State.logicalOf State.physSlice
  rw [h]

theorem setSlice_booked (s : State) (k : Nat) (x : Slice) : Booked s (s.setSlice k x) := ⟨rfl, rfl, rfl, rfl, rfl, rfl⟩

theorem addDue_mem (s : State) (i : DevEv) : i ∈ (s.addDue [i]).sch.due := by
  by_cases h : i ∈ s.sch.due <;> simp [State.addDue, h]

end Sys2Proof.Machine
end

section
/-! SUPPORT. Scrubbing, ways and slices (R35-R37): each event by its outcomes. -/

set_option Elab.async false

namespace Sys2Proof.Machine

open Sys2Proof Sys2Proof.Safety

/-! ### The scrubber -/

theorem betweenBatches_iff (s : State) (line : Nat) : s.betweenBatches line = true ↔ ∀ q ∈ (s.ctrl (s.ctrlOf line)).queue, q.marked = false := by
  simp [State.betweenBatches]

theorem not_betweenBatches_iff (s : State) (line : Nat) : s.betweenBatches line = false ↔ ∃ q ∈ (s.ctrl (s.ctrlOf line)).queue, q.marked = true := by
  simp [State.betweenBatches]

/-- R35: a scrub write leaves the list of those on their way. -/
def State.dropScrub (s : State) (idx : Nat) : State := { s with m := { s.m with scrubs := s.m.scrubs.eraseIdx idx } }

/-- R35: whether the conditional write takes effect. -/
def State.scrubHolds (s : State) (v : Scrub) : Bool := SMap.get 0 s.m.tags v.line == v.tag && !s.writeQueued v.line

theorem scrubWrite_waits {s : State} {idx : Nat} {v : Scrub} (hv : s.m.scrubs[idx]? = some v) (h : s.betweenBatches v.line = false) :
    execScrubConditionalWrite idx s = .next s := by
  unfold execScrubConditionalWrite
  rw [hv]
  exact congrArg _ (if_pos (by rw [h]; rfl))

theorem scrubWrite_corrected {s : State} {idx : Nat} {v : Scrub} (hv : s.m.scrubs[idx]? = some v) (h : s.betweenBatches v.line = true) (hb : v.bad = false) :
    execScrubConditionalWrite idx s = .next (s.dropScrub idx) := by
  unfold execScrubConditionalWrite
  rw [hv]
  refine congrArg _ ((if_neg (by rw [h]; decide)).trans ?_)
  exact if_neg (by rw [hb]; decide)

theorem scrubWrite_lost {s : State} {idx : Nat} {v : Scrub} (hv : s.m.scrubs[idx]? = some v) (h : s.betweenBatches v.line = true) (hb : v.bad = true) :
    execScrubConditionalWrite idx s = .next ((if s.scrubHolds v then (s.dropScrub idx).poisonHome v.line else s.dropScrub idx).deviceError 5
      ((s.homeSlice v.line).getD 0) (64 * v.line)) := by
  have hhome : ∀ u : State, u.reg = s.reg → u.pk = s.pk → u.homeSlice v.line = s.homeSlice v.line := fun u hr hp => homeSlice_congr hr (by rw [hp]) _
  unfold execScrubConditionalWrite
  rw [hv]
  refine congrArg _ ((if_neg (by rw [h]; decide)).trans ((if_pos hb).trans ?_))
  rw [hhome _ rfl rfl]
  rfl

/-- What the write leaves where it is reported. -/
theorem scrubWrite_kept (s : State) (idx : Nat) (v : Scrub) (ok : Bool) :
    let u := if ok then (s.dropScrub idx).poisonHome v.line else s.dropScrub idx
    u.m = { s.m with scrubs := s.m.scrubs.eraseIdx idx, memPoison := u.m.memPoison } ∧ u.x = s.x ∧
      (ok = false → u.m.memPoison = s.m.memPoison) ∧ (ok = true → u.homePoison v.line = true) := by
  cases ok
  · exact ⟨rfl, rfl, fun _ => rfl, fun h => nomatch h⟩
  · exact ⟨rfl, rfl, (fun h => nomatch h), fun _ => SMap.get_set_self false s.m.memPoison v.line true⟩

/-! ### Ways -/

/-- R36: a corrected error is counted. -/
def State.countError (s : State) (slice key : Nat) : State :=
  s.setSlice slice { s.slice slice with errors := SMap.set 0 (s.slice slice).errors key (SMap.get 0 (s.slice slice).errors key + 1) }

/-- R36: a way that is disabled, the error counted. -/
def Slice.loseWay (x : Slice) (key : Nat) : Slice :=
  { x with errors := SMap.set 0 x.errors key (SMap.get 0 x.errors key + 1), disabled := x.disabled ++ [key] }

/-- R36: the way's line leaves where it is there. -/
def State.clearWay (s : State) (slice line : Nat) : State := if s.homeSlice line == some slice then s.clearLlc line else s

/-- R36: a way is disabled, its line written back. -/
def State.loseWay (s : State) (slice key line : Nat) : State :=
  (s.clearWay slice line).setSlice slice ((s.slice slice).loseWay key)

/-- R37: a set that has no way left holds no line. -/
def State.emptyWorn (s : State) (slice set : Nat) : State := if (s.slice slice).enabledWays set == 0 then s.emptySet slice set else s

/-- R37: the slice is due to retire where a set of it has fewer than two ways. -/
def State.dueRetire (s : State) (slice set : Nat) : State :=
  match s.logicalOf (slice / 64) (slice % 64) with
  | some k => if (s.slice slice).enabledWays set < 2 then s.addDue [.sliceRetire (slice / 64) k] else s
  | none => s

variable (s : State) (slice key set line : Nat)

theorem clearWay_moves : Moves s (s.clearWay slice line) := .ite (fun _ => clearLlc_moves s line) fun _ => .refl s

theorem clearWay_clocksBelow : ClocksBelow s (s.clearWay slice line) := .ite (fun _ => clearLlc_clocksBelow s line) fun _ => .refl s

theorem clearWay_gone (h : s.homeSlice line = some slice) : ((s.clearWay slice line).llcLine line).valid = false := by
  unfold State.clearWay
  rw [if_pos (by simp [h])]
  exact clearLlc_gone s line

theorem loseWay_moves : Moves s (s.loseWay slice key line) := (clearWay_moves s slice line).trans (setSlice_booked _ _ _).moves

theorem loseWay_slice : (s.loseWay slice key line).slice slice = (s.slice slice).loseWay key :=
  (State.setSlice_slice _ _ _ _).trans (if_pos rfl)

theorem emptyWorn_moves : Moves s (s.emptyWorn slice set) := .ite (fun _ => emptySet_moves s slice set) fun _ => .refl s

theorem emptyWorn_slice : (s.emptyWorn slice set).slice slice = s.slice slice :=
  ClocksBelow.slice (.ite (fun _ => emptySet_clocksBelow s slice set) fun _ => .refl s) slice

theorem emptyWorn_gone (h : (s.slice slice).enabledWays set = 0) (hl : Config.llcSet line = set) (hs : s.homeSlice line = some slice) :
    ((s.emptyWorn slice set).llcLine line).valid = false := by
  unfold State.emptyWorn
  rw [if_pos (by simp [h])]
  exact emptySet_gone s slice set line hl hs

theorem dueRetire_kept : (s.dueRetire slice set).m = s.m ∧ (s.dueRetire slice set).pk = s.pk ∧ (s.dueRetire slice set).o = s.o ∧
    KeepsProgram s (s.dueRetire slice set) := by
  unfold State.dueRetire
  split
  · split
    · exact ⟨rfl, rfl, rfl, .of_waves rfl rfl rfl⟩
    · exact ⟨rfl, rfl, rfl, .refl s⟩
  · exact ⟨rfl, rfl, rfl, .refl s⟩

theorem dueRetire_due {k : Nat} (hk : s.logicalOf (slice / 64) (slice % 64) = some k) (hw : (s.slice slice).enabledWays set < 2) :
    .sliceRetire (slice / 64) k ∈ (s.dueRetire slice set).sch.due := by
  unfold State.dueRetire
  rw [hk]
  dsimp only
  rw [if_pos hw]
  exact addDue_mem _ _

theorem wayGuard {x : Slice} {slice set way : Nat} (hset : set < 8192) (hway : way < 16) (hd : slice / 64 < 4) (hk : slice % 64 < 50)
    (hw : x.disabled.contains (16 * set + way) = false) :
    ¬ (8192 ≤ set || 16 ≤ way || 4 ≤ slice / 64 || 50 ≤ slice % 64 || x.disabled.contains (16 * set + way)) = true := by
  simp only [hw, Bool.or_eq_true, decide_eq_true_eq, Bool.false_eq_true, or_false]
  omega

theorem countError_slice : (s.countError slice key).slice slice =
    { s.slice slice with errors := SMap.set 0 (s.slice slice).errors key (SMap.get 0 (s.slice slice).errors key + 1) } :=
  (State.setSlice_slice _ _ _ _).trans (if_pos rfl)

/-- R36: the event by the errors before it. -/
theorem wayDisable_early {way : Nat} (hset : set < 8192) (hway : way < 16) (hd : slice / 64 < 4) (hk : slice % 64 < 50)
    (hw : (s.slice slice).disabled.contains (16 * set + way) = false) (h : SMap.get 0 (s.slice slice).errors (16 * set + way) < 2) :
    execLlcWayDisable slice set way line s = .next (s.countError slice (16 * set + way)) := by
  unfold execLlcWayDisable
  dsimp only
  rw [if_neg (wayGuard hset hway hd hk hw), if_pos (by omega)]
  rfl

theorem wayDisable_third {way : Nat} (hset : set < 8192) (hway : way < 16) (hd : slice / 64 < 4) (hk : slice % 64 < 50)
    (hw : (s.slice slice).disabled.contains (16 * set + way) = false) (h : 2 ≤ SMap.get 0 (s.slice slice).errors (16 * set + way)) :
    execLlcWayDisable slice set way line s = .next (((s.loseWay slice (16 * set + way) line).emptyWorn slice set).dueRetire slice set) := by
  have hx := loseWay_slice s slice (16 * set + way) line
  unfold execLlcWayDisable
  dsimp only
  rw [if_neg (wayGuard hset hway hd hk hw), if_neg (by omega)]
  unfold State.dueRetire
  rw [emptyWorn_slice]
  unfold State.emptyWorn
  rw [hx]
  have hd := (clearWay_clocksBelow s slice line).slice slice
  have hc : (if s.homeSlice line == some slice then (s.cleanLlc line).dropLlc line else s) = s.clearWay slice line := rfl
  rw [hc, hd]
  rfl

/-! ### Slices -/

theorem retireSlice_eq (die k p j : Nat) : s.retireSlice die k p j =
    let u := (s.clearLines (s.sliceLines p)).setSlice p { (s.clearLines (s.sliceLines p)).slice p with retired := true }
    { u with pk := { u.pk with remap := SMap.set none u.pk.remap (64 * die + k) (if j == k then none else some j) } } := rfl

/-- What stays as a slice retires, and what it holds no more. -/
structure Retires (die k p j : Nat) (s t : State) : Prop where
  kept : KeepsProgram s t
  o : t.o = s.o
  val : (∀ l, CleanAt s l) → ∀ l, (t.lineVal l).1 = (s.lineVal l).1
  gone : ∀ l, s.homeSlice l = some p → (t.llcLine l).valid = false
  retired : (t.slice p).retired = true
  spare : t.physSlice die k = 64 * die + j
  others : ∀ d i, 64 * d + i ≠ 64 * die + k → t.physSlice d i = s.physSlice d i

theorem retireSlice_retires (die k p j : Nat) : Retires die k p j s (s.retireSlice die k p j) := by
  have hm := clearLines_moves s (s.sliceLines p)
  have hg := sliceLines_gone s p
  rw [retireSlice_eq]
  generalize s.clearLines (s.sliceLines p) = u at hm hg ⊢
  have hr : ∀ n, SMap.get none (SMap.set none u.pk.remap (64 * die + k) (if j == k then none else some j)) n =
      if n = 64 * die + k then (if j == k then none else some j) else SMap.get none s.pk.remap n := fun n => by
    rw [SMap.get_set, hm.only.remap]
  refine ⟨hm.only.keepsProgram.trans (.of_waves rfl rfl rfl), hm.only.o, fun hs l => hm.val hs l, hg, ?_, ?_, fun d i hn => ?_⟩
  · exact congrArg Slice.retired (SMap.get_set_self ({} : Slice) u.pk.slices p { u.slice p with retired := true })
  · refine congrArg (64 * die + Option.getD · k) ((hr _).trans (if_pos rfl)) |>.trans ?_
    by_cases h : j = k <;> simp [h]
  · exact congrArg (64 * d + Option.getD · i) ((hr _).trans (if_neg hn))

theorem sliceRetire_sound (die k : Nat) (h : (s.slice (s.physSlice die k)).wornOut = false) : execSliceRetire die k s = .next s := by
  unfold execSliceRetire
  dsimp only
  rw [if_pos (by simp [h])]

theorem retireGuard (die k : Nat) (hd : die < 4) (hk : k < 48) (h : (s.slice (s.physSlice die k)).wornOut = true) :
    ¬ (4 ≤ die || 48 ≤ k || !(s.slice (s.physSlice die k)).wornOut) = true := by
  simp only [h, Bool.or_eq_true, decide_eq_true_eq, Bool.not_true, Bool.false_eq_true, or_false]
  omega

theorem sliceRetire_noSpare {die k : Nat} (hd : die < 4) (hk : k < 48) (h : (s.slice (s.physSlice die k)).wornOut = true) (hs : s.spare die = none) :
    execSliceRetire die k s = .next (s.deviceError 2 (s.physSlice die k) 0) := by
  unfold execSliceRetire
  dsimp only
  rw [if_neg (retireGuard s die k hd hk h), hs]

theorem sliceRetire_spare {die k j : Nat} (hd : die < 4) (hk : k < 48) (h : (s.slice (s.physSlice die k)).wornOut = true) (hs : s.spare die = some j) :
    execSliceRetire die k s = .next (s.act (askAgent 13 (s.physSlice die k))
      (s.backAsks (askAgent 13 (s.physSlice die k)) (s.sliceLines (s.physSlice die k))) fun s' => s'.retireSlice die k (s.physSlice die k) j) := by
  unfold execSliceRetire
  dsimp only
  rw [if_neg (retireGuard s die k hd hk h), hs]

end Sys2Proof.Machine

open Sys2Proof Sys2Proof.Machine Sys2Proof.Safety

/-- Settles O41: each event by its outcomes; lines leave the slices by `clearLines`, which moves no value. -/
theorem memoryIntegrityEvents : Obligations.MemoryIntegrityEvents := by
  unfold Obligations.MemoryIntegrityEvents
  intro s
  refine ⟨fun line found => ?read, fun i v hv hq => ?waits, fun i v hv hq => ?write, ?way, ?retire, fun die k h => ?sound⟩
  case read =>
    rw [exec_scrubRead, execScrubRead]
    refine ⟨_, rfl, ?_⟩
    have hcond : (!s.ownHbm (64 * line) || found == .clean || !s.betweenBatches line) = false ↔
        s.ownHbm (64 * line) = true ∧ found ≠ .clean ∧ ∀ q ∈ (s.ctrl (s.ctrlOf line)).queue, q.marked = false := by
      rw [← betweenBatches_iff]
      simp [and_assoc]
    by_cases h : s.ownHbm (64 * line) = true ∧ found ≠ .clean ∧ ∀ q ∈ (s.ctrl (s.ctrlOf line)).queue, q.marked = false
    · rw [if_neg (by rw [hcond.2 h]; decide), if_pos h]
      refine ⟨rfl, rfl, rfl, rfl, rfl, ?_⟩
      cases found <;> rfl
    · rw [if_pos (Bool.not_eq_false _ ▸ mt hcond.1 h), if_neg h]
      exact ⟨rfl, rfl, rfl, rfl, rfl, rfl⟩
  case waits =>
    rw [exec_scrubConditionalWrite]
    exact scrubWrite_waits hv ((not_betweenBatches_iff s _).2 hq)
  case write =>
    have hq := (betweenBatches_iff s _).2 hq
    rw [exec_scrubConditionalWrite]
    cases hb : v.bad with
    | false =>
      refine ⟨s.dropScrub i, scrubWrite_corrected hv hq hb, rfl, rfl, rfl, .of_waves rfl, fun _ => rfl, fun _ => rfl, ?_, ?_⟩ <;> exact fun h => nomatch h
    | true =>
      have hk := scrubWrite_kept s i v (s.scrubHolds v)
      have hx := scrubWrite_lost hv hq hb
      generalize (if s.scrubHolds v then (s.dropScrub i).poisonHome v.line else s.dropScrub i) = u at hk hx
      obtain ⟨hm, hux, hno, hyes⟩ := hk
      have hd := deviceError_tenantsOnly u 5 ((s.homeSlice v.line).getD 0) (64 * v.line)
      have hr := deviceError_reports u 5 ((s.homeSlice v.line).getD 0) (64 * v.line) (by decide)
      have ht : u.tenant 0 = s.tenant 0 := by unfold State.tenant; rw [hux]
      refine ⟨_, hx, ?_, ?_, ?_, ?_, fun h => ?_, (fun h => nomatch h), fun _ htag hw => ?_, fun _ => ?_⟩
      · rw [hd.m, hm]
      · rw [hd.m, hm]
      · rw [hd.m, hm]
      · exact KeepsRegisters.trans (.of_waves (by rw [hux])) hd.keepsProgram.regs
      · rw [hd.m]
        refine hno ?_
        unfold State.scrubHolds
        rcases h with h | h | h
        · cases h
        · simp [h]
        · simp [h]
      · unfold State.homePoison
        rw [hd.m]
        exact hyes (by simp [State.scrubHolds, htag, hw])
      · unfold ReportsError at hr ⊢
        rwa [ht] at hr
  case way =>
    intro slice set way line hset hway hdie hk hw hs
    rw [exec_llcWayDisable]
    rcases Nat.lt_or_ge (SMap.get 0 (s.slice slice).errors (16 * set + way)) 2 with h | h
    · rw [wayDisable_early s slice set line hset hway hdie hk hw h]
      refine ⟨_, rfl, (setSlice_booked _ _ _).moves.keepsMemory hs, .of_waves rfl, rfl, ?_, fun _ => ⟨?_, rfl⟩, fun h' => absurd h' (by omega)⟩
      · rw [countError_slice]
        exact SMap.get_set_self 0 (s.slice slice).errors (16 * set + way) (SMap.get 0 (s.slice slice).errors (16 * set + way) + 1)
      · rw [countError_slice]
    · rw [wayDisable_third s slice set line hset hway hdie hk hw h]
      have hm1 := loseWay_moves s slice (16 * set + way) line
      have hx := loseWay_slice s slice (16 * set + way) line
      have hline : s.homeSlice line = some slice → ((s.loseWay slice (16 * set + way) line).llcLine line).valid = false := clearWay_gone s slice line
      generalize s.loseWay slice (16 * set + way) line = u at hm1 hx hline
      have hm2 := emptyWorn_moves u slice set
      have ht := emptyWorn_slice u slice set
      have hempty := fun l => emptyWorn_gone u slice set l
      generalize u.emptyWorn slice set = w at hm2 ht hempty
      obtain ⟨hm, hpk, ho, hkept⟩ := dueRetire_kept w slice set
      have hslice : (w.dueRetire slice set).slice slice = w.slice slice := by unfold State.slice; rw [hpk]
      have hllc : ∀ l, (w.dueRetire slice set).llcLine l = w.llcLine l := fun l => by unfold State.llcLine; rw [hm]
      refine ⟨_, rfl, fun a => ?_, ?_, ?_, ?_, fun h' => absurd h' (by omega), fun _ => ⟨?_, fun hl => ?_, fun h0 l hl hhome => ?_, fun k hlog hfew => ?_⟩⟩
      · rw [← (hm1.trans hm2).keepsMemory hs a]
        exact readPhys_of_bytes a (by rw [hm]) (by rw [hm]) fun i _ => by unfold State.homeByte State.cover; rw [hm]
      · exact (hm1.trans hm2).only.keepsProgram.regs.trans hkept.regs
      · rw [ho, (hm1.trans hm2).only.o]
      · rw [hslice, ht, hx]
        exact SMap.get_set_self 0 (s.slice slice).errors (16 * set + way) (SMap.get 0 (s.slice slice).errors (16 * set + way) + 1)
      · rw [hslice, ht, hx]
        rfl
      · rw [hllc]
        exact hm2.llc line (hline hl)
      · rw [hslice, ht] at h0
        rw [hllc]
        exact hempty l h0 hl (by rw [hm1.only.homeSlice, hhome])
      · rw [hslice] at hfew
        exact dueRetire_due w slice set ((logicalOf_congr (hm1.trans hm2).only.remap _ _).trans hlog) hfew
  case retire =>
    rintro die k p hdie hk rfl hw
    rw [exec_sliceRetire]
    constructor
    · intro hsp
      rw [sliceRetire_noSpare s hdie hk hw hsp]
      have hd := deviceError_tenantsOnly s 2 (s.physSlice die k) 0
      exact ⟨_, rfl, deviceError_reports s 2 (s.physSlice die k) 0 (by decide), hd.m, hd.pk, hd.keepsProgram.regs⟩
    · intro j hsp hs hans
      have hp := passAsks_requested s (s.backAsks (askAgent 13 (s.physSlice die k)) (s.sliceLines (s.physSlice die k)))
      rw [sliceRetire_spare s hdie hk hw hsp, act_of_answered hans]
      generalize (s.passAsks (s.backAsks (askAgent 13 (s.physSlice die k)) (s.sliceLines (s.physSlice die k)))).2 = u at hp ⊢
      have hremap : u.pk.remap = s.pk.remap := by rw [hp.asked.pk]
      have hphys : ∀ d i, u.physSlice d i = s.physSlice d i := fun d i => by unfold State.physSlice; rw [hremap]
      obtain ⟨hkept, ho, hval, hgone, hret, hspare, hother⟩ := retireSlice_retires u die k (s.physSlice die k) j
      generalize u.retireSlice die k (s.physSlice die k) j = w at *
      refine ⟨_, rfl, hspare, hret, fun a => ?_, ?_, ho.trans hp.asked.o, fun d i hd hi hne => ?_, fun l hl => ?_⟩
      · have hv := hval (hp.clean fun l => hs.clean l) (a / 64)
        rw [← hp.asked.readPhys a, readPhys_byte u, ← hv, ← readPhys_byte]
        exact readPhys_of_bytes a rfl rfl fun _ _ => rfl
      · exact hp.asked.keepsProgram.regs.trans (hkept.regs.trans (.of_waves rfl))
      · exact (hother d i (by omega)).trans (hphys d i)
      · exact hgone l (by rw [homeSlice_congr hp.asked.reg hremap, hl])
  case sound =>
    rw [exec_sliceRetire, sliceRetire_sound s die k h]
end

section
/-! SUPPORT. The boot sequence (R50, R51): self-tests, the default maps and what is measured of them. -/

set_option Elab.async false

namespace Sys2Proof.Machine

open Sys2Proof Sys2Proof.Safety

/-! ### The image -/

theorem accepts_some (r : Rom) (i : Image) : r.accepts (some i) = some i ↔
    r.minVersion ≤ i.version ∧ sha256 r.vendorKey = r.vendorHash ∧ Config.slhVerify r.vendorKey i.bytes i.sig = true := by
  unfold Rom.accepts
  simp [Option.filter_eq_some_iff, and_assoc]

theorem accepts_none (r : Rom) (i : Image) (h : r.accepts (some i) ≠ some i) : r.accepts (some i) = none := by
  unfold Rom.accepts at h ⊢
  rw [Option.filter_some] at h ⊢
  split at h
  · exact absurd rfl h
  · next hc => rw [if_neg hc]

/-- R50 steps 2 and 3: the choice between two slots that hold an image. -/
theorem pick_cases (r : Rom) (a b : Image) (ha : r.slotA = some a) (hb : r.slotB = some b) (ok : Image → Prop) (hok : ∀ i, ok i ↔ r.accepts (some i) = some i) :
    (ok a → (ok b → b.version ≤ a.version) → r.pick = some a) ∧ (ok b → (ok a → a.version < b.version) → r.pick = some b) ∧
    (¬ ok a → ¬ ok b → r.pick = none) := by
  have hno : ∀ i, ¬ ok i → r.accepts (some i) = none := fun i h => accepts_none r i fun h' => h ((hok i).2 h')
  unfold Rom.pick
  rw [ha, hb]
  refine ⟨fun h h' => ?_, fun h h' => ?_, fun h h' => by rw [hno a h, hno b h']⟩
  · rw [(hok a).1 h]
    by_cases hb' : ok b
    · rw [(hok b).1 hb']
      dsimp only
      rw [if_neg (by have := h' hb'; omega)]
    · rw [hno b hb']
  · rw [(hok b).1 h]
    by_cases ha' : ok a
    · rw [(hok a).1 ha']
      dsimp only
      rw [if_pos (h' ha')]
    · rw [hno a ha']

/-! ### Ports -/

theorem enumerate_port (s : State) (ioOnly : Bool) (p : Nat) :
    (s.enumerate ioOnly).port p = if p < 2 then { s.port p with enumerated := true, ioOnly := ioOnly } else s.port p := by
  unfold State.enumerate
  rw [State.setPort_port, State.setPort_port]
  by_cases h1 : p = 1
  · subst h1; rfl
  · by_cases h0 : p = 0
    · subst h0; rfl
    · rw [if_neg h1, if_neg h0, if_neg (by omega)]

/-! ### Self-tests of the cores -/

/-- Only cores leave service. -/
structure CoresOnly (s t : State) : Prop where
  m : t.m = s.m
  pk : t.pk = s.pk
  reg : t.reg = s.reg
  o : t.o = s.o
  x : t.x = { s.x with cores := t.x.cores }

theorem CoresOnly.refl (s : State) : CoresOnly s s := ⟨rfl, rfl, rfl, rfl, rfl⟩

theorem CoresOnly.trans {s t u : State} (h : CoresOnly s t) (k : CoresOnly t u) : CoresOnly s u :=
  ⟨k.m.trans h.m, k.pk.trans h.pk, k.reg.trans h.reg, k.o.trans h.o, by rw [k.x, h.x]⟩

/-- R50 step 4: cores tested one after another. -/
def State.testCores (s : State) (cs : List Nat) : State := cs.foldl (fun (s : State) c => s.testCore c) s

theorem testCore_only (s : State) (c : Nat) : CoresOnly s (s.testCore c) := by
  unfold State.testCore
  split
  · exact ⟨rfl, rfl, rfl, rfl, rfl⟩
  · exact .refl s

theorem testCores_only (s : State) (cs : List Nat) : CoresOnly s (s.testCores cs) :=
  foldl_rel CoresOnly.refl CoresOnly.trans _ cs (fun s c _ => testCore_only s c) s

theorem testCore_out (s : State) (c k : Nat) : ((s.testCore c).core k).out = ((s.core k).out || (decide (k = c) && s.pk.rom.failCores.contains k)) := by
  unfold State.testCore
  by_cases hk : k = c
  · subst hk
    split
    · next h => rw [State.modCore, State.setCore_core, if_pos rfl, h]; simp
    · next h => rw [Bool.not_eq_true _ |>.mp h]; simp
  · split
    · rw [State.modCore, State.setCore_core, if_neg hk]; simp [hk]
    · simp [hk]

theorem testCores_out (s : State) (cs : List Nat) (k : Nat) :
    ((s.testCores cs).core k).out = ((s.core k).out || (decide (k ∈ cs) && s.pk.rom.failCores.contains k)) := by
  induction cs generalizing s with
  | nil => simp [State.testCores]
  | cons c cs ih =>
    refine (ih (s.testCore c)).trans ?_
    rw [testCore_out, (testCore_only s c).pk]
    by_cases hk : k = c
    · rw [hk]; cases ((s.core c).out) <;> cases s.pk.rom.failCores.contains c <;> simp
    · simp [hk]

/-! ### Self-tests of the slices -/

/-- What the slices' self-tests leave. -/
structure SlicesOnly (s t : State) : Prop where
  reg : t.reg = s.reg
  o : t.o = s.o
  x : t.x = s.x
  pk : t.pk = { s.pk with slices := t.pk.slices, remap := t.pk.remap, ctrls := t.pk.ctrls, ports := t.pk.ports }
  laid : t.m.laid = s.m.laid
  port : ∀ p, t.port p = if p < 2 then { s.port p with lt := (t.port p).lt } else s.port p

theorem SlicesOnly.refl (s : State) : SlicesOnly s s := ⟨rfl, rfl, rfl, rfl, rfl, (ClocksBelow.refl s).port⟩

theorem SlicesOnly.trans {s t u : State} (h : SlicesOnly s t) (k : SlicesOnly t u) : SlicesOnly s u where
  reg := k.reg.trans h.reg
  o := k.o.trans h.o
  x := k.x.trans h.x
  pk := by rw [k.pk, h.pk]
  laid := k.laid.trans h.laid
  port p := by
    rw [k.port p, h.port p]
    split <;> rfl

/-- Slices and their places change, no port. -/
theorem SlicesOnly.withSlices (s : State) (sl : SMap Slice) (re : SMap (Option Nat)) : SlicesOnly s { s with pk := { s.pk with slices := sl, remap := re } } :=
  ⟨rfl, rfl, rfl, rfl, rfl, (ClocksBelow.refl s).port⟩

theorem clearLines_slicesOnly (s : State) (lines : List Nat) : SlicesOnly s (s.clearLines lines) :=
  let hm := (clearLines_moves s lines).only
  let hc := clearLines_clocksBelow s lines
  ⟨hm.reg, hm.o, hc.x, by rw [hc.pk], by rw [hm.m], hc.port⟩

theorem retireSlice_slicesOnly (s : State) (die k p j : Nat) : SlicesOnly s (s.retireSlice die k p j) :=
  (clearLines_slicesOnly s (s.sliceLines p)).trans (.withSlices _ _ _)

theorem retireSlice_slice (s : State) (die k p j i : Nat) : (s.retireSlice die k p j).slice i = if i = p then { s.slice p with retired := true } else s.slice i := by
  have hc := clearLines_clocksBelow s (s.sliceLines p)
  have h : (s.retireSlice die k p j).slice i =
      ((s.clearLines (s.sliceLines p)).setSlice p { (s.clearLines (s.sliceLines p)).slice p with retired := true }).slice i := rfl
  rw [h, State.setSlice_slice, hc.slice, hc.slice]

theorem spare_none_iff (s : State) (die : Nat) :
    s.spare die = none ↔ ∀ p, p < 50 → (s.slice (64 * die + p)).retired = true ∨ (s.logicalOf die p).isSome = true := by
  unfold State.spare
  rw [List.find?_eq_none]
  simp only [List.mem_range]
  refine forall₂_congr fun p _ => ?_
  cases (s.slice (64 * die + p)).retired <;> cases s.logicalOf die p <;> simp

theorem spare_congr {s t : State} (hs : t.pk.slices = s.pk.slices) (hr : t.pk.remap = s.pk.remap) (die : Nat) : t.spare die = s.spare die := by
  unfold State.spare
  refine List.find?_congr fun p _ => ?_
  rw [logicalOf_congr hr]
  unfold State.slice
  rw [hs]

/-- The cases of a slice's self-test. -/
theorem testSlice_cases (s : State) (p : Nat) :
    (s.testSlice p = s ∧ (s.pk.rom.failSlices.contains p = true → (s.slice p).retired = true ∨ s.spare (p / 64) = none)) ∨
    s.testSlice p = s.setSlice p { s.slice p with retired := true } ∨
    ∃ k n, k < 48 ∧ s.spare (p / 64) = some n ∧ s.testSlice p = s.retireSlice (p / 64) k p n := by
  unfold State.testSlice
  split
  · next h => exact .inl ⟨rfl, fun hf => .inl (by rw [hf] at h; simpa using h)⟩
  · split
    · exact .inr (.inl rfl)
    · next k hk =>
      split
      · next hs => exact .inl ⟨rfl, fun _ => .inr hs⟩
      · next n hs => exact .inr (.inr ⟨k, n, List.mem_range.1 (List.mem_of_find?_eq_some hk), hs, rfl⟩)

theorem setSlice_slicesOnly (s : State) (p : Nat) (x : Slice) : SlicesOnly s (s.setSlice p x) := .withSlices s _ _

theorem testSlice_slicesOnly (s : State) (p : Nat) : SlicesOnly s (s.testSlice p) := by
  rcases testSlice_cases s p with ⟨h, -⟩ | h | ⟨k, n, -, -, h⟩ <;> rw [h]
  · exact .refl s
  · exact setSlice_slicesOnly _ _ _
  · exact retireSlice_slicesOnly _ _ _ _ _

/-- A slice that has left service stays out of it. -/
theorem testSlice_retired (s : State) (p i : Nat) (h : (s.slice i).retired = true) : ((s.testSlice p).slice i).retired = true := by
  rcases testSlice_cases s p with ⟨e, -⟩ | e | ⟨k, n, -, -, e⟩ <;> rw [e]
  · exact h
  · rw [State.setSlice_slice]; split <;> simp_all
  · rw [retireSlice_slice]; split <;> simp_all

/-- A die without a spare stays without. -/
theorem testSlice_spare (s : State) (p die : Nat) (h : s.spare die = none) : (s.testSlice p).spare die = none := by
  have hret := testSlice_retired s p
  have hlog : ∀ i, (s.testSlice p).logicalOf die i = s.logicalOf die i := by
    intro i
    rcases testSlice_cases s p with ⟨e, -⟩ | e | ⟨k, n, hk, hs, e⟩ <;> rw [e]
    · exact logicalOf_congr rfl _ _
    · have hd : die ≠ p / 64 := fun hd => by rw [← hd, h] at hs; cases hs
      unfold State.logicalOf
      refine List.find?_congr fun j hj => ?_
      have hj := List.mem_range.1 hj
      rw [(retireSlice_retires s (p / 64) k p n).others die j (by omega)]
  rw [spare_none_iff] at h ⊢
  intro i hi
  rw [hlog]
  exact (h i hi).imp_left (hret _)

/-- R50 step 5: slices tested one after another. -/
def State.testSlices (s : State) (ps : List Nat) : State := ps.foldl (fun (s : State) p => s.testSlice p) s

theorem testSlices_only (s : State) (ps : List Nat) : SlicesOnly s (s.testSlices ps) :=
  foldl_rel SlicesOnly.refl SlicesOnly.trans _ ps (fun s p _ => testSlice_slicesOnly s p) s

/-- A slice that fails is out of service, or its die has no spare. -/
def FailsOut (p : Nat) (s : State) : Prop := s.pk.rom.failSlices.contains p = true → (s.slice p).retired = true ∨ s.spare (p / 64) = none

theorem testSlice_failsOut (s : State) (p : Nat) : FailsOut p (s.testSlice p) := by
  have hrom : (s.testSlice p).pk.rom = s.pk.rom := by rw [(testSlice_slicesOnly s p).pk]
  unfold FailsOut
  rw [hrom]
  rcases testSlice_cases s p with ⟨e, h⟩ | e | ⟨k, n, -, -, e⟩ <;> rw [e]
  · exact h
  · exact fun _ => .inl (by rw [State.setSlice_slice, if_pos rfl])
  · exact fun _ => .inl (by rw [retireSlice_slice, if_pos rfl])

theorem testSlices_failsOut (s : State) {ps : List Nat} {p : Nat} (h : p ∈ ps) : FailsOut p (s.testSlices ps) := by
  refine foldl_reaches (P := FailsOut) _ testSlice_failsOut (fun s a b ha hf => ?_) h s
  rw [(testSlice_slicesOnly s b).pk] at hf
  exact (ha hf).imp (testSlice_retired s b a) (testSlice_spare s b _)

/-! ### The default maps -/

/-- R50 step 6: the rows of a region's matrix as the image has them, and as the contents were laid out by. -/
def imageRows (i : Image) (k : Nat) : List Nat := (List.range 33).map fun r => (SMap.get none i.maps (64 * k + r)).getD (resetRow r)

def State.laidRows (s : State) (k : Nat) : List Nat := (List.range 33).map fun r => (SMap.get none s.m.laid (64 * k + r)).getD (resetRow r)

theorem imageRows_getD (i : Image) (k r : Nat) (h : r < 33) : (imageRows i k).getD r 0 = (SMap.get none i.maps (64 * k + r)).getD (resetRow r) := by
  unfold imageRows
  rw [List.getD_eq_getElem?_getD, List.getElem?_map, List.getElem?_range h]
  rfl

/-- R29: the default map of one region. -/
def State.defaultMap (s : State) (i : Image) (k : Nat) : State :=
  (if imageRows i k == s.laidRows k then s else s.scramble k).setMap k (imageRows i k)

/-- Only maps and contents change. -/
structure MapsOnly (s t : State) : Prop where
  x : t.x = s.x
  o : t.o = s.o
  pk : t.pk = s.pk
  reg : t.reg = { s.reg with maps := t.reg.maps }
  llc : t.m.llc = s.m.llc
  laid : t.m.laid = s.m.laid

theorem MapsOnly.refl (s : State) : MapsOnly s s := ⟨rfl, rfl, rfl, rfl, rfl, rfl⟩

theorem MapsOnly.trans {s t u : State} (h : MapsOnly s t) (k : MapsOnly t u) : MapsOnly s u :=
  ⟨k.x.trans h.x, k.o.trans h.o, k.pk.trans h.pk, by rw [k.reg, h.reg], k.llc.trans h.llc, k.laid.trans h.laid⟩

theorem scramble_mapsOnly (s : State) (k : Nat) : MapsOnly s (s.scramble k) := ⟨rfl, rfl, rfl, rfl, rfl, rfl⟩

theorem setMap_mapsOnly (s : State) (k : Nat) (rows : List Nat) : MapsOnly s (s.setMap k rows) := ⟨rfl, rfl, rfl, rfl, rfl, rfl⟩

theorem defaultMap_mapsOnly (s : State) (i : Image) (k : Nat) : MapsOnly s (s.defaultMap i k) := by
  refine MapsOnly.trans ?_ (setMap_mapsOnly _ k _)
  split
  · exact .refl s
  · exact scramble_mapsOnly s k

theorem defaultMaps_eq (s : State) (i : Image) : s.defaultMaps i = (List.range 8).foldl (fun (s : State) k => s.defaultMap i k) s := rfl

theorem defaultMaps_mapsOnly (s : State) (i : Image) : MapsOnly s (s.defaultMaps i) := by
  rw [defaultMaps_eq]
  exact foldl_rel MapsOnly.refl MapsOnly.trans _ _ (fun s k _ => defaultMap_mapsOnly s i k) s

theorem defaultMap_mapRow (s : State) (i : Image) (k j r : Nat) (hr : r < 33) :
    (s.defaultMap i k).mapRow j r = if j = k then (SMap.get none i.maps (64 * k + r)).getD (resetRow r) else s.mapRow j r := by
  unfold State.defaultMap
  rw [setMap_mapRow _ _ _ _ _ hr, imageRows_getD i k r hr]
  refine ite_congr rfl (fun _ => rfl) fun _ => ?_
  split
  · rfl
  · unfold State.mapRow
    rw [(scramble_keepsProgram s k).reg]

/-- R50 step 6: the image's matrices are in force. -/
theorem defaultMaps_mapRow (s : State) (i : Image) (k r : Nat) (hk : k < 8) (hr : r < 33) :
    (s.defaultMaps i).mapRow k r = (SMap.get none i.maps (64 * k + r)).getD (resetRow r) := by
  rw [defaultMaps_eq]
  refine foldl_reaches (P := fun k (s : State) => s.mapRow k r = (SMap.get none i.maps (64 * k + r)).getD (resetRow r)) _ (fun s k => ?_) (fun s a b h => ?_)
    (List.mem_range.2 hk) s
  · rw [defaultMap_mapRow s i k k r hr, if_pos rfl]
  · rw [defaultMap_mapRow s i b a r hr]
    split
    · next e => rw [e]
    · exact h

theorem MapsOnly.pkgnum {s t : State} (h : MapsOnly s t) : t.pkgnum = s.pkgnum := by
  unfold State.pkgnum State.dev
  rw [h.reg]

/-- R29: a region whose matrix is the one its contents were laid out by keeps them. -/
theorem defaultMap_homeByte (s : State) (i : Image) (j k a : Nat) (ha : a / 2 ^ 36 = s.pkgnum * 8 + k) (hk : imageRows i k = s.laidRows k) :
    (s.defaultMap i j).homeByte a = s.homeByte a := by
  unfold State.defaultMap
  split
  · rfl
  · next hj =>
    refine (rfl : _ = (s.scramble j).homeByte a).trans (scramble_homeByte s j a fun he => hj ?_)
    have : j = k := by omega
    subst this
    exact beq_iff_eq.2 hk

theorem defaultMaps_homeByte (s : State) (i : Image) (k a : Nat) (ha : a / 2 ^ 36 = s.pkgnum * 8 + k) (hk : imageRows i k = s.laidRows k) :
    (s.defaultMaps i).homeByte a = s.homeByte a := by
  rw [defaultMaps_eq]
  refine (List.foldlRecOn (motive := fun t : State => MapsOnly s t ∧ t.homeByte a = s.homeByte a) (List.range 8) _ ⟨.refl s, rfl⟩ fun t ht j _ => ?_).2
  obtain ⟨hm, hb⟩ := ht
  have hl : t.laidRows k = s.laidRows k := by unfold State.laidRows; rw [hm.laid]
  exact ⟨hm.trans (defaultMap_mapsOnly t i j), (defaultMap_homeByte t i j k a (by rw [hm.pkgnum, ha]) (by rw [hl, hk])).trans hb⟩

/-! ### What is measured -/

/-- The value of bits that are set where a test fails. -/
theorem clearBits (f : Nat → Bool) (n : Nat) :
    (List.range n).foldl (fun v i => if f i then v else v + 2 ^ i) 0 < 2 ^ n ∧
    ∀ j, j < n → ((List.range n).foldl (fun v i => if f i then v else v + 2 ^ i) 0).testBit j = !f j := by
  induction n with
  | zero => simp
  | succ n ih =>
    obtain ⟨hlt, hbit⟩ := ih
    rw [List.range_succ, List.foldl_append, List.foldl_cons, List.foldl_nil]
    generalize (List.range n).foldl (fun v i => if f i then v else v + 2 ^ i) 0 = v at hlt hbit ⊢
    have hp : 2 ^ (n + 1) = 2 ^ n + 2 ^ n := by omega
    refine ⟨by split <;> omega, fun j hj => ?_⟩
    rcases Nat.lt_succ_iff_lt_or_eq.1 hj with h | rfl
    · split
      · exact hbit j h
      · rw [Nat.add_comm, Nat.testBit_two_pow_add_gt h, hbit j h]
    · split
      · next hf => rw [Nat.testBit_lt_two_pow hlt, hf]; rfl
      · next hf => rw [Nat.add_comm, Nat.testBit_two_pow_add_eq, Nat.testBit_lt_two_pow hlt]; simp [hf]

/-- A bit of a map of bytes. -/
theorem bitmap_bit (f : Nat → Nat → Bool) (n c : Nat) (h : c < 8 * n) :
    (((List.range n).map fun b => BitVec.ofNat 8 ((List.range 8).foldl (fun v i => if f b i then v else v + 2 ^ i) 0)).getD (c / 8) 0#8).getLsbD (c % 8) =
      !f (c / 8) (c % 8) := by
  have h8 : c % 8 < 8 := Nat.mod_lt _ (by decide)
  rw [List.getD_eq_getElem?_getD, List.getElem?_map, List.getElem?_range (by omega)]
  refine (BitVec.getLsbD_ofNat ..).trans ?_
  rw [(clearBits (f (c / 8)) 8).2 _ h8]
  simp [h8]

/-- R330: the map of cores in service. -/
theorem coreMap_spec (s : State) : s.coreMap.length = 32 ∧ ∀ c, c < 256 → (s.coreMap.getD (c / 8) 0#8).getLsbD (c % 8) = !(s.core c).out := by
  refine ⟨by simp [State.coreMap], fun c hc => ?_⟩
  refine (bitmap_bit (fun b i => (s.core (8 * b + i)).out) 32 c (by omega)).trans ?_
  rw [Nat.div_add_mod]

/-- The map of retired slices. -/
theorem sliceMap_spec (s : State) : s.sliceMap.length = 25 ∧
    ∀ j, j < 200 → (s.sliceMap.getD (j / 8) 0#8).getLsbD (j % 8) = !(s.slice (64 * (j / 50) + j % 50)).retired := by
  refine ⟨by simp [State.sliceMap], fun j hj => ?_⟩
  refine (bitmap_bit (fun b i => (s.slice (64 * ((8 * b + i) / 50) + (8 * b + i) % 50)).retired) 25 j (by omega)).trans ?_
  rw [Nat.div_add_mod]

/-- An entry of rows laid end to end. -/
theorem rows_getD (g : Nat → Nat → Nat) (m n : Nat) : ((List.range n).flatMap fun k => (List.range m).map (g k)).length = m * n ∧
    ∀ k r, k < n → r < m → ((List.range n).flatMap fun k => (List.range m).map (g k)).getD (m * k + r) 0 = g k r := by
  induction n with
  | zero => simp
  | succ n ih =>
    obtain ⟨hlen, hget⟩ := ih
    rw [List.range_succ, List.flatMap_append]
    generalize (List.range n).flatMap (fun k => (List.range m).map (g k)) = rows at hlen hget ⊢
    refine ⟨by simp [hlen, Nat.mul_succ], fun k r hk hr => ?_⟩
    rcases Nat.lt_succ_iff_lt_or_eq.1 hk with h | rfl
    · have hlt : m * k + r < rows.length := by
        have := Nat.mul_le_mul_left m (Nat.succ_le_of_lt h)
        rw [Nat.mul_succ] at this
        omega
      rw [List.getD_append _ _ _ _ hlt]
      exact hget k r h hr
    · rw [List.getD_append_right _ _ _ _ (by omega), hlen, Nat.add_sub_cancel_left]
      simp [hr]

theorem allRows_spec (s : State) : s.allRows.length = 264 ∧ ∀ k r, k < 8 → r < 33 → s.allRows.getD (33 * k + r) 0 = s.mapRow k r :=
  rows_getD s.mapRow 33 8

end Sys2Proof.Machine
end

section
/-! SUPPORT. The boot sequence as its steps follow each other (R50). -/

set_option Elab.async false

namespace Sys2Proof.Machine

open Sys2Proof Sys2Proof.Safety

/-- R50 step 3: the image that runs, measured. -/
def State.startImage (s : State) (i : Image) : State :=
  ({ s with reg := { s.reg with meas := [] }, pk := { s.pk with running := some i } } : State).extend 0 (sha256 i.bytes)

/-- R50 steps 4 and 5: the cores and the slices tested. -/
def State.selfTest (s : State) : State := (s.testCores (List.range 256)).testSlices s.pk.rom.failSlices

/-- R50 steps 6 and 7: the default maps, the configuration and the defect map measured. -/
def State.configure (s : State) (i : Image) : State :=
  let u := (s.defaultMaps i).extend 1 (sha256 i.config)
  u.extend 2 (sha256 (u.coreMap ++ u.sliceMap ++ Config.mapBytes u.allRows))

/-- R50 step 8: up, both ports enumerated. -/
def State.comeUp (s : State) : State :=
  ({ s.enumerate false with pk := { (s.enumerate false).pk with boot := .up } } : State).addDue [.msiDeliverPending 0, .msiDeliverPending 1]

/-- R50: recovery. -/
def State.recover (s : State) : State := ({ s with pk := { s.pk with boot := .recovery } } : State).enumerate true

variable (s : State) (i : Image)

theorem boot_up (h : s.pk.boot ≠ .off) : execBootSequence s = .next s := congrArg _ (if_pos (by simpa using h))

theorem boot_noImage (h : s.pk.boot = .off) (hp : s.pk.rom.pick = none) :
    execBootSequence s = .next ({ s with reg := { s.reg with meas := [] } } : State).recover := by
  unfold execBootSequence State.recover
  rw [if_neg (by simp [h])]
  simp only [hp]

theorem startImage_pk : (s.startImage i).pk = { s.pk with running := some i } := rfl

theorem selfTest_only : SlicesOnly (s.testCores (List.range 256)) s.selfTest := testSlices_only _ _

theorem selfTest_rom : s.selfTest.pk.rom = s.pk.rom := by
  rw [(selfTest_only s).pk, (testCores_only s _).pk]

theorem selfTest_eq : s.selfTest = (s.testCores (List.range 256)).testSlices (s.testCores (List.range 256)).pk.rom.failSlices := by
  unfold State.selfTest
  rw [(testCores_only s _).pk]

theorem boot_image (h : s.pk.boot = .off) (hp : s.pk.rom.pick = some i) :
    execBootSequence s = .next (if s.pk.rom.failStack then (s.startImage i).selfTest.recover else ((s.startImage i).selfTest.configure i).comeUp) := by
  have hstack : (s.startImage i).selfTest.pk.rom = s.pk.rom := by rw [selfTest_rom, startImage_pk]
  rw [← hstack, selfTest_eq]
  unfold execBootSequence
  rw [if_neg (by simp [h])]
  generalize List.range 256 = cores
  refine congrArg Host.Outcome.next ?_
  dsimp only
  rw [hp]
  rfl

/-! ### The self-tests -/

theorem selfTest_out (c : Nat) (hc : c < 256) : (s.selfTest.core c).out = ((s.core c).out || s.pk.rom.failCores.contains c) := by
  have h : s.selfTest.core c = (s.testCores (List.range 256)).core c := by
    unfold State.core
    rw [(selfTest_only s).x]
  rw [h, testCores_out]
  simp [hc]

theorem selfTest_failsOut (p : Nat) (h : p ∈ s.pk.rom.failSlices) : (s.selfTest.slice p).retired = true ∨ s.selfTest.spare (p / 64) = none :=
  testSlices_failsOut _ h (by
    show s.selfTest.pk.rom.failSlices.contains p = true
    rw [selfTest_rom]
    exact List.contains_iff_mem.2 h)

theorem selfTest_m (h : s.pk.rom.failSlices = []) : s.selfTest.m = s.m := by
  unfold State.selfTest
  rw [h]
  unfold State.testSlices
  rw [List.foldl_nil, (testCores_only s _).m]

/-- What stands after the self-tests, in a state that the boot has begun. -/
structure Tested (s t : State) : Prop where
  waves : t.x.waves = s.x.waves
  o : t.o = s.o
  reg : t.reg = s.reg
  running : t.pk.running = s.pk.running
  laid : t.m.laid = s.m.laid
  port : ∀ p, t.port p = if p < 2 then { s.port p with lt := (t.port p).lt } else s.port p

theorem selfTest_tested : Tested s s.selfTest := by
  have hc := testCores_only s (List.range 256)
  have hs := selfTest_only s
  refine ⟨by rw [hs.x, hc.x], hs.o.trans hc.o, hs.reg.trans hc.reg, by rw [hs.pk, hc.pk], hs.laid.trans (by rw [hc.m]), fun p => ?_⟩
  have h : (s.testCores (List.range 256)).port p = s.port p := by unfold State.port; rw [hc.pk]
  rw [hs.port p, h]
  split <;> rfl

/-! ### Recovery and enumeration -/

theorem recover_port (p : Nat) : s.recover.port p = if p < 2 then { s.port p with enumerated := true, ioOnly := true } else s.port p :=
  enumerate_port _ _ _

theorem comeUp_port (p : Nat) : s.comeUp.port p = if p < 2 then { s.port p with enumerated := true, ioOnly := false } else s.port p :=
  enumerate_port s false p

/-- The ports as they enumerate after the self-tests. -/
theorem Tested.enumerated {s t : State} (h : Tested s t) (io : Bool) {q : Port} (p : Nat)
    (hq : q = if p < 2 then { t.port p with enumerated := true, ioOnly := io } else t.port p) :
    q = if p < 2 then { s.port p with enumerated := true, ioOnly := io, lt := q.lt } else s.port p := by
  rw [hq, h.port p]
  split <;> rfl

/-! ### The configuration -/

/-- What the configuration leaves. -/
structure Configured (s t : State) : Prop where
  x : t.x = s.x
  o : t.o = s.o
  pk : t.pk = s.pk
  llc : t.m.llc = s.m.llc

theorem extend_kept (m : Nat) (d : List Byte) : Configured s (s.extend m d) := ⟨rfl, rfl, rfl, rfl⟩

theorem extend_homeByte (m : Nat) (d : List Byte) (a : Nat) : (s.extend m d).homeByte a = s.homeByte a := rfl

theorem extend_mapRow (m : Nat) (d : List Byte) (k r : Nat) : (s.extend m d).mapRow k r = s.mapRow k r := rfl

theorem extend_coreMap (m : Nat) (d : List Byte) : (s.extend m d).coreMap = s.coreMap := rfl

theorem extend_sliceMap (m : Nat) (d : List Byte) : (s.extend m d).sliceMap = s.sliceMap := rfl

theorem extend_allRows (m : Nat) (d : List Byte) : (s.extend m d).allRows = s.allRows := rfl

theorem Configured.trans {s t u : State} (h : Configured s t) (k : Configured t u) : Configured s u :=
  ⟨k.x.trans h.x, k.o.trans h.o, k.pk.trans h.pk, k.llc.trans h.llc⟩

theorem configure_kept : Configured s (s.configure i) :=
  let h := defaultMaps_mapsOnly s i
  Configured.trans ⟨h.x, h.o, h.pk, h.llc⟩ ((extend_kept _ 1 _).trans (extend_kept _ 2 _))

theorem configure_homeByte (k a : Nat) (ha : a / 2 ^ 36 = s.pkgnum * 8 + k) (hk : imageRows i k = s.laidRows k) :
    (s.configure i).homeByte a = s.homeByte a := by
  unfold State.configure
  dsimp only
  rw [extend_homeByte, extend_homeByte, defaultMaps_homeByte s i k a ha hk]

theorem configure_mapRow (k r : Nat) (hk : k < 8) (hr : r < 33) :
    (s.configure i).mapRow k r = (SMap.get none i.maps (64 * k + r)).getD (resetRow r) := by
  unfold State.configure
  dsimp only
  rw [extend_mapRow, extend_mapRow, defaultMaps_mapRow s i k r hk hr]

/-- R51: the registers that the configuration extends. -/
theorem configure_meas (m : Nat) : (s.configure i).meas m =
    if m = 2 then sha256 (s.meas 2 ++ sha256 ((s.configure i).coreMap ++ (s.configure i).sliceMap ++ Config.mapBytes (s.configure i).allRows))
    else if m = 1 then sha256 (s.meas 1 ++ sha256 i.config) else s.meas m := by
  have hd : ∀ m, (s.defaultMaps i).meas m = s.meas m := fun m => by
    unfold State.meas
    rw [(defaultMaps_mapsOnly s i).reg]
  unfold State.configure
  simp only [extend_coreMap, extend_sliceMap, extend_allRows]
  rw [extend_meas]
  split
  · rw [extend_meas, if_neg (by decide), hd]
  · rw [extend_meas, hd, hd]

theorem startImage_meas (m : Nat) : (s.startImage i).meas m = if m = 0 then sha256 (List.replicate 32 0#8 ++ sha256 i.bytes) else List.replicate 32 0#8 :=
  extend_meas _ 0 _ m

theorem Tested.meas {s t : State} (h : Tested s t) (m : Nat) : t.meas m = s.meas m := by
  unfold State.meas
  rw [h.reg]

end Sys2Proof.Machine

open Sys2Proof Sys2Proof.Machine Sys2Proof.Safety

/-- Settles O39: the boot by its steps, `startImage`, `selfTest`, `configure` and `comeUp` or `recover`. -/
theorem bootSequence : Obligations.BootSequence := by
  unfold Obligations.BootSequence
  intro s
  refine ⟨fun h => ?up, fun h => ?off⟩
  case up => rw [exec_bootSequence, boot_up s h]
  case off =>
    have hpick : ∀ a b : Image, s.pk.rom.slotA = some a → s.pk.rom.slotB = some b → ∀ ok : Image → Prop,
        (∀ i, ok i ↔ s.pk.rom.minVersion ≤ i.version ∧ sha256 s.pk.rom.vendorKey = s.pk.rom.vendorHash ∧
          Config.slhVerify s.pk.rom.vendorKey i.bytes i.sig = true) →
        (ok a → (ok b → b.version ≤ a.version) → s.pk.rom.pick = some a) ∧ (ok b → (ok a → a.version < b.version) → s.pk.rom.pick = some b) ∧
        (¬ ok a → ¬ ok b → s.pk.rom.pick = none) :=
      fun a b ha hb ok hok => pick_cases s.pk.rom a b ha hb ok fun i => (hok i).trans (accepts_some s.pk.rom i).symm
    rw [exec_bootSequence]
    cases hp : s.pk.rom.pick with
    | none =>
      rw [boot_noImage s h hp]
      rw [hp] at hpick
      exact ⟨_, rfl, rfl, rfl, hpick, rfl, rfl, rfl, fun p => recover_port _ p⟩
    | some i =>
      have ht := selfTest_tested (s.startImage i)
      have hout := selfTest_out (s.startImage i)
      have hfails := selfTest_failsOut (s.startImage i)
      have hm := selfTest_m (s.startImage i)
      have hmeas := startImage_meas s i
      rw [boot_image s i h hp]
      rw [hp] at hpick
      generalize (s.startImage i).selfTest = u at *
      cases hstack : s.pk.rom.failStack with
      | true =>
        rw [if_pos rfl]
        refine ⟨_, rfl, ht.waves, ht.o, hpick, ht.running, ?_, hout, fun p hp => ?_, fun hf => ?_, fun p => ?_, fun _ => rfl, fun h => nomatch h⟩
        · exact (ht.meas 0).trans (hmeas 0)
        · exact (hfails p hp).imp_right fun h => (spare_congr rfl rfl _).trans h
        · exact congrArg MemSys.llc (hm hf)
        · exact ht.enumerated true p (recover_port u p)
      | false =>
        rw [if_neg (by decide)]
        have hk := configure_kept u i
        have hhome := configure_homeByte u i
        have hrow := configure_mapRow u i
        have hext := configure_meas u i
        generalize u.configure i = v at *
        have hport : ∀ p, v.port p = u.port p := fun p => by unfold State.port; rw [hk.pk]
        have hcore : ∀ c, v.core c = u.core c := fun c => by unfold State.core; rw [hk.x]
        have hslice : ∀ p, v.slice p = u.slice p := fun p => by unfold State.slice; rw [hk.pk]
        have hum : ∀ m, u.meas m = if m = 0 then sha256 (List.replicate 32 0#8 ++ sha256 i.bytes) else List.replicate 32 0#8 :=
          fun m => (ht.meas m).trans (hmeas m)
        refine ⟨_, rfl, ?_, hk.o.trans ht.o, hpick, ?_, ?_, fun c hc => ?_, fun p hp => ?_, fun hf => ?_, fun p => ?_,
          (fun h => nomatch h), fun _ => ⟨rfl, ?_, ?_, ?_, fun m hm3 => ?_, ?_⟩⟩
        · exact (congrArg Exec.waves hk.x).trans ht.waves
        · exact (congrArg Package.running hk.pk).trans ht.running
        · exact (hext 0).trans (hum 0)
        · exact (congrArg Core.out (hcore c)).trans (hout c hc)
        · have hs : v.comeUp.spare (p / 64) = u.spare (p / 64) := spare_congr (congrArg Package.slices hk.pk) (congrArg Package.remap hk.pk) _
          rw [hs]
          exact (hfails p hp).imp_left ((congrArg Slice.retired (hslice p)).trans ·)
        · exact hk.llc.trans (congrArg MemSys.llc (hm hf))
        · exact ht.enumerated false p ((comeUp_port v p).trans (by rw [hport]))
        · obtain ⟨hcl, hcb⟩ := coreMap_spec v
          obtain ⟨hsl, hsb⟩ := sliceMap_spec v
          obtain ⟨hrl, hrb⟩ := allRows_spec v
          exact ⟨v.coreMap, v.sliceMap, v.allRows, hcl, hcb, hsl, hsb, hrl, hrb, (hext 2).trans (by rw [if_pos rfl, hum]; rfl)⟩
        · intro hf k a hk8 ha hrows
          have hum := hm hf
          refine (hhome k a ?_ ?_).trans ?_
          · unfold State.pkgnum State.dev
            rw [ht.reg]
            exact ha
          · refine List.map_congr_left fun r hr => ?_
            rw [hum]
            exact hrows r (List.mem_range.1 hr)
          · unfold State.homeByte State.cover
            rw [hum]
            rfl
        · exact (hext 1).trans (by rw [if_neg (by decide), if_pos rfl, hum]; rfl)
        · exact (hext m).trans (by rw [if_neg (by omega), if_neg (by omega), hum, if_neg (by omega)])
        · exact fun k r hk hr => hrow k r hk hr
end

section
/-! SUPPORT. Who waits on an allowance (R336) is read from the tenants' windows and that allowance alone: the records, the suspensions and the
other allowances do not enter. -/

set_option Elab.async false

namespace Sys2Proof.Machine

open Sys2Proof Sys2Proof.Safety

/-- A state with other tenants and groups. -/
def State.withBooks (s : State) (groups : List Group) (tenants : SMap Tenant) : State := { s with x := { s.x with groups := groups, tenants := tenants } }

section
variable {s : State} {groups : List Group} {tenants : SMap Tenant}

theorem mayPerform_withBooks (ev : Ev) : (s.withBooks groups tenants).mayPerform ev = s.mayPerform ev := rfl

theorem provHeld_withBooks (pa n : Nat) : (s.withBooks groups tenants).provHeld pa n = s.provHeld pa n := rfl

theorem partReady_withBooks (id i : Nat) : (s.withBooks groups tenants).partReady id i = s.partReady id i := by
  unfold State.partReady
  simp only [mayPerform_withBooks]
  rfl

theorem partParked_withBooks (id i : Nat) : (s.withBooks groups tenants).partParked id i = s.partParked id i := by
  unfold State.partParked
  simp only [partReady_withBooks, provHeld_withBooks]
  rfl

theorem asksOf_withBooks (id i : Nat) : (s.withBooks groups tenants).asksOf id i = s.asksOf id i := rfl

theorem parkedParts_withBooks : (s.withBooks groups tenants).parkedParts = s.parkedParts := by
  unfold State.parkedParts
  simp only [partParked_withBooks, asksOf_withBooks]
  rfl

theorem readPa_withBooks (core : Option Nat) (pa n : Nat) : (s.withBooks groups tenants).readPa core pa n = s.readPa core pa n := rfl

theorem walkReads_withBooks (va : DWord) (n table : Nat) : (s.withBooks groups tenants).walkReads va n table = s.walkReads va n table := by
  induction n generalizing table with
  | zero => rfl
  | succ n ih =>
    unfold State.walkReads
    simp only [readPa_withBooks, ih]

theorem tableReads_withBooks (asid : Nat) (va : DWord) : (s.withBooks groups tenants).tableReads asid va = s.tableReads asid va := by
  have hentry : (s.withBooks groups tenants).ctxEntry asid = s.ctxEntry asid := rfl
  have hroot : (s.withBooks groups tenants).ctxRoot asid = s.ctxRoot asid := rfl
  unfold State.tableReads
  simp only [hentry, hroot, readPa_withBooks, walkReads_withBooks]

theorem walkAsks_withBooks (id : Nat) (k : Walk) : (s.withBooks groups tenants).walkAsks id k = s.walkAsks id k := by
  unfold State.walkAsks
  simp only [tableReads_withBooks]
  rfl

theorem hasWalker_withBooks (id : Nat) (k : Walk) : (s.withBooks groups tenants).hasWalker id k = s.hasWalker id k := rfl

theorem missAsk_withBooks (id : Nat) (k : Miss) : (s.withBooks groups tenants).missAsk id k = s.missAsk id k := rfl

theorem parkedRest_withBooks : (s.withBooks groups tenants).parkedRest = s.parkedRest := by
  unfold State.parkedRest
  simp only [walkAsks_withBooks, hasWalker_withBooks, missAsk_withBooks]
  rfl

section
variable (hw : ∀ n, (SMap.get ({} : Tenant) tenants n).windows = (s.tenant n).windows)
include hw

theorem inWindow_withBooks (t pa : Nat) : (s.withBooks groups tenants).inWindow t pa = s.inWindow t pa := by
  have h : ((s.withBooks groups tenants).tenant t).windows = (s.tenant t).windows := hw t
  unfold State.inWindow
  rw [h]

theorem checkPa_withBooks (ag : Agent) (r : Region) (need : Need) (va : DWord) (pa : Nat) (task : Bool) :
    (s.withBooks groups tenants).checkPa ag r need va pa task = s.checkPa ag r need va pa task := by
  unfold State.checkPa
  rw [inWindow_withBooks hw]
  rfl

theorem check_withBooks (ag : Agent) (need : Need) (va : DWord) (size : Nat) :
    (s.withBooks groups tenants).check ag need va size = s.check ag need va size := by
  unfold State.check
  simp only [checkPa_withBooks hw]
  rfl

theorem useChk_withBooks (id : Nat) (u : DWord × Nat × Bool) : (s.withBooks groups tenants).useChk id u = s.useChk id u := check_withBooks hw _ _ _ _

theorem stepFault_withBooks (id i : Nat) : (s.withBooks groups tenants).stepFault id i = s.stepFault id i := by
  unfold State.stepFault
  simp only [useChk_withBooks hw]
  rfl

theorem movesNow_withBooks (id : Nat) : (s.withBooks groups tenants).movesNow id = s.movesNow id := by
  unfold State.movesNow
  simp only [stepFault_withBooks hw]
  rfl

theorem readTo_withBooks (id : Nat) : (s.withBooks groups tenants).readTo id = s.readTo id := by
  unfold State.readTo
  simp only [movesNow_withBooks hw]
  rfl

theorem accessSteps_withBooks (id : Nat) : (s.withBooks groups tenants).accessSteps id = s.accessSteps id := by
  unfold State.accessSteps
  rw [readTo_withBooks hw, movesNow_withBooks hw]
  rfl

theorem accessUses_withBooks (id : Nat) : (s.withBooks groups tenants).accessUses id = s.accessUses id := by
  unfold State.accessUses
  rw [accessSteps_withBooks hw]
  simp only [useChk_withBooks hw]
  rfl

theorem elemAsks_withBooks (id : Nat) : (s.withBooks groups tenants).elemAsks id = s.elemAsks id := by
  unfold State.elemAsks
  rw [accessUses_withBooks hw]
  rfl

theorem parkedCopies_withBooks : (s.withBooks groups tenants).parkedCopies = s.parkedCopies := by
  unfold State.parkedCopies
  simp only [movesNow_withBooks hw, elemAsks_withBooks hw]
  rfl

theorem parked_withBooks : (s.withBooks groups tenants).parked = s.parked := by
  unfold State.parked
  rw [parkedParts_withBooks, parkedCopies_withBooks hw, parkedRest_withBooks]

/-- R336: the waves that wait on an allowance, by that allowance. -/
theorem waitsOn_withBooks {t kind : Nat} (hk : 1 ≤ kind ∧ kind ≤ 5) (hb : (SMap.get ({} : Tenant) tenants t).budget kind = (s.tenant t).budget kind) :
    (s.withBooks groups tenants).waitsOn t kind = s.waitsOn t kind := by
  have hpay : ∀ n, (s.withBooks groups tenants).canPayBytes t kind n = s.canPayBytes t kind n := fun n => by
    have h : ((s.withBooks groups tenants).tenant t).budget kind = (s.tenant t).budget kind := hb
    unfold State.canPayBytes
    rw [h]
  have hone : (s.withBooks groups tenants).canPay t kind 1 = s.canPay t kind 1 := by
    have h : ((s.withBooks groups tenants).tenant t).budget kind = (s.tenant t).budget kind := hb
    unfold State.canPay
    rw [h]
  have hlink : ∀ k, (s.withBooks groups tenants).linkWaits t kind k = s.linkWaits t kind k := fun k => by
    unfold State.linkWaits State.canMove
    simp only [hpay]
    rfl
  unfold State.waitsOn
  dsimp only
  rw [parked_withBooks hw, parkedCopies_withBooks hw]
  obtain ⟨h1, h5⟩ := hk
  have : kind = 1 ∨ kind = 2 ∨ kind = 3 ∨ kind = 4 ∨ kind = 5 := by omega
  rcases this with rfl | rfl | rfl | rfl | rfl
  · rfl
  · simp only [hlink]; rfl
  · simp only [hlink]; rfl
  · simp only [hpay]; rfl
  · simp only [hone]; rfl

end

end

end Sys2Proof.Machine
end

section
/-! SUPPORT. The power factor and the start of a budget period (R22, R276, R314, R335, R336). -/

set_option Elab.async false

namespace Sys2Proof.Machine

open Sys2Proof Sys2Proof.Safety

/-! ### Power samples -/

theorem nextF_eq (f limit sum : Nat) : nextF f limit sum = movedF f limit sum := by
  have h8 : Nat.max 8 (f - 1) = if f ≤ 8 then 8 else f - 1 := by
    show max 8 (f - 1) = _
    split <;> omega
  have h64 : Nat.min 64 (f + 1) = if 64 ≤ f then 64 else f + 1 := by
    show min 64 (f + 1) = _
    split <;> omega
  unfold nextF movedF
  rw [h8, h64]

/-- R22: the measurements after a sample. -/
def State.samples (s : State) (watts : Nat) : List Nat := if s.sch.cycle = s.pk.powerAt + 1600000 then (watts :: s.pk.powers).take 10 else [watts]

theorem powerMeasurement_off (s : State) (watts : Nat) (h : s.sch.cycle = 0 ∨ s.sch.cycle % 1600000 ≠ 0 ∨ s.pk.powerAt = s.sch.cycle) :
    execPowerMeasurement watts s = .next s := by
  unfold execPowerMeasurement
  rw [if_pos]
  simpa [msCycles, or_assoc] using h

theorem powerMeasurement_on (s : State) (watts : Nat) (h0 : s.sch.cycle ≠ 0) (h1 : s.sch.cycle % 1600000 = 0) (h2 : s.pk.powerAt ≠ s.sch.cycle) :
    execPowerMeasurement watts s = .next (
      if (s.samples watts).length < 10 then { s with pk := { s.pk with powers := s.samples watts, powerAt := s.sch.cycle } }
      else { s with pk := { s.pk with
        powers := s.samples watts, powerAt := s.sch.cycle
        newF := some (movedF (s.pk.newF.getD (s.dev 0x41E).toNat) (s.dev 0x406).toNat (s.samples watts).sum) } }) := by
  have hsamples : (if s.sch.cycle == s.pk.powerAt + msCycles then (watts :: s.pk.powers).take 10 else [watts]) = s.samples watts := by
    unfold State.samples
    simp [msCycles]
  unfold execPowerMeasurement
  rw [if_neg (by simp [msCycles, h0, h1, h2])]
  dsimp only
  rw [hsamples, nextF_eq, ← List.sum_eq_foldl]
  rfl

/-! ### What closing an allowance leaves -/

/-- Of the whole state records, suspensions, allowances, and failed walks change. -/
structure Charges (s u : State) : Prop where
  reg : u.reg = s.reg
  pk : u.pk = s.pk
  o : u.o = s.o
  sch : u.sch = s.sch
  x : u.x = { s.x with groups := u.x.groups, tenants := u.x.tenants }
  m : u.m = { s.m with walks := u.m.walks }
  walks : (∀ e ∈ s.m.walks, e.2.failed = none) → u.m.walks = s.m.walks
  windows : ∀ n, (u.tenant n).windows = (s.tenant n).windows
  suspended : ∀ w, s.suspended w = true → u.suspended w = true

theorem Charges.refl (s : State) : Charges s s := ⟨rfl, rfl, rfl, rfl, rfl, rfl, fun _ => rfl, fun _ => rfl, fun _ h => h⟩

theorem Charges.trans {s t u : State} (h : Charges s t) (k : Charges t u) : Charges s u where
  reg := k.reg.trans h.reg
  pk := k.pk.trans h.pk
  o := k.o.trans h.o
  sch := k.sch.trans h.sch
  x := by rw [k.x, h.x]
  m := by rw [k.m, h.m]
  walks hw := by
    have ht := h.walks hw
    exact (k.walks (by rw [ht]; exact hw)).trans ht
  windows n := (k.windows n).trans (h.windows n)
  suspended w hw := k.suspended w (h.suspended w hw)

theorem Charges.withBooks {s u : State} (h : Charges s u) (hw : ∀ e ∈ s.m.walks, e.2.failed = none) : u = s.withBooks u.x.groups u.x.tenants := by
  have hm : u.m = s.m := by rw [h.m, h.walks hw]
  obtain ⟨sch, x, reg, pk, m, o⟩ := u
  obtain ⟨hreg, hpk, ho, hsch, hx, -, -, -, -⟩ := h
  dsimp only at hreg hpk ho hsch hx hm
  subst hreg hpk ho hsch hm
  unfold State.withBooks
  rw [← hx]

/-- Who waits is the same while the allowance is. -/
theorem Charges.waitsOn {s u : State} (h : Charges s u) (hw : ∀ e ∈ s.m.walks, e.2.failed = none) {t kind : Nat} (hk : 1 ≤ kind ∧ kind ≤ 5)
    (hb : (u.tenant t).budget kind = (s.tenant t).budget kind) : u.waitsOn t kind = s.waitsOn t kind := by
  rw [h.withBooks hw]
  exact waitsOn_withBooks h.windows hk hb

/-- A tenant's records and allowances change, its windows do not. -/
theorem modTenant_charges (s : State) (t : Nat) (f : Tenant → Tenant) (h : (f (s.tenant t)).windows = (s.tenant t).windows) : Charges s (s.modTenant t f) := by
  refine ⟨rfl, rfl, rfl, rfl, rfl, rfl, fun _ => rfl, fun n => ?_, fun _ h => h⟩
  unfold State.modTenant
  rw [State.setTenant_tenant]
  split
  · next e => rw [h, e]
  · rfl

theorem noteOvf_kept (t : Tenant) : t.noteOvf = { t with fqctl := t.noteOvf.fqctl } := by
  unfold Tenant.noteOvf
  split <;> rfl

theorem queueRecord_charges (s : State) (t : Nat) (r : List Byte) : Charges s (s.queueRecord t r) :=
  modTenant_charges _ _ _ (by rw [noteOvf_kept])

theorem suspend_charges (s : State) (g : Group) : Charges s (s.suspend g) :=
  ⟨rfl, rfl, rfl, rfl, rfl, rfl, fun _ => rfl, fun _ => rfl, fun w h => by
    unfold State.suspended State.suspend
    rw [List.any_append]
    exact Bool.or_eq_true_iff.2 (.inl h)⟩

theorem dropFailed_charges (s : State) (ws : List Nat) : Charges s (s.dropFailed ws) :=
  ⟨rfl, rfl, rfl, rfl, rfl, rfl, fun hw => List.filter_eq_self.2 fun e he => by simp [hw e he], fun _ => rfl, fun _ h => h⟩

theorem sysFault_charges (s : State) (ws : List Nat) (susp w lane : Nat) (pc : DWord) (f : FaultInfo) : Charges s (s.sysFault ws susp w lane pc f) :=
  (dropFailed_charges s ws).trans ((suspend_charges _ _).trans (queueRecord_charges _ _ _))

/-- R315: the group of a system fault is suspended. -/
theorem sysFault_suspended (s : State) (ws : List Nat) (susp w lane : Nat) (pc : DWord) (f : FaultInfo) {v : Nat} (h : v ∈ ws) :
    (s.sysFault ws susp w lane pc f).suspended v = true := by
  refine (queueRecord_charges _ _ _).suspended v ?_
  unfold State.suspended State.suspend
  rw [List.any_append]
  simp [h]

/-- R314: the allowances and mat of a tenant. -/
def SameBooks (n : Nat) (s u : State) : Prop := (u.tenant n).budgets = (s.tenant n).budgets ∧ (u.tenant n).mat = (s.tenant n).mat

theorem SameBooks.trans {n : Nat} {s t u : State} (h : SameBooks n s t) (k : SameBooks n t u) : SameBooks n s u := ⟨k.1.trans h.1, k.2.trans h.2⟩

theorem queueRecord_books (s : State) (t : Nat) (r : List Byte) (n : Nat) : SameBooks n s (s.queueRecord t r) := by
  unfold SameBooks State.queueRecord State.modTenant
  rw [State.setTenant_tenant]
  split
  · next e =>
    dsimp only
    rw [noteOvf_kept, e]
    exact ⟨rfl, rfl⟩
  · exact ⟨rfl, rfl⟩

theorem sysFault_books (s : State) (ws : List Nat) (susp w lane : Nat) (pc : DWord) (f : FaultInfo) (n : Nat) : SameBooks n s (s.sysFault ws susp w lane pc f) :=
  queueRecord_books ((s.dropFailed ws).suspend { tenant := (s.gridOf w).tenant, waves := ws }) _ _ n

/-- R336: BUDGET of waves one after another. -/
def State.budgetFaults (s : State) (kind : Nat) (ws : List Nat) : State := ws.foldl (fun (s : State) w => s.budgetFault kind w) s

theorem budgetFaults_charges (s : State) (kind : Nat) (ws : List Nat) : Charges s (s.budgetFaults kind ws) :=
  foldl_rel Charges.refl Charges.trans _ ws (fun s w _ => sysFault_charges s [w] 0 w 255 _ _) s

theorem budgetFaults_books (s : State) (kind : Nat) (ws : List Nat) (n : Nat) : SameBooks n s (s.budgetFaults kind ws) :=
  foldl_rel (R := SameBooks n) (fun _ => ⟨rfl, rfl⟩) .trans _ ws (fun s w _ => sysFault_books s [w] 0 w 255 _ _ n) s

theorem budgetFaults_suspended (s : State) (kind : Nat) {ws : List Nat} {w : Nat} (h : w ∈ ws) : (s.budgetFaults kind ws).suspended w = true :=
  foldl_reaches (P := fun w (s : State) => s.suspended w = true) _ (fun s w => sysFault_suspended s [w] 0 w 255 _ _ (List.mem_singleton.2 rfl))
    (fun s a b h => (sysFault_charges s [b] 0 b 255 _ _).suspended a h) h s

/-! ### One kind of one tenant -/

theorem closeKind_eq (s : State) (t kind : Nat) : s.closeKind t kind =
    (s.modTenant t fun x => x.setBudget kind ((s.tenant t).budget kind).close.1.renew).budgetFaults kind
      (if ((s.tenant t).budget kind).close.2 then s.waitsOn t kind else []) := rfl

theorem closeKind_charges (s : State) (t kind : Nat) : Charges s (s.closeKind t kind) := by
  rw [closeKind_eq]
  exact (modTenant_charges _ _ _ rfl).trans (budgetFaults_charges _ _ _)

theorem closeKind_mat (s : State) (t kind n : Nat) : ((s.closeKind t kind).tenant n).mat = (s.tenant n).mat := by
  rw [closeKind_eq, (budgetFaults_books _ _ _ n).2, State.modTenant, State.setTenant_tenant]
  split
  · next e => rw [e]; rfl
  · rfl

theorem closeKind_budget (s : State) (t kind n k : Nat) : ((s.closeKind t kind).tenant n).budget k =
    if n = t ∧ k = kind then ((s.tenant t).budget kind).close.1.renew else (s.tenant n).budget k := by
  unfold Tenant.budget
  rw [closeKind_eq, (budgetFaults_books _ _ _ n).1, State.modTenant, State.setTenant_tenant]
  by_cases hn : n = t
  · subst hn
    rw [if_pos rfl]
    refine (SMap.get_set _ _ _ _ _).trans ?_
    simp [Tenant.budget]
  · rw [if_neg hn, if_neg fun h => hn h.1]

theorem closeKind_suspended (s : State) (t kind w : Nat) (hd : ((s.tenant t).budget kind).close.2 = true) (h : w ∈ s.waitsOn t kind) :
    (s.closeKind t kind).suspended w = true := by
  rw [closeKind_eq, if_pos hd]
  exact budgetFaults_suspended _ _ h

theorem closeMat_charges (s : State) (t : Nat) : Charges s (s.closeMat t) := by
  unfold State.closeMat
  exact modTenant_charges _ _ _ rfl

theorem closeMat_budgets (s : State) (t n : Nat) : ((s.closeMat t).tenant n).budgets = (s.tenant n).budgets := by
  unfold State.closeMat
  dsimp only
  rw [State.modTenant, State.setTenant_tenant]
  split
  · next e => rw [e]
  · rfl

theorem closeMat_mat (s : State) (t n : Nat) (h : n ≠ t) : ((s.closeMat t).tenant n).mat = (s.tenant n).mat := by
  unfold State.closeMat
  dsimp only
  rw [State.modTenant, State.setTenant_tenant, if_neg h]

theorem closeMat_allow (s : State) (t : Nat) : ((s.closeMat t).tenant t).mat.allow = (s.tenant t).mat.newAllow.getD (s.tenant t).mat.allow := by
  unfold State.closeMat
  dsimp only
  rw [State.modTenant, State.setTenant_tenant, if_pos rfl]
  rfl

/-! ### All kinds of all tenants -/

/-- Among steps of a list that keep `R`, the one step of `a` establishes `C`. -/
theorem foldl_once {σ γ : Type} {R C : σ → σ → Prop} (refl : ∀ s, R s s) (trans : ∀ {s t u}, R s t → R t u → R s u)
    (pre : ∀ {s t u}, R s t → C t u → C s u) (post : ∀ {s t u}, C s t → R t u → C s u) (f : σ → γ → σ) (a : γ)
    (others : ∀ s b, b ≠ a → R s (f s b))
    (own : ∀ s, C s (f s a)) {l : List γ} (hl : l.Nodup) (ha : a ∈ l) (s : σ) : C s (l.foldl f s) := by
  induction l generalizing s with
  | nil => cases ha
  | cons b l ih =>
    obtain ⟨hb, hl⟩ := List.nodup_cons.1 hl
    by_cases hab : b = a
    · subst hab
      exact post (own s) (foldl_rel refl trans f l (fun s c hc => others s c fun h => hb (h ▸ hc)) _)
    · rcases List.mem_cons.1 ha with rfl | ha
      · exact absurd rfl hab
      · exact pre (others s b hab) (ih hl ha _)

/-- An allowance is left alone. -/
def Spares (n k : Nat) (s u : State) : Prop := Charges s u ∧ (u.tenant n).budget k = (s.tenant n).budget k

theorem Spares.refl (n k : Nat) (s : State) : Spares n k s s := ⟨.refl s, rfl⟩

theorem Spares.trans {n k : Nat} {s t u : State} (h : Spares n k s t) (h' : Spares n k t u) : Spares n k s u := ⟨h.1.trans h'.1, h'.2.trans h.2⟩

/-- R335, R336: an allowance is closed once. -/
structure Closed (n k : Nat) (s u : State) : Prop where
  budget : (u.tenant n).budget k = ((s.tenant n).budget k).close.1.renew
  due : ((s.tenant n).budget k).close.2 = true → (∀ e ∈ s.m.walks, e.2.failed = none) → ∀ w ∈ s.waitsOn n k, u.suspended w = true

theorem Closed.post {n k : Nat} {s t u : State} (h : Closed n k s t) (h' : Spares n k t u) : Closed n k s u :=
  ⟨h'.2.trans h.budget, fun hd hw w hm => h'.1.suspended w (h.due hd hw w hm)⟩

theorem Closed.pre {n k : Nat} (hk : 1 ≤ k ∧ k ≤ 5) {s t u : State} (h : Spares n k s t) (h' : Closed n k t u) : Closed n k s u where
  budget := by rw [h'.budget, h.2]
  due hd hw w hm := by
    refine h'.due (by rw [h.2]; exact hd) (by rw [h.1.walks hw]; exact hw) w ?_
    rw [h.1.waitsOn hw hk h.2]
    exact hm

theorem closeKind_spares {s : State} {t kind n k : Nat} (h : ¬ (n = t ∧ k = kind)) : Spares n k s (s.closeKind t kind) :=
  ⟨closeKind_charges s t kind, by rw [closeKind_budget, if_neg h]⟩

theorem closeKind_closed (s : State) (n k : Nat) : Closed n k s (s.closeKind n k) where
  budget := by rw [closeKind_budget, if_pos ⟨rfl, rfl⟩]
  due hd _ w hm := closeKind_suspended s n k w hd hm

theorem closeMat_spares (s : State) (t n k : Nat) : Spares n k s (s.closeMat t) :=
  ⟨closeMat_charges s t, by unfold Tenant.budget; rw [closeMat_budgets]⟩

/-- R335: all kinds of a tenant at a period start. -/
def State.closeTenant (s : State) (t : Nat) : State := [1, 2, 3, 4, 5].foldl (fun (s : State) k => s.closeKind t k) (s.closeMat t)

theorem closeTenant_spares {s : State} {t n : Nat} (h : n ≠ t) (k : Nat) : Spares n k s (s.closeTenant t) :=
  (closeMat_spares s t n k).trans (foldl_rel (Spares.refl n k) .trans _ _ (fun _ _ _ => closeKind_spares fun h' => h h'.1) _)

theorem closeTenant_closed (s : State) (n k : Nat) (hk : 1 ≤ k ∧ k ≤ 5) : Closed n k s (s.closeTenant n) := by
  refine .pre hk (closeMat_spares s n n k) ?_
  refine foldl_once (C := Closed n k) (Spares.refl n k) .trans (Closed.pre hk) .post _ k (fun s b hb => closeKind_spares fun h => hb h.2.symm)
    (fun s => closeKind_closed s n k) (by decide) ?_ _
  obtain ⟨h1, h5⟩ := hk
  simp only [List.mem_cons, List.not_mem_nil, or_false]
  omega

theorem closeTenant_charges (s : State) (t : Nat) : Charges s (s.closeTenant t) :=
  (closeMat_charges s t).trans (foldl_rel Charges.refl .trans _ _ (fun s k _ => closeKind_charges s t k) _)

/-- The kinds leave mat as closing it left it. -/
theorem closeTenant_mat (s : State) (t n : Nat) : ((s.closeTenant t).tenant n).mat = ((s.closeMat t).tenant n).mat :=
  foldl_rel (R := fun s u : State => (u.tenant n).mat = (s.tenant n).mat) (fun _ => rfl) (fun h k => k.trans h) _ _ (fun s k _ => closeKind_mat s t k n) _

/-- R335: all tenants. -/
def State.closeTenants (s : State) : State := (List.range 32).foldl (fun (s : State) t => s.closeTenant t) s

theorem closeTenants_charges (s : State) : Charges s s.closeTenants := by
  unfold State.closeTenants
  exact foldl_rel Charges.refl Charges.trans (fun (s : State) t => s.closeTenant t) _ (fun s t _ => closeTenant_charges s t) s

theorem closeTenants_closed (s : State) (n k : Nat) (hn : n < 32) (hk : 1 ≤ k ∧ k ≤ 5) : Closed n k s s.closeTenants := by
  unfold State.closeTenants
  exact foldl_once (R := Spares n k) (C := Closed n k) (Spares.refl n k) .trans (Closed.pre hk) .post (fun (s : State) t => s.closeTenant t) n
    (fun _ _ h => closeTenant_spares (Ne.symm h) k) (fun s => closeTenant_closed s n k hk)
    List.nodup_range (List.mem_range.2 hn) s

theorem closeTenants_allow (s : State) (n : Nat) (hn : n < 32) : (s.closeTenants.tenant n).mat.allow = (s.tenant n).mat.newAllow.getD (s.tenant n).mat.allow := by
  unfold State.closeTenants
  exact foldl_once (R := fun s u : State => (u.tenant n).mat = (s.tenant n).mat)
    (C := fun s u : State => (u.tenant n).mat.allow = (s.tenant n).mat.newAllow.getD (s.tenant n).mat.allow) (fun _ => rfl) (fun h k => k.trans h)
    (fun h k => by rw [k, h]) (fun h k => by rw [k, h]) (fun (s : State) t => s.closeTenant t) n
    (fun s b h => (closeTenant_mat s b n).trans (closeMat_mat s b n (Ne.symm h))) (fun s => (congrArg Allowance.allow (closeTenant_mat s n n)).trans (closeMat_allow s n))
    List.nodup_range (List.mem_range.2 hn) s

/-! ### The period -/

/-- R336: how a period's end closes an allowance. -/
theorem close_cases (a : Allowance) :
    (budgetDue a → a.close = ({ a with exhausted := 0 }, true)) ∧ (¬ budgetDue a → a.close = ({ a with exhausted := endedExhausted a }, false)) := by
  have he : (if a.allow != 0 && a.rem == 0 then a.exhausted + 1 else 0) = endedExhausted a := by
    unfold endedExhausted
    simp
  have hd : (a.pol == 2 && a.limit != 0 && a.limit ≤ endedExhausted a) = true ↔ budgetDue a := by
    unfold budgetDue
    simp [and_assoc]
  unfold Allowance.close
  rw [he]
  exact ⟨fun h => if_pos (hd.2 h), fun h => if_neg (mt hd.1 h)⟩

/-- R314, R335: an allowance closed and renewed. -/
theorem closed_renewed (a b : Allowance) (h : b = a.close.1.renew) :
    b = { a with
      allow := a.newAllow.getD a.allow, rem := a.newAllow.getD a.allow, limit := (a.newCtl.getD (a.limit, a.pol)).1
      pol := (a.newCtl.getD (a.limit, a.pol)).2, exhausted := b.exhausted, newAllow := none, newCtl := none } ∧
    (budgetDue a → b.exhausted = 0) ∧ (¬ budgetDue a → b.exhausted = endedExhausted a) := by
  obtain ⟨hyes, hno⟩ := close_cases a
  subst h
  by_cases hd : budgetDue a
  · rw [hyes hd]
    exact ⟨rfl, fun _ => rfl, fun h => absurd hd h⟩
  · rw [hno hd]
    exact ⟨rfl, fun h => absurd h hd, fun _ => rfl⟩

theorem period_off (s : State) (h : s.sch.cycle % 1024 ≠ 0 ∨ s.pk.period = s.sch.cycle + 1) : execBudgetPeriodStart s = .next s :=
  congrArg _ (if_pos (by simpa using h))

/-- R22: the power factor of the next period comes into force. -/
def State.takeF (s : State) : State :=
  match s.pk.newF with
  | some f => s.setDev 0x41E (BitVec.ofNat 32 f)
  | none => s

/-- R276, R335: the budgets of the cores and of the waves begin anew. -/
def State.freshen (s : State) : State :=
  { s with
    pk := { s.pk with newF := none, period := s.sch.cycle + 1, turns := [] }
    m := { s.m with wants := [] }
    x := { s.x with
      cores := s.x.cores.foldl (fun m (e : Nat × Core) => SMap.set {} m e.1 { e.2 with spent := [] }) []
      waves := s.x.waves.map fun (e : Nat × Wave) => (e.1, e.2.endBudget) } }

theorem startPeriod_eq (s : State) : s.startPeriod = s.closeTenants.takeF.freshen := by
  unfold State.startPeriod State.closeTenants
  generalize List.range 32 = ts
  rfl

theorem period_on (s : State) (h1 : s.sch.cycle % 1024 = 0) (h2 : s.pk.period ≠ s.sch.cycle + 1) :
    execBudgetPeriodStart s = .next s.closeTenants.takeF.freshen := by
  unfold execBudgetPeriodStart
  rw [if_neg (by simp [h1, h2]), startPeriod_eq]

theorem takeF_factor (s : State) : (∀ f, s.pk.newF = some f → s.takeF.dev 0x41E = BitVec.ofNat 32 f) ∧ (s.pk.newF = none → s.takeF.dev 0x41E = s.dev 0x41E) := by
  unfold State.takeF
  constructor
  · intro f hf
    rw [hf]
    exact State.setDev_dev_self _ _ _
  · intro hf
    rw [hf]

theorem takeF_dev (s : State) (k : Nat) (hk : k ≠ 0x41E) : s.takeF.dev k = s.dev k := by
  unfold State.takeF
  split
  · exact (State.setDev_dev _ _ _ _).trans (if_neg hk)
  · rfl

theorem takeF_kept (s : State) : s.takeF.x = s.x ∧ s.takeF.m = s.m ∧ s.takeF.o = s.o := by
  unfold State.takeF
  split <;> exact ⟨rfl, rfl, rfl⟩

theorem endBudget_stalls (x : Wave) : ∀ b ∈ x.endBudget.bundles, b.stall ≠ .budget := by
  intro b hb
  obtain ⟨c, -, rfl⟩ := List.mem_map.1 hb
  split
  · exact fun h => nomatch h
  · next h => simpa using h

theorem freshen_wave (s : State) (w : Nat) : s.freshen.wave w = (s.wave w).endBudget :=
  SMap.get_map ({} : Wave) ({} : Wave) (fun _ => Wave.endBudget) (fun _ => rfl) s.x.waves w

theorem freshen_keepsRegisters (s : State) : KeepsRegisters s s.freshen := by
  refine ⟨fun w => ?_, fun w => ?_, fun w => ?_, fun w => ?_⟩ <;> rw [freshen_wave] <;> rfl

/-- R276: no core has spent anything. -/
theorem freshen_spent (s : State) (c : Nat) : (s.freshen.core c).spent = [] := by
  refine List.foldlRecOn (motive := fun m : SMap Core => (SMap.get {} m c).spent = []) s.x.cores _ rfl fun m hm e _ => ?_
  rw [SMap.get_set]
  split
  · rfl
  · exact hm

theorem freshen_remain (s : State) (c n : Nat) : s.freshen.remain c n = s.freshen.refill n := by
  unfold State.remain
  rw [freshen_spent]
  rfl

end Sys2Proof.Machine
end

section
/-! SUPPORT. The controllers' queues and batches (R27, R30, R31). -/

set_option Elab.async false

namespace Sys2Proof.Machine

open Sys2Proof Sys2Proof.Safety

/-! ### Requests arrive -/

/-- R27: where a line lies, from its location. -/
theorem dram_place (s : State) (line y : Nat) (hy : y = s.location (64 * line % 2 ^ 39)) :
    s.ctrlOf line = y / 2 ^ 30 % 8 ∧ (s.dram line).bankKey = y / 2 ^ 18 % 2 ^ 12 ∧ (s.dram line).row = y % 2 ^ 14 := by
  subst hy
  refine ⟨rfl, ?_, ?_⟩
  · simp only [Dram.bankKey, State.dram]
    omega
  · simp only [Dram.row, State.dram]
    omega

/-- R29, R30: a request may wait for its line: traffic of nobody where no map change holds the line, else a request that its requester has and
that waits nowhere. -/
def State.requestFits (s : State) (q : HbmReq) : Bool :=
  match q.waiter with
  | none => match s.reg.mapLoad with
    | some v => !s.inRegion v.region q.line
    | none => true
  | some k => ((s.askOf k q.line).filter fun a => !s.hbmDone a && !s.mapHolds a).map (fun a => (a.tenant, a.die, a.write)) == some (q.tenant, q.die, q.write) &&
    !s.pk.ctrls.any fun e => e.2.queue.any fun p => p.waiter == some k && p.line == q.line

theorem hbmRequest_cases (s : State) (q : HbmReq) : execHbmRequest q s = .next (
    if s.ownHbm (64 * q.line) = true ∧ q.ctrl = s.ctrlOf q.line ∧ q.bank = (s.dram q.line).bankKey ∧ q.row = (s.dram q.line).row ∧ s.requestFits q = true
    then s.setCtrl q.ctrl { s.ctrl q.ctrl with queue := (s.ctrl q.ctrl).queue ++ [{ q with marked := false }] } else s) := by
  refine congrArg Host.Outcome.next (a₁ := if (!s.ownHbm (64 * q.line) || q.ctrl != s.ctrlOf q.line || q.bank != (s.dram q.line).bankKey ||
    q.row != (s.dram q.line).row || !s.requestFits q) = true then s else _) ?_
  by_cases h : s.ownHbm (64 * q.line) = true ∧ q.ctrl = s.ctrlOf q.line ∧ q.bank = (s.dram q.line).bankKey ∧ q.row = (s.dram q.line).row ∧ s.requestFits q = true
  · rw [if_pos h]
    obtain ⟨h1, h2, h3, h4, h5⟩ := h
    refine if_neg ?_
    rw [h1, h5, ← h2, ← h3, ← h4]
    simp
  · rw [if_neg h]
    refine if_pos ?_
    by_contra hn
    refine h ?_
    simpa [and_assoc] using hn

theorem requestFits_none {s : State} {q : HbmReq} (hq : q.waiter = none) :
    s.requestFits q = true ↔ ∀ v, s.reg.mapLoad = some v → s.inRegion v.region q.line = false := by
  unfold State.requestFits
  rw [hq]
  dsimp only
  cases s.reg.mapLoad with
  | none => simp
  | some v => simp

/-- R30: a requester's request fits where it stands so and waits nowhere. -/
theorem requestFits_some {s : State} {q : HbmReq} {k : Nat} {a : Ask} (hq : q.waiter = some k) (ha : s.askOf k q.line = some a) (hd : s.hbmDone a = false)
    (hm : s.mapHolds a = false) (ht : a.tenant = q.tenant) (hdie : a.die = q.die) (hw : a.write = q.write)
    (hn : ∀ e ∈ s.pk.ctrls, ∀ p ∈ e.2.queue, p.waiter = some k → p.line ≠ q.line) : s.requestFits q = true := by
  unfold State.requestFits
  rw [hq]
  dsimp only
  rw [ha, Option.filter_some, if_pos (by simp [hd, hm])]
  simpa [ht, hdie, hw] using hn

theorem requestFits_held {s : State} {q : HbmReq} {k : Nat} {a : Ask} (hq : q.waiter = some k) (ha : s.askOf k q.line = some a) (hm : s.mapHolds a = true) :
    s.requestFits q = false := by
  unfold State.requestFits
  rw [hq]
  dsimp only
  rw [ha, Option.filter_some, if_neg (by simp [hm])]
  rfl

/-! ### Batches -/

/-- R30: how many marked requests stand beside one in its source and bank. -/
def marksOf (qs : List HbmReq) (q : HbmReq) : Nat := (qs.filter fun k => k.marked && sameBank q k).length

/-- R31: how many marks a tenant pays for. -/
def paidMarks (qs : List HbmReq) (n : Nat) : Nat := (qs.filter fun k => k.marked && k.waiter.isSome && k.tenant == n).length

/-- R31: a request that no allowance makes wait. -/
def Unbound (s : State) (q : HbmReq) : Prop := q.waiter = none ∨ 32 ≤ q.tenant ∨ ((s.tenant q.tenant).budget 1).pol ≠ 2

theorem marksOf_append (qs : List HbmReq) (p q : HbmReq) : marksOf (qs ++ [p]) q = marksOf qs q + if p.marked = true ∧ sameBank q p = true then 1 else 0 := by
  unfold marksOf
  rw [List.filter_append, List.length_append]
  by_cases h : p.marked = true ∧ sameBank q p = true <;> simp [h]

theorem paidMarks_append (qs : List HbmReq) (p : HbmReq) (n : Nat) :
    paidMarks (qs ++ [p]) n = paidMarks qs n + if p.marked = true ∧ p.waiter.isSome = true ∧ p.tenant = n then 1 else 0 := by
  unfold paidMarks
  rw [List.filter_append, List.length_append]
  by_cases h : p.marked = true ∧ p.waiter.isSome = true ∧ p.tenant = n
  · simp [h]
  · have hf : (p.marked && p.waiter.isSome && p.tenant == n) = false := by
      rw [← Bool.not_eq_true]
      simpa [and_assoc] using h
    simp [hf, h]

theorem sameBank_marks {p q : HbmReq} (h : sameBank q p = true) (qs : List HbmReq) : marksOf qs q = marksOf qs p := by
  unfold sameBank at h
  simp only [Bool.and_eq_true, beq_iff_eq] at h
  obtain ⟨⟨ht, hd⟩, hb⟩ := h
  unfold marksOf sameBank
  rw [ht, hd, hb]

/-- What stands once the first requests of a queue have been looked at. -/
structure Marking (s : State) (seen done : List HbmReq) (t : State) : Prop where
  frame : TenantsOnly s t
  keep : done.map (fun q => { q with marked := false }) = seen
  few : ∀ q, marksOf done q ≤ 16
  first : ∀ i q, done[i]? = some q → q.marked = false → Unbound s q → marksOf (done.take i) q = 16
  paid : ∀ n, n < 32 → (t.tenant n).budget 1 = { (s.tenant n).budget 1 with rem := ((s.tenant n).budget 1).rem - paidMarks done n }
  afford : ∀ n, n < 32 → ((s.tenant n).budget 1).pol = 2 → paidMarks done n ≤ ((s.tenant n).budget 1).rem

theorem Marking.start (s : State) : Marking s [] [] s where
  frame := ⟨rfl, rfl, rfl, rfl, rfl⟩
  keep := rfl
  few _ := Nat.zero_le _
  first i q h := by simp at h
  paid _ _ := rfl
  afford _ _ _ := Nat.zero_le _

theorem getElem?_append_one {α : Type} {l : List α} {a b : α} {i : Nat} (h : (l ++ [a])[i]? = some b) :
    (l[i]? = some b ∧ i < l.length) ∨ (i = l.length ∧ b = a) := by
  rcases Nat.lt_or_ge i l.length with hi | hi
  · rw [List.getElem?_append_left hi] at h
    exact .inl ⟨h, hi⟩
  · rw [List.getElem?_append_right hi] at h
    cases hk : i - l.length with
    | zero =>
      rw [hk] at h
      exact .inr ⟨by omega, by simpa using h.symm⟩
    | succ k => rw [hk] at h; simp at h

/-- R30: a request is left unmarked. -/
theorem Marking.leave {s t : State} {seen done : List HbmReq} (h : Marking s seen done t) {q : HbmReq} (hq : q.marked = false)
    (hn : Unbound s q → marksOf done q = 16) : Marking s (seen ++ [q]) (done ++ [q]) t where
  frame := h.frame
  keep := by rw [List.map_append, h.keep]; exact congrArg (seen ++ [·]) (by rw [← hq])
  few p := by rw [marksOf_append, if_neg (by simp [hq])]; exact h.few p
  first i p hp hm hu := by
    rcases getElem?_append_one hp with ⟨hp, hi⟩ | ⟨rfl, rfl⟩
    · rw [List.take_append_of_le_length (Nat.le_of_lt hi)]
      exact h.first i p hp hm hu
    · rw [List.take_left]
      exact hn hu
  paid n hn' := by rw [paidMarks_append, if_neg (by simp [hq])]; exact h.paid n hn'
  afford n hn' hp := by rw [paidMarks_append, if_neg (by simp [hq])]; exact h.afford n hn' hp

/-- R30, R31: a request is marked, and its tenant pays for it. -/
theorem Marking.mark {s t u : State} {seen done : List HbmReq} (h : Marking s seen done t) {q : HbmReq} (hq : q.marked = false)
    (hn : marksOf done q < 16) (hu : TenantsOnly t u)
    (hpaid : ∀ n, n < 32 → (u.tenant n).budget 1 = if q.waiter.isSome = true ∧ q.tenant = n then
      { (t.tenant n).budget 1 with rem := ((t.tenant n).budget 1).rem - 1 } else (t.tenant n).budget 1)
    (hmay : q.waiter.isSome = true → q.tenant < 32 → ((t.tenant q.tenant).budget 1).pol = 2 → 1 ≤ ((t.tenant q.tenant).budget 1).rem) :
    Marking s (seen ++ [q]) (done ++ [{ q with marked := true }]) u where
  frame := ⟨hu.m.trans h.frame.m, hu.pk.trans h.frame.pk, hu.reg.trans h.frame.reg, hu.o.trans h.frame.o, by rw [hu.x, h.frame.x]⟩
  keep := by rw [List.map_append, h.keep]; exact congrArg (seen ++ [·]) (by rw [← hq])
  few p := by
    rw [marksOf_append]
    split
    · next hs =>
      have : marksOf done p = marksOf done q := sameBank_marks (p := q) hs.2 done
      omega
    · exact h.few p
  first i p hp hm hun := by
    rcases getElem?_append_one hp with ⟨hp, hi⟩ | ⟨rfl, rfl⟩
    · rw [List.take_append_of_le_length (Nat.le_of_lt hi)]
      exact h.first i p hp hm hun
    · cases hm
  paid n hn' := by
    rw [hpaid n hn', h.paid n hn', paidMarks_append]
    by_cases hc : q.waiter.isSome = true ∧ q.tenant = n
    · rw [if_pos hc, if_pos ⟨rfl, hc.1, hc.2⟩, Nat.sub_sub]
    · rw [if_neg hc, if_neg fun hc' => hc ⟨hc'.2.1, hc'.2.2⟩, Nat.add_zero]
  afford n hn' hp := by
    rw [paidMarks_append]
    split
    · next hc =>
      obtain ⟨-, hw, ht⟩ := hc
      dsimp only at hw ht
      subst ht
      have hr := hmay hw hn' (by rw [h.paid _ hn']; exact hp)
      rw [h.paid _ hn'] at hr
      dsimp only at hr
      omega
    · exact h.afford n hn' hp

/-- R335: one unit of a kind. -/
theorem pay_one (s : State) (t n : Nat) : TenantsOnly s (s.pay t 1 1) ∧
    ((s.pay t 1 1).tenant n).budget 1 = if t = n then { (s.tenant n).budget 1 with rem := ((s.tenant n).budget 1).rem - 1 } else (s.tenant n).budget 1 := by
  have hp : s.pay t 1 1 = s.modTenant t fun x => x.setBudget 1 { x.budget 1 with rem := (x.budget 1).rem - 1 } := rfl
  rw [hp]
  refine ⟨⟨rfl, rfl, rfl, rfl, rfl⟩, ?_⟩
  rw [State.modTenant, State.setTenant_tenant]
  by_cases h : n = t
  · subst h
    rw [if_pos rfl, if_pos rfl]
    exact SMap.get_set_self _ _ _ _
  · rw [if_neg h, if_neg (Ne.symm h)]

theorem markNext_marking {s t : State} {seen done : List HbmReq} (h : Marking s seen done t) {q : HbmReq} (hq : q.marked = false) :
    Marking s (seen ++ [q]) (State.markNext (done, t) q).1 (State.markNext (done, t) q).2 := by
  have hcount : (done.filter fun k => k.marked && k.tenant == q.tenant && k.die == q.die && k.bank == q.bank).length = marksOf done q := by
    unfold marksOf sameBank
    simp only [Bool.and_assoc]
  unfold State.markNext
  dsimp only
  rw [hcount]
  by_cases hc : (marksOf done q < 16 && (q.waiter.isNone || 32 ≤ q.tenant || t.canPay q.tenant 1 1)) = true
  · rw [if_pos hc]
    simp only [Bool.and_eq_true, Bool.or_eq_true, decide_eq_true_eq] at hc
    obtain ⟨hfew, hmay⟩ := hc
    by_cases hfree : (q.waiter.isNone || 32 ≤ q.tenant) = true
    · rw [if_pos hfree]
      simp only [Bool.or_eq_true, decide_eq_true_eq, Option.isNone_iff_eq_none] at hfree
      refine h.mark hq hfew ⟨rfl, rfl, rfl, rfl, rfl⟩ (fun n hn => (if_neg ?_).symm) fun hw ht => ?_
      · rintro ⟨hw, rfl⟩
        rcases hfree with hn' | hn'
        · rw [hn'] at hw; cases hw
        · omega
      · rcases hfree with hn' | hn'
        · rw [hn'] at hw; cases hw
        · omega
    · rw [if_neg hfree]
      simp only [Bool.or_eq_true, decide_eq_true_eq, not_or, Option.isNone_iff_eq_none] at hfree
      obtain ⟨hw, ht⟩ := hfree
      have hsome : q.waiter.isSome = true := Option.isSome_iff_ne_none.2 hw
      refine h.mark hq hfew (pay_one t q.tenant 0).1 (fun n _ => ?_) fun _ _ hpol => ?_
      · rw [(pay_one t q.tenant n).2]
        simp [hsome]
      · rcases hmay with (hn' | hn') | hpay
        · exact absurd (Option.isNone_iff_eq_none.1 hn') hw
        · exact absurd hn' ht
        · unfold State.canPay at hpay
          simpa [hpol] using hpay
  · rw [if_neg hc]
    refine h.leave hq fun hun => ?_
    have hle := h.few q
    by_contra hne
    refine hc ?_
    simp only [Bool.and_eq_true, Bool.or_eq_true, decide_eq_true_eq, Option.isNone_iff_eq_none]
    refine ⟨by omega, ?_⟩
    rcases hun with hw | ht | hpol
    · exact .inl (.inl hw)
    · exact .inl (.inr ht)
    · by_cases ht : 32 ≤ q.tenant
      · exact .inl (.inr ht)
      · refine .inr ?_
        unfold State.canPay
        rw [h.paid _ (by omega)]
        simp [hpol]

/-- R30: a queue looked at from its start. -/
theorem marking_foldl (s : State) (rest seen : List HbmReq) {done : List HbmReq} {t : State} (h : Marking s seen done t)
    (hq : ∀ q ∈ rest, q.marked = false) : Marking s (seen ++ rest) (rest.foldl State.markNext (done, t)).1 (rest.foldl State.markNext (done, t)).2 := by
  induction rest generalizing seen done t with
  | nil => rw [List.append_nil]; exact h
  | cons q rest ih =>
    have := ih (seen ++ [q]) (markNext_marking h (hq q List.mem_cons_self)) fun p hp => hq p (List.mem_cons_of_mem _ hp)
    rwa [List.append_assoc] at this

theorem batchForm_waits (s : State) (c : Nat) (h : ∃ q ∈ (s.ctrl c).queue, q.marked = true) : execBatchForm c s = .next s :=
  congrArg _ (if_pos (List.any_eq_true.2 h))

theorem batchForm_forms (s : State) (c : Nat) (h : ∀ q ∈ (s.ctrl c).queue, q.marked = false) : execBatchForm c s = .next (
    ((s.ctrl c).queue.foldl State.markNext ([], s)).2.setCtrl c { s.ctrl c with queue := ((s.ctrl c).queue.foldl State.markNext ([], s)).1 }) := by
  refine congrArg _ (if_neg ?_)
  rw [List.any_eq_true]
  rintro ⟨q, hq, hm⟩
  rw [h q hq] at hm
  cases hm

end Sys2Proof.Machine

open Sys2Proof Sys2Proof.Machine Sys2Proof.Safety

/-- Settles O40: the period by `Closed` for each allowance, the batch by `Marking` over the queue. -/
theorem periodsAndBatches : Obligations.PeriodsAndBatches := by
  unfold Obligations.PeriodsAndBatches
  constructor
  · intro s
    refine ⟨fun h watts => ?noSample, fun h0 h1 h2 watts ps hps => ?sample, fun h => ?noPeriod, fun h1 h2 => ?period⟩
    case noSample => rw [exec_powerMeasurement, powerMeasurement_off s watts h]
    case sample =>
      obtain rfl : s.samples watts = ps := hps.symm
      rw [exec_powerMeasurement, powerMeasurement_on s watts h0 h1 h2]
      by_cases hl : (s.samples watts).length < 10
      · rw [if_pos hl]
        exact ⟨_, rfl, rfl, rfl, rfl, rfl, rfl, fun _ => rfl, fun h => absurd hl (by omega)⟩
      · rw [if_neg hl]
        exact ⟨_, rfl, rfl, rfl, rfl, rfl, rfl, fun h => absurd h hl, fun _ => rfl⟩
    case noPeriod => rw [exec_budgetPeriodStart, period_off s h]
    case period =>
      have hc := closeTenants_charges s
      have hclosed := closeTenants_closed s
      have hallow := closeTenants_allow s
      rw [exec_budgetPeriodStart, period_on s h1 h2]
      generalize s.closeTenants = u at hc hclosed hallow ⊢
      obtain ⟨hsome, hnone⟩ := takeF_factor u
      have hdev := takeF_dev u
      obtain ⟨hx, hm, ho⟩ := takeF_kept u
      rw [hc.pk] at hsome hnone
      generalize u.takeF = v at hsome hnone hdev hx hm ho ⊢
      have hten : ∀ n, v.freshen.tenant n = u.tenant n := fun n => by
        refine (rfl : _ = v.tenant n).trans ?_
        unfold State.tenant
        rw [hx]
      have hsus : ∀ w, v.freshen.suspended w = u.suspended w := fun w => by
        refine (rfl : _ = v.suspended w).trans ?_
        unfold State.suspended
        rw [hx]
      have hdevs : ∀ k, u.dev k = s.dev k := fun k => by unfold State.dev; rw [hc.reg]
      refine ⟨_, rfl, ?_, ?_, ho.trans hc.o, ?_, rfl, ?_, fun k hk => (hdev k hk).trans (hdevs k), fun w => ?_, fun n _ c => freshen_remain v c n, fun n hn => ?_,
        fun n k hn hk1 hk5 a ha => ?_⟩
      · exact KeepsRegisters.trans (.of_waves (by rw [hx, hc.x])) (freshen_keepsRegisters v)
      · exact (congrArg MemSys.mem hm).trans (by rw [hc.m])
      · exact (congrArg Exec.teams hx).trans (by rw [hc.x])
      · cases hf : s.pk.newF with
        | none => exact (hnone hf).trans (hdevs _)
        | some f => exact hsome f hf
      · rw [freshen_wave]
        exact endBudget_stalls _
      · rw [hten, hallow n hn]
      · subst ha
        obtain ⟨hb, hdue⟩ := hclosed n k hn ⟨hk1, hk5⟩
        obtain ⟨heq, hyes, hno⟩ := closed_renewed _ _ hb
        rw [hten]
        exact ⟨heq, fun hd => ⟨hyes hd, fun hw w hmem => (hsus w).trans (hdue (by rw [(close_cases _).1 hd]) hw w hmem)⟩, hno⟩
  · intro s c
    refine ⟨fun q y hc hown hy hcy hbank hrow hnone hsome => ?arrive, fun q y hy h => ?elsewhere, fun q h => ?held, fun h => ?marked, fun h => ?batch⟩
    case arrive =>
      obtain ⟨h1, h2, h3⟩ := dram_place s q.line y hy
      have hfits : s.requestFits q = true := by
        cases hw : q.waiter with
        | none => exact (requestFits_none hw).2 (hnone hw)
        | some k =>
          obtain ⟨⟨a, ha, hd, hm, ht, hdie, hwr⟩, hn⟩ := hsome k hw
          exact requestFits_some hw ha hd hm ht hdie hwr hn
      rw [exec_hbmRequest, hbmRequest_cases, if_pos ⟨hown, by rw [hc, h1, ← hcy], by rw [h2, hbank], by rw [h3, hrow], hfits⟩, hc]
      refine ⟨_, rfl, rfl, rfl, rfl, rfl, ?_, fun k hk => ?_⟩
      · rw [State.setCtrl_ctrl, if_pos rfl]
      · rw [State.setCtrl_ctrl, if_neg hk]
    case elsewhere =>
      obtain ⟨h1, h2, h3⟩ := dram_place s q.line y hy
      rw [exec_hbmRequest, hbmRequest_cases, if_neg]
      rintro ⟨hown, hc, hb, hr, -⟩
      rcases h with h | h | h | h
      · rw [hown] at h; cases h
      · exact h (hc.trans h1)
      · exact h (hb.trans h2)
      · exact h (hr.trans h3)
    case held =>
      have hfits : s.requestFits q = false := by
        rcases h with ⟨hw, v, hv, hr⟩ | ⟨k, a, hw, ha, hm⟩
        · rw [← Bool.not_eq_true, requestFits_none hw]
          intro hall
          rw [hall v hv] at hr
          cases hr
        · exact requestFits_held hw ha hm
      rw [exec_hbmRequest, hbmRequest_cases, if_neg]
      rintro ⟨-, -, -, -, hf⟩
      rw [hfits] at hf
      cases hf
    case marked => rw [exec_batchForm, batchForm_waits s c h]
    case batch =>
      have hm := marking_foldl s (s.ctrl c).queue [] (.start s) h
      rw [exec_batchForm, batchForm_forms s c h]
      generalize (s.ctrl c).queue.foldl State.markNext ([], s) = r at hm ⊢
      obtain ⟨done, u⟩ := r
      obtain ⟨hframe, hkeep, hfew, hfirst, hpaid, hafford⟩ := hm
      dsimp only at hframe hkeep hfew hfirst hpaid hafford ⊢
      have hq : ((u.setCtrl c { s.ctrl c with queue := done }).ctrl c).queue = done := by rw [State.setCtrl_ctrl, if_pos rfl]
      refine ⟨_, rfl, hframe.m, hframe.o, hframe.reg, fun w => ?_, fun k hk => ?_, ?_, fun q => ?_, fun i q hi => ?_, fun n hn => ?_, fun n hn => ?_⟩
      · exact congrArg (SMap.get {} · w) (congrArg Exec.waves hframe.x)
      · rw [State.setCtrl_ctrl, if_neg hk]
        unfold State.ctrl
        rw [hframe.pk]
      · rw [hq]; exact hkeep
      · rw [hq]; exact hfew q
      · rw [hq] at hi ⊢; exact hfirst i q hi
      · rw [hq]; exact hpaid n hn
      · rw [hq]; exact hafford n hn
end

section
/-! SUPPORT. A load of which one part has taken its PLT and not yet written all its words, as another part's request comes back (R39, R192). -/

set_option Elab.async false

open Sys2Proof Sys2Proof.Machine Sys2Proof.Safety

namespace Sys2Proof.Machine

/-- The part of lane 0: eight bytes of another package, requested and not performed. -/
def farPart : Part := { lanes := 1#32, va := 0x8000000000#64, pa := 2 ^ 39, size := 8, dst := [(0, 0)] }

/-- The part of lane 1: it has performed, and the first of its two words is written. -/
def halfPart : Part :=
  { lane := 1, lanes := 2#32, va := 0x8000000040#64, pa := 2 ^ 39 + 64, size := 8, dst := [(0, 1)], val := some 7, bound := 1, landed := 1, plt := some 5 }

/-- A load of two lanes of wave 0, of a launch of tenant 1. -/
def halfLoad : Op := { grid := 1, pos := [(0, 1)], flags := [(0, 0)], parts := [farPart, halfPart] }

/-- Lane 0 waits for package 1, behind package link 0; lane 1 for the second word of its data. -/
def halfLanded : State :=
  { x := { waves := [(0, { resident := true, grid := 1, f := [(0, 1)] })], grids := [(1, { live := true, tenant := 1 })] }
    reg := { rtbl := [(1, 0x80#32)] }
    o := { ops := [(1, halfLoad)], next := 2 } }

theorem halfLanded_ready : halfLanded.partReady 1 0 = true := by decide +kernel

theorem halfLanded_link : halfLanded.partLinks 1 0 = [0] := by decide +kernel

theorem halfLanded_looped : halfLanded.looped (.op 1) 0 = some (2 ^ 39, halfLanded.answerPoison 1 0) := by
  have h : (!halfLanded.partReady 1 0 || farPart.clm || farPart.size == 0 || !(halfLanded.partLinks 1 0).any fun l => l < 12) = false := by
    rw [halfLanded_ready, halfLanded_link]
    decide
  unfold State.looped
  exact (if_neg (Bool.eq_false_iff.1 h)).trans rfl

/-- The operation has not come to its end, so no ECCU is raised and the wave is not suspended. -/
theorem halfLanded_notSuspended : (halfLanded.answerPoison 1 0).suspended 0 = false := by decide +kernel

theorem halfLanded_lastPart : lastPart halfLoad 0 := by
  refine ⟨rfl, fun j q hq => ?_⟩
  match j with
  | 0 => exact ⟨(Option.some.inj hq) ▸ rfl, fun h => absurd rfl h⟩
  | 1 => exact ⟨(Option.some.inj hq) ▸ rfl, fun _ => (Option.some.inj hq) ▸ rfl⟩
  | j + 2 => cases hq

theorem halfLanded_alone : ∀ e ∈ halfLoad.pos, alone halfLanded e.1 1 := by
  intro e _ k hk
  obtain rfl := List.mem_singleton.1 hk
  exact .inl ⟨rfl, rfl⟩

end Sys2Proof.Machine

/-- Refutes O42: `lastPart` asks that the other parts have performed, not that their words are written; while a word of one is still to be
written, the load whose last request comes back raises no ECCU and its wave is not suspended. -/
theorem not_linkAndHostEvents : ¬ Obligations.LinkAndHostEvents := by
  unfold Obligations.LinkAndHostEvents
  intro h
  obtain ⟨-, -, -, -, -, hop⟩ := h.1 halfLanded 0
  obtain ⟨t, ht, -, -, -, -, hload⟩ := hop 1 0 farPart rfl halfLanded_ready rfl (by decide) (by decide)
    ⟨0, by rw [halfLanded_link]; exact List.mem_singleton.2 rfl, by decide⟩
  obtain ⟨-, hsus, -⟩ := hload 1 rfl rfl halfLanded_lastPart rfl (by decide) rfl rfl rfl halfLanded_alone
  have htw : t = (halfLanded.answerPoison 1 0).deviceError 1 0 (2 ^ 39 / 64 * 64) := by
    rw [exec_routeloop, execRouteloop, halfLanded_looped] at ht
    exact (Host.Outcome.next.inj ht).symm
  have hnot : t.suspended 0 = false := by
    have hx := (deviceError_tenantsOnly (halfLanded.answerPoison 1 0) 1 0 (2 ^ 39 / 64 * 64)).x
    rw [htw]
    unfold State.suspended
    rw [hx]
    exact halfLanded_notSuspended
  have hyes : t.suspended 0 = true := hsus
  rw [hnot] at hyes
  cases hyes
end

section
/-! SUPPORT. A warm reset against a line of which two L1s hold an exclusive copy (R46, R225). -/

set_option Elab.async false

open Sys2Proof Sys2Proof.Machine Sys2Proof.Safety

namespace Sys2Proof.Machine

/-- Two L1s hold line 0 exclusively, both clean, with different data: `Coherent` speaks of dirty copies alone and permits it. -/
def twoOwners : State :=
  { m := { l1 := [(1, { valid := true, excl := true }), (2, { valid := true, excl := true, data := 1#512 })] } }

theorem twoOwners_coherent : Coherent twoOwners where
  clean _ h := by simp [State.llcLine, twoOwners] at h
  dirty c line _ _ hd := by
    have h : (twoOwners.l1Line c line).dirty = false := by
      unfold State.l1Line twoOwners
      simp only [SMap.get]
      split
      · rfl
      · split <;> rfl
    rw [h] at hd
    cases hd

/-- The first core's copy is the line's value. -/
theorem twoOwners_value : twoOwners.readPhys 0 1 = 0 := by decide +kernel

/-- The cores give the line up one after another, and the second one's data goes home last. -/
theorem twoOwners_valueAfterReset : twoOwners.beginWarm.readPhys 0 1 = 1 := by decide +kernel

end Sys2Proof.Machine

/-- Refutes O37: `Coherent` permits two exclusive clean copies of a line that differ; a warm reset gives them up core by core, so that the
second core's data takes the place of the line's value and the HBM does not keep its contents. -/
theorem not_deviceResets : ¬ Obligations.DeviceResets := by
  unfold Obligations.DeviceResets
  intro h
  obtain ⟨-, -, hwarm, -⟩ := h twoOwners .cxlHotReset
  obtain ⟨t, ht, -, -, -, -, -, -, -, -, -, -, -, hmem⟩ := hwarm (.inl rfl) rfl rfl twoOwners_coherent rfl rfl
  have htw : t = twoOwners.beginWarm := by
    rw [exec_cxlHotReset, execCxlHotReset] at ht
    exact (Host.Outcome.next.inj ht).symm
  have h0 : t.readPhys 0 1 = twoOwners.readPhys 0 1 := hmem 0 (by decide)
  rw [htw, twoOwners_valueAfterReset, twoOwners_value] at h0
  cases h0
end

section
/-! SUPPORT. The instruction words as rows of fields (R66-R76, R87, R89): encoding lays the fields of an instruction side by side, and decoding reads them. -/

set_option Elab.async false

namespace Sys2Proof

/-- A field of an instruction word: a scope (R73), an extended source (R68), a number, a single bit, or bits that a row of the tables fixes. -/
inductive Cell where
  | scope (sc : Scope)
  | ext (a : Ext)
  | num (n v : Nat)
  | bit (b : Bool)
  | const (n v : Nat)

/-- R87, R89: the top byte of an instruction's word, the set and the opcode; an event row has none. -/
def Instr.opcode : Instr → Option Nat
  | .nop .. => some 0x00 | .add .. => some 0x01 | .sub .. => some 0x02 | .mullo .. => some 0x03 | .mulhiI32 .. => some 0x04
  | .mulhiN32 .. => some 0x05 | .mad .. => some 0x06 | .minI32 .. => some 0x07 | .minN32 .. => some 0x08 | .maxI32 .. => some 0x09
  | .maxN32 .. => some 0x0A | .and .. => some 0x0B | .or .. => some 0x0C | .xor .. => some 0x0D | .shl .. => some 0x0E | .shrN32 .. => some 0x0F
  | .shrI32 .. => some 0x10 | .rotl .. => some 0x11 | .clz .. => some 0x12 | .popc .. => some 0x13 | .brev .. => some 0x14 | .sel .. => some 0x15
  | .mov .. => some 0x16 | .add64 .. => some 0x17 | .lea .. => some 0x18 | .cmpEq .. => some 0x19 | .cmpNe .. => some 0x1A | .cmpLtI32 .. => some 0x1B
  | .cmpLeI32 .. => some 0x1C | .cmpLtN32 .. => some 0x1D | .cmpLeN32 .. => some 0x1E | .exit => some 0x1F | .addF32 .. => some 0x20
  | .subF32 .. => some 0x21 | .mulF32 .. => some 0x22 | .fmaF32 .. => some 0x23 | .minF32 .. => some 0x24 | .maxF32 .. => some 0x25
  | .negF32 .. => some 0x26 | .absF32 .. => some 0x27 | .cmpEqF32 .. => some 0x28 | .cmpNeF32 .. => some 0x29 | .cmpLtF32 .. => some 0x2A
  | .cmpLeF32 .. => some 0x2B | .cmpUnF32 .. => some 0x2C | .rcp .. => some 0x2D | .rsq .. => some 0x2E | .sqrt .. => some 0x2F
  | .exp2 .. => some 0x30 | .log2 .. => some 0x31 | .sinpi .. => some 0x32 | .cospi .. => some 0x33 | .addBf16x2 .. => some 0x34
  | .mulBf16x2 .. => some 0x35 | .fmaBf16x2 .. => some 0x36 | .cvt .. => some 0x37 | .atom .. => some 0x38 | .batom .. => some 0x39
  | .copy .. => some 0x3A | .spawn .. => some 0x3B | .tsget .. => some 0x3C | .brx .. => some 0x3D | .ret .. => some 0x3E | .shfl .. => some 0x40
  | .put .. => some 0x41 | .bcast .. => some 0x42 | .voteAny .. => some 0x43 | .voteAll .. => some 0x44 | .ballot .. => some 0x45
  | .red .. => some 0x46 | .scan .. => some 0x47 | .matchrank .. => some 0x48 | .histo .. => some 0x49 | .hash .. => some 0x4A | .rng .. => some 0x4B
  | .sample .. => some 0x4C | .jtab .. => some 0x4D | .join .. => some 0x4E | .joinleave .. => some 0x4F | .addi .. => some 0x50
  | .andi .. => some 0x51 | .ori .. => some 0x52 | .xori .. => some 0x53 | .shli .. => some 0x54 | .shriN32 .. => some 0x55 | .shriI32 .. => some 0x56
  | .cmpiEq .. => some 0x57 | .cmpiLtI32 .. => some 0x58 | .cmpiLtN32 .. => some 0x59 | .shfli .. => some 0x5A | .bcasti .. => some 0x5B
  | .ldB8 .. => some 0x60 | .ldB16 .. => some 0x61 | .ldB32 .. => some 0x62 | .ldB64 .. => some 0x63 | .ldB128 .. => some 0x64 | .stB8 .. => some 0x65
  | .stB16 .. => some 0x66 | .stB32 .. => some 0x67 | .stB64 .. => some 0x68 | .stB128 .. => some 0x69 | .ldAcqB32 .. => some 0x6A
  | .ldAcqB64 .. => some 0x6B | .stRelB32 .. => some 0x6C | .stRelB64 .. => some 0x6D | .ldf .. => some 0x6E | .stf .. => some 0x6F
  | .ldsB32 .. => some 0x70 | .ldsB128 .. => some 0x71 | .stsB32 .. => some 0x72 | .stsB128 .. => some 0x73 | .ldm .. => some 0x74
  | .stm .. => some 0x75 | .ldh .. => some 0x76 | .sth .. => some 0x77 | .bp .. => some 0x78 | .call .. => some 0x79 | .mma .. => some 0x7A
  | .accz .. => some 0x7B | .accld .. => some 0x7C | .accst .. => some 0x7D | .accflush .. => some 0x7E | .accflushDet .. => some 0x7F
  | .clause .. => some 0x80 | .uadd .. => some 0x81 | .usub .. => some 0x82 | .umul .. => some 0x83 | .umulhiI32 .. => some 0x84
  | .umulhiN32 .. => some 0x85 | .uminI32 .. => some 0x86 | .uminN32 .. => some 0x87 | .umaxI32 .. => some 0x88 | .umaxN32 .. => some 0x89
  | .uand .. => some 0x8A | .uor .. => some 0x8B | .uxor .. => some 0x8C | .ushl .. => some 0x8D | .ushrN32 .. => some 0x8E | .ushrI32 .. => some 0x8F
  | .urotl .. => some 0x90 | .uclz .. => some 0x91 | .upopc .. => some 0x92 | .ubrev .. => some 0x93 | .umov .. => some 0x94 | .usel .. => some 0x95
  | .uadd64 .. => some 0x96 | .ucmpEq .. => some 0x97 | .ucmpNe .. => some 0x98 | .ucmpLtI32 .. => some 0x99 | .ucmpLeI32 .. => some 0x9A
  | .ucmpLtN32 .. => some 0x9B | .ucmpLeN32 .. => some 0x9C | .uaddF32 .. => some 0xA0 | .umulF32 .. => some 0xA1 | .ufmaF32 .. => some 0xA2
  | .uminF32 .. => some 0xA3 | .umaxF32 .. => some 0xA4 | .ucmpLtF32 .. => some 0xA5 | .uret .. => some 0xA6 | .uaddi .. => some 0xB0
  | .uandi .. => some 0xB1 | .uori .. => some 0xB2 | .uxori .. => some 0xB3 | .ushli .. => some 0xB4 | .ushriN32 .. => some 0xB5
  | .ushriI32 .. => some 0xB6 | .movi .. => some 0xB7 | .ldk .. => some 0xB8 | .ucmpiEq .. => some 0xB9 | .ucmpiLtI32 .. => some 0xBA
  | .ucmpiLtN32 .. => some 0xBB | .uldB32 .. => some 0xBC | .uldB64 .. => some 0xBD | .ustB32 .. => some 0xBE | .ustB64 .. => some 0xBF
  | .bra .. => some 0xC0 | .bc .. => some 0xC1 | .ucall .. => some 0xC2 | .joinset .. => some 0xC8 | .yield => some 0xC9 | .part .. => some 0xCA
  | .arrive .. => some 0xCB | .waitb .. => some 0xCC | .trap .. => some 0xCD | .rett => some 0xCE | .fenceAcq .. => some 0xD0
  | .fenceRel .. => some 0xD1 | .fenceAr .. => some 0xD2 | .wb .. => some 0xD3 | .inv .. => some 0xD4 | .invn .. => some 0xD5 | .ifence => some 0xD6
  | .icinv .. => some 0xD7 | .pfi .. => some 0xD8 | .hwaitFull .. | .hwaitFree .. => some 0xD9
  | .hcfgBind .. | .hcfgRing .. | .hcfgMark .. | .hcfgUnbind .. => some 0xDA | .hfree .. => some 0xDB | .fsopen .. => some 0xDC
  | .fsclose .. => some 0xDD | .fswait .. => some 0xDE | .mfs .. => some 0xE0 | .mts .. => some 0xE1 | .rngseed .. => some 0xE2
  | .rgnw .. => some 0xE3 | .rgnr .. => some 0xE4 | .bgtw .. => some 0xE5 | .bgtr .. => some 0xE6
  | _ => none

/-- R66-R76, R265, R266: the fields below the opcode, the most significant first; unused bits are fields fixed at 0. -/
def Instr.cells : Instr → List Cell
  | .nop sc => [.scope sc, .const 22 0]
  | .add sc d a b | .sub sc d a b | .mullo sc d a b | .mulhiI32 sc d a b | .mulhiN32 sc d a b | .mad sc d a b | .minI32 sc d a b | .minN32 sc d a b
  | .maxI32 sc d a b | .maxN32 sc d a b | .and sc d a b | .or sc d a b | .xor sc d a b | .shl sc d a b | .shrN32 sc d a b | .shrI32 sc d a b
  | .rotl sc d a b | .sel sc d a b | .add64 sc d a b | .lea sc d a b | .cmpEq sc d a b | .cmpNe sc d a b | .cmpLtI32 sc d a b | .cmpLeI32 sc d a b
  | .cmpLtN32 sc d a b | .cmpLeN32 sc d a b | .addF32 sc d a b | .subF32 sc d a b | .mulF32 sc d a b | .fmaF32 sc d a b | .minF32 sc d a b
  | .maxF32 sc d a b | .cmpEqF32 sc d a b | .cmpNeF32 sc d a b | .cmpLtF32 sc d a b | .cmpLeF32 sc d a b | .cmpUnF32 sc d a b | .addBf16x2 sc d a b
  | .mulBf16x2 sc d a b | .fmaBf16x2 sc d a b | .shfl sc d a b | .put sc d a b | .bcast sc d a b | .hash sc d a b | .sample sc d a b =>
      [.scope sc, .num 7 d, .ext a, .num 7 b]
  | .clz sc d a | .popc sc d a | .brev sc d a | .mov sc d a | .negF32 sc d a | .absF32 sc d a | .rcp sc d a | .rsq sc d a | .sqrt sc d a
  | .exp2 sc d a | .log2 sc d a | .sinpi sc d a | .cospi sc d a | .matchrank sc d a | .histo sc d a => [.scope sc, .num 7 d, .ext a, .const 7 0]
  | .exit => [.const 2 0, .const 22 0]
  | .cvt sc d a conv mode => [.scope sc, .num 7 d, .ext a, .num 5 conv, .num 2 mode]
  | .atom sc d a w opc => [.scope sc, .num 7 d, .ext a, .bit w, .const 2 0, .num 4 opc]
  | .batom sc d a opc => [.scope sc, .num 7 d, .ext a, .const 3 0, .num 4 opc]
  | .copy nxt h a dir q => [.const 2 2, .bit nxt, .num 6 h, .ext a, .num 2 dir, .num 3 q, .const 2 0]
  | .spawn d a b => [.const 2 0, .num 7 d, .ext a, .num 7 b]
  | .tsget d | .rng d => [.const 2 0, .num 7 d, .const 15 0]
  | .brx d a => [.const 2 0, .num 7 d, .ext a, .const 7 0]
  | .ret a => [.const 2 0, .const 7 0, .ext a, .const 7 0]
  | .voteAny sc d b | .voteAll sc d b | .ballot sc d b => [.scope sc, .num 7 d, .const 8 0, .num 7 b]
  | .red sc d a ty opr => [.scope sc, .num 7 d, .ext a, .const 3 0, .num 2 ty, .num 2 opr]
  | .scan sc d a x ty opr => [.scope sc, .num 7 d, .ext a, .const 2 0, .bit x, .num 2 ty, .num 2 opr]
  | .jtab cnt a b => [.const 2 0, .const 1 0, .num 6 cnt, .ext a, .num 7 b]
  | .join j | .joinleave j => [.const 2 0, .const 3 0, .num 4 j, .const 15 0]
  | .addi sc d a imm | .andi sc d a imm | .ori sc d a imm | .xori sc d a imm | .cmpiEq sc d a imm | .cmpiLtI32 sc d a imm | .cmpiLtN32 sc d a imm =>
      [.scope sc, .num 7 d, .num 7 a, .num 8 imm]
  | .shli sc d a imm | .shriN32 sc d a imm | .shriI32 sc d a imm | .shfli sc d a imm | .bcasti sc d a imm =>
      [.scope sc, .num 7 d, .num 7 a, .const 3 0, .num 5 imm]
  | .ldB8 sc d base off | .ldB16 sc d base off | .ldB32 sc d base off | .ldB64 sc d base off | .ldB128 sc d base off | .stB8 sc d base off
  | .stB16 sc d base off | .stB32 sc d base off | .stB64 sc d base off | .stB128 sc d base off | .ldAcqB32 sc d base off | .ldAcqB64 sc d base off
  | .stRelB32 sc d base off | .stRelB64 sc d base off | .ldsB32 sc d base off | .ldsB128 sc d base off | .stsB32 sc d base off
  | .stsB128 sc d base off => [.scope sc, .num 7 d, .num 7 base, .num 8 off]
  | .ldf sc d base k n | .stf sc d base k n => [.scope sc, .num 7 d, .num 7 base, .num 3 k, .num 5 n]
  | .ldm d base c n | .stm d base c n => [.const 2 0, .num 7 d, .num 7 base, .num 4 c, .num 4 n]
  | .ldh sc d h m | .sth sc d h m => [.scope sc, .num 7 d, .const 1 0, .num 6 h, .const 2 0, .num 6 m]
  | .bp sense pred disp | .call sense pred disp => [.const 1 0, .bit sense, .num 6 pred, .num 16 disp]
  | .mma ec acc atam areg breg fmt => [.num 2 ec, .num 6 acc, .bit atam, .num 6 areg, .num 6 breg, .num 3 fmt]
  | .accz acc => [.const 2 0, .num 6 acc, .const 16 0]
  | .accld acc areg | .accflush acc areg | .accflushDet acc areg => [.const 2 0, .num 6 acc, .const 1 0, .num 6 areg, .const 9 0]
  | .accst acc areg fmt => [.const 2 0, .num 6 acc, .const 1 0, .num 6 areg, .const 6 0, .num 3 fmt]
  | .clause wait first second len => [.num 12 wait, .num 4 first, .num 4 second, .num 4 len]
  | .uadd d a b | .usub d a b | .umul d a b | .umulhiI32 d a b | .umulhiN32 d a b | .uminI32 d a b | .uminN32 d a b | .umaxI32 d a b | .umaxN32 d a b
  | .uand d a b | .uor d a b | .uxor d a b | .ushl d a b | .ushrN32 d a b | .ushrI32 d a b | .urotl d a b | .usel d a b | .uadd64 d a b
  | .ucmpEq d a b | .ucmpNe d a b | .ucmpLtI32 d a b | .ucmpLeI32 d a b | .ucmpLtN32 d a b | .ucmpLeN32 d a b | .uaddF32 d a b | .umulF32 d a b
  | .ufmaF32 d a b | .uminF32 d a b | .umaxF32 d a b | .ucmpLtF32 d a b | .invn d a b => [.num 6 d, .num 6 a, .num 6 b, .const 6 0]
  | .uclz d a | .upopc d a | .ubrev d a | .umov d a => [.num 6 d, .num 6 a, .const 12 0]
  | .uret a | .fenceAcq a | .fenceRel a | .fenceAr a | .fsclose a | .fswait a => [.const 6 0, .num 6 a, .const 12 0]
  | .uaddi d a imm | .uandi d a imm | .uori d a imm | .uxori d a imm | .ucmpiEq d a imm | .ucmpiLtI32 d a imm | .ucmpiLtN32 d a imm | .uldB32 d a imm
  | .uldB64 d a imm | .ustB32 d a imm | .ustB64 d a imm => [.num 6 d, .num 6 a, .const 4 0, .num 8 imm]
  | .ushli d a imm | .ushriN32 d a imm | .ushriI32 d a imm => [.num 6 d, .num 6 a, .const 7 0, .num 5 imm]
  | .movi d imm | .ldk d imm => [.num 6 d, .const 10 0, .num 8 imm]
  | .bra disp => [.const 8 0, .num 16 disp]
  | .bc sense c disp => [.const 1 0, .bit sense, .num 6 c, .num 16 disp]
  | .ucall c disp => [.const 2 0, .num 6 c, .num 16 disp]
  | .joinset j a x => [.const 2 0, .num 4 j, .num 6 a, .const 11 0, .bit x]
  | .yield | .rett | .ifence => [.const 24 0]
  | .part r | .arrive r | .waitb r => [.const 21 0, .num 3 r]
  | .trap n => [.const 17 0, .num 7 n]
  | .wb a b | .inv a b | .icinv a b | .pfi a b | .fsopen a b => [.const 6 0, .num 6 a, .num 6 b, .const 6 0]
  | .hwaitFull h p => [.num 6 h, .const 16 0, .const 1 0, .bit p]
  | .hwaitFree h => [.num 6 h, .const 16 0, .const 1 1, .const 1 0]
  | .hcfgBind h a b => [.num 6 h, .num 6 a, .num 6 b, .const 6 0]
  | .hcfgRing h a => [.num 6 h, .num 6 a, .const 6 0, .const 6 1]
  | .hcfgMark h => [.num 6 h, .const 12 0, .const 6 2]
  | .hcfgUnbind h => [.num 6 h, .const 12 0, .const 6 3]
  | .hfree h p => [.num 6 h, .const 17 0, .bit p]
  | .mfs r num | .mts r num => [.num 6 r, .const 6 0, .num 12 num]
  | .rngseed k => [.num 6 k, .const 18 0]
  | .rgnw k e t => [.num 6 k, .const 6 0, .num 6 e, .num 6 t]
  | .rgnr k e | .bgtw k e | .bgtr k e => [.num 6 k, .const 6 0, .num 6 e, .const 6 0]
  | _ => [.const 24 0]

namespace Cell

def width : Cell → Nat
  | .scope _ => 2
  | .ext _ => 8
  | .num n _ => n
  | .bit _ => 1
  | .const n _ => n

def value : Cell → Nat
  | .scope sc => sc.code
  | .ext a => a.code
  | .num _ v => v
  | .bit b => b.toNat
  | .const n v => v % 2 ^ n

/-- The operand is one that the field can hold. -/
def ok : Cell → Bool
  | .ext a => a.fits
  | .num n v => v < 2 ^ n
  | _ => true

/-- The field is what the bits from `lo` to `hi` of the word hold, as the decoder reads them. -/
def Reads (w hi lo : Nat) : Cell → Prop
  | .scope sc => sc = scopeOf (fld hi lo w)
  | .ext a => a = extOf (fld hi lo w)
  | .num _ v => v = fld hi lo w
  | .bit b => b = flag lo w
  | .const n v => (fld hi lo w == v % 2 ^ n) = true

end Cell

/-- The fields fill the bits below `pos`. -/
def tiles : Nat → List Cell → Bool
  | pos, [] => pos == 0
  | pos, c :: cs => decide (0 < c.width) && decide (c.width ≤ pos) && tiles (pos - c.width) cs

/-- The fields are what the bits of the word below `pos` hold. -/
def ReadsAll (w : Nat) : Nat → List Cell → Prop
  | _, [] => True
  | pos, .scope sc :: cs => sc = scopeOf (fld (pos - 1) (pos - 2) w) ∧ ReadsAll w (pos - 2) cs
  | pos, .ext a :: cs => a = extOf (fld (pos - 1) (pos - 8) w) ∧ ReadsAll w (pos - 8) cs
  | pos, .num n v :: cs => v = fld (pos - 1) (pos - n) w ∧ ReadsAll w (pos - n) cs
  | pos, .bit b :: cs => b = flag (pos - 1) w ∧ ReadsAll w (pos - 1) cs
  | pos, .const n v :: cs => (fld (pos - 1) (pos - n) w == v % 2 ^ n) = true ∧ ReadsAll w (pos - n) cs

/-- The number whose bits below `pos` are the fields. -/
def pack : Nat → List Cell → Nat
  | _, [] => 0
  | pos, c :: cs => place c.value (pos - c.width) + pack (pos - c.width) cs

/-- The part of it that the tables fix. -/
def fixedPart : Nat → List Cell → Nat
  | _, [] => 0
  | pos, .const n v :: cs => place (v % 2 ^ n) (pos - n) + fixedPart (pos - n) cs
  | pos, c :: cs => fixedPart (pos - c.width) cs

/-- A field at its place in a sum; the encoder writes one at bit 0 as it is. -/
def termAt (v : Nat) : Nat → Nat
  | 0 => v
  | k + 1 => place v (k + 1)

/-- The sum that the encoder writes: the operands' fields on top of `acc`. -/
def layOn (acc : Nat) : Nat → List Cell → Nat
  | _, [] => acc
  | pos, .const n _ :: cs => layOn acc (pos - n) cs
  | pos, c :: cs => layOn (acc + termAt c.value (pos - c.width)) (pos - c.width) cs

/-! ### The tables above are the model's -/

theorem Instr.tiles_cells (i : Instr) : tiles 24 i.cells = true := by cases i <;> rfl

/-- The fields' operands, from the opcode on, are what `Instr.fits` asks. -/
def fitsAfter (acc : Bool) : List Cell → Bool
  | [] => acc
  | .ext a :: cs => fitsAfter (acc && a.fits) cs
  | .num n v :: cs => fitsAfter (acc && decide (v < 2 ^ n)) cs
  | _ :: cs => fitsAfter acc cs

theorem Instr.fits_eq_fitsAfter (i : Instr) : i.fits = fitsAfter i.opcode.isSome i.cells := by cases i <;> rfl

theorem encode_eq_layOn (i : Instr) : encode i = i.opcode.map fun op => layOn (2 ^ 24 * op + fixedPart 24 i.cells) 24 i.cells := by
  cases i
  case copy nxt h a dir q =>
    -- the fixed bits of COPY stand at the top: their sum with the opcode is evaluated apart from the operands
    have hbase : 0x3A800000 = 2 ^ 24 * 0x3A + (place (2 % 2 ^ 2) 22 + 0) := rfl
    show some (0x3A800000 + place nxt.toNat 21 + place h 15 + place a.code 7 + place dir 5 + place q 2) = _
    rw [hbase]
    rfl
  all_goals rfl

/-! ### Reading fields -/

theorem readsAll_cons (w pos : Nat) (c : Cell) (cs : List Cell) :
    ReadsAll w pos (c :: cs) ↔ c.Reads w (pos - 1) (pos - c.width) ∧ ReadsAll w (pos - c.width) cs := by cases c <;> rfl

theorem fld_lt (hi lo w : Nat) : fld hi lo w < 2 ^ (hi - lo + 1) := Nat.mod_lt _ (Nat.two_pow_pos _)

theorem flag_toNat (n w : Nat) : (flag n w).toNat = fld n n w := by
  rcases Nat.mod_two_eq_zero_or_one (w / 2 ^ n) with h | h <;> simp [flag, fld, h]

theorem scopeOf_eq_iff {n : Nat} (h : n < 4) (sc : Scope) : sc = scopeOf n ↔ sc.code = n := by
  constructor
  · rintro rfl
    interval_cases n <;> rfl
  · rintro rfl
    cases sc <;> rfl

/-- R68: the values beyond the special ones are reserved. -/
theorem extSpecial_add (k : Nat) : extSpecial (k + 16) = .reserved (192 + (k + 16)) := rfl

/-- R68: the form that a field's value names has that value, and is one of the 256. -/
theorem extOf_spec {n : Nat} (h : n < 256) : (extOf n).fits = true ∧ (extOf n).code = n := by
  unfold extOf
  split
  next hv => exact ⟨decide_eq_true hv, rfl⟩
  next hv =>
    split
    next hs => exact ⟨by simp only [Ext.fits, decide_eq_true_eq]; omega, by simp only [Ext.code]; omega⟩
    next hs =>
      obtain ⟨k, rfl⟩ := Nat.exists_eq_add_of_le (Nat.le_of_not_lt hs)
      rw [Nat.add_sub_cancel_left]
      by_cases hk : 16 ≤ k
      · obtain ⟨j, rfl⟩ := Nat.exists_eq_add_of_le' hk
        rw [extSpecial_add]
        exact ⟨by simp only [Ext.fits, Bool.and_eq_true, decide_eq_true_eq]; omega, rfl⟩
      · have hk : k < 16 := Nat.lt_of_not_le hk
        interval_cases k <;> exact ⟨rfl, rfl⟩

/-- R68: a form that fits is named by its own value. -/
theorem extOf_code {a : Ext} (h : a.fits = true) : extOf a.code = a := by
  cases a with
  | v n => exact if_pos (of_decide_eq_true h)
  | s n =>
    have hn : n < 64 := of_decide_eq_true h
    show extOf (128 + n) = .s n
    rw [extOf, if_neg (by omega), if_pos (by omega), Nat.add_sub_cancel_left]
  | reserved n =>
    have hn : 208 ≤ n ∧ n < 256 := by simpa [Ext.fits] using h
    show extOf n = .reserved n
    obtain ⟨j, rfl⟩ := Nat.exists_eq_add_of_le' hn.1
    rw [extOf, if_neg (by omega), if_neg (by omega), show j + 208 - 192 = j + 16 by omega, extSpecial_add]
    exact congrArg Ext.reserved (by omega)
  | _ => rfl

/-- A field is read where its operand is one that the field can hold and its value is in the word's bits. -/
theorem Cell.reads_iff (c : Cell) (w lo : Nat) (h : 0 < c.width) :
    c.Reads w (lo + c.width - 1) lo ↔ c.ok = true ∧ c.value = w / 2 ^ lo % 2 ^ c.width := by
  have hw : fld (lo + c.width - 1) lo w = w / 2 ^ lo % 2 ^ c.width := by rw [fld, show lo + c.width - 1 - lo + 1 = c.width by omega]
  have hlt : w / 2 ^ lo % 2 ^ c.width < 2 ^ c.width := Nat.mod_lt _ (Nat.two_pow_pos _)
  rw [← hw] at hlt ⊢
  cases c with
  | scope sc => exact (scopeOf_eq_iff hlt sc).trans ⟨fun hv => ⟨rfl, hv⟩, And.right⟩
  | ext a =>
    constructor
    · intro h
      rw [show a = extOf _ from h]
      exact extOf_spec hlt
    · rintro ⟨ha, hv⟩
      exact (extOf_code ha).symm.trans (congrArg extOf hv)
  | num n v => exact ⟨fun hv => ⟨decide_eq_true (hv ▸ hlt), hv⟩, And.right⟩
  | bit b =>
    show b = flag lo w ↔ true = true ∧ b.toNat = fld lo lo w
    rw [← flag_toNat]
    cases b <;> cases flag lo w <;> simp
  | const n v => exact beq_iff_eq.trans ⟨fun hv => ⟨rfl, hv.symm⟩, fun hv => hv.2.symm⟩

theorem Cell.value_lt {c : Cell} (h : c.ok = true) : c.value < 2 ^ c.width := by
  cases c with
  | scope sc => exact Laws.Encoding.scope_lt sc
  | ext a => exact Laws.Encoding.ext_lt h
  | num n v => exact of_decide_eq_true h
  | bit b => exact Laws.Encoding.bool_lt b
  | const n v => exact Nat.mod_lt _ (Nat.two_pow_pos _)

/-! ### Words of fields -/

theorem tiles_cons {pos : Nat} {c : Cell} {cs : List Cell} (h : tiles pos (c :: cs) = true) : ∃ lo, pos = lo + c.width ∧ 0 < c.width ∧ tiles lo cs = true := by
  simp only [tiles, Bool.and_eq_true, decide_eq_true_eq] at h
  obtain ⟨⟨hpos, hle⟩, hcs⟩ := h
  exact ⟨pos - c.width, by omega, hpos, hcs⟩

theorem pack_cons (lo : Nat) (c : Cell) (cs : List Cell) : pack (lo + c.width) (c :: cs) = 2 ^ lo * c.value + pack lo cs := by
  rw [pack, Nat.add_sub_cancel, place, Nat.mul_comm]

theorem pack_lt {cs : List Cell} {pos : Nat} (ht : tiles pos cs = true) (h : ∀ c ∈ cs, c.ok = true) : pack pos cs < 2 ^ pos := by
  induction cs generalizing pos with
  | nil => exact Nat.two_pow_pos pos
  | cons c cs ih =>
    obtain ⟨lo, rfl, -, hcs⟩ := tiles_cons ht
    have hc := Cell.value_lt (h c List.mem_cons_self)
    have hrest := ih hcs fun d hd => h d (List.mem_cons_of_mem _ hd)
    calc pack (lo + c.width) (c :: cs) = 2 ^ lo * c.value + pack lo cs := pack_cons lo c cs
      _ < 2 ^ lo * (c.value + 1) := by rw [Nat.mul_succ]; omega
      _ ≤ 2 ^ lo * 2 ^ c.width := Nat.mul_le_mul_left _ hc
      _ = 2 ^ (lo + c.width) := (Nat.pow_add ..).symm

/-- A number is split at a bit in one way. -/
theorem split_eq_iff {n a b w : Nat} (hb : b < n) : n * a + b = w ↔ a = w / n ∧ b = w % n := by
  rw [eq_comm (a := a), eq_comm (a := b), Nat.div_mod_unique (Nat.zero_lt_of_lt hb), Nat.add_comm]
  exact (and_iff_left hb).symm

/-- The decoder's reading against the encoder's sum: the fields are read from a word where their operands fit and the word is theirs. -/
theorem readsAll_iff {cs : List Cell} {pos : Nat} (w : Nat) (ht : tiles pos cs = true) :
    ReadsAll w pos cs ↔ (∀ c ∈ cs, c.ok = true) ∧ pack pos cs = w % 2 ^ pos := by
  induction cs generalizing pos with
  | nil =>
    obtain rfl : pos = 0 := eq_of_beq ht
    simp [ReadsAll, pack, Nat.mod_one]
  | cons c cs ih =>
    obtain ⟨lo, rfl, hw, hcs⟩ := tiles_cons ht
    rw [readsAll_cons, Nat.add_sub_cancel, Cell.reads_iff c w lo hw, ih hcs, List.forall_mem_cons, pack_cons]
    have hdiv : w % 2 ^ (lo + c.width) / 2 ^ lo = w / 2 ^ lo % 2 ^ c.width := by rw [Nat.pow_add, Nat.mod_mul_right_div_self]
    have hmod : w % 2 ^ (lo + c.width) % 2 ^ lo = w % 2 ^ lo := by rw [Nat.pow_add, Nat.mod_mul_right_mod]
    constructor
    · rintro ⟨⟨hc, hv⟩, hok, hp⟩
      exact ⟨⟨hc, hok⟩, (split_eq_iff (pack_lt hcs hok)).2 ⟨hv.trans hdiv.symm, hp.trans hmod.symm⟩⟩
    · rintro ⟨⟨hc, hok⟩, hp⟩
      obtain ⟨hv, hp⟩ := (split_eq_iff (pack_lt hcs hok)).1 hp
      exact ⟨⟨hc, hv.trans hdiv⟩, hok, hp.trans hmod⟩

theorem termAt_eq (v k : Nat) : termAt v k = place v k := by
  cases k with
  | zero => exact (Nat.mul_one v).symm
  | succ k => rfl

theorem layOn_eq (cs : List Cell) (acc pos : Nat) : layOn acc pos cs + fixedPart pos cs = acc + pack pos cs := by
  induction cs generalizing acc pos with
  | nil => rfl
  | cons c cs ih =>
    have hcell := ih (acc + termAt c.value (pos - c.width)) (pos - c.width)
    rw [termAt_eq] at hcell
    cases c
    case const n v =>
      have hfixed := ih acc (pos - n)
      simp only [layOn, fixedPart, pack, Cell.width, Cell.value]
      omega
    all_goals
      simp only [layOn, fixedPart, pack, termAt_eq]
      omega

theorem fitsAfter_iff (cs : List Cell) (acc : Bool) : fitsAfter acc cs = true ↔ acc = true ∧ ∀ c ∈ cs, c.ok = true := by
  induction cs generalizing acc with
  | nil => simp [fitsAfter]
  | cons c cs ih => cases c <;> simp [fitsAfter, ih, Cell.ok, and_assoc]

/-- A word has an instruction's opcode, and holds its fields. -/
def Spells (w : Nat) (i : Instr) : Prop := i.opcode = some (w / 2 ^ 24) ∧ ReadsAll w 24 i.cells

/-- R67-R76: the words that spell an instruction are its encoding, of fields that lie in their widths. -/
theorem spells_iff (w : Nat) (i : Instr) : Spells w i ↔ i.fits = true ∧ encode i = some w := by
  have hword : ∀ op, layOn (2 ^ 24 * op + fixedPart 24 i.cells) 24 i.cells = 2 ^ 24 * op + pack 24 i.cells := fun op => by
    have := layOn_eq i.cells (2 ^ 24 * op + fixedPart 24 i.cells) 24
    omega
  rw [Spells, readsAll_iff w i.tiles_cells, Instr.fits_eq_fitsAfter, fitsAfter_iff, encode_eq_layOn]
  cases i.opcode with
  | none => simp
  | some op =>
    simp only [Option.some.injEq, Option.isSome_some, true_and, Option.map_some, hword]
    constructor
    · rintro ⟨rfl, hok, hp⟩
      exact ⟨hok, (split_eq_iff (pack_lt i.tiles_cells hok)).2 ⟨rfl, hp⟩⟩
    · rintro ⟨hok, hw⟩
      obtain ⟨hop, hp⟩ := (split_eq_iff (pack_lt i.tiles_cells hok)).1 hw
      exact ⟨hop, hok, hp⟩

/-! ### Decoding reads the fields -/

/-- R65, R66: the decoder by the top byte. -/
def decodeAt (op w : Nat) : Except Reject Instr := if op / 128 == 0 then decodeL (op % 128) w else decodeG (op % 128) w

theorem decode_eq_decodeAt {w : Nat} (h : w < 2 ^ 32) : decode w = decodeAt (w / 2 ^ 24) w := by
  have h31 : fld 31 31 w = w / 2 ^ 24 / 128 := by simp only [fld]; omega
  rw [decode, decodeAt, h31]
  rfl

theorem hwaitFull_of_reads {w : Nat} (h17 : (fld 17 2 w == 0) = true) (h1 : (fld 1 1 w == 0) = true) :
    decodeHwait w = .ok (.hwaitFull (fld 23 18 w) (flag 0 w)) := by
  rw [decodeHwait, bne, h17, if_neg (by decide), if_pos h1]

theorem hwaitFree_of_reads {w : Nat} (h17 : (fld 17 2 w == 0) = true) (h1 : (fld 1 1 w == 1) = true) (h0 : (fld 0 0 w == 0) = true) :
    decodeHwait w = .ok (.hwaitFree (fld 23 18 w)) := by
  rw [decodeHwait, bne, h17, if_neg (by decide), eq_of_beq h1, if_neg (by decide), if_pos h0]

/-- R265: HCFG by its function. -/
def hcfgAt (x w : Nat) : Except Reject Instr :=
  match x with
  | 0 => .ok (.hcfgBind (fld 23 18 w) (fld 17 12 w) (fld 11 6 w))
  | 1 => if fld 11 6 w == 0 then .ok (.hcfgRing (fld 23 18 w) (fld 17 12 w)) else .error .reservedBits
  | 2 => if fld 17 6 w == 0 then .ok (.hcfgMark (fld 23 18 w)) else .error .reservedBits
  | 3 => if fld 17 6 w == 0 then .ok (.hcfgUnbind (fld 23 18 w)) else .error .reservedBits
  | _ => .error .unlisted

theorem hcfg_of_fld {w x : Nat} (h : fld 5 0 w = x) : decodeHcfg w = hcfgAt x w := by subst h; rfl

/-- R67-R76: a word that spells an instruction decodes to it; the cases are grouped by their row of fields. -/
theorem decode_of_spells (w : Nat) (i : Instr) (hw : w < 2 ^ 32) (h : Spells w i) : decode w = .ok i := by
  obtain ⟨hop, hr⟩ := h
  rw [decode_eq_decodeAt hw]
  generalize w / 2 ^ 24 = op at hop
  cases i with
  | nop sc =>
    cases hop
    obtain ⟨rfl, h1, -⟩ := hr
    exact if_pos h1
  | add sc d a b | sub sc d a b | mullo sc d a b | mulhiI32 sc d a b | mulhiN32 sc d a b | mad sc d a b | minI32 sc d a b | minN32 sc d a b
  | maxI32 sc d a b | maxN32 sc d a b | and sc d a b | or sc d a b | xor sc d a b | shl sc d a b | shrN32 sc d a b | shrI32 sc d a b | rotl sc d a b
  | sel sc d a b | add64 sc d a b | lea sc d a b | cmpEq sc d a b | cmpNe sc d a b | cmpLtI32 sc d a b | cmpLeI32 sc d a b | cmpLtN32 sc d a b
  | cmpLeN32 sc d a b | addF32 sc d a b | subF32 sc d a b | mulF32 sc d a b | fmaF32 sc d a b | minF32 sc d a b | maxF32 sc d a b | cmpEqF32 sc d a b
  | cmpNeF32 sc d a b | cmpLtF32 sc d a b | cmpLeF32 sc d a b | cmpUnF32 sc d a b | addBf16x2 sc d a b | mulBf16x2 sc d a b | fmaBf16x2 sc d a b
  | shfl sc d a b | put sc d a b | bcast sc d a b | hash sc d a b | sample sc d a b =>
    cases hop
    obtain ⟨rfl, rfl, rfl, rfl, -⟩ := hr
    rfl
  | clz sc d a | popc sc d a | brev sc d a | mov sc d a | negF32 sc d a | absF32 sc d a | rcp sc d a | rsq sc d a | sqrt sc d a | exp2 sc d a
  | log2 sc d a | sinpi sc d a | cospi sc d a | matchrank sc d a | histo sc d a =>
    cases hop
    obtain ⟨rfl, rfl, rfl, h1, -⟩ := hr
    exact if_pos h1
  | exit =>
    cases hop
    obtain ⟨h1, h2, -⟩ := hr
    exact (if_pos h1).trans (if_pos h2)
  | cvt sc d a conv mode =>
    cases hop
    obtain ⟨rfl, rfl, rfl, rfl, rfl, -⟩ := hr
    rfl
  | atom sc d a w opc =>
    cases hop
    obtain ⟨rfl, rfl, rfl, rfl, h1, rfl, -⟩ := hr
    exact if_pos h1
  | batom sc d a opc =>
    cases hop
    obtain ⟨rfl, rfl, rfl, h1, rfl, -⟩ := hr
    exact if_pos h1
  | copy nxt h a dir q =>
    cases hop
    obtain ⟨h1, rfl, rfl, rfl, rfl, rfl, h2, -⟩ := hr
    exact (if_pos h1).trans (if_pos h2)
  | spawn d a b =>
    cases hop
    obtain ⟨h1, rfl, rfl, rfl, -⟩ := hr
    exact if_pos h1
  | tsget d | rng d =>
    cases hop
    obtain ⟨h1, rfl, h2, -⟩ := hr
    exact (if_pos h1).trans (if_pos h2)
  | brx d a =>
    cases hop
    obtain ⟨h1, rfl, rfl, h2, -⟩ := hr
    exact (if_pos h1).trans (if_pos h2)
  | ret a =>
    cases hop
    obtain ⟨h1, h2, rfl, h3, -⟩ := hr
    exact (if_pos h1).trans (if_pos (Bool.and_eq_true_iff.2 ⟨h3, h2⟩))
  | voteAny sc d b | voteAll sc d b | ballot sc d b =>
    cases hop
    obtain ⟨rfl, rfl, h1, rfl, -⟩ := hr
    exact if_pos h1
  | red sc d a ty opr =>
    cases hop
    obtain ⟨rfl, rfl, rfl, h1, rfl, rfl, -⟩ := hr
    exact if_pos h1
  | scan sc d a x ty opr =>
    cases hop
    obtain ⟨rfl, rfl, rfl, h1, rfl, rfl, rfl, -⟩ := hr
    exact if_pos h1
  | jtab cnt a b =>
    cases hop
    obtain ⟨h1, h2, rfl, rfl, rfl, -⟩ := hr
    exact (if_pos h1).trans (if_pos h2)
  | join j | joinleave j =>
    cases hop
    obtain ⟨h1, h2, rfl, h3, -⟩ := hr
    exact (if_pos h1).trans (if_pos (Bool.and_eq_true_iff.2 ⟨h3, h2⟩))
  | addi sc d a imm | andi sc d a imm | ori sc d a imm | xori sc d a imm | cmpiEq sc d a imm | cmpiLtI32 sc d a imm | cmpiLtN32 sc d a imm =>
    cases hop
    obtain ⟨rfl, rfl, rfl, rfl, -⟩ := hr
    rfl
  | shli sc d a imm | shriN32 sc d a imm | shriI32 sc d a imm | shfli sc d a imm | bcasti sc d a imm =>
    cases hop
    obtain ⟨rfl, rfl, rfl, h1, rfl, -⟩ := hr
    exact if_pos h1
  | ldB8 sc d base off | ldB16 sc d base off | ldB32 sc d base off | ldB64 sc d base off | ldB128 sc d base off | stB8 sc d base off
  | stB16 sc d base off | stB32 sc d base off | stB64 sc d base off | stB128 sc d base off | ldAcqB32 sc d base off | ldAcqB64 sc d base off
  | stRelB32 sc d base off | stRelB64 sc d base off | ldsB32 sc d base off | ldsB128 sc d base off | stsB32 sc d base off | stsB128 sc d base off =>
    cases hop
    obtain ⟨rfl, rfl, rfl, rfl, -⟩ := hr
    rfl
  | ldf sc d base k n | stf sc d base k n =>
    cases hop
    obtain ⟨rfl, rfl, rfl, rfl, rfl, -⟩ := hr
    rfl
  | ldm d base c n | stm d base c n =>
    cases hop
    obtain ⟨h1, rfl, rfl, rfl, rfl, -⟩ := hr
    exact if_pos h1
  | ldh sc d h m | sth sc d h m =>
    cases hop
    obtain ⟨rfl, rfl, h1, rfl, h2, rfl, -⟩ := hr
    exact if_pos (Bool.and_eq_true_iff.2 ⟨h2, h1⟩)
  | bp sense pred disp | call sense pred disp =>
    cases hop
    obtain ⟨h1, rfl, rfl, rfl, -⟩ := hr
    exact if_pos h1
  | mma ec acc atam areg breg fmt =>
    cases hop
    obtain ⟨rfl, rfl, rfl, rfl, rfl, rfl, -⟩ := hr
    rfl
  | accz acc =>
    cases hop
    obtain ⟨h1, rfl, h2, -⟩ := hr
    exact if_pos (Bool.and_eq_true_iff.2 ⟨h2, h1⟩)
  | accld acc areg | accflush acc areg | accflushDet acc areg =>
    cases hop
    obtain ⟨h1, rfl, h2, rfl, h3, -⟩ := hr
    exact if_pos (Bool.and_eq_true_iff.2 ⟨Bool.and_eq_true_iff.2 ⟨h3, h2⟩, h1⟩)
  | accst acc areg fmt =>
    cases hop
    obtain ⟨h1, rfl, h2, rfl, h3, rfl, -⟩ := hr
    exact if_pos (Bool.and_eq_true_iff.2 ⟨Bool.and_eq_true_iff.2 ⟨h3, h2⟩, h1⟩)
  | clause wait first second len =>
    cases hop
    obtain ⟨rfl, rfl, rfl, rfl, -⟩ := hr
    rfl
  | uadd d a b | usub d a b | umul d a b | umulhiI32 d a b | umulhiN32 d a b | uminI32 d a b | uminN32 d a b | umaxI32 d a b | umaxN32 d a b
  | uand d a b | uor d a b | uxor d a b | ushl d a b | ushrN32 d a b | ushrI32 d a b | urotl d a b | usel d a b | uadd64 d a b | ucmpEq d a b
  | ucmpNe d a b | ucmpLtI32 d a b | ucmpLeI32 d a b | ucmpLtN32 d a b | ucmpLeN32 d a b | uaddF32 d a b | umulF32 d a b | ufmaF32 d a b
  | uminF32 d a b | umaxF32 d a b | ucmpLtF32 d a b | invn d a b =>
    cases hop
    obtain ⟨rfl, rfl, rfl, h1, -⟩ := hr
    exact if_pos h1
  | uclz d a | upopc d a | ubrev d a | umov d a =>
    cases hop
    obtain ⟨rfl, rfl, h1, -⟩ := hr
    exact if_pos h1
  | uret a | fenceAcq a | fenceRel a | fenceAr a | fsclose a | fswait a =>
    cases hop
    obtain ⟨h1, rfl, h2, -⟩ := hr
    exact if_pos (Bool.and_eq_true_iff.2 ⟨h2, h1⟩)
  | uaddi d a imm | uandi d a imm | uori d a imm | uxori d a imm | ucmpiEq d a imm | ucmpiLtI32 d a imm | ucmpiLtN32 d a imm | uldB32 d a imm
  | uldB64 d a imm | ustB32 d a imm | ustB64 d a imm =>
    cases hop
    obtain ⟨rfl, rfl, h1, rfl, -⟩ := hr
    exact if_pos h1
  | ushli d a imm | ushriN32 d a imm | ushriI32 d a imm =>
    cases hop
    obtain ⟨rfl, rfl, h1, rfl, -⟩ := hr
    exact if_pos h1
  | movi d imm | ldk d imm =>
    cases hop
    obtain ⟨rfl, h1, rfl, -⟩ := hr
    exact if_pos h1
  | bra disp =>
    cases hop
    obtain ⟨h1, rfl, -⟩ := hr
    exact if_pos h1
  | bc sense c disp =>
    cases hop
    obtain ⟨h1, rfl, rfl, rfl, -⟩ := hr
    exact if_pos h1
  | ucall c disp =>
    cases hop
    obtain ⟨h1, rfl, rfl, -⟩ := hr
    exact if_pos h1
  | joinset j a x =>
    cases hop
    obtain ⟨h1, rfl, rfl, h2, rfl, -⟩ := hr
    exact if_pos (Bool.and_eq_true_iff.2 ⟨h2, h1⟩)
  | yield | rett | ifence =>
    cases hop
    obtain ⟨h1, -⟩ := hr
    exact if_pos h1
  | part r | arrive r | waitb r =>
    cases hop
    obtain ⟨h1, rfl, -⟩ := hr
    exact if_pos h1
  | trap n =>
    cases hop
    obtain ⟨h1, rfl, -⟩ := hr
    exact if_pos h1
  | wb a b | inv a b | icinv a b | pfi a b | fsopen a b =>
    cases hop
    obtain ⟨h1, rfl, rfl, h2, -⟩ := hr
    exact if_pos (Bool.and_eq_true_iff.2 ⟨h2, h1⟩)
  | hwaitFull h p =>
    cases hop
    obtain ⟨rfl, h1, h2, rfl, -⟩ := hr
    exact hwaitFull_of_reads h1 h2
  | hwaitFree h =>
    cases hop
    obtain ⟨rfl, h1, h2, h3, -⟩ := hr
    exact hwaitFree_of_reads h1 h2 h3
  | hcfgBind h a b =>
    cases hop
    obtain ⟨rfl, rfl, rfl, h1, -⟩ := hr
    exact (hcfg_of_fld (eq_of_beq h1)).trans rfl
  | hcfgRing h a =>
    cases hop
    obtain ⟨rfl, rfl, h1, h2, -⟩ := hr
    exact (hcfg_of_fld (eq_of_beq h2)).trans (if_pos h1)
  | hcfgMark h =>
    cases hop
    obtain ⟨rfl, h1, h2, -⟩ := hr
    exact (hcfg_of_fld (eq_of_beq h2)).trans (if_pos h1)
  | hcfgUnbind h =>
    cases hop
    obtain ⟨rfl, h1, h2, -⟩ := hr
    exact (hcfg_of_fld (eq_of_beq h2)).trans (if_pos h1)
  | hfree h p =>
    cases hop
    obtain ⟨rfl, h1, rfl, -⟩ := hr
    exact if_pos h1
  | mfs r num | mts r num =>
    cases hop
    obtain ⟨rfl, h1, rfl, -⟩ := hr
    exact if_pos h1
  | rngseed k =>
    cases hop
    obtain ⟨rfl, h1, -⟩ := hr
    exact if_pos h1
  | rgnw k e t =>
    cases hop
    obtain ⟨rfl, h1, rfl, rfl, -⟩ := hr
    exact if_pos h1
  | rgnr k e | bgtw k e | bgtr k e =>
    cases hop
    obtain ⟨rfl, h1, rfl, h2, -⟩ := hr
    exact if_pos (Bool.and_eq_true_iff.2 ⟨h2, h1⟩)
  | _ => cases hop

/-! ### What decodes has its fields -/

/-- Every instruction that the decoder's answer `r` gives is one that the word, with the top byte `op`, spells. -/
def Answers (op w : Nat) (r : Except Reject Instr) : Prop := ∀ i, r = .ok i → i.opcode = some op ∧ ReadsAll w 24 i.cells

theorem Answers.error {op w : Nat} {e : Reject} : Answers op w (.error e) := fun _ h => nomatch h

theorem Answers.ok {op w : Nat} {i : Instr} (ho : i.opcode = some op) (hr : ReadsAll w 24 i.cells) : Answers op w (.ok i) := by
  rintro _ ⟨⟩
  exact ⟨ho, hr⟩

theorem Answers.guard {op w : Nat} {c : Bool} {r : Except Reject Instr} {e : Reject} (h : c = true → Answers op w r) :
    Answers op w (if c then r else .error e) := by
  split
  next hc => exact h hc
  next => exact .error

theorem Answers.guard₂ {op w : Nat} {a b : Bool} {r : Except Reject Instr} {e : Reject} (h : a = true → b = true → Answers op w r) :
    Answers op w (if a && b then r else .error e) := by
  refine .guard fun hab => ?_
  obtain ⟨ha, hb⟩ := Bool.and_eq_true_iff.1 hab
  exact h ha hb

theorem Answers.guard₃ {op w : Nat} {a b c : Bool} {r : Except Reject Instr} {e : Reject} (h : a = true → b = true → c = true → Answers op w r) :
    Answers op w (if a && b && c then r else .error e) := by
  refine .guard₂ fun hab hc => ?_
  obtain ⟨ha, hb⟩ := Bool.and_eq_true_iff.1 hab
  exact h ha hb hc

theorem answers_decodeHwait (w : Nat) : Answers 0xD9 w (decodeHwait w) := by
  unfold decodeHwait
  split
  case isTrue => exact .error
  case isFalse h =>
    have h17 : (fld 17 2 w == 0) = true := by simpa using h
    split
    case isTrue h1 => exact .ok rfl ⟨rfl, h17, h1, rfl, trivial⟩
    case isFalse h1 =>
      have hbit : (fld 1 1 w == 1) = true := by
        have := fld_lt 1 1 w
        simp only [beq_iff_eq] at h1 ⊢
        omega
      exact .guard fun h0 => .ok rfl ⟨rfl, h17, hbit, h0, trivial⟩

theorem answers_decodeHcfg (w : Nat) : Answers 0xDA w (decodeHcfg w) := by
  unfold decodeHcfg
  split
  case h_1 hx => exact .ok rfl ⟨rfl, rfl, rfl, beq_of_eq hx, trivial⟩
  case h_2 hx => exact .guard fun h => .ok rfl ⟨rfl, rfl, h, beq_of_eq hx, trivial⟩
  case h_5 => exact .error
  all_goals next hx => exact .guard fun h => .ok rfl ⟨rfl, h, beq_of_eq hx, trivial⟩

theorem answers_decodeL0 (op w : Nat) : Answers op w (decodeL0 op w) := by
  unfold decodeL0
  split
  case h_1 => exact .guard fun h => .ok rfl ⟨rfl, h, trivial⟩
  case h_17 => exact .error
  all_goals exact .ok rfl ⟨rfl, rfl, rfl, rfl, trivial⟩

theorem answers_decodeL1 (op w : Nat) : Answers op w (decodeL1 op w) := by
  unfold decodeL1
  split
  case h_3 | h_4 | h_5 | h_7 => exact .guard fun h => .ok rfl ⟨rfl, rfl, rfl, h, trivial⟩
  case h_16 => exact .guard fun h1 => .guard fun h2 => .ok rfl ⟨h1, h2, trivial⟩
  case h_17 => exact .error
  all_goals exact .ok rfl ⟨rfl, rfl, rfl, rfl, trivial⟩

theorem answers_decodeL2 (op w : Nat) : Answers op w (decodeL2 op w) := by
  unfold decodeL2
  split
  case h_7 | h_8 | h_14 | h_15 | h_16 => exact .guard fun h => .ok rfl ⟨rfl, rfl, rfl, h, trivial⟩
  case h_17 => exact .error
  all_goals exact .ok rfl ⟨rfl, rfl, rfl, rfl, trivial⟩

theorem answers_decodeL3 (op w : Nat) : Answers op w (decodeL3 op w) := by
  unfold decodeL3
  split
  case h_5 | h_6 | h_7 => exact .ok rfl ⟨rfl, rfl, rfl, rfl, trivial⟩
  case h_8 => exact .ok rfl ⟨rfl, rfl, rfl, rfl, rfl, trivial⟩
  case h_9 => exact .guard fun h => .ok rfl ⟨rfl, rfl, rfl, rfl, h, rfl, trivial⟩
  case h_10 => exact .guard fun h => .ok rfl ⟨rfl, rfl, rfl, h, rfl, trivial⟩
  case h_11 => exact .guard fun h1 => .guard fun h2 => .ok rfl ⟨h1, rfl, rfl, rfl, rfl, rfl, h2, trivial⟩
  case h_12 => exact .guard fun h => .ok rfl ⟨h, rfl, rfl, rfl, trivial⟩
  case h_13 => exact .guard fun h1 => .guard fun h2 => .ok rfl ⟨h1, rfl, h2, trivial⟩
  case h_14 => exact .guard fun h1 => .guard fun h2 => .ok rfl ⟨h1, rfl, rfl, h2, trivial⟩
  case h_15 => exact .guard fun h1 => .guard₂ fun h2 h3 => .ok rfl ⟨h1, h3, rfl, h2, trivial⟩
  case h_16 => exact .error
  all_goals exact .guard fun h => .ok rfl ⟨rfl, rfl, rfl, h, trivial⟩

theorem answers_decodeL4 (op w : Nat) : Answers op w (decodeL4 op w) := by
  unfold decodeL4
  split
  case h_4 | h_5 | h_6 => exact .guard fun h => .ok rfl ⟨rfl, rfl, h, rfl, trivial⟩
  case h_7 => exact .guard fun h => .ok rfl ⟨rfl, rfl, rfl, h, rfl, rfl, trivial⟩
  case h_8 => exact .guard fun h => .ok rfl ⟨rfl, rfl, rfl, h, rfl, rfl, rfl, trivial⟩
  case h_9 | h_10 => exact .guard fun h => .ok rfl ⟨rfl, rfl, rfl, h, trivial⟩
  case h_12 => exact .guard fun h1 => .guard fun h2 => .ok rfl ⟨h1, rfl, h2, trivial⟩
  case h_14 => exact .guard fun h1 => .guard fun h2 => .ok rfl ⟨h1, h2, rfl, rfl, rfl, trivial⟩
  case h_15 | h_16 => exact .guard fun h1 => .guard₂ fun h2 h3 => .ok rfl ⟨h1, h3, rfl, h2, trivial⟩
  case h_17 => exact .error
  all_goals exact .ok rfl ⟨rfl, rfl, rfl, rfl, trivial⟩

theorem answers_decodeL5 (op w : Nat) : Answers op w (decodeL5 op w) := by
  unfold decodeL5
  split
  case h_5 | h_6 | h_7 | h_11 | h_12 => exact .guard fun h => .ok rfl ⟨rfl, rfl, rfl, h, rfl, trivial⟩
  case h_13 => exact .error
  all_goals exact .ok rfl ⟨rfl, rfl, rfl, rfl, trivial⟩

theorem answers_decodeL6 (op w : Nat) : Answers op w (decodeL6 op w) := by
  unfold decodeL6
  split
  case h_15 | h_16 => exact .ok rfl ⟨rfl, rfl, rfl, rfl, rfl, trivial⟩
  case h_17 => exact .error
  all_goals exact .ok rfl ⟨rfl, rfl, rfl, rfl, trivial⟩

theorem answers_decodeL7 (op w : Nat) : Answers op w (decodeL7 op w) := by
  unfold decodeL7
  split
  case h_5 | h_6 => exact .guard fun h => .ok rfl ⟨h, rfl, rfl, rfl, rfl, trivial⟩
  case h_7 | h_8 => exact .guard₂ fun h1 h2 => .ok rfl ⟨rfl, rfl, h2, rfl, h1, rfl, trivial⟩
  case h_9 | h_10 => exact .guard fun h => .ok rfl ⟨h, rfl, rfl, rfl, trivial⟩
  case h_11 => exact .ok rfl ⟨rfl, rfl, rfl, rfl, rfl, rfl, trivial⟩
  case h_12 => exact .guard₂ fun h1 h2 => .ok rfl ⟨h2, rfl, h1, trivial⟩
  case h_13 | h_15 | h_16 => exact .guard₃ fun h1 h2 h3 => .ok rfl ⟨h3, rfl, h2, rfl, h1, trivial⟩
  case h_14 => exact .guard₃ fun h1 h2 h3 => .ok rfl ⟨h3, rfl, h2, rfl, h1, rfl, trivial⟩
  case h_17 => exact .error
  all_goals exact .ok rfl ⟨rfl, rfl, rfl, rfl, trivial⟩

theorem answers_decodeG0 (op w : Nat) : Answers (op + 128) w (decodeG0 op w) := by
  unfold decodeG0
  split
  case h_1 => exact .ok rfl ⟨rfl, rfl, rfl, rfl, trivial⟩
  case h_17 => exact .error
  all_goals exact .guard fun h => .ok rfl ⟨rfl, rfl, rfl, h, trivial⟩

theorem answers_decodeG1 (op w : Nat) : Answers (op + 128) w (decodeG1 op w) := by
  unfold decodeG1
  split
  case h_2 | h_3 | h_4 | h_5 => exact .guard fun h => .ok rfl ⟨rfl, rfl, h, trivial⟩
  case h_14 => exact .error
  all_goals exact .guard fun h => .ok rfl ⟨rfl, rfl, rfl, h, trivial⟩

theorem answers_decodeG2 (op w : Nat) : Answers (op + 128) w (decodeG2 op w) := by
  unfold decodeG2
  split
  case h_7 => exact .guard₂ fun h1 h2 => .ok rfl ⟨h2, rfl, h1, trivial⟩
  case h_8 => exact .error
  all_goals exact .guard fun h => .ok rfl ⟨rfl, rfl, rfl, h, trivial⟩

theorem answers_decodeG3 (op w : Nat) : Answers (op + 128) w (decodeG3 op w) := by
  unfold decodeG3
  split
  case h_8 | h_9 => exact .guard fun h => .ok rfl ⟨rfl, h, rfl, trivial⟩
  case h_17 => exact .error
  all_goals exact .guard fun h => .ok rfl ⟨rfl, rfl, h, rfl, trivial⟩

theorem answers_decodeG4 (op w : Nat) : Answers (op + 128) w (decodeG4 op w) := by
  unfold decodeG4
  split
  case h_2 => exact .guard fun h => .ok rfl ⟨h, rfl, rfl, rfl, trivial⟩
  case h_3 => exact .guard fun h => .ok rfl ⟨h, rfl, rfl, trivial⟩
  case h_4 => exact .guard₂ fun h1 h2 => .ok rfl ⟨h2, rfl, rfl, h1, rfl, trivial⟩
  case h_5 | h_10 => exact .guard fun h => .ok rfl ⟨h, trivial⟩
  case h_11 => exact .error
  all_goals exact .guard fun h => .ok rfl ⟨h, rfl, trivial⟩

theorem answers_decodeG5 (op w : Nat) : Answers (op + 128) w (decodeG5 op w) := by
  unfold decodeG5
  split
  case h_4 | h_5 | h_8 | h_9 | h_13 => exact .guard₂ fun h1 h2 => .ok rfl ⟨h2, rfl, rfl, h1, trivial⟩
  case h_6 => exact .guard fun h => .ok rfl ⟨rfl, rfl, rfl, h, trivial⟩
  case h_7 => exact .guard fun h => .ok rfl ⟨h, trivial⟩
  case h_10 => exact answers_decodeHwait w
  case h_11 => exact answers_decodeHcfg w
  case h_12 => exact .guard fun h => .ok rfl ⟨rfl, h, rfl, trivial⟩
  case h_16 => exact .error
  all_goals exact .guard₂ fun h1 h2 => .ok rfl ⟨h2, rfl, h1, trivial⟩

theorem answers_decodeG6 (op w : Nat) : Answers (op + 128) w (decodeG6 op w) := by
  unfold decodeG6
  split
  case h_1 | h_2 => exact .guard fun h => .ok rfl ⟨rfl, h, rfl, trivial⟩
  case h_3 => exact .guard fun h => .ok rfl ⟨rfl, h, trivial⟩
  case h_4 => exact .guard fun h => .ok rfl ⟨rfl, h, rfl, rfl, trivial⟩
  case h_8 => exact .error
  all_goals exact .guard₂ fun h1 h2 => .ok rfl ⟨rfl, h2, rfl, h1, trivial⟩

theorem answers_decodeL (op w : Nat) : Answers op w (decodeL op w) := by
  unfold decodeL
  split
  case h_1 => exact answers_decodeL0 op w
  case h_2 => exact answers_decodeL1 op w
  case h_3 => exact answers_decodeL2 op w
  case h_4 => exact answers_decodeL3 op w
  case h_5 => exact answers_decodeL4 op w
  case h_6 => exact answers_decodeL5 op w
  case h_7 => exact answers_decodeL6 op w
  case h_8 => exact answers_decodeL7 op w

theorem answers_decodeG (op w : Nat) : Answers (op + 128) w (decodeG op w) := by
  unfold decodeG
  split
  case h_1 => exact answers_decodeG0 op w
  case h_2 => exact answers_decodeG1 op w
  case h_3 => exact answers_decodeG2 op w
  case h_4 => exact answers_decodeG3 op w
  case h_5 => exact answers_decodeG4 op w
  case h_6 => exact answers_decodeG5 op w
  case h_7 => exact answers_decodeG6 op w
  case h_8 => exact .error

/-- R67-R76: a word spells the instruction it decodes to. -/
theorem spells_of_decode (w : Nat) (i : Instr) (hw : w < 2 ^ 32) (h : decode w = .ok i) : Spells w i := by
  rw [decode_eq_decodeAt hw, decodeAt] at h
  split at h
  next hset =>
    have hop : w / 2 ^ 24 % 128 = w / 2 ^ 24 := by have := eq_of_beq hset; omega
    have := answers_decodeL _ w i h
    rwa [hop] at this
  next hset =>
    have hop : w / 2 ^ 24 % 128 + 128 = w / 2 ^ 24 := by have : w / 2 ^ 24 / 128 ≠ 0 := fun h0 => hset (beq_of_eq h0); omega
    have := answers_decodeG _ w i h
    rwa [hop] at this

/-- R65: the words that decode to an instruction are its encoding, of fields that lie in their widths. -/
theorem decode_eq_ok_iff {w : Nat} (i : Instr) (hw : w < 2 ^ 32) : decode w = .ok i ↔ i.fits = true ∧ encode i = some w := by
  rw [← spells_iff]
  exact ⟨spells_of_decode w i hw, decode_of_spells w i hw⟩

theorem Instr.opcode_byte (i : Instr) : i.opcode.all (Nat.blt · 256) = true := by cases i <;> rfl

/-- R65: an instruction's encoding has 32 bits. -/
theorem encode_lt {i : Instr} {w : Nat} (hf : i.fits = true) (he : encode i = some w) : w < 2 ^ 32 := by
  obtain ⟨hop, -⟩ := (spells_iff w i).2 ⟨hf, he⟩
  have hbyte := i.opcode_byte
  rw [hop, Option.all_some, Nat.blt_eq] at hbyte
  omega

theorem decode_of_encode {i : Instr} {w : Nat} (hf : i.fits = true) (he : encode i = some w) : decode w = .ok i :=
  (decode_eq_ok_iff i (encode_lt hf he)).2 ⟨hf, he⟩

/-- R65: every instruction of fields that lie in their widths has a word. -/
theorem exists_encode {i : Instr} (hf : i.fits = true) : ∃ w, encode i = some w := by
  rw [encode_eq_layOn]
  rw [Instr.fits_eq_fitsAfter, fitsAfter_iff] at hf
  obtain ⟨op, hop⟩ := Option.isSome_iff_exists.1 hf.1
  exact ⟨_, by rw [hop]; rfl⟩

end Sys2Proof

open Sys2Proof

/-- Settles O58: decoding reads the fields that encoding lays side by side (`decode_eq_ok_iff`). -/
theorem decodeEncodeRoundTrip : Obligations.DecodeEncodeRoundTrip := by
  unfold Obligations.DecodeEncodeRoundTrip
  refine ⟨fun i hf => ?_, fun i w hw h => (decode_eq_ok_iff i hw).1 h⟩
  obtain ⟨w, he⟩ := exists_encode hf
  exact ⟨w, he, encode_lt hf he, decode_of_encode hf he⟩

/-- Settles O57: each of the words is the encoding of its instruction. -/
theorem decodesWrittenWords : Obligations.DecodesWrittenWords := by
  unfold Obligations.DecodesWrittenWords
  refine ⟨?_, ?_, ?_, ?_, ?_, ?_, ?_, ?_, ?_, ?_, ?_, ?_, ?_, ?_, ?_, ?_⟩
  all_goals exact decode_of_encode rfl rfl
end


section
/-! SUPPORT. Words that do not take effect: what `State.run` answers where a check of R91 or the word's own trap stands against it (R90, R149, R56, R163). -/

set_option Elab.async false

namespace Sys2Proof.Machine

open Sys2Proof Sys2Proof.Safety

/-! ### The checks of R91, each where those before it pass -/

theorem Pre.cause_of_bad {p : Pre} (c : Cx) (h : p.bad = true) : p.cause c = some causeILLOP := by
  have hill : p.illop c = true := by simp [Pre.illop, h]
  rw [Pre.cause, if_pos hill]

theorem Pre.illop_false {p : Pre} {c : Cx} (hbad : p.bad = false) (hlast : p.last = true → c.isLast = true) (hflag : p.flag ≠ some 15)
    (hset : p.set = true → c.badSet = false) : p.illop c = false := by
  have hl : (p.last && !c.isLast) = false := by
    cases h : p.last with
    | false => rfl
    | true => rw [hlast h]; rfl
  have hs : (p.set && c.badSet) = false := by
    cases h : p.set with
    | false => rfl
    | true => rw [hset h]; rfl
  simp [Pre.illop, hbad, hl, hs, hflag]

theorem Pre.cause_of_role {p : Pre} {c : Cx} {r : Role} (hill : p.illop c = false) (hp : p.role = some r) (hr : r ≠ c.x.role) :
    p.cause c = some causeROLE := by
  rw [Pre.cause, if_neg (by simp [hill]), if_pos (by simp [hp, hr])]

theorem Pre.role_passes {p : Pre} {c : Cx} (hrole : p.role = none ∨ p.role = some c.x.role) : (p.role.isSome && p.role != some c.x.role) = false := by
  rcases hrole with h | h <;> simp [h]

theorem Pre.cause_of_top {p : Pre} {c : Cx} (hill : p.illop c = false) (hrole : p.role = none ∨ p.role = some c.x.role) (htop : c.x.vcount < p.top) :
    p.cause c = some causeREGBOUND := by
  rw [Pre.cause, if_neg (by simp [hill]), if_neg (by simp [Pre.role_passes hrole]), if_pos (by simp [htop])]

theorem Pre.cause_none {p : Pre} {c : Cx} (hill : p.illop c = false) (hrole : p.role = none ∨ p.role = some c.x.role) (htop : p.top ≤ c.x.vcount)
    (hout : p.outside = false) : p.cause c = none := by
  rw [Pre.cause, if_neg (by simp [hill]), if_neg (by simp [Pre.role_passes hrole]), if_neg (by simp [hout, htop])]

/-! ### A trap of the issuing bundle -/

/-- R163, R164: the issuing bundle's trap, of lanes none of which defers it, enters the handler and changes nothing but its wave. -/
theorem State.trapAt_spec {s : State} {c : Cx} (cause : Nat) {m : Mask} (hcx : s.cx = some c) (hp : Plain s c.w m) (hm : c.x.hmode = false)
    (hv : c.g.trapvec ≠ 0#64) : OutsideWaves [c.w] s (s.trapAt c cause m) ∧
      InHandler (s.wave c.w) ((s.trapAt c cause m).wave c.w) c.g.trapvec c.pc (trapCauseWord cause false) m (some c.b.cl) := by
  obtain ⟨-, hx, -, -, hg, -, -⟩ := State.cx_eq hcx
  have hgrid : s.gridOf c.w = c.g := by rw [State.gridOf, ← hx, hg]
  have htrap : s.trapAt c cause m = s.inWaveTrap c.w cause false c.pc m (some c.b.cl) false := by
    have hsp : s.specLanes c.w m = 0#32 := hp
    have hrest : m &&& ~~~0#32 = m := BitVec.and_allOnes
    rw [State.trapAt, hsp, hrest]
    simp
  rw [htrap, ← hgrid]
  exact State.inWaveTrap_spec s c.w cause false c.pc m (some c.b.cl) false (hx ▸ hm) (hgrid ▸ hv)

/-- R300: a condition that every lane of the bundle meets leaves no lane to go on. -/
theorem Cx.splits_lanes (c : Cx) : c.splits c.b.lanes = false := by
  have h : c.b.lanes &&& ~~~(c.b.lanes ||| c.hold ||| c.b.cl.done) = 0#32 := by
    apply BitVec.eq_of_getLsbD_eq
    intro l hl
    simp only [BitVec.getLsbD_and, BitVec.getLsbD_not, BitVec.getLsbD_or, BitVec.getLsbD_zero]
    cases c.b.lanes.getLsbD l <;> simp
  rw [Cx.splits, h]
  simp

/-- R91: a word that a check stands against is taken as the trap of every lane of its bundle. -/
theorem State.run_cause {s : State} {c : Cx} (hcx : s.cx = some c) {q : Cx → Pre} {k : Nat} (hk : (q c).cause c = some k) (body : Cx → State → State)
    (own : State → Cx → Option (Nat × Mask)) : s.run q body own = s.trapAt c k c.b.lanes := by
  rw [State.run, hcx]
  simp only [hk]
  rfl

/-- R91, R163: a word that passes the checks and meets its own trap, with no lane that goes on without the trap's, is taken as that trap. -/
theorem State.run_own {s : State} {c : Cx} (hcx : s.cx = some c) {q : Cx → Pre} (hk : (q c).cause c = none) (body : Cx → State → State)
    {own : State → Cx → Option (Nat × Mask)} {k : Nat} {m : Mask} (ho : own s c = some (k, m)) (hm : c.splits m = false) :
    s.run q body own = s.trapAt c k m := by
  rw [State.run, hcx]
  simp only [hk, ho, State.meets, hm]
  rfl

/-- R163, R164: what a word that a check stands against answers. -/
theorem State.run_cause_spec {s : State} {c : Cx} (hcx : s.cx = some c) {q : Cx → Pre} {k : Nat} (hk : (q c).cause c = some k) (body : Cx → State → State)
    (own : State → Cx → Option (Nat × Mask)) (hp : Plain s c.w c.b.lanes) (hm : c.x.hmode = false) (hv : c.g.trapvec ≠ 0#64) :
    OutsideWaves [c.w] s (s.run q body own) ∧
      InHandler (s.wave c.w) ((s.run q body own).wave c.w) c.g.trapvec c.pc (trapCauseWord k false) c.b.lanes (some c.b.cl) := by
  rw [State.run_cause hcx hk]
  exact State.trapAt_spec k hcx hp hm hv

/-! ### The words -/

/-- R57, R137: the one uniform computation word whose operands can break a rule. -/
theorem eq_uadd64_of_illegal {i : Instr} (hu : (uword i).isSome = true) (hi : i.illegal.isSome = true) : ∃ d a b, i = .uadd64 d a b := by
  have h : ((uword i).isSome && i.illegal.isSome) = true := by rw [hu, hi]; rfl
  clear hu hi
  cases i
  case uadd64 d a b => exact ⟨d, a, b, rfl⟩
  all_goals exact absurd h Bool.false_ne_true

/-- R90: a word of the L or U class that is illegal by itself runs with that check against it. -/
theorem exec_illegal {i : Instr} (s : State) (h : (lword i).isSome = true ∨ (uword i).isSome = true) (hi : i.illegal.isSome = true) :
    ∃ q body, exec i s = .next (s.run q body) ∧ ∀ c, (q c).bad = true := by
  rcases h with h | h
  · obtain ⟨⟨sc, op⟩, hl⟩ := Option.isSome_iff_exists.1 h
    exact ⟨_, _, exec_lword i sc op s hl, fun c => by
      show (i.illegal.isSome || op.oddO4 c.g) = true
      rw [hi]
      rfl⟩
  · obtain ⟨d, a, b, rfl⟩ := eq_uadd64_of_illegal h hi
    exact ⟨_, _, rfl, fun _ => hi⟩

/-- R149: a legal word that one role alone may issue runs with the checks that `rolePre` names. -/
theorem exec_rolePre {i : Instr} {c : Cx} {p : Pre} (s : State) (h : rolePre c i = some p) (hi : i.illegal = none) :
    ∃ q body, exec i s = .next (s.run q body) ∧ q c = p ∧ p.bad = false ∧ p.last = false := by
  unfold rolePre at h
  split at h
  case h_8 => cases h
  all_goals
    obtain rfl := Option.some.inj h
    refine ⟨_, _, rfl, ?_, rfl, rfl⟩
  case h_1 | h_6 | h_7 => simp only [hi]; rfl
  all_goals rfl

/-- R174: the lanes of a JTAB whose index is not below the count. -/
theorem Cx.tableOut_eq {c : Cx} {cnt b : Nat} {m : Mask} (h : ∀ l, hasLane m l = (hasLane c.act l && decide (c.x.sreg cnt ≤ c.x.vreg b l))) :
    c.tableOut cnt b = m := by
  apply BitVec.eq_of_getLsbD_eq
  intro l _
  exact (hasLane_filter c.act _ l).trans (h l).symm

/-- R305: where every lane of the bundle names a timestamp before its task's, all of them meet the trap. -/
theorem State.spawnEarly_eq {s : State} {c : Cx} {a : Ext} (b : Nat) (hcx : s.cx = some c) (ht : c.x.taskWave = true)
    (h : ∀ l, hasLane c.b.lanes l = true → hasLane c.act l = true ∧ s.extVal64 c.w c.b a l < (s.laneTask c.w l).ts) :
    s.spawnEarly c a b = c.b.lanes := by
  rw [State.spawnEarly, if_pos ht]
  apply BitVec.eq_of_getLsbD_eq
  intro l _
  refine (hasLane_filter c.act _ l).trans ?_
  cases hl : hasLane c.b.lanes l with
  | true =>
    obtain ⟨hact, hts⟩ := h l hl
    have horder : s.spawnChk c a b l = .order := if_pos hts
    rw [hact, horder]
    exact hl.symm
  | false =>
    have hact : hasLane c.act l = false := by
      by_contra hc
      rw [Cx.act_sub hcx (by simpa using hc)] at hl
      cases hl
    rw [hact]
    exact hl.symm

end Sys2Proof.Machine

open Sys2Proof Sys2Proof.Machine Sys2Proof.Safety

/-- Settles O7: each of the words by the check or the trap of its own that stands against it, and `State.trapAt_spec`. -/
theorem illegalWordsTrap : Obligations.IllegalWordsTrap := by
  unfold Obligations.IllegalWordsTrap
  refine ⟨fun i s c hlu hi hcx hp hm hv => ?_, fun i sc op s c hl hi hcx hbad hflag hset hrole htop hp hm hv => ?_,
    fun i p r s c hr hi hcx hflag hset hrole hne hp hm hv => ?_, fun cnt a b m s c hi hcx hlast hb ha hmask hm0 htw hm hv => ?_,
    fun d a b s c hi hcx hflag hl0 hd hb ha htw hp hm hv hearly => ?_⟩
  case refine_1 =>
    obtain ⟨q, body, he, hbad⟩ := exec_illegal s hlu hi
    obtain ⟨hout, hin⟩ := State.run_cause_spec hcx (Pre.cause_of_bad c (hbad c)) body (fun _ _ => none) hp hm hv
    exact ⟨_, he, hout, hin⟩
  case refine_2 =>
    have he := exec_lword i sc op s hl
    rw [hi] at he
    have hill := Pre.illop_false hbad (fun h => nomatch h) hflag fun h => hset (eq_of_beq h)
    obtain ⟨hout, hin⟩ := State.run_cause_spec (q := op.pre false sc) hcx (Pre.cause_of_top hill hrole htop)
      (fun c s => s.lword c sc op) (fun _ _ => none) hp hm hv
    exact ⟨_, he, hout, hin⟩
  case refine_3 =>
    obtain ⟨q, body, he, rfl, hbad, hlast⟩ := exec_rolePre s hr hi
    have hill := Pre.illop_false hbad (fun h => by rw [hlast] at h; cases h) hflag hset
    obtain ⟨hout, hin⟩ := State.run_cause_spec hcx (Pre.cause_of_role hill hrole hne) body (fun _ _ => none) hp hm hv
    exact ⟨_, he, hout, hin⟩
  case refine_4 =>
    have hsplit : c.splits m = false := by rw [Cx.splits, htw]; rfl
    have hplain : Plain s c.w m := by
      obtain ⟨-, hx, -⟩ := State.cx_eq hcx
      rw [Plain, State.specLanes, ← hx, htw]
      rfl
    obtain ⟨hout, hin⟩ := State.trapAt_spec causeJTBOUND hcx hplain hm hv
    refine ⟨_, ?_, hout, hin⟩
    rw [exec_jtab, execJtab, State.run_own hcx ?_ _ ?_ hsplit]
    · exact Pre.cause_none (Pre.illop_false (by rw [hi]; rfl) (fun _ => hlast) (by simp) (by simp)) (.inl rfl) (Nat.max_le.2 ⟨hb, ha⟩) rfl
    · rw [Cx.tableOut_eq hmask, if_neg (by simpa using hm0)]
  case refine_5 =>
    obtain ⟨hout, hin⟩ := State.trapAt_spec causeTSORDER hcx hp hm hv
    refine ⟨_, ?_, hout, hin⟩
    rw [exec_spawn, execSpawn, State.run_own hcx ?_ _ ?_ c.splits_lanes]
    · exact Pre.cause_none (Pre.illop_false (by rw [hi]; rfl) (by simp) (by simpa using hflag) (by simp)) (.inl rfl)
        (Nat.max_le.2 ⟨Nat.max_le.2 ⟨hd, hb⟩, ha⟩) rfl
    · rw [State.spawnEarly_eq b hcx htw hearly, if_neg (by simpa using hl0)]
end

section
/-! SUPPORT. The arrival of an L-word at its rendezvous (R156). -/

set_option Elab.async false

namespace Sys2Proof.Machine

open Sys2Proof Sys2Proof.Safety

/-- The order of a bundle's arrival among all of its team: cycle, wave and lane. -/
def Cx.arrivalOrder (s : State) (c : Cx) : Nat := s.sch.cycle * 1024 + c.x.widx * 32 + lowest c.b.lanes

theorem State.arriveAll_lane (s : State) (c : Cx) (sc : Scope) (op : LOp) (l : Nat) : ((s.arriveAll c sc op).wave c.w).lane l =
    if hasLane c.b.lanes l
    then { (s.wave c.w).lane l with st := .waiting (.rdv sc (if sc = .set then c.b.cl.sset else 0) (hasLane c.act l) op (c.arrivalOrder s) false) }
    else (s.wave c.w).lane l := by
  rw [State.arriveAll, State.modWave_wave_self, ← contains_lanesOf]
  simp only [beq_iff_eq]
  exact Wave.foldl_setLaneAt_lane
    (fun l k => { k with st := .waiting (.rdv sc (if sc = .set then c.b.cl.sset else 0) (hasLane c.act l) op (c.arrivalOrder s) false) })
    _ (nodup_lanesOf _) _ l

theorem State.arriveAll_placeOnly (s : State) (c : Cx) (sc : Scope) (op : LOp) : PlaceOnly (s.wave c.w) ((s.arriveAll c sc op).wave c.w) := by
  rw [PlaceOnly, State.arriveAll, State.modWave_wave_self, Wave.forLanes, Wave.foldl_setLane_rest]
  rfl

/-- R73, R290: an L-word at a wider scope, in a task wave no wider than WAVE and without a handle, arrives. -/
theorem State.lword_wide (s : State) {c : Cx} {sc : Scope} {op : LOp} (hsc : sc ≠ .lane) (ht : c.x.taskWave = true → op.noTask sc = false) :
    s.lword c sc op = s.arriveAll c sc op := by
  have hfault : (c.x.taskWave && op.noTask sc) = false := by
    cases h : c.x.taskWave with
    | true => exact ht h
    | false => rfl
  unfold State.lword
  rw [if_neg (by simp [hfault]), if_neg (by simpa using hsc)]

end Sys2Proof.Machine

open Sys2Proof Sys2Proof.Machine Sys2Proof.Safety

/-- Settles O2: the word passes the checks of R91 and its effect is `State.arriveAll`. -/
theorem wideWordArrives : Obligations.WideWordArrives := by
  unfold Obligations.WideWordArrives
  intro i sc op s c hl hsc ht hready
  have he : exec i s = .next (s.arriveAll c sc op) := by
    have hrun : s.execL false sc op = s.arriveAll c sc op :=
      (State.run_ready hready (q := op.pre false sc) rfl _).trans (State.lword_wide s hsc fun h => (ht h).2)
    rw [exec_lword i sc op s hl, hready.legal, ← hrun]
    rfl
  exact ⟨_, c.arrivalOrder s, he, OutsideWaves.modWave s c.w _, State.arriveAll_placeOnly s c sc op, State.arriveAll_lane s c sc op⟩
end

section
/-! SUPPORT. The start of a clause whose words are to hand (R78, R79). -/

set_option Elab.async false

namespace Sys2Proof.Machine

open Sys2Proof Sys2Proof.Safety

/-! ### The fields of the header word (R76) -/

/-- The word that CLAUSE makes of its fields. -/
def clauseWord (wait first second len : Nat) : Word := BitVec.ofNat 32 (2 ^ 31 + wait * 2 ^ 12 + first * 2 ^ 8 + second * 2 ^ 4 + len)

section
variable {wait first second len : Nat} (hw : wait < 2 ^ 12) (hf : first < 16) (hs : second < 16) (hl : len < 16)
include hw hf hs hl

theorem clauseWord_toNat : (clauseWord wait first second len).toNat = 2 ^ 31 + wait * 2 ^ 12 + first * 2 ^ 8 + second * 2 ^ 4 + len := by
  rw [clauseWord, BitVec.toNat_ofNat]
  omega

theorem clauseWord_fields (cl : Clause) (h : cl.word = clauseWord wait first second len) :
    cl.waitMask = wait ∧ cl.first = first ∧ cl.second = second ∧ cl.count = len + 1 := by
  simp only [Clause.waitMask, Clause.first, Clause.second, Clause.count, h, clauseWord_toNat hw hf hs hl]
  omega

/-- R78: CLAUSE at a header starts the clause of its word. -/
theorem exec_clause_header {s : State} {c : Cx} (hi : (Instr.clause wait first second len).illegal = none) (hcx : s.cx = some c) (hp : c.b.phase = .header) :
    exec (.clause wait first second len) s = .next (s.startClause c (clauseWord wait first second len) false) := by
  rw [exec_clause, execClause, hcx]
  simp only [hp, hi, Nat.mod_eq_of_lt hw, Nat.mod_eq_of_lt hf, Nat.mod_eq_of_lt hs, Nat.mod_eq_of_lt hl]
  rfl

end

/-! ### Words to hand (R210) -/

theorem State.fetch_fetched {s : State} {w : Nat} {va : DWord} {v : Word} (h : (s.wave w).fetched va = some v) : s.fetch w va = .word v s := by
  rw [State.fetch, h]

theorem State.fetchMany_fetched {s : State} {w : Nat} {vas : List DWord} {code : List Word} (h : vas.map (s.wave w).fetched = code.map some) :
    s.fetchMany w vas = (code, .word 0#32 s) := by
  induction vas generalizing code with
  | nil =>
    obtain rfl : code = [] := by simpa using h.symm
    rfl
  | cons va vas ih =>
    cases code with
    | nil => cases h
    | cons v code =>
      obtain ⟨hv, hrest⟩ := List.cons.inj h
      rw [State.fetchMany, State.fetch_fetched hv]
      simp only [ih hrest]

/-! ### The bundle that starts (R78 step 3, R79) -/

/-- The bundle of a clause that starts, as it waits for its flags. -/
def Cx.starting (c : Cx) (word e : Word) (code : List Word) : Bundle :=
  { c.b with cl := { hdr := c.pc, word := word, ext := e, code := code }, phase := .wait, stall := .none, age := 0 }

/-- R78 step 3: where a wave's lanes stand has no part in whether its bundle waits. -/
theorem Bundle.passWait_setPcs (x : Wave) (m : Mask) (pc : DWord) (b : Bundle) : Bundle.passWait (x.setPcs m pc) b = Bundle.passWait x b := by
  rw [Wave.setPcs_rest]
  rfl

/-- R78: the wave in which a bundle's clause has started: its lanes stand at the first instruction. -/
def Wave.startBundle (x : Wave) (c : Cx) (b : Bundle) : Wave := (x.setPcs c.b.lanes (c.pc + 8#64)).setBundle c.b.lanes b

theorem Wave.startBundle_lane (x : Wave) (c : Cx) (b : Bundle) (l : Nat) :
    (x.startBundle c b).lane l = if hasLane c.b.lanes l then { x.lane l with pc := c.pc + 8#64 } else x.lane l :=
  Wave.setPcs_lane x c.b.lanes (c.pc + 8#64) l

theorem Wave.startBundle_bundles (x : Wave) (c : Cx) (b : Bundle) :
    (x.startBundle c b).bundles = x.bundles.map fun k => if k.lanes == c.b.lanes then b else k := by
  rw [Wave.startBundle, Wave.setPcs_rest]
  rfl

theorem Wave.startBundle_rest (x : Wave) (c : Cx) (b : Bundle) :
    x.startBundle c b = { x with lanes := (x.startBundle c b).lanes, bundles := (x.startBundle c b).bundles } := by
  rw [Wave.startBundle, Wave.setPcs_rest]
  rfl

/-- R78 steps 2 and 3: with every word to hand the clause starts, in the bundle that waits for its flags or has passed them. -/
theorem State.startClause_fetched {s : State} {c : Cx} {word e : Word} {code : List Word} (he : (s.wave c.w).fetched (c.pc + 4#64) = some e)
    (hgood : badExtension e = false)
    (hcode : ((List.range (word.toNat % 16 + 1)).map fun i => c.pc + BitVec.ofNat 64 (8 + 4 * i)).map (s.wave c.w).fetched = code.map some) :
    s.startClause c word false = s.modWave c.w fun x => x.startBundle c (Bundle.passWait x (c.starting word e code)) := by
  rw [State.startClause, if_neg (by decide), State.fetch_fetched he]
  simp only [hgood, State.fetchMany_fetched hcode, Bundle.passWait_setPcs]
  rfl

/-- R78: the flags that a bundle in its wait names are all zero. -/
def flagsClear (x : Wave) (mask : Nat) : Prop := ∀ f, f < 12 → mask / 2 ^ f % 2 = 1 → x.flag f = 0

theorem flagsClear_iff (x : Wave) (mask : Nat) :
    flagsClear x mask ↔ (List.range 12).all (fun i => mask / 2 ^ i % 2 == 0 || x.flag i == 0) = true := by
  simp only [flagsClear, List.all_eq_true, List.mem_range, Bool.or_eq_true, beq_iff_eq]
  refine forall_congr' fun f => imp_congr_right fun _ => ?_
  rcases Nat.mod_two_eq_zero_or_one (mask / 2 ^ f) with h | h <;> simp [h]

theorem Bundle.passWait_clear {x : Wave} {b : Bundle} (hb : b.phase = .wait) (h : flagsClear x b.cl.waitMask) :
    Bundle.passWait x b = { b with phase := .body, age := 0, cl := { b.cl with act := x.guard b.lanes b.cl } } := by
  rw [Bundle.passWait, if_pos (by rw [hb, (flagsClear_iff x _).1 h]; rfl)]

theorem Bundle.passWait_waits {x : Wave} {b : Bundle} (h : ¬ flagsClear x b.cl.waitMask) : Bundle.passWait x b = b := by
  rw [Bundle.passWait, if_neg fun hc => h ((flagsClear_iff x _).2 (Bool.and_eq_true_iff.1 hc).2)]

/-- R78: whether or not it waits, the bundle keeps its lanes, its stall and its clause but for the active lanes. -/
theorem Bundle.passWait_keeps (x : Wave) (b : Bundle) : (Bundle.passWait x b).lanes = b.lanes ∧ (Bundle.passWait x b).stall = b.stall ∧
    (Bundle.passWait x b).cl = { b.cl with act := (Bundle.passWait x b).cl.act } := by
  rw [Bundle.passWait]
  split <;> exact ⟨rfl, rfl, rfl⟩

/-- R79: the lanes that a guard lets through. -/
theorem Wave.hasLane_guard (x : Wave) (m : Mask) (cl : Clause) (l : Nat) :
    hasLane (x.guard m cl) l = (hasLane m l && (!cl.ge || Bool.xor (x.pred cl.gp l) cl.gs)) := by
  rw [Wave.guard]
  cases cl.ge with
  | true => exact hasLane_filter m _ l
  | false => simp

end Sys2Proof.Machine

open Sys2Proof Sys2Proof.Machine Sys2Proof.Safety

/-- Settles O11: the words are to hand, so `State.startClause_fetched` starts the clause, and `Bundle.passWait` judges its flags and guard. -/
theorem clauseStarts : Obligations.ClauseStarts := by
  unfold Obligations.ClauseStarts
  intro wait first second len e code s c hw hf hs hl hi hcx hp he hgood hlen hcode
  obtain ⟨-, hx, -⟩ := State.cx_eq hcx
  have hword := clauseWord_toNat hw hf hs hl
  have hwords : ((List.range ((clauseWord wait first second len).toNat % 16 + 1)).map fun i => c.pc + BitVec.ofNat 64 (8 + 4 * i)).map (s.wave c.w).fetched =
      code.map some := by
    have hcount : (clauseWord wait first second len).toNat % 16 + 1 = code.length := by omega
    rw [hcount, List.map_map]
    refine List.ext_getElem (by simp) fun k hk _ => ?_
    have hk : k < code.length := by simpa using hk
    simp only [List.getElem_map, List.getElem_range, Function.comp_apply]
    rw [← hx, hcode k (by omega), List.getElem?_eq_getElem hk]
  refine ⟨_, Bundle.passWait (s.wave c.w) (c.starting (clauseWord wait first second len) e code),
    (exec_clause_header hw hf hs hl hi hcx hp).trans (congrArg _ (State.startClause_fetched (hx ▸ he) hgood hwords)), OutsideWaves.modWave s c.w _, ?_⟩
  rw [State.modWave_wave_self, hx]
  generalize hb : Bundle.passWait (s.wave c.w) (c.starting (clauseWord wait first second len) e code) = b
  obtain ⟨hlanes, hstall, hcl⟩ := hb ▸ Bundle.passWait_keeps (s.wave c.w) (c.starting (clauseWord wait first second len) e code)
  obtain ⟨hmask, hfirst, hsecond, hcount⟩ := clauseWord_fields hw hf hs hl b.cl (by rw [hcl]; rfl)
  obtain ⟨hstartMask, -⟩ := clauseWord_fields hw hf hs hl (c.starting (clauseWord wait first second len) e code).cl rfl
  refine ⟨Wave.startBundle_rest _ c b, Wave.startBundle_lane _ c b, Wave.startBundle_bundles _ c b, hlanes, by rw [hcl]; rfl, by rw [hcl]; rfl, by rw [hcl]; rfl,
    hmask, hfirst, hsecond, hcount, hstall, ?_, ?_⟩
  case refine_1 =>
    rintro ⟨f, hf12, hbit, hflag⟩
    rw [← hb, Bundle.passWait_waits fun hclear => hflag (hclear f hf12 (hstartMask.symm ▸ hbit))]
    rfl
  case refine_2 =>
    intro hclear
    rw [← hb, Bundle.passWait_clear rfl (hstartMask.symm ▸ hclear)]
    exact ⟨rfl, Wave.hasLane_guard _ _ _⟩
end

section
/-! SUPPORT. Magnitudes of F32 and their rounding to nearest even (R96, R97, R106): what `roundBits` gives is the nearest of all magnitudes, the exponent unbounded. -/

set_option Elab.async false

namespace Sys2Proof.Machine

open Sys2Proof Sys2Proof.Safety

/-! ### The bits of a magnitude (R95, R96) -/

/-- The significand that bits without a sign stand for, the exponent unbounded. -/
def sigOf (b : Nat) : Nat := if b / 2 ^ 23 = 0 then b else 2 ^ 23 + b % 2 ^ 23

/-- The power of two, above the least of F32, that bits without a sign stand for. -/
def shiftOf (b : Nat) : Nat := b / 2 ^ 23 - 1

/-- R96: the magnitude, in units of 2^-149, that bits without a sign stand for. -/
def magOf (b : Nat) : Nat := sigOf b * 2 ^ shiftOf b

/-- A significand at a power of two: it fills its 24 bits, but at the least power. -/
def Normal (sh n : Nat) : Prop := n < 2 ^ 24 ∧ (sh = 0 ∨ 2 ^ 23 ≤ n)

theorem normal_of_bits (b : Nat) : Normal (shiftOf b) (sigOf b) := by
  unfold Normal shiftOf sigOf
  split <;> omega

theorem bits_of_normal (b : Nat) : shiftOf b * 2 ^ 23 + sigOf b = b := by
  unfold shiftOf sigOf
  split <;> omega

/-- Counting on past the greatest significand gives the least of the next power, which is the same magnitude. -/
theorem magOf_normal {sh n : Nat} (hn : n ≤ 2 ^ 24) (h : sh = 0 ∨ 2 ^ 23 ≤ n) : magOf (sh * 2 ^ 23 + n) = n * 2 ^ sh := by
  unfold magOf sigOf shiftOf
  rcases Nat.lt_or_ge n (2 ^ 23) with hlow | hhigh
  · obtain rfl : sh = 0 := by omega
    rw [if_pos (by omega), show (0 * 2 ^ 23 + n) / 2 ^ 23 - 1 = 0 by omega, Nat.zero_mul, Nat.zero_add]
  · rw [if_neg (by omega)]
    rcases Nat.lt_or_ge n (2 ^ 24) with hlt | hge
    · rw [show 2 ^ 23 + (sh * 2 ^ 23 + n) % 2 ^ 23 = n by omega, show (sh * 2 ^ 23 + n) / 2 ^ 23 - 1 = sh by omega]
    · obtain rfl : n = 2 ^ 24 := by omega
      rw [show 2 ^ 23 + (sh * 2 ^ 23 + 2 ^ 24) % 2 ^ 23 = 2 ^ 23 by omega, show (sh * 2 ^ 23 + 2 ^ 24) / 2 ^ 23 - 1 = sh + 1 by omega, Nat.pow_succ]
      ring

/-- From a power of two on, magnitudes are its multiples. -/
theorem dvd_magOf {sh c : Nat} (h : sh = 0 ∨ (sh + 1) * 2 ^ 23 ≤ c) : 2 ^ sh ∣ magOf c := by
  have hle : sh ≤ shiftOf c := by
    unfold shiftOf
    omega
  exact Dvd.dvd.mul_left (Nat.pow_dvd_pow 2 hle) _

/-- Below it they are less than its least full significand. -/
theorem magOf_lt {sh c : Nat} (hsh : sh ≠ 0) (h : c < (sh + 1) * 2 ^ 23) : magOf c < 2 ^ 23 * 2 ^ sh := by
  obtain ⟨hsig, -⟩ := normal_of_bits c
  have hle : shiftOf c + 1 ≤ sh := by
    unfold shiftOf
    omega
  calc sigOf c * 2 ^ shiftOf c < 2 ^ 24 * 2 ^ shiftOf c := Nat.mul_lt_mul_of_pos_right hsig (by positivity)
    _ = 2 ^ 23 * 2 ^ (shiftOf c + 1) := by rw [Nat.pow_succ]; ring
    _ ≤ 2 ^ 23 * 2 ^ sh := Nat.mul_le_mul_left _ (Nat.pow_le_pow_right (by decide) hle)

theorem magOf_strictMono : StrictMono magOf := by
  intro b c h
  obtain ⟨hb, -⟩ := normal_of_bits b
  have hbits := bits_of_normal b
  have hbitsc := bits_of_normal c
  rcases Nat.lt_or_ge (shiftOf b) (shiftOf c) with hlt | hge
  · have hsig := (normal_of_bits c).2.resolve_left (by omega)
    calc sigOf b * 2 ^ shiftOf b < 2 ^ 24 * 2 ^ shiftOf b := Nat.mul_lt_mul_of_pos_right hb (by positivity)
      _ = 2 ^ 23 * 2 ^ (shiftOf b + 1) := by rw [Nat.pow_succ]; ring
      _ ≤ sigOf c * 2 ^ shiftOf c := Nat.mul_le_mul hsig (Nat.pow_le_pow_right (by decide) hlt)
  · have heq : shiftOf b = shiftOf c := by
      unfold shiftOf at hge ⊢
      omega
    unfold magOf
    rw [heq] at hbits ⊢
    exact Nat.mul_lt_mul_of_pos_right (by omega) (by positivity)

/-! ### Rounding to nearest even (R97, R106) -/

/-- A multiple n of a step is the nearest to a magnitude v, and even where another is as near. -/
def NearestMultiple (n step v : Nat) : Prop :=
  2 * ((n : Int) * step - v).natAbs ≤ step ∧ (2 * ((n : Int) * step - v).natAbs = step → n % 2 = 0)

theorem nearestMultiple_of_eq {n step v : Nat} (hs : 0 < step) (h : v = n * step) : NearestMultiple n step v := by
  have hz : ((n : Int) * step - v).natAbs = 0 := by
    subst h
    simp
  constructor <;> omega

theorem roundShift_nearest (neg : Bool) (m sh : Nat) : NearestMultiple (roundShift .rne neg m sh) (2 ^ sh) m := by
  have hpos : 0 < 2 ^ sh := by positivity
  unfold NearestMultiple roundShift
  generalize 2 ^ sh = d at hpos
  have hdiv := Nat.div_add_mod m d
  have hlt := Nat.mod_lt m hpos
  simp only [beq_iff_eq]
  generalize m / d = q at hdiv
  generalize m % d = r at hdiv hlt
  have hdown : ((q : Int) * d - m).natAbs = r := by
    have : (m : Int) = d * q + r := by exact_mod_cast hdiv.symm
    rw [this, mul_comm]
    omega
  have hup : (((q + 1 : Nat) : Int) * d - m).natAbs = d - r := by
    have : (m : Int) = d * q + r := by exact_mod_cast hdiv.symm
    rw [this]
    push_cast
    rw [show ((q : Int) + 1) * d - (d * q + r) = d - r by ring]
    omega
  split
  · rw [hdown]; omega
  · split
    · rw [hup]; omega
    · split
      · rw [hdown]; omega
      · rcases Nat.mod_two_eq_zero_or_one q with h | h
        · rw [h, Nat.add_zero, hdown]; omega
        · rw [h, hup]; omega

theorem NearestMultiple.scale {n step v : Nat} (h : NearestMultiple n step v) {t : Nat} (ht : 0 < t) : NearestMultiple n (step * t) (v * t) := by
  have hd : ((n : Int) * (step * t : Nat) - (v * t : Nat)).natAbs = ((n : Int) * step - v).natAbs * t := by
    push_cast
    rw [show (n : Int) * (step * t) - v * t = (n * step - v) * t by ring, Int.natAbs_mul, Int.natAbs_natCast]
  obtain ⟨hle, htie⟩ := h
  rw [NearestMultiple, hd, ← mul_assoc]
  exact ⟨Nat.mul_le_mul_right t hle, fun heq => htie (Nat.eq_of_mul_eq_mul_right ht heq)⟩

/-- The nearest multiple keeps the bounds that are multiples. -/
theorem NearestMultiple.le {n step v : Nat} (h : NearestMultiple n step v) (hs : 0 < step) {N : Nat} (hv : v ≤ N * step) : n ≤ N := by
  by_contra hc
  have hmul : (N + 1) * step ≤ n * step := Nat.mul_le_mul_right _ (by omega)
  have hle := h.1
  rw [← Int.natCast_mul] at hle
  rw [Nat.add_mul] at hmul
  omega

theorem NearestMultiple.ge {n step v : Nat} (h : NearestMultiple n step v) (hs : 0 < step) {N : Nat} (hv : N * step ≤ v) : N ≤ n := by
  by_contra hc
  have hmul : (n + 1) * step ≤ N * step := Nat.mul_le_mul_right _ (by omega)
  have hle := h.1
  rw [← Int.natCast_mul] at hle
  rw [Nat.add_mul] at hmul
  omega

/-- Every other multiple is as far or farther, and as far only from an even one. -/
theorem NearestMultiple.other {n step v : Nat} (h : NearestMultiple n step v) (j : Nat) :
    ((n : Int) * step - v).natAbs ≤ ((j : Int) * step - v).natAbs ∧
      (j ≠ n → ((j : Int) * step - v).natAbs = ((n : Int) * step - v).natAbs → n % 2 = 0) := by
  rcases eq_or_ne j n with rfl | hne
  · exact ⟨le_refl _, fun h => absurd rfl h⟩
  obtain ⟨hle, htie⟩ := h
  have hstep : step ≤ ((j : Int) * step - n * step).natAbs := by
    rw [← Int.sub_mul, Int.natAbs_mul, Int.natAbs_natCast]
    exact Nat.le_mul_of_pos_left _ (by omega)
  constructor
  · omega
  · intro _ heq
    exact htie (by omega)

theorem roundAt_nearest (neg : Bool) (m : Nat) {e q base : Int} (he : base ≤ e) (hq : base ≤ q) :
    NearestMultiple (roundAt .rne neg m e q) (2 ^ (q - base).toNat) (m * 2 ^ (e - base).toNat) := by
  unfold roundAt
  split
  · refine nearestMultiple_of_eq (by positivity) ?_
    rw [Nat.mul_assoc, ← Nat.pow_add]
    congr 2
    omega
  · have hpow : 2 ^ (q - base).toNat = 2 ^ (q - e).toNat * 2 ^ (e - base).toNat := by
      rw [← Nat.pow_add]
      congr 1
      omega
    rw [hpow]
    exact (roundShift_nearest neg m _).scale (by positivity)

/-- R97: bits without a sign whose magnitude is the nearest to v, in units of 2^-(149 + k), the exponent unbounded, and even where another is as near. -/
structure NearestBits (b v k : Nat) : Prop where
  near : ∀ c, ((magOf b * 2 ^ k : Nat) - (v : Int)).natAbs ≤ ((magOf c * 2 ^ k : Nat) - (v : Int)).natAbs
  even : ∀ c, magOf c ≠ magOf b → ((magOf c * 2 ^ k : Nat) - (v : Int)).natAbs = ((magOf b * 2 ^ k : Nat) - (v : Int)).natAbs → b % 2 = 0

/-- The nearest multiple of the step of a power of two that the magnitude reaches is the nearest magnitude of all. -/
theorem NearestMultiple.bits {n sh v k : Nat} (h : NearestMultiple n (2 ^ (sh + k)) v) (hn : n ≤ 2 ^ 24) (hlow : sh = 0 ∨ 2 ^ 23 ≤ n)
    (hv : sh = 0 ∨ 2 ^ 23 * 2 ^ (sh + k) ≤ v) : NearestBits (sh * 2 ^ 23 + n) v k := by
  have hmag : (magOf (sh * 2 ^ 23 + n) * 2 ^ k : Nat) = n * 2 ^ (sh + k) := by rw [magOf_normal hn hlow, Nat.pow_add, Nat.mul_assoc]
  have hfar : ∀ c, ((n * 2 ^ (sh + k) : Nat) - (v : Int)).natAbs ≤ ((magOf c * 2 ^ k : Nat) - (v : Int)).natAbs ∧
      (magOf c ≠ magOf (sh * 2 ^ 23 + n) → ((magOf c * 2 ^ k : Nat) - (v : Int)).natAbs = ((n * 2 ^ (sh + k) : Nat) - (v : Int)).natAbs → n % 2 = 0) := by
    intro c
    by_cases hc : sh = 0 ∨ (sh + 1) * 2 ^ 23 ≤ c
    · obtain ⟨j, hj⟩ := dvd_magOf hc
      have hjm : magOf c * 2 ^ k = j * 2 ^ (sh + k) := by rw [hj, Nat.pow_add]; ring
      obtain ⟨hle, htie⟩ := h.other j
      rw [hjm]
      push_cast at hle htie ⊢
      refine ⟨hle, fun hne => htie ?_⟩
      rintro rfl
      exact hne (Nat.eq_of_mul_eq_mul_right (show 0 < 2 ^ k by positivity) (hjm.trans hmag.symm))
    · have hsh : sh ≠ 0 := fun h0 => hc (.inl h0)
      have hless : magOf c * 2 ^ k < 2 ^ 23 * 2 ^ (sh + k) := by
        rw [Nat.pow_add, ← Nat.mul_assoc]
        exact Nat.mul_lt_mul_of_pos_right (magOf_lt hsh (by omega)) (by positivity)
      have hreach := hv.resolve_left hsh
      obtain ⟨hle, -⟩ := h.other (2 ^ 23)
      have hlt : ((n * 2 ^ (sh + k) : Nat) - (v : Int)).natAbs < ((magOf c * 2 ^ k : Nat) - (v : Int)).natAbs := by
        push_cast at hle hreach hless ⊢
        zify at hless hreach
        omega
      exact ⟨hlt.le, fun _ heq => absurd heq hlt.ne'⟩
  constructor
  · intro c
    rw [hmag]
    exact (hfar c).1
  · intro c hne heq
    rw [hmag] at heq
    have := (hfar c).2 hne heq
    omega

theorem roundBits_nearest (neg : Bool) (m : Nat) {e : Int} (k : Nat) (he : -(149 + k : Int) ≤ e) :
    NearestBits (roundBits .f32 .rne neg m e) (m * 2 ^ (e + (149 + k)).toNat) k := by
  rcases Nat.eq_zero_or_pos m with rfl | hm
  · have hz : roundBits .f32 .rne neg 0 e = 0 := rfl
    rw [hz, Nat.zero_mul]
    exact ⟨fun c => by simp [magOf, sigOf], fun _ _ _ => rfl⟩
  have hlog : 2 ^ Nat.log2 m ≤ m ∧ m < 2 ^ (Nat.log2 m + 1) := ⟨Nat.log2_self_le hm.ne', Nat.lt_log2_self⟩
  obtain ⟨hlo, hhi⟩ := hlog
  have hqmin : Fmt.qmin .f32 = -149 := rfl
  have hmb : Fmt.mbits .f32 = 23 := rfl
  unfold roundBits
  rw [if_neg (by simpa using hm.ne')]
  simp only [hqmin, hmb]
  generalize Nat.log2 m = L at hlo hhi
  generalize hq : (if e + (L : Int) - (23 : Nat) < -149 then (-149 : Int) else e + (L : Int) - (23 : Nat)) = q
  have hq149 : -149 ≤ q := by split at hq <;> omega
  obtain ⟨sh, hsh⟩ : ∃ sh : Nat, q - -149 = sh := ⟨(q - -149).toNat, by omega⟩
  have hnear := roundAt_nearest neg m (e := e) (q := q) (base := -(149 + k : Int)) he (by omega)
  rw [show (q - -(149 + k : Int)).toNat = sh + k by omega, show (e - -(149 + k : Int)).toNat = (e + (149 + k)).toNat by omega] at hnear
  rw [show (q - -149).toNat = sh by omega]
  have hup : m * 2 ^ (e + (149 + k)).toNat ≤ 2 ^ 24 * 2 ^ (sh + k) := by
    calc m * 2 ^ (e + (149 + k)).toNat ≤ 2 ^ (L + 1) * 2 ^ (e + (149 + k)).toNat := Nat.mul_le_mul_right _ hhi.le
      _ = 2 ^ (L + 1 + (e + (149 + k)).toNat) := (Nat.pow_add _ _ _).symm
      _ ≤ 2 ^ (24 + (sh + k)) := Nat.pow_le_pow_right (by decide) (by split at hq <;> omega)
      _ = 2 ^ 24 * 2 ^ (sh + k) := Nat.pow_add _ _ _
  have hdown : sh = 0 ∨ 2 ^ 23 * 2 ^ (sh + k) ≤ m * 2 ^ (e + (149 + k)).toNat := by
    rcases Nat.eq_zero_or_pos sh with h0 | hpos
    · exact .inl h0
    refine .inr ?_
    calc 2 ^ 23 * 2 ^ (sh + k) = 2 ^ (23 + (sh + k)) := (Nat.pow_add _ _ _).symm
      _ ≤ 2 ^ (L + (e + (149 + k)).toNat) := Nat.pow_le_pow_right (by decide) (by split at hq <;> omega)
      _ = 2 ^ L * 2 ^ (e + (149 + k)).toNat := Nat.pow_add _ _ _
      _ ≤ m * 2 ^ (e + (149 + k)).toNat := Nat.mul_le_mul_right _ hlo
  exact hnear.bits (hnear.le (by positivity) hup) (hdown.imp id (hnear.ge (by positivity))) hdown

end Sys2Proof.Machine
end

section
/-! SUPPORT. An F32 as a sign and a magnitude (R95, R96), and what of it is finite, infinite or a NaN. -/

set_option Elab.async false

namespace Sys2Proof.Machine

open Sys2Proof Sys2Proof.Safety

/-! ### An F32 as a sign and a magnitude (R95) -/

/-- The word of a sign and of bits without one. -/
def signMag (neg : Bool) (b : Nat) : Word := BitVec.ofNat 32 (Fmt.signBits .f32 neg + b)

/-- A magnitude with a sign. -/
def signed (neg : Bool) (n : Nat) : Int := if neg then -(n : Int) else n

/-- The bits of a word below its sign. -/
def lowBits (x : Word) : Nat := x.toNat % 2 ^ 31

theorem lowBits_lt (x : Word) : lowBits x < 2 ^ 31 := Nat.mod_lt _ (by decide)

theorem signBits_f32 (neg : Bool) : Fmt.signBits .f32 neg = if neg then 2 ^ 31 else 0 := rfl

theorem signMag_toNat (neg : Bool) {b : Nat} (hb : b < 2 ^ 31) : (signMag neg b).toNat = (if neg then 2 ^ 31 else 0) + b := by
  rw [signMag, signBits_f32, BitVec.toNat_ofNat]
  refine Nat.mod_eq_of_lt ?_
  cases neg <;> simp <;> omega

theorem sign_eq (x : Word) : x.getLsbD 31 = decide (2 ^ 31 ≤ x.toNat) := by
  rw [← BitVec.testBit_toNat, Nat.testBit_eq_decide_div_mod_eq, decide_eq_decide]
  omega

@[simp] theorem signMag_sign (neg : Bool) {b : Nat} (hb : b < 2 ^ 31) : (signMag neg b).getLsbD 31 = neg := by
  rw [sign_eq, signMag_toNat neg hb]
  cases neg
  · simp; omega
  · simp

@[simp] theorem signMag_lowBits (neg : Bool) {b : Nat} (hb : b < 2 ^ 31) : lowBits (signMag neg b) = b := by
  rw [lowBits, signMag_toNat neg hb]
  cases neg <;> simp <;> omega

theorem signMag_bit0 (neg : Bool) {b : Nat} (hb : b < 2 ^ 31) : (signMag neg b).getLsbD 0 = decide (b % 2 = 1) := by
  rw [← BitVec.testBit_toNat, Nat.testBit_zero, signMag_toNat neg hb, decide_eq_decide]
  cases neg
  · simp
  · simp; omega

/-- Every word is its sign and its magnitude. -/
theorem signMag_self (x : Word) : signMag (x.getLsbD 31) (lowBits x) = x := by
  apply BitVec.eq_of_toNat_eq
  rw [signMag_toNat _ (lowBits_lt x), sign_eq, lowBits]
  by_cases h : 2 ^ 31 ≤ x.toNat
  · rw [decide_eq_true h, if_pos rfl]; omega
  · rw [decide_eq_false h, if_neg Bool.false_ne_true]; omega

theorem signMag_inj {neg neg' : Bool} {b b' : Nat} (hb : b < 2 ^ 31) (hb' : b' < 2 ^ 31) : signMag neg b = signMag neg' b' ↔ neg = neg' ∧ b = b' := by
  refine ⟨fun h => ⟨?_, ?_⟩, fun ⟨h, h'⟩ => by rw [h, h']⟩
  · rw [← signMag_sign neg hb, h, signMag_sign neg' hb']
  · rw [← signMag_lowBits neg hb, h, signMag_lowBits neg' hb']

theorem finite32_iff (x : Word) : finite32 x ↔ lowBits x < 255 * 2 ^ 23 := by
  unfold finite32 lowBits
  omega

theorem nan32_iff (x : Word) : nan32 x ↔ 255 * 2 ^ 23 < lowBits x := by
  unfold nan32 lowBits
  omega

theorem units149_eq (x : Word) : units149 x = signed (x.getLsbD 31) (magOf (lowBits x)) := by
  have hexp : x.toNat / 2 ^ 23 % 2 ^ 8 = lowBits x / 2 ^ 23 := by unfold lowBits; omega
  have hfrac : x.toNat % 2 ^ 23 = lowBits x % 2 ^ 23 := by unfold lowBits; omega
  have hmag : (if lowBits x / 2 ^ 23 = 0 then lowBits x % 2 ^ 23 else (2 ^ 23 + lowBits x % 2 ^ 23) * 2 ^ (lowBits x / 2 ^ 23 - 1)) = magOf (lowBits x) := by
    unfold magOf sigOf shiftOf
    split
    · next h => rw [h, Nat.zero_sub, Nat.pow_zero]; omega
    · rfl
  unfold units149
  simp only [hexp, hfrac, hmag]
  unfold signed
  split <;> simp

/-- R96: the value of an F32 by its sign and its bits below it. -/
theorem f32_eq (x : Word) : f32 x =
    if lowBits x / 2 ^ 23 = 255 then (if lowBits x % 2 ^ 23 = 0 then .inf (x.getLsbD 31) else .nan)
    else .fin (x.getLsbD 31) (sigOf (lowBits x)) (-149 + (shiftOf (lowBits x) : Int)) := by
  have hexp : x.toNat / 2 ^ 23 % 2 ^ 8 = lowBits x / 2 ^ 23 := by unfold lowBits; omega
  have hfrac : x.toNat % 2 ^ 23 = lowBits x % 2 ^ 23 := by unfold lowBits; omega
  have hsign : (x.toNat / 2 ^ 31 % 2 == 1) = x.getLsbD 31 := by
    rw [sign_eq, Bool.eq_iff_iff, beq_iff_eq, decide_eq_true_iff]
    omega
  have hv : f32 x = if lowBits x / 2 ^ 23 == 255 then (if lowBits x % 2 ^ 23 == 0 then .inf (x.getLsbD 31) else .nan)
      else if lowBits x / 2 ^ 23 == 0 then .fin (x.getLsbD 31) (lowBits x % 2 ^ 23) (-149)
      else .fin (x.getLsbD 31) (2 ^ 23 + lowBits x % 2 ^ 23) (-149 + (lowBits x / 2 ^ 23 : Nat) - 1) := by
    rw [← hexp, ← hfrac, ← hsign]; rfl
  rw [hv]
  simp only [beq_iff_eq]
  congr 1
  unfold sigOf shiftOf
  split <;> congr 1 <;> omega

theorem f32_finite {x : Word} (h : finite32 x) : f32 x = .fin (x.getLsbD 31) (sigOf (lowBits x)) (-149 + (shiftOf (lowBits x) : Int)) := by
  rw [finite32_iff] at h
  rw [f32_eq, if_neg (by omega)]

theorem f32_nan {x : Word} (h : nan32 x) : f32 x = .nan := by
  have hlt := lowBits_lt x
  rw [nan32_iff] at h
  rw [f32_eq, if_pos (by omega), if_neg (by omega)]

theorem f32_infinite {x : Word} (hf : ¬ finite32 x) (hn : ¬ nan32 x) : f32 x = .inf (x.getLsbD 31) := by
  rw [finite32_iff] at hf
  rw [nan32_iff] at hn
  rw [f32_eq, if_pos (by omega), if_pos (by omega)]

end Sys2Proof.Machine
end

section
/-! SUPPORT. Exact values in units of a power of two, how `Num.add`, `Num.mul` and `Num.cmp` go by those units, and the rounding of a signed value to F32 (R97). -/

set_option Elab.async false

namespace Sys2Proof.Machine

open Sys2Proof Sys2Proof.Safety

/-! ### Exact values in units of a power of two -/

theorem scaled_signed (neg : Bool) (m : Nat) (e q : Int) : scaled neg m e q = signed neg (m * 2 ^ (e - q).toNat) := rfl

theorem signed_mul (a b : Bool) (m n : Nat) : signed (a != b) (m * n) = signed a m * signed b n := by
  cases a <;> cases b <;> simp [signed]

theorem signed_mul_right (a : Bool) (m n : Nat) : signed a (m * n) = signed a m * n := by
  cases a <;> simp [signed]

theorem signed_not (a : Bool) (m : Nat) : signed (!a) m = -signed a m := by
  cases a <;> simp [signed]

/-- A sign and a magnitude read off an integer. -/
theorem signed_natAbs (u : Int) : signed (decide (u < 0)) u.natAbs = u := by
  unfold signed
  simp only [decide_eq_true_eq]
  split <;> omega

/-- A signed magnitude is at or above a positive bound where it is positive and its magnitude is. -/
theorem le_signed_iff {T n : Nat} (neg : Bool) (hT : 0 < T) : (T : Int) ≤ signed neg n ↔ neg = false ∧ T ≤ n := by
  cases neg
  · simp [signed]
  · simp [signed]; omega

theorem signed_le_neg_iff {T n : Nat} (neg : Bool) (hT : 0 < T) : signed neg n ≤ -(T : Int) ↔ neg = true ∧ T ≤ n := by
  cases neg
  · simp [signed]; omega
  · simp [signed]

/-- `v` is the finite value u * 2^q. -/
def Num.Exact (v : Num) (q u : Int) : Prop := ∃ neg m e, v = .fin neg m e ∧ q ≤ e ∧ scaled neg m e q = u

theorem scaled_lower (neg : Bool) (m : Nat) {e q r : Int} (hq : q ≤ e) (hr : r ≤ q) : scaled neg m e r = scaled neg m e q * 2 ^ (q - r).toNat := by
  have hpow : 2 ^ (e - r).toNat = 2 ^ (e - q).toNat * 2 ^ (q - r).toNat := by
    rw [← Nat.pow_add]
    congr 1
    omega
  rw [scaled_signed, scaled_signed, hpow, ← mul_assoc, signed_mul_right]
  push_cast
  rfl

theorem scaled_zero (neg : Bool) (e q : Int) : scaled neg 0 e q = 0 := by
  cases neg <;> simp [scaled]

theorem Num.Exact.lower {v : Num} {q u : Int} (h : v.Exact q u) (k : Nat) : v.Exact (q - k) (u * 2 ^ k) := by
  obtain ⟨neg, m, e, rfl, hq, rfl⟩ := h
  refine ⟨neg, m, e, rfl, by omega, ?_⟩
  rw [scaled_lower neg m hq (r := q - k) (by omega)]
  congr 2
  omega

theorem Num.Exact.negate {v : Num} {q u : Int} (h : v.Exact q u) : v.negate.Exact q (-u) := by
  obtain ⟨neg, m, e, rfl, hq, rfl⟩ := h
  exact ⟨!neg, m, e, rfl, hq, by rw [scaled_signed, signed_not]; rfl⟩

theorem Num.Exact.mul {v w : Num} {q r u t : Int} (hv : v.Exact q u) (hw : w.Exact r t) : (v.mul w).Exact (q + r) (u * t) := by
  obtain ⟨na, ma, ea, rfl, hq, rfl⟩ := hv
  obtain ⟨nb, mb, eb, rfl, hr, rfl⟩ := hw
  refine ⟨na != nb, ma * mb, ea + eb, rfl, by omega, ?_⟩
  have hpow : ma * mb * 2 ^ (ea + eb - (q + r)).toNat = ma * 2 ^ (ea - q).toNat * (mb * 2 ^ (eb - r).toNat) := by
    rw [show (ea + eb - (q + r)).toNat = (ea - q).toNat + (eb - r).toNat by omega, Nat.pow_add]
    ring
  rw [scaled_signed, hpow, signed_mul]
  rfl

theorem Num.Exact.add {v w : Num} {q u t : Int} (hv : v.Exact q u) (hw : w.Exact q t) (hq : q ≤ 0) : (v.add w).Exact q (u + t) := by
  obtain ⟨na, ma, ea, rfl, hqa, rfl⟩ := hv
  obtain ⟨nb, mb, eb, rfl, hqb, rfl⟩ := hw
  simp only [Num.add, Bool.and_eq_true, beq_iff_eq]
  split
  · next h =>
    refine ⟨na && nb, 0, 0, rfl, hq, ?_⟩
    rw [h.1, h.2, scaled_zero, scaled_zero, scaled_zero]
    rfl
  split
  · next h => exact ⟨nb, mb, eb, rfl, hqb, by rw [h, scaled_zero, Int.zero_add]⟩
  split
  · next h => exact ⟨na, ma, ea, rfl, hqa, by rw [h, scaled_zero, Int.add_zero]⟩
  · generalize hr : (if ea ≤ eb then ea else eb) = r
    have hra : q ≤ r ∧ r ≤ ea ∧ r ≤ eb := by split at hr <;> omega
    obtain ⟨hqr, hra, hrb⟩ := hra
    refine ⟨_, _, r, rfl, hqr, ?_⟩
    rw [scaled_lower na ma hra hqr, scaled_lower nb mb hrb hqr, ← Int.add_mul]
    generalize scaled na ma ea r + scaled nb mb eb r = d
    rw [scaled_signed, signed_mul_right, signed_natAbs]
    push_cast
    rfl

theorem exact_f32 {x : Word} (h : finite32 x) : (f32 x).Exact (-149) (units149 x) := by
  refine ⟨_, _, _, f32_finite h, by omega, ?_⟩
  rw [scaled_signed, units149_eq]
  unfold magOf
  congr 3
  omega

/-- R131: finite values are ordered as their units. -/
theorem Num.Exact.cmp {v w : Num} {q u t : Int} (hv : v.Exact q u) (hw : w.Exact q t) :
    (v.cmp w < 0 ↔ u < t) ∧ (0 < v.cmp w ↔ t < u) := by
  obtain ⟨na, ma, ea, rfl, hqa, rfl⟩ := hv
  obtain ⟨nb, mb, eb, rfl, hqb, rfl⟩ := hw
  simp only [Num.cmp]
  generalize hr : (if ea ≤ eb then ea else eb) = r
  have hra : q ≤ r ∧ r ≤ ea ∧ r ≤ eb := by split at hr <;> omega
  obtain ⟨hqr, hra, hrb⟩ := hra
  rw [scaled_lower na ma hra hqr, scaled_lower nb mb hrb hqr]
  have hpos : (0 : Int) < 2 ^ (r - q).toNat := by positivity
  generalize scaled na ma ea r = a
  generalize scaled nb mb eb r = b
  rw [Int.mul_lt_mul_right hpos, Int.mul_lt_mul_right hpos]
  simp only [beq_iff_eq]
  split
  · omega
  · split <;> omega

/-! ### Rounding a signed value to F32 (R97) -/

/-- Of one sign, magnitudes lie as far apart as without it. -/
theorem natAbs_signed_sub (neg : Bool) (a k v : Nat) : (signed neg a * 2 ^ k - signed neg v).natAbs = ((a * 2 ^ k : Nat) - (v : Int)).natAbs := by
  cases neg with
  | false => simp [signed]
  | true =>
    have hneg : signed true a * 2 ^ k - signed true v = -((a * 2 ^ k : Nat) - (v : Int)) := by
      simp [signed]
      ring
    rw [hneg, Int.natAbs_neg]

/-- Of opposite signs, they lie apart by their sum. -/
theorem natAbs_signed_not_sub (neg : Bool) (a k v : Nat) : (signed (!neg) a * 2 ^ k - signed neg v).natAbs = a * 2 ^ k + v := by
  have hsum : signed (!neg) a * 2 ^ k - signed neg v = signed (!neg) (a * 2 ^ k + v) := by
    cases neg <;> simp [signed]
    ring
  rw [hsum]
  cases neg <;> simp only [signed] <;> omega

/-- The nearest magnitude, with the value's sign, is the nearest of all signed magnitudes: none of the other sign is nearer than zero. -/
theorem NearestBits.near_signed {b v k : Nat} (h : NearestBits b v k) (neg s : Bool) (c : Nat) :
    (signed neg (magOf b) * 2 ^ k - signed neg v).natAbs ≤ (signed s (magOf c) * 2 ^ k - signed neg v).natAbs ∧
    (signed s (magOf c) ≠ signed neg (magOf b) →
      (signed s (magOf c) * 2 ^ k - signed neg v).natAbs = (signed neg (magOf b) * 2 ^ k - signed neg v).natAbs → b % 2 = 0) := by
  rw [natAbs_signed_sub neg]
  by_cases hs : s = neg
  · subst hs
    rw [natAbs_signed_sub s]
    exact ⟨h.near c, fun hne => h.even c fun heq => hne (by rw [heq])⟩
  · obtain rfl : s = !neg := Bool.eq_not.2 hs
    have hzero : ((magOf 0 * 2 ^ k : Nat) - (v : Int)).natAbs = v := by simp [magOf, sigOf]
    have hnear := hzero ▸ h.near 0
    rw [natAbs_signed_not_sub]
    refine ⟨by omega, fun hne heq => h.even 0 (fun hb => hne ?_) (by omega)⟩
    have hc : magOf c * 2 ^ k = 0 := by omega
    rw [← hb, (Nat.mul_eq_zero.1 hc).resolve_right (by positivity)]
    cases neg <;> rfl

/-- The nearest magnitude lies beyond the greatest finite one from the point half way to the next one on. -/
theorem NearestBits.overflows {b v k : Nat} (h : NearestBits b v k) : 255 * 2 ^ 23 ≤ b ↔ (2 ^ 25 - 1) * 2 ^ (252 + k) ≤ v := by
  have hpow : 2 ^ (252 + k) = 2 ^ 252 * 2 ^ k := Nat.pow_add _ _ _
  have hmax : magOf (255 * 2 ^ 23 - 1) * 2 ^ k = (2 ^ 25 - 2) * 2 ^ (252 + k) := by
    rw [hpow, ← mul_assoc]
    congr 1
  have hinf : magOf (255 * 2 ^ 23) * 2 ^ k = 2 ^ 25 * 2 ^ (252 + k) := by
    rw [hpow, ← mul_assoc]
    congr 1
  have hunit : 0 < 2 ^ (252 + k) := by positivity
  generalize 2 ^ (252 + k) = d at hmax hinf hunit
  have hmono : ∀ {b c}, b ≤ c → magOf b * 2 ^ k ≤ magOf c * 2 ^ k := fun hle => Nat.mul_le_mul_right _ (magOf_strictMono.monotone hle)
  constructor
  · intro hb
    have hnear := h.near (255 * 2 ^ 23 - 1)
    have := hmono hb
    omega
  · intro hv
    by_contra hb
    have hnear := h.near (255 * 2 ^ 23)
    have hb' := hmono (show b ≤ 255 * 2 ^ 23 - 1 by omega)
    have hne : magOf (255 * 2 ^ 23) ≠ magOf b := magOf_strictMono.injective.ne (by omega)
    have heven := h.even _ hne (by omega)
    have hmost : magOf b = magOf (255 * 2 ^ 23 - 1) := Nat.eq_of_mul_eq_mul_right (show 0 < 2 ^ k by positivity) (by omega)
    have := magOf_strictMono.injective hmost
    omega

/-- The word that a finite value is rounded to. -/
theorem rndF32_fin (neg : Bool) (m : Nat) (e : Int) : rndF32 (.fin neg m e) =
    signMag neg (if roundBits .f32 .rne neg m e < 255 * 2 ^ 23 then roundBits .f32 .rne neg m e else 255 * 2 ^ 23) := by
  have h : rndF32 (.fin neg m e) =
      signMag neg (if roundBits .f32 .rne neg m e ≤ 0x7F7FFFFF then roundBits .f32 .rne neg m e else 255 * 2 ^ 23) := rfl
  rw [h]
  congr 2
  rw [eq_iff_iff]
  omega

/-- R97: an exact value rounds to the nearest F32, a tie to the even one. -/
theorem Num.Exact.rounded {v : Num} {u : Int} {k : Nat} (h : v.Exact (-149 - k) u) : rounded (rndF32 v) u k := by
  obtain ⟨neg, m, e, rfl, he, rfl⟩ := h
  have hnear := roundBits_nearest neg m (e := e) k (by omega)
  rw [rndF32_fin, scaled_signed, show (e - (-149 - k)).toNat = (e + (149 + k)).toNat by omega]
  generalize m * 2 ^ (e + (149 + k)).toNat = V at hnear ⊢
  generalize roundBits .f32 .rne neg m e = b at hnear ⊢
  have hover := hnear.overflows
  have hpos : 0 < (2 ^ 25 - 1) * 2 ^ (252 + k) := by positivity
  have hinf : (0x7F800000#32 : Word) = signMag false (255 * 2 ^ 23) := rfl
  have hninf : (0xFF800000#32 : Word) = signMag true (255 * 2 ^ 23) := rfl
  have hcast : (((2 ^ 25 - 1) * 2 ^ (252 + k) : Nat) : Int) = (2 ^ 25 - 1) * 2 ^ (252 + k) := by push_cast; rfl
  rw [Safety.rounded, hinf, hninf, ← hcast]
  generalize (2 ^ 25 - 1) * 2 ^ (252 + k) = T at hover hpos
  rw [le_signed_iff neg hpos, signed_le_neg_iff neg hpos, ← hover]
  split
  · next hb =>
    have hb31 : b < 2 ^ 31 := by omega
    have hunits : units149 (signMag neg b) = signed neg (magOf b) := by rw [units149_eq, signMag_sign neg hb31, signMag_lowBits neg hb31]
    rw [signMag_inj hb31 (by decide), signMag_inj hb31 (by decide), nan32_iff, signMag_lowBits neg hb31, hunits, signMag_bit0 neg hb31]
    refine ⟨fun _ => ⟨fun z _ => ?_, fun z _ hne heq => ?_⟩, and_congr_right fun _ => by omega, and_congr_right fun _ => by omega, by omega⟩
    · rw [units149_eq z]
      exact (hnear.near_signed neg _ _).1
    · rw [units149_eq z] at hne heq
      rw [(hnear.near_signed neg _ _).2 hne heq]
      rfl
  · next hb =>
    rw [finite32_iff, nan32_iff, signMag_lowBits neg (by decide), signMag_inj (by decide) (by decide), signMag_inj (by decide) (by decide)]
    exact ⟨fun h => absurd h (lt_irrefl _), and_congr_right fun _ => by omega, and_congr_right fun _ => by omega, lt_irrefl _⟩

end Sys2Proof.Machine
end

section
/-! SUPPORT. The F32 operations that need no rounding (R97, R130): NEG, ABS, MIN, MAX, and those of a NaN. -/

set_option Elab.async false

namespace Sys2Proof.Machine

open Sys2Proof Sys2Proof.Safety

/-! ### Values that need no rounding -/

theorem roundBits_normal (md : RMode) (neg : Bool) {sh n : Nat} (h : Normal sh n) :
    roundBits .f32 md neg n (-149 + (sh : Int)) = sh * 2 ^ 23 + n := by
  obtain ⟨hlt, hlow⟩ := h
  rcases Nat.eq_zero_or_pos n with rfl | hn
  · obtain rfl : sh = 0 := by omega
    rfl
  have hlog : Nat.log2 n < 24 := (Nat.log2_lt hn.ne').2 hlt
  have hfull : sh ≠ 0 → Nat.log2 n = 23 := fun h0 => by
    have := (Nat.le_log2 hn.ne').2 (hlow.resolve_left h0)
    omega
  have hq : (if -149 + (sh : Int) + (Nat.log2 n : Int) - (23 : Nat) < -149 then (-149 : Int) else -149 + (sh : Int) + (Nat.log2 n : Int) - (23 : Nat)) = -149 + sh := by
    split <;> omega
  have hround : roundBits .f32 md neg n (-149 + (sh : Int)) = (-149 + (sh : Int) - -149).toNat * 2 ^ 23 + roundAt md neg n (-149 + (sh : Int)) (-149 + (sh : Int)) := by
    unfold roundBits
    rw [if_neg (by simpa using hn.ne')]
    show (_ - -149 : Int).toNat * 2 ^ 23 + _ = _
    rw [show Fmt.qmin .f32 = -149 from rfl, show Fmt.mbits .f32 = 23 from rfl, hq]
  rw [hround, roundAt, if_pos (le_refl _), Int.sub_self]
  simp

/-- R97: an F32 rounds to itself. -/
theorem rndF32_f32 {x : Word} (h : ¬ nan32 x) : rndF32 (f32 x) = x := by
  by_cases hf : finite32 x
  · rw [f32_finite hf, rndF32_fin, roundBits_normal .rne _ (normal_of_bits _), bits_of_normal, if_pos ((finite32_iff x).1 hf), signMag_self]
  · have hinf : lowBits x = 255 * 2 ^ 23 := by
      rw [finite32_iff] at hf
      rw [nan32_iff] at h
      omega
    have hr : ∀ neg, rndF32 (.inf neg) = signMag neg (255 * 2 ^ 23) := fun _ => rfl
    rw [f32_infinite hf h, hr, ← hinf, signMag_self]

/-- A value with its sign put to `neg`. -/
def Num.withSign (neg : Bool) : Num → Num
  | .nan => .nan
  | .inf _ => .inf neg
  | .fin _ m e => .fin neg m e

theorem Num.abs_eq (v : Num) : v.abs = v.withSign false := by cases v <;> rfl

theorem Num.negate_eq (v : Num) : v.negate = v.withSign (!v.sign) := by cases v <;> rfl

/-- R96: a change of the sign bit alone changes the sign of the value alone. -/
theorem f32_signMag {x : Word} (h : ¬ nan32 x) (neg : Bool) : f32 (signMag neg (lowBits x)) = (f32 x).withSign neg := by
  have hlow := signMag_lowBits neg (lowBits_lt x)
  have hsign := signMag_sign neg (lowBits_lt x)
  by_cases hf : finite32 x
  · rw [f32_finite hf, f32_finite (by rw [finite32_iff, hlow]; exact (finite32_iff x).1 hf), hlow, hsign]
    rfl
  · rw [f32_infinite hf h, f32_infinite (by rw [finite32_iff, hlow]; exact fun h => hf ((finite32_iff x).2 h))
      (by rw [nan32_iff, hlow]; exact fun h' => h ((nan32_iff x).2 h')), hsign]
    rfl

/-- R97: a zero, too, has the sign of its bits. -/
theorem f32_sign {x : Word} (h : ¬ nan32 x) : (f32 x).sign = x.getLsbD 31 := by
  by_cases hf : finite32 x
  · rw [f32_finite hf]
    rfl
  · rw [f32_infinite hf h]
    rfl

theorem not_nan_signMag {x : Word} (h : ¬ nan32 x) (neg : Bool) : ¬ nan32 (signMag neg (lowBits x)) := by
  rw [nan32_iff, signMag_lowBits neg (lowBits_lt x)]
  exact fun h' => h ((nan32_iff x).2 h')

theorem signMag_not_sign (x : Word) : signMag (!x.getLsbD 31) (lowBits x) = x ^^^ 0x80000000#32 := by
  have hsign : (x ^^^ 0x80000000#32).getLsbD 31 = !x.getLsbD 31 := by
    rw [BitVec.getLsbD_xor]
    cases x.getLsbD 31 <;> rfl
  have hlow : lowBits (x ^^^ 0x80000000#32) = lowBits x := by
    rw [lowBits, BitVec.toNat_xor, Nat.xor_mod_two_pow]
    exact Nat.xor_zero _
  rw [← hsign, ← hlow, signMag_self]

theorem signMag_false (x : Word) : signMag false (lowBits x) = x &&& 0x7FFFFFFF#32 := by
  apply BitVec.eq_of_toNat_eq
  rw [signMag_toNat _ (lowBits_lt x), BitVec.toNat_and, show (0x7FFFFFFF#32 : Word).toNat = 2 ^ 31 - 1 from rfl, Nat.and_two_pow_sub_one_eq_mod]
  exact Nat.zero_add _

theorem negF32_eq {x : Word} (h : ¬ nan32 x) : negF32 x = x ^^^ 0x80000000#32 := by
  rw [negF32, Num.negate_eq, f32_sign h, ← f32_signMag h, rndF32_f32 (not_nan_signMag h _), signMag_not_sign]

theorem absF32_eq {x : Word} (h : ¬ nan32 x) : absF32 x = x &&& 0x7FFFFFFF#32 := by
  rw [absF32, Num.abs_eq, ← f32_signMag h, rndF32_f32 (not_nan_signMag h _), signMag_false]

/-! ### MIN and MAX (R130) -/

theorem ordered_finite {x y : Word} (hx : finite32 x) (hy : finite32 y) : ordered (f32 x) (f32 y) = true := by
  rw [f32_finite hx, f32_finite hy]
  rfl

theorem not_nan_finite {x : Word} (h : finite32 x) : ¬ nan32 x := fun hn => h hn.1

/-- A word that is one of two, and of value u. -/
def Picks (r x y : Word) (u : Int) : Prop := (r = x ∨ r = y) ∧ units149 r = u

theorem picks_left {x : Word} (hx : finite32 x) (y : Word) {u : Int} (h : u = units149 x) : Picks (rndF32 (f32 x)) x y u := by
  rw [rndF32_f32 (not_nan_finite hx)]
  exact ⟨.inl rfl, h.symm⟩

theorem picks_right (x : Word) {y : Word} (hy : finite32 y) {u : Int} (h : u = units149 y) : Picks (rndF32 (f32 y)) x y u := by
  rw [rndF32_f32 (not_nan_finite hy)]
  exact ⟨.inr rfl, h.symm⟩

theorem minF32_picks {x y : Word} (hx : finite32 x) (hy : finite32 y) : Picks (minF32 x y) x y (min (units149 x) (units149 y)) := by
  obtain ⟨hlt, hgt⟩ := (exact_f32 hx).cmp (exact_f32 hy)
  rw [minF32, Num.min, ordered_finite hx hy, Bool.not_true, if_neg Bool.false_ne_true]
  split
  · next h => exact picks_left hx y (min_eq_left (hlt.1 h).le)
  split
  · next h => exact picks_right x hy (min_eq_right (hgt.1 h).le)
  split
  · exact picks_left hx y (min_eq_left (not_lt.1 (mt hgt.2 ‹_›)))
  · exact picks_right x hy (min_eq_right (not_lt.1 (mt hlt.2 ‹_›)))

theorem maxF32_picks {x y : Word} (hx : finite32 x) (hy : finite32 y) : Picks (maxF32 x y) x y (max (units149 x) (units149 y)) := by
  obtain ⟨hlt, hgt⟩ := (exact_f32 hx).cmp (exact_f32 hy)
  rw [maxF32, Num.max, ordered_finite hx hy, Bool.not_true, if_neg Bool.false_ne_true]
  split
  · next h => exact picks_left hx y (max_eq_left (hgt.1 h).le)
  split
  · next h => exact picks_right x hy (max_eq_right (hlt.1 h).le)
  split
  · exact picks_right x hy (max_eq_right (not_lt.1 (mt hgt.2 ‹_›)))
  · exact picks_left hx y (max_eq_left (not_lt.1 (mt hlt.2 ‹_›)))

/-! ### A NaN operand (R97) -/

section
variable {v w : Num}

theorem Num.add_nan (h : v = .nan ∨ w = .nan) : v.add w = .nan := by
  rcases h with rfl | rfl
  · rfl
  · cases v <;> rfl

theorem Num.mul_nan (h : v = .nan ∨ w = .nan) : v.mul w = .nan := by
  rcases h with rfl | rfl
  · rfl
  · cases v <;> rfl

theorem Num.negate_nan (h : v = .nan) : v.negate = .nan := by rw [h]; rfl

theorem ordered_nan (h : v = .nan ∨ w = .nan) : ordered v w = false := by
  rcases h with rfl | rfl
  · rfl
  · cases v <;> rfl

theorem Num.min_nan (h : v = .nan ∨ w = .nan) : v.min w = .nan := by rw [Num.min, ordered_nan h]; rfl

theorem Num.max_nan (h : v = .nan ∨ w = .nan) : v.max w = .nan := by rw [Num.max, ordered_nan h]; rfl
end

end Sys2Proof.Machine

open Sys2Proof Sys2Proof.Machine Sys2Proof.Safety

/-- Settles O54: exact values add and multiply as their units do, and `Num.Exact.rounded` rounds them; NEG, ABS, MIN and MAX give values
that round to themselves. -/
theorem floatingPointValues : Obligations.FloatingPointValues := by
  unfold Obligations.FloatingPointValues
  intro x y z
  refine ⟨fun hx hy => ?finite, fun hn => ?nan, ⟨rfl, rfl, rfl, rfl⟩, fun hn => ⟨negF32_eq hn, absF32_eq hn⟩⟩
  case finite =>
    have hprod : ((f32 x).mul (f32 y)).Exact (-149 - 149) (units149 x * units149 y) := (exact_f32 hx).mul (exact_f32 hy)
    obtain ⟨hmin, hminVal⟩ := minF32_picks hx hy
    obtain ⟨hmax, hmaxVal⟩ := maxF32_picks hx hy
    refine ⟨?add, ?sub, hprod.rounded (k := 149), fun hz => ?fma, hmin, hmax, hminVal, hmaxVal⟩
    case add => exact ((exact_f32 hx).add (exact_f32 hy) (by decide)).rounded (k := 0)
    case sub => exact ((exact_f32 hx).add (exact_f32 hy).negate (by decide)).rounded (k := 0)
    case fma => exact (hprod.add ((exact_f32 hz).lower 149) (by decide)).rounded (k := 149)
  case nan =>
    have hv : f32 x = .nan ∨ f32 y = .nan := hn.imp f32_nan f32_nan
    refine ⟨?add, ?sub, ?mul, ?fma, ?min, ?max⟩
    case add => exact congrArg rndF32 (Num.add_nan hv)
    case sub => exact congrArg rndF32 (Num.add_nan (hv.imp_right Num.negate_nan))
    case mul => exact congrArg rndF32 (Num.mul_nan hv)
    case fma => exact congrArg rndF32 (Num.add_nan (.inl (Num.mul_nan hv)))
    case min => exact congrArg rndF32 (Num.min_nan hv)
    case max => exact congrArg rndF32 (Num.max_nan hv)
end

section
/-! SUPPORT. The integer operations (R94, R126-R128) on numbers. -/

set_option Elab.async false

namespace Sys2Proof.Machine

open Sys2Proof Sys2Proof.Safety

/-! ### Products and orders (R126) -/

/-- The upper half of a product of two integers of 32 bits is one. -/
theorem mulhi_toInt (x y : Word) : (BitVec.ofInt 32 (x.toInt * y.toInt / 2 ^ 32)).toInt = x.toInt * y.toInt / 2 ^ 32 := by
  have hbound : |x.toInt * y.toInt| ≤ 2 ^ 31 * 2 ^ 31 := by
    have habs : ∀ v : Word, |v.toInt| ≤ 2 ^ 31 := fun v => abs_le.2 ⟨BitVec.le_toInt v, (BitVec.toInt_lt (x := v)).le⟩
    rw [abs_mul]
    exact mul_le_mul (habs x) (habs y) (abs_nonneg _) (by decide)
  obtain ⟨hlo, hhi⟩ := abs_le.1 hbound
  exact BitVec.toInt_ofInt_eq_self (by decide) (by omega) (by omega)

theorem mulhi_toNat (x y : Word) : (BitVec.ofNat 32 (x.toNat * y.toNat / 2 ^ 32)).toNat = x.toNat * y.toNat / 2 ^ 32 := by
  have hbound : x.toNat * y.toNat < 2 ^ 32 * 2 ^ 32 := Nat.mul_lt_mul'' x.isLt y.isLt
  rw [BitVec.toNat_ofNat]
  exact Nat.mod_eq_of_lt (by omega)

theorem sle_iff (x y : Word) : sle x y = true ↔ x.toInt ≤ y.toInt := decide_eq_true_iff

theorem sub_toNat (x y : Word) : ((x - y).toNat : Int) = ((x.toNat : Int) - y.toNat) % 2 ^ 32 := by
  rw [BitVec.toNat_sub]
  omega

theorem mad_toNat (x y z : Word) : (x * y + z).toNat = (x.toNat * y.toNat + z.toNat) % 2 ^ 32 := by
  rw [BitVec.toNat_add, BitVec.toNat_mul, Nat.mod_add_mod]

/-! ### Shifts by a register's low five bits (R126) -/

theorem shAmt_lt (y : Word) : shAmt y < 32 := Nat.mod_lt _ (by decide)

theorem shl_toNat (x y : Word) : (x <<< shAmt y).toNat = x.toNat * 2 ^ shAmt y % 2 ^ 32 := by
  rw [BitVec.toNat_shiftLeft, Nat.shiftLeft_eq]

theorem ushiftRight_toNat (x y : Word) : (x >>> shAmt y).toNat = x.toNat / 2 ^ shAmt y := by
  rw [BitVec.toNat_ushiftRight, Nat.shiftRight_eq_div_pow]

theorem sshiftRight_toInt (x y : Word) : (x.sshiftRight (shAmt y)).toInt = x.toInt / 2 ^ shAmt y := by
  rw [BitVec.toInt_sshiftRight, Int.shiftRight_eq_div_pow]
  push_cast
  rfl

/-- The bits that leave at the top come in below those that are shifted. -/
theorem rotateLeft_toNat (x : Word) {n : Nat} (hn : n < 32) : (x.rotateLeft n).toNat = (x.toNat * 2 ^ n + x.toNat / 2 ^ (32 - n)) % 2 ^ 32 := by
  have hx := x.isLt
  have hpow : 2 ^ 32 = 2 ^ (32 - n) * 2 ^ n := by rw [← Nat.pow_add]; congr 1; omega
  have hin : x.toNat / 2 ^ (32 - n) < 2 ^ n := Nat.div_lt_of_lt_mul (hpow ▸ hx)
  have hout : x.toNat * 2 ^ n % 2 ^ 32 = x.toNat % 2 ^ (32 - n) * 2 ^ n := by rw [hpow, Nat.mul_mod_mul_right]
  have hlow : x.toNat % 2 ^ (32 - n) * 2 ^ n + x.toNat / 2 ^ (32 - n) < 2 ^ 32 := by
    have h1 : x.toNat % 2 ^ (32 - n) + 1 ≤ 2 ^ (32 - n) := Nat.mod_lt _ (by positivity)
    have h2 := Nat.mul_le_mul_right (2 ^ n) h1
    rw [← hpow, Nat.add_mul] at h2
    omega
  rw [BitVec.toNat_rotateLeft, Nat.mod_eq_of_lt hn, Nat.shiftLeft_eq, Nat.shiftRight_eq_div_pow, hout, Nat.add_mod, hout,
    Nat.mod_eq_of_lt (lt_of_le_of_lt (Nat.div_le_self _ _) hx), Nat.mod_eq_of_lt hlow, Nat.mul_comm, Nat.two_pow_add_eq_or_of_lt hin]

/-! ### Counting and reversing bits (R126) -/

theorem clzGo_of_clear (x : Word) (m : Nat) (h : ∀ k, k < m → x.getLsbD k = false) : clzGo x m = 32 := by
  induction m with
  | zero => rfl
  | succ m ih =>
    rw [clzGo, if_neg (by rw [h m (Nat.lt_succ_self m)]; exact Bool.false_ne_true)]
    exact ih fun k hk => h k (by omega)

theorem clzGo_of_top (x : Word) {n m : Nat} (hn : n < m) (hset : x.getLsbD n = true) (hclear : ∀ k, n < k → x.getLsbD k = false) : clzGo x m = 31 - n := by
  induction m with
  | zero => omega
  | succ m ih =>
    rw [clzGo]
    rcases Nat.lt_or_ge n m with hlt | hge
    · rw [if_neg (by rw [hclear m hlt]; exact Bool.false_ne_true), ih hlt]
    · obtain rfl : n = m := by omega
      rw [if_pos hset]

theorem clz_zero : clz 0#32 = 32#32 := by rw [clz, clzGo_of_clear _ _ fun _ _ => BitVec.getLsbD_zero]

theorem clz_toNat (x : Word) {n : Nat} (hn : n < 32) (hset : x.getLsbD n = true) (hclear : ∀ k, n < k → x.getLsbD k = false) : (clz x).toNat = 31 - n := by
  rw [clz, clzGo_of_top x hn hset hclear, BitVec.toNat_ofNat]
  exact Nat.mod_eq_of_lt (by omega)

theorem popc_toNat (x : Word) : (popc x).toNat = ((List.range 32).filter fun i => x.getLsbD i).length := by
  have hle : population x ≤ 32 := (List.length_filter_le _ _).trans (List.length_range).le
  rw [popc, BitVec.toNat_ofNat]
  exact Nat.mod_eq_of_lt (by omega)

theorem brev_getLsbD (x : Word) {i : Nat} (hi : i < 32) : (brev x).getLsbD i = x.getLsbD (31 - i) := by
  refine (hasLane_maskOf _ i).trans ?_
  rw [decide_eq_true hi, Bool.true_and, Bool.eq_iff_iff, List.contains_iff_mem, List.mem_filter, List.mem_range]
  exact ⟨fun h => h.2, fun h => ⟨hi, h⟩⟩

/-! ### 64-bit sums (R127) -/

/-- LEA adds its second operand as a signed integer. -/
theorem lea_toNat (u : DWord) (y : Word) : ((pairVal true u (y.setWidth 64)).toNat : Int) = ((u.toNat : Int) + y.toInt) % 2 ^ 64 := by
  have hlow : (y.setWidth 64).extractLsb' 0 32 = y := by
    apply BitVec.eq_of_toNat_eq
    simp [Nat.mod_eq_of_lt y.isLt]
  have hsign : ((y.signExtend 64).toNat : Int) = y.toInt % 2 ^ 64 := by
    rw [BitVec.signExtend, BitVec.toNat_ofInt]
    omega
  rw [pairVal, if_pos rfl, hlow, BitVec.toNat_add, Int.natCast_mod, Int.natCast_add, hsign]
  exact Int.add_emod_emod _ _ _

end Sys2Proof.Machine

open Sys2Proof Sys2Proof.Machine Sys2Proof.Safety

/-- Settles O53, operation by operation: the shifts are by `shAmt`, the operand's low five bits. -/
theorem integerValues : Obligations.IntegerValues := by
  unfold Obligations.IntegerValues
  intro x y z
  refine ⟨BitVec.toNat_add x y, sub_toNat x y, BitVec.toNat_mul x y, mulhi_toInt x y, mulhi_toNat x y, mad_toNat x y z, ?minI, ?minN, ?maxI, ?maxN,
    fun i hi => ⟨BitVec.getLsbD_and, BitVec.getLsbD_or, BitVec.getLsbD_xor, brev_getLsbD x hi⟩, shl_toNat x y, ushiftRight_toNat x y, sshiftRight_toInt x y,
    rotateLeft_toNat x (shAmt_lt y), fun hx => hx ▸ clz_zero, fun n => clz_toNat x, popc_toNat x, ?sel, rfl,
    fun u v => ⟨BitVec.toNat_add u v, lea_toNat u y⟩, ?eq, ?ne, decide_eq_true_iff, decide_eq_true_iff, decide_eq_true_iff, decide_eq_true_iff⟩
  case minI => simp only [aluVal, sle_iff, apply_ite BitVec.toInt, min_def]
  case minN => simp only [aluVal, BitVec.le_def, apply_ite BitVec.toNat, min_def]
  case maxI => simp only [aluVal, sle_iff, apply_ite BitVec.toInt, max_comm x.toInt, max_def]
  case maxN => simp only [aluVal, BitVec.le_def, apply_ite BitVec.toNat, max_comm x.toNat, max_def]
  case sel => simp only [aluVal, bne_iff_ne, ne_eq, ← BitVec.toNat_inj, BitVec.toNat_zero]
  case eq => rw [cmpVal, beq_iff_eq, BitVec.toNat_inj]
  case ne => rw [cmpVal, bne_iff_ne, ne_eq, ne_eq, BitVec.toNat_inj]
end

section
/-! SUPPORT. RNG, RNGSEED, LDK and TSGET (R118, R138, R146, R306, R312): a change of the issuing wave's registers, and the move past the word. -/

set_option Elab.async false

namespace Sys2Proof.Safety

open Sys2Proof Sys2Proof.Machine

theorem PlaceOnly.vreg {x y : Wave} (h : PlaceOnly x y) (n l : Nat) : y.vreg n l = x.vreg n l := by rw [h]; rfl

theorem PlaceOnly.sreg {x y : Wave} (h : PlaceOnly x y) (n : Nat) : y.sreg n = x.sreg n := by rw [h]; rfl

theorem PlaceOnly.uniformRegsOnly {x y : Wave} {m : SMap Word} (h : PlaceOnly { x with s := m } y) : UniformRegsOnly x y := by
  have hs : y.s = m := by rw [h]
  rw [UniformRegsOnly, hs]
  exact h

theorem PlaceOnly.laneRegsOnly {x y : Wave} {m : SMap Word} (h : PlaceOnly { x with v := m } y) : LaneRegsOnly x y := by
  have hv : y.v = m := by rw [h]
  have hp : y.p = x.p := by rw [h]
  rw [LaneRegsOnly, hv, hp]
  exact h

end Sys2Proof.Safety

namespace Sys2Proof.Machine

open Sys2Proof Sys2Proof.Safety

/-! ### Writes of v-registers lane by lane -/

theorem Wave.setVpair_vreg (x : Wave) (d : Nat) {k l : Nat} (v : DWord) (n : Nat) (hk : k < 32) (hl : l < 32) :
    (x.setVpair d k v).vreg n l = if l = k then pairAfter (some d) v n (x.vreg n l) else x.vreg n l := by
  unfold Wave.setVpair
  rw [Wave.setV_vreg _ _ _ _ _ _ hk hl, Wave.setV_vreg _ _ _ _ _ _ hk hl]
  by_cases h : l = k <;> simp [h, pairAfter]

theorem Wave.setVpair_rest (x : Wave) (d k : Nat) (v : DWord) : x.setVpair d k v = { x with v := (x.setVpair d k v).v } := rfl

/-- A change of each lane of a mask in its own v-registers alone. -/
theorem Wave.forLanes_vreg {f : Wave → Nat → Wave} {g : Nat → Nat → Word → Word}
    (hf : ∀ y k n l, k < 32 → l < 32 → (f y k).vreg n l = if l = k then g l n (y.vreg n l) else y.vreg n l)
    (x : Wave) (m : Mask) (n : Nat) {l : Nat} (hl : l < 32) : (x.forLanes m f).vreg n l = if hasLane m l then g l n (x.vreg n l) else x.vreg n l := by
  have hfold : ∀ ls : List Nat, ls.Nodup → (∀ k ∈ ls, k < 32) → ∀ x : Wave,
      (ls.foldl f x).vreg n l = if ls.contains l then g l n (x.vreg n l) else x.vreg n l := by
    intro ls
    induction ls with
    | nil => exact fun _ _ _ => rfl
    | cons a as ih =>
      intro hn hlt x
      obtain ⟨ha, has⟩ := List.nodup_cons.1 hn
      rw [List.foldl_cons, ih has (fun k hk => hlt k (List.mem_cons_of_mem _ hk)), hf x a n l (hlt a List.mem_cons_self) hl]
      by_cases h : l = a
      · subst h
        simp [ha]
      · simp [h]
  rw [Wave.forLanes, hfold _ (nodup_lanesOf m) (fun _ => lanesOf_lt), contains_lanesOf]

/-- Changes of v-registers in lanes change nothing else of a wave. -/
theorem Wave.forLanes_rest {f : Wave → Nat → Wave} (hf : ∀ y k, f y k = { y with v := (f y k).v }) (x : Wave) (m : Mask) :
    x.forLanes m f = { x with v := (x.forLanes m f).v } := by
  unfold Wave.forLanes
  generalize lanesOf m = ls
  induction ls generalizing x with
  | nil => rfl
  | cons a as ih =>
    rw [List.foldl_cons, ih, hf x a]

/-! ### RNG (R146) -/

theorem Wave.drawAll_vreg (x : Wave) (act : Mask) (d n : Nat) {l : Nat} (hl : l < 32) : (x.drawAll act d).vreg n l =
    if hasLane act l then pairAfter (some d) (mix64 x.rngkey (x.rngctr + BitVec.ofNat 64 l)) n (x.vreg n l) else x.vreg n l :=
  Wave.forLanes_vreg (g := fun l n old => pairAfter (some d) (mix64 x.rngkey (x.rngctr + BitVec.ofNat 64 l)) n old)
    (fun y k n l hk hl => by
      rw [Wave.setVpair_vreg y d _ n hk hl]
      by_cases h : l = k
      · rw [if_pos h, if_pos h, h]
      · rw [if_neg h, if_neg h]) x act n hl

theorem Wave.drawAll_rest (x : Wave) (act : Mask) (d : Nat) :
    x.drawAll act d = { x with v := (x.drawAll act d).v, rngctr := x.rngctr + 32#64 } := by
  unfold Wave.drawAll
  rw [Wave.forLanes_rest fun y k => Wave.setVpair_rest y d k _]

/-! ### TSGET (R306) -/

/-- The timestamp and the identity that a lane of the bundle's wave reads. -/
def State.taskTag (s : State) (c : Cx) (l : Nat) : DWord × DWord :=
  if c.x.taskWave then ((s.laneTask c.w l).ts, BitVec.ofNat 64 ((c.x.lane l).task.getD 0)) else (0#64, BitVec.ofNat 64 (2 ^ 64 - 1))

/-- A timestamp and an identity are the lane's where they are what the lane's task has, or, outside a task wave, zero and all ones. -/
theorem State.taskTag_eq {s : State} {c : Cx} {l : Nat} {ts id : DWord}
    (htask : c.x.taskWave = true → ts = (s.laneTask c.w l).ts ∧ some id.toNat = (c.x.lane l).task)
    (hnone : c.x.taskWave = false → ts = 0#64 ∧ id = 0xFFFFFFFFFFFFFFFF#64) : s.taskTag c l = (ts, id) := by
  unfold State.taskTag
  cases h : c.x.taskWave with
  | true =>
    obtain ⟨hts, hid⟩ := htask h
    rw [if_pos rfl, ← hts, ← hid, Option.getD_some, BitVec.ofNat_toNat, BitVec.setWidth_eq]
  | false =>
    obtain ⟨hts, hid⟩ := hnone h
    rw [if_neg Bool.false_ne_true, hts, hid]
    rfl

/-- The wave whose active lanes have written their timestamps and identities. -/
def State.tagLanes (s : State) (c : Cx) (d : Nat) (x : Wave) : Wave :=
  x.forLanes c.act fun y l => (y.setVpair d l (s.taskTag c l).1).setVpair (d + 2) l (s.taskTag c l).2

theorem State.tagLanes_rest (s : State) (c : Cx) (d : Nat) (x : Wave) : s.tagLanes c d x = { x with v := (s.tagLanes c d x).v } :=
  Wave.forLanes_rest (fun _ _ => rfl) x c.act

/-- The pairs d and d + 2 have no register in common, so their order is free. -/
theorem pairAfter_comm (d n : Nat) (u v : DWord) (old : Word) :
    pairAfter (some (d + 2)) v n (pairAfter (some d) u n old) = pairAfter (some d) u n (pairAfter (some (d + 2)) v n old) := by
  unfold pairAfter
  dsimp only
  by_cases h : n = d + 1 ∨ n = d
  · rw [if_neg (show n ≠ d + 2 + 1 by omega), if_neg (show n ≠ d + 2 by omega)]
    rcases h with rfl | rfl <;> simp
  · rw [if_neg (show n ≠ d + 1 by omega), if_neg (show n ≠ d by omega), if_neg (show n ≠ d + 1 by omega), if_neg (show n ≠ d by omega)]

theorem State.tagLanes_vreg (s : State) (c : Cx) (d : Nat) (x : Wave) (n : Nat) {l : Nat} (hl : l < 32) : (s.tagLanes c d x).vreg n l =
    if hasLane c.act l then pairAfter (some d) (s.taskTag c l).1 n (pairAfter (some (d + 2)) (s.taskTag c l).2 n (x.vreg n l)) else x.vreg n l := by
  refine Wave.forLanes_vreg (g := fun l n old => pairAfter (some d) (s.taskTag c l).1 n (pairAfter (some (d + 2)) (s.taskTag c l).2 n old))
    (fun y k n l hk hl => ?_) x c.act n hl
  rw [Wave.setVpair_vreg _ _ _ n hk hl, Wave.setVpair_vreg _ _ _ n hk hl]
  by_cases h : l = k
  · rw [if_pos h, if_pos h, if_pos h, h, pairAfter_comm]
  · rw [if_neg h, if_neg h, if_neg h]

/-! ### The words, where nothing stands against them -/

section
variable {s : State} {c : Cx}

theorem exec_rng_ready {d : Nat} (h : Ready s c (.rng d) { top := d + 2 }) :
    exec (.rng d) s = .next ((s.modWave c.w fun x => x.drawAll c.act d).advance c) := by
  rw [exec_rng, execRng, State.run_ready h ?_]
  rw [h.legal]
  rfl

theorem exec_rngseed_ready {k : Nat} (h : Ready s c (.rngseed k) { reads := [(.s, k), (.s, k + 1), (.s, k + 2), (.s, k + 3)] }) :
    exec (.rngseed k) s = .next ((s.modWave c.w fun x => { x with rngkey := x.spair k, rngctr := x.spair (k + 2) }).advance c) := by
  rw [exec_rngseed, execRngseed, State.run_ready h ?_]
  rw [h.legal]
  rfl

theorem exec_ldk_ready {d imm : Nat} (h : Ready s c (.ldk d imm) {}) (hk : imm < c.g.consts.length) :
    exec (.ldk d imm) s = .next ((s.modWave c.w fun x => x.setS d c.g.consts[imm]).advance c) := by
  rw [exec_ldk, execLdk, State.run_ready h ?_, List.getD_eq_getElem _ _ hk]
  rw [h.legal, decide_eq_false (Nat.not_le.2 hk)]
  rfl

theorem exec_tsget_ready {d : Nat} (h : Ready s c (.tsget d) { top := d + 4 }) :
    exec (.tsget d) s = .next ((s.modWave c.w (s.tagLanes c d)).advance c) := by
  rw [exec_tsget, execTsget, State.run_ready h ?_]
  · unfold State.tagLanes State.taskTag
    cases c.x.taskWave <;> rfl
  · rw [h.legal]
    rfl
end

/-! ### A change of the issuing wave and the move past the instruction -/

/-- What an instruction leaves that changes its wave by `f`, its lanes and bundles apart, and moves on. -/
theorem modWave_advance {s : State} {c : Cx} (hcx : s.cx = some c) {f : Wave → Wave} (hlanes : (f (s.wave c.w)).lanes = (s.wave c.w).lanes)
    (hbundles : (f (s.wave c.w)).bundles = (s.wave c.w).bundles) :
    OutsideWaves [c.w] s ((s.modWave c.w f).advance c) ∧ Moved c (s.wave c.w) (((s.modWave c.w f).advance c).wave c.w) ∧
      PlaceOnly (f (s.wave c.w)) (((s.modWave c.w f).advance c).wave c.w) := by
  have hmoved := moved_advance (s.modWave c.w f) c (State.cx_hold hcx)
  have hplace := State.advance_wave (s.modWave c.w f) c
  rw [State.modWave_wave_self] at hmoved hplace
  refine ⟨(OutsideWaves.modWave s c.w f).trans (outside_advance _ c), moved_after hmoved (fun l => ?_) hbundles, hplace⟩
  unfold Wave.lane
  rw [hlanes]

end Sys2Proof.Machine

open Sys2Proof Sys2Proof.Machine Sys2Proof.Safety

/-- Settles O19: each word changes its wave, and `modWave_advance` moves its bundle on. -/
theorem waveValueWords : Obligations.WaveValueWords := by
  unfold Obligations.WaveValueWords
  intro s c
  refine ⟨fun d hready => ?rng, fun k hready => ?rngseed, fun d imm hready himm => ?ldk, fun d hready => ?tsget⟩
  case rng =>
    obtain ⟨-, hx, -⟩ := State.cx_eq hready.issuing
    obtain ⟨hout, hmoved, hplace⟩ := modWave_advance hready.issuing (f := fun x => x.drawAll c.act d)
      (by rw [Wave.drawAll_rest]) (by rw [Wave.drawAll_rest])
    refine ⟨_, exec_rng_ready hready, hout, hmoved, ?_, fun n l hl => ?_⟩
    · rw [hx]
      rw [Wave.drawAll_rest] at hplace
      have hv : (((s.modWave c.w fun x => x.drawAll c.act d).advance c).wave c.w).v = ((s.wave c.w).drawAll c.act d).v := by rw [hplace]
      rw [hv]
      exact hplace
    · rw [hplace.vreg, Wave.drawAll_vreg _ _ _ _ hl, hx]
  case rngseed =>
    obtain ⟨-, hx, -⟩ := State.cx_eq hready.issuing
    obtain ⟨hout, hmoved, hplace⟩ := modWave_advance hready.issuing (f := fun x => { x with rngkey := x.spair k, rngctr := x.spair (k + 2) }) rfl rfl
    exact ⟨_, exec_rngseed_ready hready, hout, hmoved, hx ▸ hplace⟩
  case ldk =>
    obtain ⟨-, hx, -⟩ := State.cx_eq hready.issuing
    obtain ⟨hout, hmoved, hplace⟩ := modWave_advance hready.issuing (f := fun x => x.setS d c.g.consts[imm]) rfl rfl
    refine ⟨_, exec_ldk_ready hready himm, hout, hmoved, hplace.uniformRegsOnly, fun n => ?_⟩
    rw [hplace.sreg, Wave.setS_sreg, hx, List.getElem?_eq_getElem himm]
    split <;> rfl
  case tsget =>
    obtain ⟨-, hx, -⟩ := State.cx_eq hready.issuing
    obtain ⟨hout, hmoved, hplace⟩ := modWave_advance hready.issuing (f := s.tagLanes c d) (by rw [State.tagLanes_rest]) (by rw [State.tagLanes_rest])
    refine ⟨_, exec_tsget_ready hready, hout, hmoved, ?_, fun l hl ts id htask hnone n => ?_⟩
    · rw [State.tagLanes_rest] at hplace
      exact hplace.laneRegsOnly
    · rw [hplace.vreg, State.tagLanes_vreg s c d _ n hl, State.taskTag_eq htask hnone, hx]
end

section
/-! SUPPORT. Words of the computation class at LANE scope (R120, R126-R136): the writes of the active lanes, and the move past the word. -/

set_option Elab.async false

namespace Sys2Proof.Safety

open Sys2Proof Sys2Proof.Machine

theorem PlaceOnly.pred {x y : Wave} (h : PlaceOnly x y) (n l : Nat) : y.pred n l = x.pred n l := by rw [h]; rfl

theorem PlaceOnly.laneRegsOnly_pred {x y : Wave} {v p : SMap Word} (h : PlaceOnly { x with v := v, p := p } y) : LaneRegsOnly x y := by
  have hv : y.v = v := by rw [h]
  have hp : y.p = p := by rw [h]
  rw [LaneRegsOnly, hv, hp]
  exact h

end Sys2Proof.Safety

namespace Sys2Proof.Machine

open Sys2Proof Sys2Proof.Safety

/-! ### What the writes of one lane leave in it (R120) -/

/-- R120: in an active lane the writes leave `vAfter` in every v-register. -/
theorem State.laneWrites_vget (s : State) (c : Cx) (op : LOp) (n : Nat) {l : Nat} (hl : hasLane c.act l = true) :
    (s.laneWrites c.w c.b l op).foldl (fun o e => e.vget c.w n l o) ((s.wave c.w).vreg n l) = vAfter s c op n l := by
  unfold vAfter
  rw [if_pos hl]
  cases op with
  | alu | cvt | pair => simp [State.laneWrites, wrPair, Wr.vget]
  | nop | cmp | coll | mem | copy => rfl

/-- R128, R131: in an active lane they leave `pAfter` in every predicate. -/
theorem State.laneWrites_pget (s : State) (c : Cx) (op : LOp) (n : Nat) {l : Nat} (hl : hasLane c.act l = true) :
    (s.laneWrites c.w c.b l op).foldl (fun o e => e.pget c.w n l o) ((s.wave c.w).pred n l) = pAfter s c op n l := by
  unfold pAfter
  cases op with
  | cmp => simp [State.laneWrites, Wr.pget, hl]
  | nop | alu | pair | cvt | coll | mem | copy => rfl

theorem vAfter_of_inactive (s : State) (c : Cx) (op : LOp) (n : Nat) {l : Nat} (hl : hasLane c.act l = false) :
    vAfter s c op n l = (s.wave c.w).vreg n l := by
  unfold vAfter
  rw [hl]
  rfl

theorem pAfter_of_inactive (s : State) (c : Cx) (op : LOp) (n : Nat) {l : Nat} (hl : hasLane c.act l = false) :
    pAfter s c op n l = (s.wave c.w).pred n l := by
  unfold pAfter
  rw [hl]
  cases op <;> rfl

/-! ### The operation in the active lanes, and the move past the word -/

/-- R290: a task wave issues these words as any other wave does. -/
theorem LOp.noTask_lane_of_computes {op : LOp} (h : computes op = true) : op.noTask .lane = false := by
  cases op with
  | nop | alu | pair | cmp | cvt => rfl
  | coll | mem | copy => cases h

theorem State.lword_lane (s : State) (c : Cx) {op : LOp} (h : computes op = true) : s.lword c .lane op = s.lanesNow c op := by
  unfold State.lword
  rw [LOp.noTask_lane_of_computes h, Bool.and_false]
  cases op with
  | nop | alu | pair | cmp | cvt => rfl
  | coll | mem | copy => cases h

section
variable (s : State) (c : Cx) (op : LOp)

theorem outside_lanesNow : OutsideWaves [c.w] s (s.lanesNow c op) := (outside_lanesEffect s c.w c.b c.act op).trans (outside_advance _ c)

theorem State.lanesNow_placeOnly :
    PlaceOnly ((s.lanesEffect ((lanesOf c.act).map fun l => (c.w, c.b, l)) op).wave c.w) ((s.lanesNow c op).wave c.w) := State.advance_wave _ c

theorem State.lanesNow_laneRegsOnly : LaneRegsOnly (s.wave c.w) ((s.lanesNow c op).wave c.w) := by
  have h := State.lanesNow_placeOnly s c op
  rw [State.lanesEffect_rest] at h
  exact h.laneRegsOnly_pred

theorem moved_lanesNow (hc : c.hold = 0#32) : Moved c (s.wave c.w) ((s.lanesNow c op).wave c.w) := by
  have h := State.lanesEffect_rest s ((lanesOf c.act).map fun l => (c.w, c.b, l)) op c.w
  refine moved_after (moved_advance _ c hc) (fun l => ?_) ?_
  · rw [h]
    rfl
  · rw [h]

theorem State.lanesNow_vreg (n : Nat) {l : Nat} (hl : l < 32) : ((s.lanesNow c op).wave c.w).vreg n l = vAfter s c op n l := by
  rw [(State.lanesNow_placeOnly s c op).vreg, State.lanesEffect_vreg s c.w c.b c.act op n l hl]
  cases h : hasLane c.act l with
  | true => exact State.laneWrites_vget s c op n h
  | false => exact (vAfter_of_inactive s c op n h).symm

theorem State.lanesNow_pred (n : Nat) {l : Nat} (hl : l < 32) : ((s.lanesNow c op).wave c.w).pred n l = pAfter s c op n l := by
  rw [(State.lanesNow_placeOnly s c op).pred, State.lanesEffect_pred s c.w c.b c.act op n l hl]
  cases h : hasLane c.act l with
  | true => exact State.laneWrites_pget s c op n h
  | false => exact (pAfter_of_inactive s c op n h).symm
end

end Sys2Proof.Machine

open Sys2Proof Sys2Proof.Machine Sys2Proof.Safety

/-- Settles O1: the word passes the checks of R91 and its effect is `State.lanesNow`. -/
theorem laneComputationResult : Obligations.LaneComputationResult := by
  unfold Obligations.LaneComputationResult
  intro i op s c hl hop hready
  have he : exec i s = .next (s.lanesNow c op) := by
    have hrun : s.execL false .lane op = s.lanesNow c op :=
      (State.run_ready hready (q := op.pre false .lane) rfl _).trans (State.lword_lane s c hop)
    rw [exec_lword i .lane op s hl, hready.legal, ← hrun]
    rfl
  exact ⟨_, he, outside_lanesNow s c op, State.lanesNow_laneRegsOnly s c op, moved_lanesNow s c op (State.cx_hold hready.issuing),
    fun n _ hlt => ⟨State.lanesNow_vreg s c op n hlt, State.lanesNow_pred s c op n hlt⟩⟩
end

section
/-! SUPPORT. Uniform computation words (R137, R138): what each writes of the uniform registers, once for the bundle. -/

set_option Elab.async false

namespace Sys2Proof.Machine

open Sys2Proof Sys2Proof.Safety

/-- A change of a wave in its uniform registers alone, to the values that `after` gives. -/
structure WritesUniform (f : Wave → Wave) (after : Wave → Nat → Word) : Prop where
  rest : ∀ x, f x = { x with s := (f x).s }
  sreg : ∀ x n, (f x).sreg n = after x n

theorem writesUniform_setS (d : Nat) (v : Wave → Word) : WritesUniform (fun x => x.setS d (v x)) (setsS d v) :=
  ⟨fun _ => rfl, fun x n => Wave.setS_sreg x d (v x) n⟩

/-- R57: the two words of a uniform pair, low word first. -/
theorem writesUniform_setSpair (d : Nat) (v : Wave → DWord) : WritesUniform (fun x => x.setSpair d (v x)) fun x n =>
    if n = d + 1 then (v x).extractLsb' 32 32 else if n = d then (v x).extractLsb' 0 32 else x.sreg n :=
  ⟨fun _ => rfl, fun x n => by rw [Wave.setSpair, Wave.setS_sreg, Wave.setS_sreg]⟩

/-- R137, R138: a uniform computation word is issued with the registers it reads and the change it names: UADD64 writes a pair, every
other word one register. -/
theorem exec_uword {i : Instr} {reads : List Nat} {after : Wave → Nat → Word} (s : State) (h : uword i = some (reads, after)) :
    ∃ f, WritesUniform f after ∧ exec i s = .next (s.execU i.illegal.isSome reads fun _ => f) := by
  cases i <;> simp only [uword, uAlu, Option.some.injEq, Prod.mk.injEq, reduceCtorEq] at h
  case uadd64 d a b =>
    obtain ⟨rfl, rfl⟩ := h
    exact ⟨_, writesUniform_setSpair d fun x => x.spair a + x.spair b, rfl⟩
  all_goals
    obtain ⟨rfl, rfl⟩ := h
    exact ⟨_, writesUniform_setS _ _, rfl⟩

end Sys2Proof.Machine

open Sys2Proof Sys2Proof.Machine Sys2Proof.Safety

/-- Settles O3: the word passes the checks of R91, changes its wave as `exec_uword` says, and `modWave_advance` moves its bundle on. -/
theorem uniformComputationResult : Obligations.UniformComputationResult := by
  unfold Obligations.UniformComputationResult
  intro i reads after s c hu hready
  obtain ⟨f, hf, he⟩ := exec_uword s hu
  have hrun : s.execU false reads (fun _ => f) = (s.modWave c.w f).advance c := State.run_ready hready rfl _
  rw [hready.legal] at he
  obtain ⟨hout, hmoved, hplace⟩ := modWave_advance hready.issuing (f := f) (by rw [hf.rest]) (by rw [hf.rest])
  refine ⟨_, he.trans (congrArg _ hrun), hout, ?_, hmoved, fun n => ?_⟩
  · rw [hf.rest] at hplace
    exact hplace.uniformRegsOnly
  · rw [hplace.sreg, hf.sreg]
end

section
/-! SUPPORT. The checks of one access in the order of R191, one rule each. -/

set_option Elab.async false

namespace Sys2Proof.Machine

open Sys2Proof Sys2Proof.Safety

theorem canonical_iff (va : DWord) : canonical va = true ↔ va.toNat < 2 ^ 54 ∨ 2 ^ 64 - 2 ^ 54 ≤ va.toNat := by
  simp [canonical]

/-- R33: the one fault of a region lookup. -/
theorem State.rgnFault_code {s : State} {core : Option Nat} {asid : Nat} {va : DWord} {f : FaultInfo} (h : s.rgnFault core asid va = some f) :
    f.code = 0x13 := by
  unfold State.rgnFault at h
  split at h
  · split at h
    · cases h; rfl
    · cases h
  · cases h

section
variable {s : State} {ag : Agent} {need : Need} {va : DWord} {size : Nat}

theorem State.check_noncanonical (h : canonical va = false) : s.check ag need va size = .bad (pageFault 0 0 va) := by
  simp [State.check, h]

theorem State.check_misaligned (hc : canonical va = true) (hs : size ≠ 0) (h : va.toNat % size ≠ 0) :
    s.check ag need va size = .bad (prot rALIGN va.toNat) := by
  simp [State.check, hc, hs, h]

theorem State.check_region (hc : canonical va = true) (h : va.toNat % size = 0) {f : FaultInfo} (hf : s.rgnFault ag.core ag.asid va = some f) :
    s.check ag need va size = .bad f := by
  simp [State.check, hc, h, hf]

theorem State.check_scope (hc : canonical va = true) (h : va.toNat % size = 0) (hf : s.rgnFault ag.core ag.asid va = none)
    (hv : scopeValid ag (s.regionOf ag.core ag.asid va) = false) : s.check ag need va size = .bad { code := cDOMAIN, addr := va.toNat } := by
  simp [State.check, hc, h, hf, hv]

theorem State.check_translated (hc : canonical va = true) (h : va.toNat % size = 0) (hf : s.rgnFault ag.core ag.asid va = none)
    (hv : scopeValid ag (s.regionOf ag.core ag.asid va) = true) {pa : Nat} (ht : s.tlbLook (ag.core.getD 0) ag.asid va need = some (.ok pa)) :
    s.check ag need va size = s.checkPa ag (s.regionOf ag.core ag.asid va) need va pa := by
  simp [State.check, hc, h, hf, hv, ht]
end

section
variable {s : State} {ag : Agent} {r : Region} {need : Need} {va : DWord} {pa : Nat}

theorem State.checkPa_window (h : s.inWindow ag.tenant pa = false) :
    s.checkPa ag r need va pa = .bad { code := cPROT, reason := rWINDOW, addr := va.toNat, paddr := pa } := by
  simp [State.checkPa, h]

/-- R191: what an access that passes steps 6 and 7 met. -/
theorem State.checkPa_ok {a : Access} (h : s.checkPa ag r need va pa = .ok a) :
    a.pa = pa ∧ s.inWindow ag.tenant pa = true ∧ reservedPa pa = false ∧ s.domAgrees r pa = true := by
  unfold State.checkPa at h
  split at h
  · cases h
  · split at h
    · cases h
    · split at h
      · cases h
      · split at h
        · cases h
        · split at h
          · cases h
          · cases h
            simp_all
end

end Sys2Proof.Machine

open Sys2Proof Sys2Proof.Machine Sys2Proof.Safety

/-- Settles O15: each check of R191 decides by its own rule (`State.check_…`, `State.checkPa_…`) once those before it are met. -/
theorem accessChecksInOrder : Obligations.AccessChecksInOrder := by
  unfold Obligations.AccessChecksInOrder
  intro s ag need va size hsize
  rw [← canonical_iff]
  refine ⟨fun h => State.check_noncanonical (Bool.eq_false_iff.mpr h), fun hc => ⟨State.check_misaligned hc (by omega), fun ha => ⟨fun f hf => ?_, State.check_scope hc ha, ?_⟩⟩⟩
  · exact ⟨State.rgnFault_code hf, State.check_region hc ha hf⟩
  · intro hf hv pa ht
    rw [State.check_translated hc ha hf hv ht]
    exact ⟨State.checkPa_window, fun a => State.checkPa_ok⟩
end

section
/-! SUPPORT. A word at LANE scope that no lane performs, in a task wave (R191, R290). -/

set_option Elab.async false

namespace Sys2Proof.Machine

open Sys2Proof Sys2Proof.Safety

/-- A task wave whose 32 lanes run the one, non-speculative task of its launch, its bundle at the first word of a clause whose guard lets
no lane through. -/
def guardedTasks : State :=
  { x := { waves := [(0, { resident := true, started := true, taskWave := true, vcount := 128,
                           lanes := (List.range 32).map fun l => (l, { st := .running, task := some 0 })
                           bundles := [{ lanes := allLanes, phase := .body, cl := { act := 0#32 } }] })]
           grids := [(0, { live := true, isTask := true, tasks := [(0, { st := .running, nonspec := true })] })] }
    sch := { cur := (0, allLanes) } }

def guardedCx : Cx := guardedTasks.cx.get (by decide +kernel)

theorem guardedTasks_cx : guardedTasks.cx = some guardedCx := (Option.some_get _).symm

/-- Its LDH of handle 0 into v5. -/
theorem guardedTasks_ready : Ready guardedTasks guardedCx (.ldh .lane 5 0 0) ((LOp.mem (.ldh 5 0 0)).pre false .lane guardedCx) where
  issuing := guardedTasks_cx
  legal := rfl
  good := by decide +kernel
  last h := by cases h
  flag := by decide +kernel
  set h := by cases h
  role := .inl rfl
  bound := by decide +kernel
  inside := rfl
  parity := by decide +kernel

/-- R290: the bundle meets PROT TASK whatever its guard, and the record goes to the tenant's queue. -/
theorem guardedTasks_records :
    ((guardedTasks.execL false .lane (.mem (.ldh 5 0 0))).x.tenants).length = 1 ∧ guardedTasks.x.tenants.length = 0 := by decide +kernel

end Sys2Proof.Machine

open Sys2Proof Sys2Proof.Machine Sys2Proof.Safety

/-- Refutes O14: in a task wave LDH raises PROT TASK (R290) before the lane set is looked at, so that the word posts a record to the
tenant's fault queue where the bundle has no active lane. -/
theorem not_laneMemoryWords : ¬ Obligations.LaneMemoryWords := by
  unfold Obligations.LaneMemoryWords
  intro h
  obtain ⟨t, ht, hout, -⟩ := (h.1 (.ldh .lane 5 0 0) (.ldh 5 0 0) guardedTasks guardedCx rfl guardedTasks_ready).1 (by decide +kernel)
  have htw : t = guardedTasks.execL false .lane (.mem (.ldh 5 0 0)) := (Host.Outcome.next.inj ht).symm
  obtain ⟨hone, hnone⟩ := guardedTasks_records
  rw [← htw, hout.tenants, hnone] at hone
  cases hone
end

section
/-! SUPPORT. An LDM that goes on at a step whose number takes more than 64 bits (R202, R315). -/

set_option Elab.async false

namespace Sys2Proof.Machine

open Sys2Proof Sys2Proof.Safety

/-- A wave whose lane 0 alone is active, its base pair v0 not canonical, with 2^64 moves of a longer LDM at its address done. -/
def farStep : State :=
  { x := { waves := [(0, { resident := true, started := true, vcount := 2 ^ 64 + 3, mprog := 2 ^ 64, mlanes := allLanes
                           bundles := [{ lanes := allLanes, phase := .body, cl := { act := 1#32 } }]
                           v := [(32, 0x80000000#32)] })]
           grids := [(0, { live := true })] }
    sch := { cur := (0, allLanes) } }

def farCx : Cx := farStep.cx.get (by decide +kernel)

theorem farStep_cx : farStep.cx = some farCx := (Option.some_get _).symm

/-- Its LDM of 2^64 + 1 words from the base pair v0 into v2 on. -/
theorem farStep_ready : Ready farStep farCx (.ldm 2 0 (2 ^ 64) 0)
    { flag := some (farCx.b.cl.flagFor true), top := Nat.max (0 + 2) (2 + (2 ^ 64 + 1)),
      reads := farCx.inLanes (vRange 0 2 ++ if true = true then [] else vRange 2 (2 ^ 64 + 1)), perLane := true } where
  issuing := farStep_cx
  legal := rfl
  good := rfl
  last h := by cases h
  flag := by decide +kernel
  set h := by cases h
  role := .inl rfl
  bound := by decide +kernel
  inside := rfl
  parity := by decide +kernel

theorem farStep_lane {l : Nat} (h : hasLane farCx.act l = true) : l = 0 := by
  have hl : ∀ l < 32, hasLane farCx.act l = true → l = 0 := by decide +kernel
  exact hl l (hasLane_lt h) h

/-- R191: the base pair is not canonical, and 2^64 steps of 4 bytes lead back to it. -/
theorem farStep_check : farStep.check (farStep.agentOf farCx.w) .load (farCx.x.vpair 0 0 + BitVec.ofNat 64 (64 * 0 + 4 * 2 ^ 64)) 4 =
    .bad { code := 0x10, addr := 2 ^ 63 } := by
  decide +kernel

/-- R315: INFO has 64 bits. -/
theorem farStep_info : ((farStep.run (multiPre false true 2 0 (2 ^ 64 + 1)) fun c s => s.multiMem c true 2 0 (2 ^ 64 + 1) 0).tenant farCx.g.tenant).records.map (fun r => leNat ((r.drop 0x20).take 8)) = [0] := by
  decide +kernel

theorem farStep_records : (farStep.tenant farCx.g.tenant).records = [] := by decide +kernel

end Sys2Proof.Machine

open Sys2Proof Sys2Proof.Machine Sys2Proof.Safety

/-- Refutes O16: no rule of the model bounds the count of an LDM that is not decoded, and a record's INFO has 64 bits; where step 2^64 is the
one that fails, INFO is 0 and not the step's number. -/
theorem not_multiWordIssues : ¬ Obligations.MultiWordIssues := by
  unfold Obligations.MultiWordIssues
  intro h
  obtain ⟨t, r, ht, -, -, -, -, -, -, hrec, -, -, hinfo⟩ := h.2 true 2 0 (2 ^ 64) 0 (.ldm 2 0 (2 ^ 64) 0) farStep farCx (2 ^ 64) (2 ^ 64) 0 { code := 0x10, addr := 2 ^ 63 }
    (.inl ⟨rfl, rfl⟩) farStep_ready (by decide +kernel) (by decide +kernel) rfl (by decide +kernel) (Nat.le_refl _) (Nat.le_refl _)
    (fun at_ k hat hle hge j hj => by
      obtain rfl : k = 2 ^ 64 := Nat.le_antisymm hge hle
      obtain rfl := farStep_lane hj
      rw [hat]
      refine ⟨fun h => absurd h (by omega), fun _ _ => farStep_check, fun va need hw => ?_⟩
      rw [if_pos rfl, farStep_check] at hw
      cases hw)
    (by decide +kernel)
  have htw : t = farStep.run (multiPre false true 2 0 (2 ^ 64 + 1)) fun c s => s.multiMem c true 2 0 (2 ^ 64 + 1) 0 := (Host.Outcome.next.inj ht).symm
  have hr := farStep_info
  rw [← htw, hrec, farStep_records] at hr
  have hzero : leNat ((r.drop 0x20).take 8) = 0 := List.cons.inj hr |>.1
  rw [hinfo (by decide)] at hzero
  cases hzero
end

section
/-! SUPPORT. The issue of an operation by one bundle (R82, R83, R217, R236): what it stores and what it leaves, once for every word that issues one. -/

set_option Elab.async false

namespace Sys2Proof.Machine

open Sys2Proof Sys2Proof.Safety

/-- R82, R83, R236: operation `o` is issued in the program order of wave `w` alone: it is the newest operation, its fields are those given but
for what the machine notes at issue, and the wave changes in its counter, its flags and the lanes whose next write is a release only. -/
structure Enters (w : Nat) (o : Op) (s t : State) : Prop where
  sch : t.sch = s.sch
  reg : t.reg = s.reg
  pk : t.pk = s.pk
  m : t.m = s.m
  x : t.x = { s.x with waves := t.x.waves }
  queues : t.o = { s.o with ops := t.o.ops, next := s.o.next + 1 }
  others : ∀ k, k ≠ w → t.wave k = s.wave k
  own : t.wave w = { s.wave w with po := ((s.wave w).po + 1) % 2 ^ 32, f := (t.wave w).f, frel := (t.wave w).frel }
  flags : ∀ f, (t.wave w).flag f = if (w, f) ∈ o.flags then (s.wave w).flag f + 1 else (s.wave w).flag f
  op : t.op s.o.next = { o with pos := [(w, (s.wave w).po)], grid := (t.op s.o.next).grid, team := (t.op s.o.next).team, tids := (t.op s.o.next).tids,
                                firctl := (t.op s.o.next).firctl, firaddr := (t.op s.o.next).firaddr, arm := (t.op s.o.next).arm }
  older : ∀ k, k ≠ s.o.next → t.op k = s.op k

/-- The operation counts on the flags of wave `w` alone, on one or on none. -/
def countsOn (w : Nat) (o : Op) : Prop := o.flags = [] ∨ ∃ f, o.flags = [(w, f)]

theorem State.takePos_one (s : State) (w : Nat) :
    s.takePos [w] = ([(w, (s.wave w).po)], s.modWave w fun x => { x with po := (x.po + 1) % 2 ^ 32 }) := rfl

theorem outside_x {ws : List Nat} {s t : State} (h : OutsideWaves ws s t) : t.x = { s.x with waves := t.x.waves } := by
  obtain ⟨-, -, -, -, -, hteams, hcores, hgrids, hnext, hrr, hgroups, htenants, -⟩ := h
  generalize s.x = a at *
  generalize t.x = b at *
  cases a
  cases b
  simp_all

/-- R83: the flags of one wave rise. -/
theorem outside_flagsUp (s : State) {w : Nat} {o : Op} (h : countsOn w o) :
    OutsideWaves [w] s (o.flags.foldl (fun s e => s.flagUp e.1 e.2) s) := by
  rcases h with hf | ⟨f, hf⟩ <;> rw [hf]
  · exact .refl _ s
  · exact OutsideWaves.modWave s w fun x => x.setFlag f (x.flag f + 1)

theorem State.flagsUp_wave (s : State) {w : Nat} {o : Op} (h : countsOn w o) :
    ((o.flags.foldl (fun s e => s.flagUp e.1 e.2) s).wave w) = { s.wave w with f := ((o.flags.foldl (fun s e => s.flagUp e.1 e.2) s).wave w).f } := by
  rcases h with hf | ⟨f, hf⟩ <;> rw [hf]
  · rfl
  · simp only [List.foldl_cons, List.foldl_nil, State.flagUp, State.modWave_wave_self]
    rfl

theorem State.flagsUp_flag (s : State) {w : Nat} {o : Op} (h : countsOn w o) (n : Nat) :
    ((o.flags.foldl (fun s e => s.flagUp e.1 e.2) s).wave w).flag n = if (w, n) ∈ o.flags then (s.wave w).flag n + 1 else (s.wave w).flag n := by
  rcases h with hf | ⟨f, hf⟩ <;> rw [hf]
  · simp
  · simp only [List.foldl_cons, List.foldl_nil, State.flagUp, State.modWave_wave_self, Wave.setFlag_flag, List.mem_singleton, Prod.mk.injEq, true_and]
    by_cases h : n = f
    · rw [if_pos h, if_pos h, h]
    · rw [if_neg h, if_neg h]

/-- R82, R236. -/
theorem enters_issueOp (s : State) {w : Nat} {o : Op} (h : countsOn w o) : Enters w o s (s.issueOp [w] o).2 := by
  unfold State.issueOp
  rw [State.takePos_one]
  dsimp only
  generalize hu : s.modWave w (fun x => { x with po := (x.po + 1) % 2 ^ 32 }) = u
  have hout : OutsideWaves [w] s (o.flags.foldl (fun s e => s.flagUp e.1 e.2) u) := (hu ▸ OutsideWaves.modWave s w _).trans (outside_flagsUp u h)
  have hx := outside_x hout
  have hown := State.flagsUp_wave u h
  have hflag := State.flagsUp_flag u h
  have huw : u.wave w = { s.wave w with po := ((s.wave w).po + 1) % 2 ^ 32 } := by rw [← hu, State.modWave_wave_self]
  have hid : u.o = s.o := by rw [← hu, State.modWave_o]
  generalize o.flags.foldl (fun s e => s.flagUp e.1 e.2) u = v at hout hx hown hflag
  rw [huw] at hown
  constructor
  case sch => exact hout.sch
  case reg => exact hout.reg
  case pk => exact hout.pk
  case m => exact hout.m
  case x => exact hx
  case queues => simp [State.setOp, hout.o, hid]
  case others => exact fun k hk => hout.waves k (by simpa using hk)
  case own =>
    have hfrel : (v.wave w).frel = (s.wave w).frel := by rw [hown]
    show v.wave w = { s.wave w with po := ((s.wave w).po + 1) % 2 ^ 32, f := (v.wave w).f, frel := (v.wave w).frel }
    rw [hfrel]
    exact hown
  case flags => exact fun f => by rw [← show (u.wave w).flag f = (s.wave w).flag f by rw [huw]; rfl]; exact hflag f
  case op => rw [hid]; simp only [State.op, State.setOp, SMap.get_set_self]
  case older =>
    intro k hk
    rw [← hid] at hk
    refine (SMap.get_set_other _ _ _ hk).trans ?_
    rw [hout.o]
    rfl

/-- R82, R217: at LANE scope. -/
theorem enters_issueRel (s : State) {o : Op} (hsc : o.sc = .lane) (h : countsOn o.wave o) :
    Enters o.wave { o with parts := (relParts o.cls (s.wave o.wave).frel o.parts).2 } s (s.issueRel [o.wave] o) := by
  unfold State.issueRel
  rw [if_pos (by rw [hsc]; rfl)]
  dsimp only
  generalize relParts o.cls (s.wave o.wave).frel o.parts = r
  have hu := OutsideWaves.modWave s o.wave fun x => { x with frel := r.1 }
  have huw : (s.modWave o.wave fun x => { x with frel := r.1 }).wave o.wave = { s.wave o.wave with frel := r.1 } := State.modWave_wave_self ..
  generalize s.modWave o.wave (fun x => { x with frel := r.1 }) = u at hu huw
  have he := enters_issueOp (w := o.wave) u (o := { o with parts := r.2 }) h
  have hflag : ∀ f, (u.wave o.wave).flag f = (s.wave o.wave).flag f := fun f => by rw [huw]; rfl
  obtain ⟨hsch, hreg, hpk, hm, hx, hq, hoth, hown, hfl, hop, hold⟩ := he
  constructor
  case sch => rw [hsch, hu.sch]
  case reg => rw [hreg, hu.reg]
  case pk => rw [hpk, hu.pk]
  case m => rw [hm, hu.m]
  case x => rw [hx, outside_x hu]
  case queues => rw [hq, hu.o]
  case others => exact fun k hk => (hoth k hk).trans (hu.waves k (by simpa using hk))
  case own => rw [huw] at hown; exact hown
  case flags => exact fun f => by rw [hfl, hflag]
  case op => rw [hu.o, huw] at hop; exact hop
  case older => exact fun k hk => by rw [hold k (by rwa [hu.o]), State.op, hu.o]; rfl

section
variable {s t : State} {c : Cx} {o : Op}

/-- R82: what the issue and the move past its word leave of the machine. -/
theorem Enters.issueFrame (h : Enters c.w o s t) : IssueFrame c s (t.advance c) := by
  obtain ⟨hsch, hreg, hpk, hm, hx, hq, hoth, hown, hfl, hop, hold⟩ := h
  have ha := outside_advance t c
  have hw := State.advance_wave t c
  generalize t.advance c = u at ha hw
  constructor
  case m => rw [ha.m, hm]
  case reg => rw [ha.reg, hreg]
  case pk => rw [ha.pk, hpk]
  case teams => rw [ha.teams, hx]
  case tenants => rw [ha.tenants, hx]
  case groups => rw [ha.groups, hx]
  case waves => exact fun k hk => (ha.waves k (by simpa using hk)).trans (hoth k hk)
  case vregs => rw [hw, hown]
  case sregs => rw [hw, hown]
  case preds => rw [hw, hown]
  case joins => rw [hw, hown]
  case accs => rw [hw, hown]
  case rest =>
    have hf : (u.wave c.w).f = (t.wave c.w).f := by rw [hw]
    have hpo : (u.wave c.w).po = ((s.wave c.w).po + 1) % 2 ^ 32 := by rw [hw, hown]
    have hfr : (u.wave c.w).frel = (t.wave c.w).frel := by rw [hw]
    have hsat : (u.wave c.w).satf = (s.wave c.w).satf := by rw [hw, hown]
    rw [hf, hpo, hfr, hsat]
    rw [hown] at hw
    exact hw
  case older => exact fun k hk => by rw [State.op, ha.o]; exact hold k hk

theorem Enters.moved (h : Enters c.w o s t) (hc : c.hold = 0#32) : Moved c (s.wave c.w) ((t.advance c).wave c.w) :=
  moved_after (moved_advance t c hc) (fun l => by rw [h.own]; rfl) (by rw [h.own])

/-- R82, R83, R236: the operation of one bundle. -/
theorem Enters.issued (h : Enters c.w o s t) {f : Nat} (hf : o.flags = [(c.w, f)]) (hw : o.wave = c.w) (hcore : o.core = coreOf c.w) (hpc : o.pc = c.pc)
    (hd : o.done = false) : Issued c f s (t.advance c) (t.op s.o.next) := by
  obtain ⟨hsch, hreg, hpk, hm, hx, hq, hoth, hown, hfl, hop, hold⟩ := h
  have ha := outside_advance t c
  have hadv := State.advance_wave t c
  generalize t.advance c = u at ha hadv
  constructor
  case op => rw [State.op, ha.o]; rfl
  case next => rw [ha.o, hq]
  case wave => rw [hop, hw]
  case core => rw [hop, hcore]
  case pc => rw [hop, hpc]
  case pos => rw [hop]
  case flags => rw [hop, hf]
  case pending => rw [hop, hd]
  case po => rw [hadv, hown]
  case counts =>
    intro n
    rw [show (u.wave c.w).flag n = (t.wave c.w).flag n by rw [hadv]; rfl, hfl, hf]
    simp
end

end Sys2Proof.Machine
end

section
/-! SUPPORT. Requests of a bundle that pass their checks (R191), and the words that issue them: ULD and UST (R198), JTAB (R174). -/

set_option Elab.async false

namespace Sys2Proof.Machine

open Sys2Proof Sys2Proof.Safety

theorem lanesOf_zero : lanesOf 0#32 = [] := by decide +kernel

theorem lanesOf_isEmpty {m : Mask} (h : m ≠ 0#32) : (lanesOf m).isEmpty = false := by
  rw [List.isEmpty_eq_false_iff]
  intro hnil
  refine h (BitVec.eq_of_getLsbD_eq fun l _ => ?_)
  have hl := contains_lanesOf m l
  rw [hnil] at hl
  exact hl.symm.trans (by simp)

theorem State.full_eq_false {s : State} {c : Cx} {load : Bool} (hw : s.windowFull (coreOf c.w) = false) (hf : (s.wave c.w).flag (c.b.cl.flagFor load) < 255) :
    s.full c (c.flags load) = false := by
  have : ¬ 255 ≤ (s.wave c.w).flag (c.b.cl.flagFor load) := by omega
  simp [State.full, State.flagsFull, Cx.flags, hw, this]

/-- The part of a request outside CLM and without a scale whose access passes. -/
def Req.part (r : Req) (a : Access) (own : Bool) : Part :=
  { va := r.va, pa := a.pa, size := r.size, dom := a.dom, cache := a.cache, task := a.task && own, data := r.data, data2 := r.data2 }

/-- R191. -/
theorem State.checkReq_ok {s : State} {ag : Agent} {r : Req} {a : Access} (scratch : Nat) (hclm : r.clm = false) (hscale : r.scale = none)
    (h : s.check ag r.need r.va r.align = .ok a) :
    s.checkReq ag scratch r = .ok (r.part a ((ag.wave.map fun w => (s.wave w).taskWave).getD false)) := by
  simp only [State.checkReq, hclm, h, hscale, Bool.false_eq_true, if_false, Req.part]

/-- R191: every lane passes. -/
theorem checkLanes_ok {ls : List Nat} {chk : Nat → ReqChk} {p : Nat → Part} (h : ∀ l ∈ ls, chk l = .ok (p l)) :
    checkLanes ls chk = { parts := ls.map fun l => { p l with lane := l, lanes := 1#32 <<< l } } := by
  unfold checkLanes
  suffices ∀ r : LaneChk, ls.foldl (fun r l => match chk l with
      | .ok p => { r with parts := r.parts ++ [{ p with lane := l, lanes := 1#32 <<< l }] }
      | .bad f => { r with bad := r.bad ++ [(l, f)] }
      | .walk va n => { r with walk := r.walk <|> some (l, va, n) }) r = { r with parts := r.parts ++ ls.map fun l => { p l with lane := l, lanes := 1#32 <<< l } } from
    (this {}).trans (by simp)
  induction ls with
  | nil => intro r; simp
  | cons l ls ih =>
    intro r
    rw [List.foldl_cons, h l (by simp), ih (fun k hk => h k (by simp [hk]))]
    simp

section
variable {s : State} {c : Cx}

/-- R198: the access of ULD and UST is issued as one part for the bundle. -/
theorem State.uniformMem_ok {load : Bool} {z d a imm : Nat} {k : Access} (hw : s.windowFull (coreOf c.w) = false)
    (hf : (s.wave c.w).flag (c.b.cl.flagFor load) < 255)
    (hk : s.check { s.agentOf c.w with joint := c.x.taskWave } (if load then .load else .store) (c.x.spair a + BitVec.ofNat 64 (imm * z)) z = .ok k) :
    ∃ p : Part, (p.pa = k.pa ∧ p.size = z ∧ p.clm = false ∧ p.reg = d ∧ (load = false → p.data = c.x.sregsVal d (z / 4))) ∧
      s.uniformMem c load z d a imm = (s.issueRel [c.w] { wave := c.w, core := coreOf c.w, pc := c.pc, cls := if load then .pl else .pw,
                                                          kind := if load then .uld else .ust, flags := c.flags load, parts := [p] }).advance c := by
  unfold State.uniformMem
  rw [State.full_eq_false hw hf]
  simp only [Bool.false_eq_true, if_false]
  rw [State.checkReq_ok 0 rfl rfl hk]
  exact ⟨_, ⟨rfl, rfl, rfl, rfl, fun h => by simp [h, Part.to, Req.part]⟩, rfl⟩

/-- R174: the table reads of the active lanes are issued and the bundle stalls on them. -/
theorem State.jtabIssue_ok {a : Ext} {b : Nat} {at_ : Nat → Access} (hact : c.act ≠ 0#32) (hw : s.windowFull (coreOf c.w) = false)
    (hat : ∀ l, hasLane c.act l = true → s.check (s.agentOf c.w) .load (s.extVal64 c.w c.b a l + BitVec.ofNat 64 (4 * (c.x.vreg b l).toNat)) 4 = .ok (at_ l)) :
    ∃ ps : List Part, ps.map (fun p => (p.lane, p.pa, p.size)) = (lanesOf c.act).map (fun l => (l, (at_ l).pa, 4)) ∧
      s.jtabIssue c a b = ((s.issueOp [c.w] { wave := c.w, core := coreOf c.w, pc := c.pc, kind := .jtab, parts := ps }).2).stall c (.op s.o.next) := by
  unfold State.jtabIssue
  dsimp only
  rw [lanesOf_isEmpty hact, hw]
  simp only [Bool.false_eq_true, if_false]
  rw [checkLanes_ok fun l hl => State.checkReq_ok 0 rfl rfl (hat l (mem_lanesOf.mp hl))]
  refine ⟨_, ?_, rfl⟩
  simp only [List.map_map]
  rfl
/-- R152: a bundle that stalls changes nothing of its wave but the bundle itself. -/
theorem State.stall_wave (s : State) (c : Cx) (why : Stall) : (s.stall c why).wave c.w =
    { s.wave c.w with bundles := (s.wave c.w).bundles.map fun k => if k.lanes == c.b.lanes then { c.b with stall := why, age := 0 } else k } :=
  State.modWave_wave_self ..

theorem outside_stall (s : State) (c : Cx) (why : Stall) : OutsideWaves [c.w] s (s.stall c why) := OutsideWaves.modWave s c.w _

/-- R198: each of the four words is `State.uniformMem` of its size. -/
theorem exec_uniform {load : Bool} {z d a imm : Nat} {i : Instr} (hi : (load = true ∧ z = 4 ∧ i = .uldB32 d a imm) ∨ (load = true ∧ z = 8 ∧ i = .uldB64 d a imm) ∨
    (load = false ∧ z = 4 ∧ i = .ustB32 d a imm) ∨ (load = false ∧ z = 8 ∧ i = .ustB64 d a imm)) (s : State) :
    exec i s = .next (s.run (uniformPre i.illegal.isSome load z d a) fun c s => s.uniformMem c load z d a imm) := by
  rcases hi with ⟨rfl, rfl, rfl⟩ | ⟨rfl, rfl, rfl⟩ | ⟨rfl, rfl, rfl⟩ | ⟨rfl, rfl, rfl⟩ <;> rfl
end

end Sys2Proof.Machine

open Sys2Proof Sys2Proof.Machine Sys2Proof.Safety

/-- Settles O13: the accesses pass, `State.uniformMem_ok` and `State.jtabIssue_ok` say what is issued, and `Enters` what an issue leaves. -/
theorem uniformMemoryWords : Obligations.UniformMemoryWords := by
  unfold Obligations.UniformMemoryWords
  refine ⟨?_, ?_⟩
  · intro load z d a imm i s c hi hready hwin hflag k hk
    obtain ⟨p, ⟨hpa, hsize, hclm, hreg, hdata⟩, hissue⟩ := State.uniformMem_ok (d := d) hwin hflag hk
    have he : exec i s = .next (s.uniformMem c load z d a imm) := by
      rw [exec_uniform hi, hready.legal, State.run_ready hready rfl]
    rw [hissue] at he
    have h := enters_issueRel s (o := { wave := c.w, core := coreOf c.w, pc := c.pc, cls := if load then .pl else .pw, kind := if load then .uld else .ust,
                                        flags := c.flags load, parts := [p] }) rfl (.inr ⟨_, rfl⟩)
    refine ⟨_, _, { p with rel := relState (s.wave c.w).frel (if load then .pl else .pw) p }, he, h.issueFrame, h.moved (State.cx_hold hready.issuing), h.issued rfl rfl rfl rfl rfl, ?_, ?_, hpa, hsize, hclm, hreg, hdata⟩
    · exact congrArg Op.kind h.op
    · exact congrArg Op.parts h.op
  · intro cnt a b s c hready hidx
    have he : exec (.jtab cnt a b) s = .next (s.jtabIssue c a b) := by
      have hin : c.tableOut cnt b = 0#32 := Cx.tableOut_eq fun l => by
        rw [show hasLane 0#32 l = false from BitVec.getLsbD_zero]
        by_cases hl : hasLane c.act l = true
        · simpa [hl] using hidx l hl
        · simp [hl]
      rw [exec_jtab, execJtab, hready.legal, State.run_ready hready rfl _ _ (by rw [hin]; rfl)]
    refine ⟨fun hact => ?_, fun hact hwin at_ hat => ?_⟩
    · have hleave : s.jtabIssue c a b = s.leave c fun _ => c.pc + 4#64 := by
        unfold State.jtabIssue
        rw [hact, lanesOf_zero]
        rfl
      rw [hleave] at he
      exact ⟨_, he, OutsideWaves.modWave s c.w _, State.leave_wave s c _, left_leave s c (State.cx_hold hready.issuing) _⟩
    · obtain ⟨ps, hps, hissue⟩ := State.jtabIssue_ok hact hwin hat
      have h := enters_issueOp s (w := c.w) (o := { wave := c.w, core := coreOf c.w, pc := c.pc, kind := .jtab, parts := ps }) (.inl rfl)
      have hout := outside_stall (s.issueOp [c.w] { wave := c.w, core := coreOf c.w, pc := c.pc, kind := .jtab, parts := ps }).2 c (.op s.o.next)
      have hwave := State.stall_wave (s.issueOp [c.w] { wave := c.w, core := coreOf c.w, pc := c.pc, kind := .jtab, parts := ps }).2 c (.op s.o.next)
      rw [hissue] at he
      have hx := (State.cx_eq hready.issuing).2.1
      refine ⟨_, he, fun k hk => (hout.waves k (by simpa using hk)).trans (h.others k hk), hout.m.trans h.m, ?_, ?_, ?_, fun l => ?_, ?_, ?_⟩
      · rw [hout.o, h.queues]
      · rw [State.op, hout.o]
        exact congrArg Op.kind h.op
      · rw [State.op, hout.o]
        exact (congrArg (fun o : Op => o.parts.map fun p => (p.lane, p.pa, p.size)) h.op).trans hps
      · rw [hwave, h.own, hx]
        rfl
      · rw [hwave, h.own, hx]
      · rw [hwave, h.own, hx]
end

section
/-! SUPPORT. Cache maintenance over a range (R208, R210) and the instruction prefetch (R211, R213). -/

set_option Elab.async false

namespace Sys2Proof.Machine

open Sys2Proof Sys2Proof.Safety

/-- R208: the lines of a range start at the line of its first byte. -/
theorem aligned64_eq (v : DWord) : v &&& ~~~63#64 = aligned64 v := by
  have hlow : ∀ i < 64, (~~~63#64).getLsbD i = decide (6 ≤ i) := by decide
  have hdiv : v.toNat / 64 * 64 = (v.toNat >>> 6) <<< 6 := by rw [Nat.shiftRight_eq_div_pow, Nat.shiftLeft_eq]
  apply BitVec.eq_of_getLsbD_eq
  intro i hi
  rw [BitVec.getLsbD_and, hlow i hi, aligned64, BitVec.getLsbD_ofNat, hdiv, Nat.testBit_shiftLeft, Nat.testBit_shiftRight, ← BitVec.testBit_toNat]
  by_cases h : 6 ≤ i
  · simp [h, hi]
  · simp [h]

theorem rangeLines_pos (base : DWord) {len : Nat} (h : 0 < len) :
    rangeLines base len = (List.range ((base.toNat % 64 + len + 63) / 64)).map fun i => aligned64 base + BitVec.ofNat 64 (64 * i) := by
  rw [rangeLines, if_neg (by simpa using Nat.ne_of_gt h), aligned64_eq]

/-- R208: every line passes. -/
theorem checkRange_ok {chk : DWord → Chk} {f : Nat → DWord} {at_ : Nat → Access} {ks : List Nat} (h : ∀ k ∈ ks, chk (f k) = .ok (at_ k)) (acc : List Access) :
    checkRange chk (ks.map f) acc = .ok (acc.reverse ++ ks.map at_) := by
  induction ks generalizing acc with
  | nil => simp [checkRange]
  | cons k ks ih =>
    rw [List.map_cons, checkRange, h k (by simp)]
    exact (ih (fun j hj => h j (by simp [hj])) _).trans (by simp)

/-- R208: where INVN is refused no line at all, every line lies in a CORE or a DIE region. -/
theorem invnBad_none {as : List Access} (h : ∀ a ∈ as, a.dom = .core ∨ a.dom = .die) : invnBad as = none := by
  rw [invnBad, List.find?_eq_none]
  intro a ha
  rcases h a ha with hd | hd <;> simp [hd]

/-- R208, R210: the four words of a range. -/
theorem exec_maintain {kind : OpKind} {d a b : Nat} {i : Instr}
    (hi : (kind = .wb ∧ i = .wb a b) ∨ (kind = .inv ∧ i = .inv a b) ∨ (kind = .icinv ∧ i = .icinv a b) ∨ (kind = .invn ∧ i = .invn d a b)) :
    ∃ d', (kind = .invn → d' = d) ∧ ∀ s, exec i s = .next (s.run (rangePre i.illegal.isSome a b) fun c s => s.maintain c kind d' a b) := by
  rcases hi with ⟨rfl, rfl⟩ | ⟨rfl, rfl⟩ | ⟨rfl, rfl⟩ | ⟨rfl, rfl⟩
  · exact ⟨0, (nomatch ·), fun _ => rfl⟩
  · exact ⟨0, (nomatch ·), fun _ => rfl⟩
  · exact ⟨0, (nomatch ·), fun _ => rfl⟩
  · exact ⟨d, fun _ => rfl, fun _ => rfl⟩

section
variable {s : State} {c : Cx} {kind : OpKind} {d a b : Nat}

/-- R208: an empty range. -/
theorem State.maintain_empty (h : (c.x.sreg b).toNat = 0) :
    s.maintain c kind d a b = (if kind = .invn then s.modWave c.w fun x => x.setS d 0#32 else s).advance c := by
  unfold State.maintain
  dsimp only
  rw [h, if_neg (by decide), if_pos (by rfl)]
  simp only [beq_iff_eq]

/-- R208: the part of one line. -/
def Cx.linePart (c : Cx) (x : Access) : Part :=
  { wave := c.w, lane := lowest c.b.lanes, lanes := c.b.lanes, va := x.va, pa := x.pa / 64 * 64, size := 64, dom := x.dom, cache := x.cache }

/-- R208: a range whose every line passes. -/
theorem State.maintain_lines {at_ : Nat → Access} (hpos : 0 < (c.x.sreg b).toNat) (hmax : (c.x.sreg b).toNat ≤ 2 ^ 24) (hw : s.windowFull (coreOf c.w) = false)
    (hf : (s.wave c.w).flag c.b.cl.second < 255)
    (hat : ∀ k, k < ((c.x.spair a).toNat % 64 + (c.x.sreg b).toNat + 63) / 64 →
      (if kind = .icinv then s.checkX { s.agentOf c.w with maint := true } (aligned64 (c.x.spair a) + BitVec.ofNat 64 (64 * k))
        else s.check { s.agentOf c.w with maint := true } (if kind = .invn then .store else .load) (aligned64 (c.x.spair a) + BitVec.ofNat 64 (64 * k)) 0)
        = .ok (at_ k) ∧ (kind = .invn → (at_ k).dom = .core ∨ (at_ k).dom = .die)) :
    s.maintain c kind d a b = ((s.issueOp [c.w] { wave := c.w, core := coreOf c.w, pc := c.pc, cls := .pw, kind := kind, flags := c.flags false, reg := d,
                                                   parts := ((List.range (((c.x.spair a).toNat % 64 + (c.x.sreg b).toNat + 63) / 64)).map at_).map c.linePart }).2).advance c := by
  have hlines := checkRange_ok (chk := fun va => if kind == .icinv then s.checkX { s.agentOf c.w with maint := true } va
      else s.check { s.agentOf c.w with maint := true } (if kind == .invn then .store else .load) va 0)
    (f := fun i => aligned64 (c.x.spair a) + BitVec.ofNat 64 (64 * i)) (at_ := at_)
    (ks := List.range (((c.x.spair a).toNat % 64 + (c.x.sreg b).toNat + 63) / 64)) (fun k hk => by
      simpa only [beq_iff_eq] using (hat k (List.mem_range.mp hk)).1) []
  have hdom : (if kind == .invn then invnBad ((List.range (((c.x.spair a).toNat % 64 + (c.x.sreg b).toNat + 63) / 64)).map at_) else none) = none := by
    split
    next hk =>
      refine invnBad_none fun x hx => ?_
      obtain ⟨k, hk', rfl⟩ := List.mem_map.mp hx
      exact (hat k (List.mem_range.mp hk')).2 (by simpa using hk)
    next => rfl
  unfold State.maintain
  dsimp only
  rw [if_neg (by simpa [maxRange] using hmax), if_neg (by simpa using Nat.ne_of_gt hpos), State.full_eq_false (load := false) hw hf, rangeLines_pos _ hpos]
  simp only [Bool.false_eq_true, if_false]
  rw [hlines]
  dsimp only
  rw [List.reverse_nil, List.nil_append, hdom]
  rfl
end

/-! ### The prefetch -/

/-- R211: what a prefetch leaves: waves, teams, launches, operations, and every level of the data caches and memory. -/
structure Fetches (s t : State) : Prop where
  reg : t.reg = s.reg
  waves : t.x.waves = s.x.waves
  teams : t.x.teams = s.x.teams
  grids : t.x.grids = s.x.grids
  groups : t.x.groups = s.x.groups
  ops : t.o.ops = s.o.ops
  l1 : t.m.l1 = s.m.l1
  below : ∀ k, t.below k = s.below k

theorem Fetches.refl (s : State) : Fetches s s := ⟨rfl, rfl, rfl, rfl, rfl, rfl, rfl, fun _ => rfl⟩

theorem Fetches.trans {s t u : State} (h : Fetches s t) (k : Fetches t u) : Fetches s u where
  reg := k.reg.trans h.reg
  waves := k.waves.trans h.waves
  teams := k.teams.trans h.teams
  grids := k.grids.trans h.grids
  groups := k.groups.trans h.groups
  ops := k.ops.trans h.ops
  l1 := k.l1.trans h.l1
  below j := (k.below j).trans (h.below j)

theorem Asked.fetches {s t : State} (h : Asked s t) : Fetches s t :=
  ⟨h.reg, by rw [h.x], by rw [h.x], by rw [h.x], by rw [h.x], by rw [h.o], h.l1, h.below⟩

theorem setIc_fetches (s : State) (die line : Nat) (x : Line) : Fetches s (s.setIc die line x) :=
  ⟨rfl, rfl, rfl, rfl, rfl, rfl, rfl, fun _ => rfl⟩

theorem prefetch_fetches (c : Cx) (ls : List DWord) (s : State) : Fetches s (s.prefetch c ls) := by
  induction ls generalizing s with
  | nil => exact .refl s
  | cons va rest ih =>
    unfold State.prefetch
    split
    next a _ =>
      dsimp only
      split
      · exact ((askGo_asked s _).fetches.trans (setIc_fetches ..)).trans (ih _)
      · refine Fetches.trans ?_ (ih _)
        exact ⟨rfl, rfl, rfl, rfl, rfl, rfl, rfl, fun _ => rfl⟩
    next => exact .refl s

theorem Fetches.keepsMemory {s t : State} (h : Fetches s t) : KeepsMemory s t := fun a => by
  rw [readPhys_byte, readPhys_byte,
    lineVal_of (s := s) (t := t) (a / 64) (owner_congr h.l1 _) (fun c _ => l1Line_congr h.l1 c _) (by rw [h.below])]

theorem Fetches.wave {s t : State} (h : Fetches s t) (k : Nat) : t.wave k = s.wave k := by
  unfold State.wave
  rw [h.waves]

end Sys2Proof.Machine

open Sys2Proof Sys2Proof.Machine Sys2Proof.Safety

/-- Settles O18: `State.maintain_lines` says what a maintenance word issues and `Enters` what the issue leaves; `prefetch_fetches` is the frame of PFI. -/
theorem cacheWordsIssue : Obligations.CacheWordsIssue := by
  unfold Obligations.CacheWordsIssue
  refine ⟨fun kind d a b i s c hi hready => ?_, fun a b s c hready => ?_⟩
  · obtain ⟨d', hd, hexec⟩ := exec_maintain hi
    have hx := (State.cx_eq hready.issuing).2.1
    have he : exec i s = .next (s.maintain c kind d' a b) := by
      rw [hexec, hready.legal, State.run_ready hready rfl]
    refine ⟨fun hlen => ?_, fun hpos hmax hwin hflag at_ hat => ?_⟩
    · rw [State.maintain_empty hlen] at he
      by_cases hk : kind = .invn
      · rw [if_pos hk] at he
        obtain ⟨hout, hmoved, hplace⟩ := modWave_advance hready.issuing (f := fun x => x.setS d' 0#32) rfl rfl
        refine ⟨_, he, hout, hmoved, hplace.uniformRegsOnly, fun n => ?_⟩
        rw [hplace.sreg, Wave.setS_sreg, hd hk, hx]
        simp only [hk, true_and]
      · rw [if_neg hk] at he
        have hplace := State.advance_wave s c
        refine ⟨_, he, outside_advance s c, moved_advance s c (State.cx_hold hready.issuing), PlaceOnly.uniformRegsOnly (m := (s.wave c.w).s) hplace, fun n => ?_⟩
        rw [PlaceOnly.sreg hplace, hx]
        simp only [hk, false_and, if_false]
    · rw [State.maintain_lines hpos hmax hwin hflag hat] at he
      have h := enters_issueOp s (w := c.w) (o :=
        { wave := c.w, core := coreOf c.w, pc := c.pc, cls := .pw, kind := kind, flags := c.flags false, reg := d',
          parts := ((List.range (((c.x.spair a).toNat % 64 + (c.x.sreg b).toNat + 63) / 64)).map at_).map c.linePart }) (.inr ⟨_, rfl⟩)
      refine ⟨_, _, he, h.issueFrame, h.moved (State.cx_hold hready.issuing), h.issued rfl rfl rfl rfl rfl, congrArg Op.kind h.op, ?_⟩
      rw [congrArg Op.parts h.op, List.map_map, List.map_map]
      rfl
  · have hfetch : Fetches s (if maxRange < (c.x.sreg b).toNat then s else s.prefetch c (rangeLines (c.x.spair a) (c.x.sreg b).toNat)) := by
      split
      · exact .refl s
      · exact prefetch_fetches ..
    have he : exec (.pfi a b) s =
        .next ((if maxRange < (c.x.sreg b).toNat then s else s.prefetch c (rangeLines (c.x.spair a) (c.x.sreg b).toNat)).advance c) := by
      rw [exec_pfi, execPfi, hready.legal, State.run_ready hready rfl]
    generalize (if maxRange < (c.x.sreg b).toNat then s else s.prefetch c (rangeLines (c.x.spair a) (c.x.sreg b).toNat)) = u at he hfetch
    have hout := outside_advance u c
    have hwave := hfetch.wave c.w
    refine ⟨_, he, hwave ▸ moved_advance u c (State.cx_hold hready.issuing), hwave ▸ State.advance_wave u c, fun k hk => ?_, fun k => ?_, fun k => ?_, ?_, ?_, ?_, ?_⟩
    · rw [hout.waves k (by simpa using hk), hfetch.wave]
    · exact hfetch.keepsMemory k
    · rw [State.op, hout.o, hfetch.ops]; rfl
    · rw [hout.reg, hfetch.reg]
    · rw [hout.teams, hfetch.teams]
    · rw [hout.grids, hfetch.grids]
    · rw [hout.groups, hfetch.groups]
end

section
/-! SUPPORT. Entries leave the reorder window (R236, R237, R241): what the checks and a containment leave of the machine. -/

set_option Elab.async false

namespace Sys2Proof.Machine

open Sys2Proof Sys2Proof.Safety

/-- R237, R241: as entries leave, registers, places and teams stand, and every byte of memory keeps its value; a wave changes only in that its
provisional releases are discarded. -/
structure Leaves (s t : State) : Prop where
  reg : t.reg = s.reg
  teams : t.x.teams = s.x.teams
  wave : ∀ w, t.wave w = { s.wave w with discard := (t.wave w).discard }
  bytes : KeepsMemory s t

theorem Leaves.refl (s : State) : Leaves s s := ⟨rfl, rfl, fun _ => rfl, fun _ => rfl⟩

theorem Leaves.trans {s t u : State} (h : Leaves s t) (k : Leaves t u) : Leaves s u where
  reg := k.reg.trans h.reg
  teams := k.teams.trans h.teams
  wave w := by
    have hk := k.wave w
    rw [h.wave w] at hk
    exact hk
  bytes a := (k.bytes a).trans (h.bytes a)

theorem Leaves.of_waves {s t : State} (hreg : t.reg = s.reg) (hteams : t.x.teams = s.x.teams) (hwaves : t.x.waves = s.x.waves) (hm : t.m = s.m) : Leaves s t where
  reg := hreg
  teams := hteams
  wave w := by
    have h : t.wave w = s.wave w := by
      unfold State.wave
      rw [hwaves]
    rw [h]
  bytes a := by
    rw [readPhys_byte, readPhys_byte, lineVal_of (s := s) (t := t) (a / 64) (owner_congr (by rw [hm]) _) (fun c _ => l1Line_congr (by rw [hm]) c _)
      (by rw [below_congr (s := s) (t := t)] <;> rw [hm])]

theorem setOp_leaves (s : State) (id : Nat) (o : Op) : Leaves s (s.setOp id o) := .of_waves rfl rfl rfl rfl

theorem modPart_leaves (s : State) (id i : Nat) (f : Part → Part) : Leaves s (s.modPart id i f) := setOp_leaves s id _

theorem setCore_leaves (s : State) (n : Nat) (k : Core) : Leaves s (s.setCore n k) := .of_waves rfl rfl rfl rfl

theorem stamp_leaves (s : State) (id i : Nat) (m : Option Nat) : Leaves s (s.stamp id i m) := by
  unfold State.stamp
  cases m with
  | none => exact (setCore_leaves s _ _).trans (modPart_leaves _ id i _)
  | some n => exact (setCore_leaves s _ _).trans (modPart_leaves _ id i _)

theorem sweepOps_leaves (s : State) : Leaves s s.sweepOps := .of_waves rfl rfl rfl rfl

theorem discardWave_leaves (s : State) (w : Nat) : Leaves s (s.modWave w fun x => { x with discard := true }) where
  reg := rfl
  teams := rfl
  wave k := by
    rw [State.modWave_wave]
    split
    next h => rw [h]
    next => rfl
  bytes _ := rfl

/-- R241: the writes of discarded releases leave co: no byte has taken their data. -/
theorem discardRels_leaves (s : State) (qs : List (Nat × Nat)) : Leaves s (s.discardRels qs) := by
  have hprov : Leaves s { s with m := { s.m with prov := s.m.prov.filter fun q => !qs.contains (q.op, q.part) } } :=
    ⟨rfl, rfl, fun _ => rfl, fun a => by rw [readPhys_byte, readPhys_byte]; rfl⟩
  refine hprov.trans (foldl_rel Leaves.refl Leaves.trans _ qs (fun u e _ => ?_) _)
  exact (modPart_leaves u e.1 e.2 _).trans (foldl_rel Leaves.refl Leaves.trans _ _ (fun v k _ => discardWave_leaves v k.1) _)

/-- R33, R241: a poisoned line keeps its data. -/
theorem poisonLine_leaves (s : State) (line : Nat) : Leaves s (s.poisonLine line) where
  reg := (poisonLine_only s line).reg
  teams := by rw [(poisonLine_only s line).x]
  wave w := by
    have h : (s.poisonLine line).wave w = s.wave w := by
      unfold State.wave
      rw [(poisonLine_only s line).x]
    rw [h]
  bytes a := by
    have hline : ∀ k, ((s.poisonLine line).lineVal k).1 = ((s.recall line none).lineVal k).1 := fun k => by
      unfold State.poisonLine
      dsimp only
      generalize s.recall line none = u
      split
      next hv =>
        refine lineVal_of k (owner_congr rfl k) (fun c _ => l1Line_congr rfl c k) ?_
        by_cases hk : k = line
        · subst hk
          simp [State.below, llcLine_setLlc, hv]
        · rw [below_setLlc _ _ _ _ hk]
      next => 
        refine lineVal_of k (owner_congr rfl k) (fun c _ => l1Line_congr rfl c k) ?_
        simp only [State.below]
        rw [show (u.poisonHome line).llcLine k = u.llcLine k from rfl]
        split <;> rfl
    rw [readPhys_byte, readPhys_byte, hline, (recall_spec s line).1]

theorem modTenant_leaves (s : State) (n : Nat) (f : Tenant → Tenant) : Leaves s (s.modTenant n f) := .of_waves rfl rfl rfl rfl

theorem withGroups_leaves (s : State) (gs : List Group) : Leaves s { s with x := { s.x with groups := gs } } := .of_waves rfl rfl rfl rfl

theorem postViolation_leaves (s : State) (g : Group) (checker : Nat) (r : List Byte) : Leaves s (s.postViolation g checker r) := by
  unfold State.postViolation
  dsimp only
  exact ((modTenant_leaves s g.tenant _).trans (modTenant_leaves _ g.tenant _)).trans (withGroups_leaves ..)

theorem containReorder_leaves (s : State) (w eid lid : Nat) (pe pl : Part) (scope : Dom) : Leaves s (s.containReorder w eid lid pe pl scope) := by
  unfold State.containReorder
  dsimp only
  refine .trans ?_ (postViolation_leaves ..)
  split
  · exact (discardRels_leaves ..).trans (poisonLine_leaves ..)
  · exact discardRels_leaves ..

theorem checkLeaving_leaves (s : State) (w eid : Nat) : Leaves s (s.checkLeaving w eid) := by
  unfold State.checkLeaving
  refine foldl_rel Leaves.refl Leaves.trans _ _ (fun u lid _ => ?_) s
  dsimp only
  split
  · exact .refl u
  · exact containReorder_leaves ..

theorem leaveWindow_leaves (w n : Nat) (s : State) : Leaves s (s.leaveWindow w n) := by
  induction n generalizing s with
  | zero => exact .refl s
  | succ n ih =>
    unfold State.leaveWindow
    split
    · exact .refl s
    · split
      · exact ((checkLeaving_leaves s w _).trans (setOp_leaves ..)).trans (ih _)
      · exact .refl s

theorem afterPerform_leaves (s : State) (id : Nat) : Leaves s (s.afterPerform id) := by
  unfold State.afterPerform
  exact (foldl_rel Leaves.refl Leaves.trans _ _ (fun u e _ => leaveWindow_leaves e.1 256 u) s).trans (sweepOps_leaves _)

end Sys2Proof.Machine
end

section
/-! SUPPORT. An event without location (R207, R222, R232): it is issued, performs at once and leaves the window; where no other operation stands in its
wave's program order, nothing is checked. -/

set_option Elab.async false

namespace Sys2Proof.Machine

open Sys2Proof Sys2Proof.Safety

theorem SMap.insert_insert {α : Type} (m : SMap α) (k : Nat) (x y : α) : SMap.insert (SMap.insert m k x) k y = SMap.insert m k y := by
  induction m with
  | nil => simp [SMap.insert]
  | cons e rest ih =>
    obtain ⟨j, v⟩ := e
    by_cases h : k < j
    · simp [SMap.insert, h]
    · by_cases hk : k = j
      · simp [SMap.insert, hk]
      · simp [SMap.insert, h, hk, ih]

theorem SMap.get_foldl_set {α : Type} [DecidableEq α] (d x : α) (ls : List Nat) (m : SMap α) {l : Nat} (hl : l ∈ ls) :
    SMap.get d (ls.foldl (fun m l => SMap.set d m l x) m) l = x := by
  suffices ∀ m : SMap α, SMap.get d (ls.foldl (fun m l => SMap.set d m l x) m) l = if l ∈ ls then x else SMap.get d m l from
    (this m).trans (if_pos hl)
  clear hl m
  induction ls with
  | nil => intro m; simp
  | cons k ks ih =>
    intro m
    rw [List.foldl_cons, ih, SMap.get_set]
    by_cases h : l = k <;> simp [h]

/-- One operation, `id`, stands in the program order of wave `w`, whatever else is outstanding. -/
def Solo (w id : Nat) (s : State) : Prop :=
  ∃ (m : SMap Op) (o : Op), s.o.ops = SMap.insert m id o ∧ o.pos ≠ [] ∧ ∀ e ∈ m, e.2.poIn w = none

section
variable {w id : Nat} {s : State}

theorem Solo.mem (h : Solo w id s) {e : Nat × Op} (he : e ∈ s.o.ops) : e = (id, s.op id) ∨ e.2.poIn w = none := by
  obtain ⟨m, o, hm, -, hq⟩ := h
  rw [hm] at he
  rcases SMap.mem_insert he with rfl | he
  · exact .inl (by rw [State.op, hm, SMap.get_insert, if_pos rfl])
  · exact .inr (hq e he)

theorem Solo.pos (h : Solo w id s) : (s.op id).pos ≠ [] := by
  obtain ⟨m, o, hm, ho, -⟩ := h
  rw [State.op, hm, SMap.get_insert, if_pos rfl]
  exact ho

theorem Solo.setOp (h : Solo w id s) {o : Op} (ho : o.pos ≠ []) : Solo w id (s.setOp id o) := by
  obtain ⟨m, o', hm, -, hq⟩ := h
  refine ⟨m, o, ?_, ho, hq⟩
  have hne : o ≠ {} := fun h => ho (by rw [h])
  show SMap.set {} s.o.ops id o = _
  rw [SMap.set, if_neg hne, hm, SMap.insert_insert]

theorem Solo.oldest (h : Solo w id s) {k : Nat} (hk : s.oldest w = some k) : k = id := by
  unfold State.oldest at hk
  obtain ⟨p, hp, rfl⟩ := Option.map_eq_some_iff.mp hk
  have hmem : ∀ e ∈ s.o.ops, e.1 = id ∨ e.2.poIn w = none := fun e he => (h.mem he).imp (congrArg Prod.fst) fun h => h
  generalize s.o.ops = ops at hp hmem
  suffices ∀ b : Option (Nat × Nat), (∀ q ∈ b, q.1 = id) → ∀ q ∈ ops.foldl (fun (b : Option (Nat × Nat)) e => match e.2.poIn w with
      | none => b
      | some p =>
        if e.2.left.contains w then b
        else match b with
          | none => some (e.1, p)
          | some k => if poBefore p k.2 then some (e.1, p) else b) b, q.1 = id from
    this none (fun _ h => by cases h) p hp
  clear hp hk h
  induction ops with
  | nil => exact fun _ hb => hb
  | cons e ops ih =>
    intro b hb
    rw [List.foldl_cons]
    refine ih (fun e he => hmem e (List.mem_cons_of_mem _ he)) _ ?_
    rcases hmem e List.mem_cons_self with he | he
    · intro q hq
      cases hpo : e.2.poIn w with
      | none => rw [hpo] at hq; exact hb q hq
      | some n =>
        rw [hpo] at hq
        dsimp only at hq
        split at hq
        · exact hb q hq
        · split at hq
          · cases hq; exact he
          · split at hq
            · cases hq; exact he
            · exact hb q hq
    · rw [he]
      exact hb

/-- R237: no entry of the wave is later than its only one. -/
theorem Solo.checkLeaving (h : Solo w id s) : s.checkLeaving w id = s := by
  unfold State.checkLeaving
  dsimp only
  rw [List.filter_eq_nil_iff.mpr, List.map_nil, List.foldl_nil]
  intro e he
  rcases h.mem he with rfl | hn
  · cases hp : (s.op id).poIn w with
    | none => simp
    | some p => simp [poBefore]
  · simp [hn]

theorem Solo.leaveWindow (h : Solo w id s) (n : Nat) : ∃ q : Pending, s.leaveWindow w n = { s with o := q } := by
  induction n generalizing s with
  | zero => exact ⟨s.o, rfl⟩
  | succ n ih =>
    unfold State.leaveWindow
    split
    · exact ⟨s.o, rfl⟩
    next k hk =>
      obtain rfl := h.oldest hk
      split
      · dsimp only
        rw [h.checkLeaving]
        obtain ⟨q, hq⟩ := ih (h.setOp (o := { s.op k with left := w :: (s.op k).left }) h.pos)
        exact ⟨q, hq⟩
      · exact ⟨s.o, rfl⟩

theorem Solo.afterPerform (h : Solo w id s) {po : Nat} (hpos : (s.op id).pos = [(w, po)]) : ∃ q : Pending, s.afterPerform id = { s with o := q } := by
  unfold State.afterPerform
  obtain ⟨q, hq⟩ := h.leaveWindow 256
  rw [hpos, List.foldl_cons, List.foldl_nil, hq]
  exact ⟨_, rfl⟩
end

/-! ### What an event leaves -/

/-- R222: the operation of an event in the program order of one wave. -/
def eventOp (w : Nat) (lanes : Mask) (cls : Cls) (dom : Dom) (kind : OpKind) (pc : DWord) : Op :=
  { wave := w, core := coreOf w, pc := pc, cls := cls, kind := kind, done := true, parts := [{ wave := w, lanes := lanes, dom := dom }] }

section
variable {w : Nat} {o : Op}

/-- R82: an operation that counts on no flag moves the program order on and changes nothing else of its wave. -/
theorem State.issueOp_wave (s : State) (h : o.flags = []) : (s.issueOp [w] o).2.wave w = { s.wave w with po := ((s.wave w).po + 1) % 2 ^ 32 } := by
  unfold State.issueOp
  rw [State.takePos_one]
  dsimp only
  rw [h]
  show (s.modWave w fun x => { x with po := (x.po + 1) % 2 ^ 32 }).wave w = _
  rw [State.modWave_wave_self]

theorem solo_issueOp {s : State} (hq : quiet s w) (h : o.flags = []) : Solo w s.o.next (s.issueOp [w] o).2 := by
  unfold State.issueOp
  rw [State.takePos_one]
  dsimp only
  rw [h]
  refine ⟨s.o.ops, _, if_neg fun hdef => ?_, ?_, hq⟩
  · cases congrArg Op.pos hdef
  · exact List.cons_ne_nil _ _

/-- R230: a stamp moves the core's clock and keeps where the operation stands. -/
theorem State.stamp_frame (s : State) (id i : Nat) :
    (s.stamp id i none).m = s.m ∧ (s.stamp id i none).pk = s.pk ∧ (s.stamp id i none).reg = s.reg ∧ ((s.stamp id i none).op id).pos = (s.op id).pos := by
  unfold State.stamp State.modPart
  refine ⟨rfl, rfl, rfl, ?_⟩
  rw [State.setOp_op_self]
  rfl

theorem Solo.stamp {id : Nat} {s : State} (h : Solo w id s) (i : Nat) : Solo w id (s.stamp id i none) := by
  unfold State.stamp State.modPart
  dsimp only [State.tickLt]
  exact Solo.setOp (s := s.setCore (s.op id).core _) h h.pos
end

section
variable (s : State) (w : Nat) (lanes : Mask) (cls : Cls) (dom : Dom) (kind : OpKind) (pc : DWord)

theorem State.noteEvent_one : s.noteEvent [w] lanes cls dom kind .lane pc =
    (((s.issueOp [w] (eventOp w lanes cls dom kind pc)).2).stamp s.o.next 0 none).afterPerform s.o.next := rfl

/-- R207, R232: what an event changes of its wave. -/
theorem State.noteEvent_wave : (s.noteEvent [w] lanes cls dom kind .lane pc).wave w =
    { s.wave w with po := ((s.wave w).po + 1) % 2 ^ 32, discard := ((s.noteEvent [w] lanes cls dom kind .lane pc).wave w).discard } := by
  rw [State.noteEvent_one]
  have h := ((stamp_leaves (s.issueOp [w] (eventOp w lanes cls dom kind pc)).2 s.o.next 0 none).trans (afterPerform_leaves _ s.o.next)).wave w
  rw [State.issueOp_wave s rfl] at h
  exact h

/-- R237: an event of a wave with nothing outstanding leaves its window unchecked. -/
theorem State.noteEvent_quiet (hq : quiet s w) :
    (s.noteEvent [w] lanes cls dom kind .lane pc).m = s.m ∧ (s.noteEvent [w] lanes cls dom kind .lane pc).pk = s.pk ∧
      (s.noteEvent [w] lanes cls dom kind .lane pc).reg = s.reg := by
  rw [State.noteEvent_one]
  have he := enters_issueOp s (w := w) (o := eventOp w lanes cls dom kind pc) (.inl rfl)
  have hsolo := solo_issueOp (o := eventOp w lanes cls dom kind pc) hq rfl
  have hop := congrArg Op.pos he.op
  generalize (s.issueOp [w] (eventOp w lanes cls dom kind pc)).2 = u at he hsolo hop
  obtain ⟨hm, hpk, hreg, hpos⟩ := State.stamp_frame u s.o.next 0
  obtain ⟨q, hq⟩ := (hsolo.stamp 0).afterPerform (hpos.trans hop)
  rw [hq]
  exact ⟨hm.trans he.m, hpk.trans he.pk, hreg.trans he.reg⟩
end

end Sys2Proof.Machine
end

section
/-! SUPPORT. The fences (R207, R217). -/

set_option Elab.async false

namespace Sys2Proof.Machine

open Sys2Proof Sys2Proof.Safety

/-- R217: what FENCE.REL and FENCE.AR leave in the wave: the next write of each lane is a release at the fence's scope. -/
def armRelease (m : Mask) (dom : Dom) (x : Wave) : Wave :=
  { x with frel := x.frel ||| m, frelDom := (lanesOf m).foldl (fun d l => SMap.set .package d l dom) x.frelDom }

/-- R207: a fence whose ordering is met. -/
theorem State.fence_ok {s : State} {c : Cx} {cls : Cls} {a : Nat} (kind : OpKind) (hcan : canonical (c.x.spair a) = true) (hw : s.windowFull (coreOf c.w) = false)
    (hmay : s.mayPerform { w := c.w, lanes := c.b.lanes, cls := cls, dom := (s.regionOf (some (coreOf c.w)) c.g.asid (c.x.spair a)).dom, po := c.x.po, part := {}, fence := true } = true) :
    s.fence c cls kind a =
      (if cls = .fa then s.noteEvent [c.w] c.b.lanes cls (s.regionOf (some (coreOf c.w)) c.g.asid (c.x.spair a)).dom kind .lane c.pc
        else (s.noteEvent [c.w] c.b.lanes cls (s.regionOf (some (coreOf c.w)) c.g.asid (c.x.spair a)).dom kind .lane c.pc).modWave c.w
          (armRelease c.b.lanes (s.regionOf (some (coreOf c.w)) c.g.asid (c.x.spair a)).dom)).advance c := by
  unfold State.fence
  simp only [hcan, hw, hmay, Bool.not_true, Bool.or_self, Bool.false_eq_true, if_false, beq_iff_eq]
  rfl

/-- R207: the three fences by their class. -/
theorem exec_fence {cls : Cls} {a : Nat} {i : Instr} (hi : (cls = .fa ∧ i = .fenceAcq a) ∨ (cls = .fr ∧ i = .fenceRel a) ∨ (cls = .fb ∧ i = .fenceAr a)) :
    ∃ kind, ∀ s, exec i s = .next (s.run (fun _ => { bad := i.illegal.isSome, reads := [(.s, a), (.s, a + 1)] }) fun c s => s.fence c cls kind a) := by
  rcases hi with ⟨rfl, rfl⟩ | ⟨rfl, rfl⟩ | ⟨rfl, rfl⟩
  · exact ⟨.fenceAcq, fun _ => rfl⟩
  · exact ⟨.fenceRel, fun _ => rfl⟩
  · exact ⟨.fenceAr, fun _ => rfl⟩

end Sys2Proof.Machine

open Sys2Proof Sys2Proof.Machine Sys2Proof.Safety

/-- Settles O17: the fence is an event of its wave (`State.noteEvent_wave`, `State.noteEvent_quiet`), and `armRelease` what it leaves for the next write. -/
theorem fenceCompletes : Obligations.FenceCompletes := by
  unfold Obligations.FenceCompletes
  intro cls a i s c hi hready hcan hwin hmay
  obtain ⟨kind, hexec⟩ := exec_fence hi
  have hx := (State.cx_eq hready.issuing).2.1
  have he : exec i s = .next (s.fence c cls kind a) := by
    rw [hexec, hready.legal, State.run_ready hready rfl]
  rw [State.fence_ok kind hcan hwin hmay] at he
  generalize (s.regionOf (some (coreOf c.w)) c.g.asid (c.x.spair a)).dom = dom at he hmay ⊢
  have hnote := State.noteEvent_wave s c.w c.b.lanes cls dom kind c.pc
  have hquiet := State.noteEvent_quiet s c.w c.b.lanes cls dom kind c.pc
  generalize s.noteEvent [c.w] c.b.lanes cls dom kind .lane c.pc = u at he hnote hquiet
  generalize hu : (if cls = .fa then u else u.modWave c.w (armRelease c.b.lanes dom)) = v at he
  have hout : OutsideWaves [c.w] u v := by
    rw [← hu]
    split
    · exact .refl _ u
    · exact .modWave u c.w _
  have hv : v.wave c.w = if cls = .fa then u.wave c.w else armRelease c.b.lanes dom (u.wave c.w) := by
    rw [← hu]
    split
    · rfl
    · exact State.modWave_wave_self ..
  have hwave := State.advance_wave v c
  have hmoved := moved_advance v c (State.cx_hold hready.issuing)
  have hadv := hout.trans (outside_advance v c)
  generalize v.advance c = t at he hwave hmoved hadv
  have hrest : v.wave c.w = { s.wave c.w with po := ((s.wave c.w).po + 1) % 2 ^ 32, discard := (v.wave c.w).discard, frel := (v.wave c.w).frel, frelDom := (v.wave c.w).frelDom } := by
    rw [hv]
    split <;> rw [hnote]
    rfl
  refine ⟨t, he, moved_after hmoved (fun l => by rw [hrest]; rfl) (by rw [hrest]), ?_, ?_, ?_, ?_, ?_, ?_, ?_, fun hq => ?_⟩
  · rw [hwave, hrest, hx]
  · rw [hwave, hrest, hx]
  · rw [hwave, hrest, hx]
  · rw [hwave, hrest, hx]
  · rw [hwave, hrest, hx]
  · rw [hwave, hv, hnote, hx]
    split <;> rfl
  · intro hcls l hl
    rw [hwave, hv, if_neg hcls]
    exact SMap.get_foldl_set _ _ _ _ (mem_lanesOf.mpr hl)
  · obtain ⟨hm, hpk, hreg⟩ := hquiet hq
    exact ⟨hadv.m.trans hm, hadv.pk.trans hpk, hadv.reg.trans hreg⟩
end

section
/-! SUPPORT. What every core sees of memory while a read is under way (R33, R225, R226, R229): another core gives a line up, and requests go. -/

set_option Elab.async false

namespace Sys2Proof.Machine

open Sys2Proof Sys2Proof.Safety

/-! ### Poison marks below the L1s -/

theorem State.homePoison_putHome (s : State) (line : Nat) (d : BitVec 512) (b : Bool) (k : Nat) :
    (s.putHome line d b).homePoison k = if k = line then b else s.homePoison k := SMap.get_set _ _ _ _ _

theorem putHome_marks (s : State) (line : Nat) (d : BitVec 512) (b : Bool) {k : Nat} (hk : k ≠ line) : ((s.putHome line d b).below k).2 = (s.below k).2 := by
  unfold State.below
  rw [llcLine_putHome, State.homePoison_putHome, if_neg hk]
  dsimp only
  split <;> rfl

theorem putBelow_marks (s : State) (line : Nat) (d : BitVec 512) (p : BitVec 16) {k : Nat} (hk : k ≠ line) : ((s.putBelow line d p).below k).2 = (s.below k).2 := by
  unfold State.putBelow
  split
  · rw [below_setLlc _ _ _ _ hk]
  · exact putHome_marks _ _ _ _ hk

theorem putBelow_clear (s : State) (line : Nat) (d : BitVec 512) : ((s.putBelow line d 0#16).below line).2 = 0#16 := by
  unfold State.putBelow
  split
  next h =>
    rw [below_valid (by rw [llcLine_setLlc, if_pos rfl]), llcLine_setLlc, if_pos rfl]
    show widen8 0#16 = 0#16
    decide
  next h =>
    unfold State.below
    rw [llcLine_putHome, State.homePoison_putHome, if_pos rfl]
    simp [h]

theorem writeBack_marks (s : State) (c line : Nat) {k : Nat} (hk : k ≠ line) : ((s.writeBack c line).below k).2 = (s.below k).2 := by
  unfold State.writeBack
  dsimp only
  rw [putBelow_marks _ _ _ _ hk, (sendLt_booked _ _ _).below, fillLlc_below]

theorem writeBack_clear (s : State) (c line : Nat) (h : (s.l1Line c line).poison = 0#16) : ((s.writeBack c line).below line).2 = 0#16 := by
  unfold State.writeBack
  dsimp only
  rw [h]
  exact putBelow_clear _ _ _

/-- R33: the marks below as one L1 gives a line up. -/
theorem evictL1_marks (s : State) (c line k : Nat) (h : k = line → (s.l1Line c line).poison = 0#16 ∧ (s.below line).2 = 0#16) :
    ((s.evictL1 c line).below k).2 = (s.below k).2 := by
  have hb := billBack_booked s c line
  unfold State.evictL1
  rw [← hb.below, ← l1Line_congr hb.l1] at *
  generalize s.billBack c line = u at *
  have hwrite : ((u.writeBack c line).below k).2 = (u.below k).2 := by
    by_cases hk : k = line
    · subst hk
      rw [writeBack_clear _ _ _ (h rfl).1, (h rfl).2]
    · exact writeBack_marks _ _ _ hk
  unfold State.giveL1
  dsimp only
  rw [dropL1_below]
  split
  · exact hwrite
  · unfold State.saveL1
    dsimp only
    split
    · rw [below_setL1, hwrite]
    · rfl

/-- R33: the marks below as every L1 gives a line up. -/
theorem recall_marks (s : State) (line k : Nat) (h : k = line → (s.lineVal line).2 = 0#16 ∧ (s.below line).2 = 0#16) :
    ((s.recall line none).below k).2 = (s.below k).2 := by
  have hL : ∀ c ∈ s.holders line, c < 256 := fun c hc => (mem_holders.1 hc).1
  obtain ⟨-, hl1, hbelow, -, -⟩ := dropOthers line (s.owner line) (s.holders line) s hL rfl _ rfl
  have hline : ∀ c, s.owner line = some c → (s.lineVal line).2 = (s.l1Line c line).poison := fun c hc => by simp [State.lineVal, hc]
  unfold State.recall
  dsimp only
  generalize (s.holders line).foldl (fun s_1 c => if (none : Option Nat) == some c || s.owner line == some c then s_1 else s_1.dropL1 c line) s = u at *
  cases ho : s.owner line with
  | none => exact congrArg Prod.snd (hbelow k)
  | some c =>
    show ((u.evictL1 c line).below k).2 = _
    rw [← hbelow]
    refine evictL1_marks u c line k fun hk => ?_
    rw [hl1 c line (.inr ho), ← hline c ho, hbelow]
    exact h hk

/-! ### The view -/

/-- The same as far as a core or a register can tell: registers, places and operations stand, and every line has the value and the marks it had. -/
structure SameView (s t : State) : Prop where
  reg : t.reg = s.reg
  o : t.o = s.o
  waves : t.x.waves = s.x.waves
  teams : t.x.teams = s.x.teams
  grids : t.x.grids = s.x.grids
  prov : t.m.prov = s.m.prov
  line : ∀ k, t.lineVal k = s.lineVal k

section
variable {s t u : State}

theorem SameView.refl (s : State) : SameView s s := ⟨rfl, rfl, rfl, rfl, rfl, rfl, fun _ => rfl⟩

theorem SameView.trans (h : SameView s t) (k : SameView t u) : SameView s u where
  reg := k.reg.trans h.reg
  o := k.o.trans h.o
  waves := k.waves.trans h.waves
  teams := k.teams.trans h.teams
  grids := k.grids.trans h.grids
  prov := k.prov.trans h.prov
  line j := (k.line j).trans (h.line j)

theorem SameView.wave (h : SameView s t) (w : Nat) : t.wave w = s.wave w := by
  unfold State.wave
  rw [h.waves]

theorem SameView.op (h : SameView s t) (id : Nat) : t.op id = s.op id := by
  unfold State.op
  rw [h.o]

theorem SameView.team (h : SameView s t) (w : Nat) : t.teamOf w = s.teamOf w := by
  unfold State.teamOf State.teamKey State.team
  rw [h.wave, h.teams]

theorem SameView.grid (h : SameView s t) (w : Nat) : t.gridOf w = s.gridOf w := by
  unfold State.gridOf State.grid
  rw [h.wave, h.grids]

/-- R226: a core reads what it would have read. -/
theorem SameView.readPa (h : SameView s t) (core : Option Nat) (pa n : Nat) : t.readPa core pa n = s.readPa core pa n := by
  unfold State.readPa State.overlay State.overlayBad
  rw [h.line, h.prov]

theorem SameView.keepsMemory (h : SameView s t) : KeepsMemory s t := fun a => congrArg Prod.fst (h.readPa none a 1)

theorem SameView.partTask (h : SameView s t) (o : Op) (p : Part) : t.partTask o p = s.partTask o p := by
  unfold State.partTask
  rw [h.wave]

theorem SameView.leaves (h : SameView s t) : Leaves s t := ⟨h.reg, h.teams, fun w => by rw [h.wave], h.keepsMemory⟩

theorem Asked.view (h : Asked s t) (hprov : t.m.prov = s.m.prov) : SameView s t where
  reg := h.reg
  o := h.o
  waves := by rw [h.x]
  teams := by rw [h.x]
  grids := by rw [h.x]
  prov := hprov
  line k := by
    unfold State.lineVal
    rw [owner_congr h.l1, h.below]
    cases s.owner k with
    | none => rfl
    | some c => dsimp only; rw [l1Line_congr h.l1]

/-- R30, R335. -/
theorem askGo_prov (s : State) (a : Ask) : (s.askGo a).m.prov = s.m.prov := by
  have h : ((s.bill a.tenant (s.askLinks a) a.bytes).takeTurns a.tenant (s.askLinks a)).m.prov = s.m.prov := by
    have hb := congrArg MemSys.prov (bill_booked s a.tenant (s.askLinks a) a.bytes).m
    unfold State.takeTurns
    split <;> exact hb
  unfold State.askGo
  dsimp only
  split
  · split
    · exact h
    · refine (congrArg MemSys.prov (fillLlc_only _ a.line).m).trans ?_
      exact h
  · exact h

/-- R335: the requests of a part go. -/
theorem linkPay_asked (s : State) (id i : Nat) : Asked s (s.linkPay id i) := foldl_rel Asked.refl Asked.trans _ _ (fun u a _ => askGo_asked u a) s

theorem linkPay_view (s : State) (id i : Nat) : SameView s (s.linkPay id i) :=
  foldl_rel SameView.refl SameView.trans _ _ (fun u a _ => (askGo_asked u a).view (askGo_prov u a)) s

/-- R229, R33: a read of a line that its owner gives up whole. -/
theorem yieldLine_view {core : Option Nat} {line : Nat} (h : yieldsWhole s core line) : SameView s (s.yieldLine core line) := by
  unfold State.yieldLine
  cases ho : s.owner line with
  | none => exact .refl s
  | some c =>
    dsimp only
    split
    · exact .refl s
    next hne =>
      rcases h with h | h | h
      · rw [ho] at h; cases h
      · rw [← h, ho] at hne
        simp at hne
      · obtain ⟨hval, hown, howner, hl1, -, honly⟩ := recall_spec s line
        have hmark := fun k => recall_marks s line k fun _ => h
        refine ⟨honly.reg, honly.o, by rw [honly.x], by rw [honly.x], by rw [honly.x], by rw [honly.m], fun k => Prod.ext (hval k) ?_⟩
        by_cases hk : k = line
        · subst hk
          rw [State.lineVal, hown, h.1]
          exact (hmark k).trans h.2
        · unfold State.lineVal
          rw [howner k hk]
          cases hok : s.owner k with
          | none => exact hmark k
          | some d => dsimp only; rw [hl1 d k hk (owner_some hok).1]

/-- A line that would be given up whole still is, after another line or the same one has been. -/
theorem yieldsWhole_yieldLine {core : Option Nat} {line line' : Nat} (h : yieldsWhole s core line) (h' : yieldsWhole s core line') :
    yieldsWhole (s.yieldLine core line) core line' := by
  have hview := yieldLine_view h
  unfold State.yieldLine at hview ⊢
  cases ho : s.owner line with
  | none => exact h'
  | some c =>
    rw [ho] at hview
    dsimp only at hview ⊢
    split
    · exact h'
    next hne =>
      rw [if_neg hne] at hview
      obtain ⟨-, hown, howner, -, -, -⟩ := recall_spec s line
      by_cases hk : line' = line
      · rw [hk]; exact .inl hown
      · refine h'.imp (fun h' => (howner line' hk).trans h') fun h' => h'.imp (fun h' => (howner line' hk).trans h') fun h' => ?_
        rw [hview.line, recall_marks s line line' fun h => absurd h hk]
        exact h'

theorem Asked.yieldsWhole (h : Asked s t) (hv : SameView s t) {core : Option Nat} {line : Nat} (hy : yieldsWhole s core line) : yieldsWhole t core line := by
  unfold Safety.yieldsWhole
  rw [owner_congr h.l1, hv.line, h.below]
  exact hy
end

end Sys2Proof.Machine
end

section
/-! SUPPORT. The end of a read (R82, R192, R291, R300): what an ECCU, the end of a task and the completion of an operation leave alone. -/

set_option Elab.async false

namespace Sys2Proof.Machine

open Sys2Proof Sys2Proof.Safety

/-! ### Tasks that stop -/

/-- A wave changes outside its registers. -/
structure Wave.KeepsRegs (x y : Wave) : Prop where
  v : y.v = x.v
  s : y.s = x.s
  p : y.p = x.p
  acc : y.acc = x.acc

theorem Wave.KeepsRegs.refl (x : Wave) : x.KeepsRegs x := ⟨rfl, rfl, rfl, rfl⟩

theorem Wave.KeepsRegs.trans {x y z : Wave} (h : x.KeepsRegs y) (k : y.KeepsRegs z) : x.KeepsRegs z :=
  ⟨k.v.trans h.v, k.s.trans h.s, k.p.trans h.p, k.acc.trans h.acc⟩

/-- Every lane of a mask changes. -/
theorem Wave.keepsRegs_forLanes (x : Wave) (m : Mask) (g : Wave → Nat → Lane) : x.KeepsRegs (x.forLanes m fun y l => y.setLane l (g y l)) := by
  unfold Wave.forLanes
  rw [Wave.foldl_setLane_rest]
  exact ⟨rfl, rfl, rfl, rfl⟩

theorem Wave.keepsRegs_setJoin (x : Wave) (n : Nat) (v : Join) : x.KeepsRegs (x.setJoin n v) := ⟨rfl, rfl, rfl, rfl⟩

theorem Wave.keepsRegs_releaseJoin (x : Wave) (j : Nat) (lost : Bool) : x.KeepsRegs (x.releaseJoin j lost) := by
  unfold Wave.releaseJoin
  dsimp only
  split
  · exact (Wave.keepsRegs_forLanes x _ fun y l => { y.lane l with pc := (y.lane l).pc + 4#64, st := .running }).trans (Wave.keepsRegs_setJoin _ _ _)
  · exact Wave.keepsRegs_forLanes x _ fun y l => { y.lane l with pc := (y.lane l).pc + 4#64, st := .running }

theorem Wave.keepsRegs_judgeJoins (x : Wave) : x.KeepsRegs x.judgeJoins := by
  unfold Wave.judgeJoins
  refine foldl_rel (R := Wave.KeepsRegs) Wave.KeepsRegs.refl Wave.KeepsRegs.trans _ _ (fun y j _ => ?_) x
  dsimp only
  split
  · exact Wave.keepsRegs_releaseJoin y j false
  · exact .refl y

/-- R176. -/
theorem Wave.keepsRegs_exitLanes (x : Wave) (m : Mask) : x.KeepsRegs (x.exitLanes m) := by
  unfold Wave.exitLanes
  refine .trans ?_ (Wave.keepsRegs_judgeJoins _)
  refine .trans ?_ (foldl_rel (R := Wave.KeepsRegs) Wave.KeepsRegs.refl Wave.KeepsRegs.trans _ _ (fun y n _ => Wave.keepsRegs_setJoin y n _) _)
  rw [Wave.setStatus_rest]
  exact ⟨rfl, rfl, rfl, rfl⟩

/-! ### States -/

/-- Registers of the program and of the device, teams and every byte of memory stay as they are. -/
structure KeepsData (s t : State) : Prop where
  program : KeepsProgram s t
  bytes : KeepsMemory s t

theorem KeepsData.refl (s : State) : KeepsData s s := ⟨.refl s, fun _ => rfl⟩

theorem KeepsData.trans {s t u : State} (h : KeepsData s t) (k : KeepsData t u) : KeepsData s u :=
  ⟨h.program.trans k.program, fun a => (k.bytes a).trans (h.bytes a)⟩

theorem Leaves.keepsData {s t : State} (h : Leaves s t) : KeepsData s t :=
  ⟨⟨⟨fun w => by rw [h.wave], fun w => by rw [h.wave], fun w => by rw [h.wave], fun w => by rw [h.wave]⟩, h.teams, h.reg⟩, h.bytes⟩

theorem modWave_keepsData (s : State) (w : Nat) {f : Wave → Wave} (h : ∀ x, Wave.KeepsRegs x (f x)) : KeepsData s (s.modWave w f) :=
  ⟨modWave_keepsProgram s w f (fun x => (h x).v) (fun x => (h x).s) (fun x => (h x).p) fun x => (h x).acc, fun _ => rfl⟩

theorem dropFailed_leaves (s : State) (ws : List Nat) : Leaves s (s.dropFailed ws) :=
  ⟨rfl, rfl, fun _ => rfl, fun a => by rw [readPhys_byte, readPhys_byte]; rfl⟩

theorem modGrid_leaves (s : State) (g : Nat) (f : Grid → Grid) : Leaves s (s.modGrid g f) := .of_waves rfl rfl rfl rfl

theorem stopTasks_keepsData (s : State) (w : Nat) (m : Mask) : KeepsData s (s.stopTasks w m) := by
  unfold State.stopTasks
  dsimp only
  refine ((dropFailed_leaves s [w]).trans (modGrid_leaves _ _ _)).keepsData.trans (modWave_keepsData _ w fun x => ?_)
  exact (Wave.keepsRegs_exitLanes x m).trans (Wave.keepsRegs_forLanes _ m fun y l => { y.lane l with task := none })

theorem sysFault_leaves (s : State) (ws : List Nat) (susp w lane : Nat) (pc : DWord) (f : FaultInfo) : Leaves s (s.sysFault ws susp w lane pc f) := by
  have hsuspend : Leaves (s.dropFailed ws) ((s.dropFailed ws).suspend { tenant := (s.gridOf w).tenant, waves := ws }) := .of_waves rfl rfl rfl rfl
  unfold State.sysFault State.queueRecord
  exact ((dropFailed_leaves s ws).trans hsuspend).trans (modTenant_leaves _ _ _)

/-- R192, R300. -/
theorem raiseEccu_keepsData (s : State) (id : Nat) : KeepsData s (s.raiseEccu id) := by
  have hstop : ∀ (w : Nat) (m : Mask), KeepsData s (if m == 0#32 then s else s.stopTasks w m) := fun w m => by
    split
    · exact .refl s
    · exact stopTasks_keepsData s w m
  unfold State.raiseEccu
  dsimp only
  generalize (if (s.op id).arrived then (s.op id).parts.filter fun p => p.hurt else []) = hs
  cases hs with
  | nil => exact .refl s
  | cons p ps =>
    dsimp only
    split
    · exact (sysFault_leaves ..).keepsData
    · exact (sysFault_leaves ..).keepsData
    · split
      · exact hstop _ _
      · exact (hstop _ _).trans (sysFault_leaves ..).keepsData

/-- R192: an operation none of whose parts has met poison raises nothing. -/
theorem State.raiseEccu_unhurt {s : State} {id : Nat} (h : ∀ p ∈ (s.op id).parts, p.hurt = false) : s.raiseEccu id = s := by
  unfold State.raiseEccu
  have hnil : (if (s.op id).arrived then (s.op id).parts.filter fun p => p.hurt else []) = [] := by
    split
    · exact List.filter_eq_nil_iff.mpr fun p hp => by simp [h p hp]
    · rfl
  dsimp only
  rw [hnil]

/-- R82: flags fall. -/
theorem flagsDown_keepsData (s : State) (fs : List (Nat × Nat)) : KeepsData s (s.flagsDown fs) :=
  foldl_rel KeepsData.refl KeepsData.trans _ _ 
    (fun u e _ => modWave_keepsData u e.1 (f := fun x => x.setFlag e.2 (x.flag e.2 - 1)) fun _ => ⟨rfl, rfl, rfl, rfl⟩) s

theorem completeOp_keepsData (s : State) (id : Nat) : KeepsData s (s.completeOp id) := by
  unfold State.completeOp
  dsimp only
  split
  · exact .refl s
  · exact (flagsDown_keepsData s _).trans (setOp_leaves ..).keepsData

/-- R82: the flag of a complete operation falls. -/
theorem State.completeOp_flag {s : State} {id w f : Nat} (hd : (s.op id).done = false) (hf : (s.op id).flags = [(w, f)]) :
    ((s.completeOp id).wave w).flag f = (s.wave w).flag f - 1 := by
  unfold State.completeOp
  dsimp only
  rw [hd, hf]
  show ((s.modWave w fun x => x.setFlag f (x.flag f - 1)).wave w).flag f = _
  rw [State.modWave_wave_self, Wave.setFlag_flag, if_pos rfl]

theorem stampRead_leaves (s : State) (id i : Nat) : Leaves s (s.stampRead id i) := by
  unfold State.stampRead
  dsimp only
  split
  · exact .refl s
  · exact stamp_leaves ..

theorem finishRead_keepsData (s : State) (id i : Nat) : KeepsData s (s.finishRead id i) := by
  unfold State.finishRead
  dsimp only
  refine ((stampRead_leaves s id i).keepsData.trans (raiseEccu_keepsData _ id)).trans (.trans ?_ (afterPerform_leaves _ id).keepsData)
  split
  · exact completeOp_keepsData ..
  · exact .refl _

/-- R82, R192: where every part has come to its end without poison, the flag falls. -/
theorem State.finishRead_flag {s u : State} {id i w f : Nat} (hstamp : s.stampRead id i = u) (hd : (u.op id).done = false) (hf : (u.op id).flags = [(w, f)])
    (hk : (u.op id).kind ≠ .jtab) (hall : ∀ p ∈ (u.op id).parts, p.hurt = false ∧ p.arrived (u.op id).kind = true) :
    ((s.finishRead id i).wave w).flag f = (u.wave w).flag f - 1 := by
  have harr : (u.op id).arrived = true := List.all_eq_true.mpr fun p hp => (hall p hp).2
  unfold State.finishRead
  dsimp only
  rw [hstamp, State.raiseEccu_unhurt fun p hp => (hall p hp).1, if_pos (by simp [harr, hk]), (afterPerform_leaves _ id).wave, ← State.completeOp_flag hd hf]
  rfl

theorem Leaves.flag {s t : State} (h : Leaves s t) (w f : Nat) : (t.wave w).flag f = (s.wave w).flag f := by
  rw [h.wave]
  rfl

/-- The flag of an operation falls though its entries leave windows first. -/
theorem Leaves.flagFalls {s u t : State} {o o' : Op} (h : Leaves s u) (hf : o'.flags = o.flags) (h' : FlagFalls o' u t) : FlagFalls o s t := by
  intro w f hflags
  rw [h' w f (hf.trans hflags), h.flag]

end Sys2Proof.Machine
end

section
/-! SUPPORT. Words of load data in their registers (R193, R196, R198): every destination of a part takes its word. -/

set_option Elab.async false

namespace Sys2Proof.Machine

open Sys2Proof Sys2Proof.Safety

/-- R193, R198: one destination takes a word; "lane" 32 is the wave's uniform register. -/
def State.landTo (n : Nat) (v : Word) (s : State) (e : Nat × Nat) : State :=
  s.modWave e.1 fun x => if e.2 == 32 then x.setS n v else x.setV n e.2 v

theorem State.landWord_eq (s : State) (p : Part) (k : Nat) (v : Word) : s.landWord p k v = p.dst.foldl (State.landTo (p.reg + k) v) s := rfl

/-- Nothing changes but v-registers and uniform registers of the waves. -/
structure Lands (s t : State) : Prop where
  reg : t.reg = s.reg
  teams : t.x.teams = s.x.teams
  m : t.m = s.m
  o : t.o = s.o
  wave : ∀ w, t.wave w = { s.wave w with v := (t.wave w).v, s := (t.wave w).s }

theorem Lands.refl (s : State) : Lands s s := ⟨rfl, rfl, rfl, rfl, fun _ => rfl⟩

theorem Lands.trans {s t u : State} (h : Lands s t) (k : Lands t u) : Lands s u where
  reg := k.reg.trans h.reg
  teams := k.teams.trans h.teams
  m := k.m.trans h.m
  o := k.o.trans h.o
  wave w := by
    have hk := k.wave w
    rw [h.wave w] at hk
    exact hk

theorem Lands.keepsMemory {s t : State} (h : Lands s t) : KeepsMemory s t := fun a => by
  rw [readPhys_byte, readPhys_byte, lineVal_of (s := s) (t := t) (a / 64) (owner_congr (by rw [h.m]) _) (fun c _ => l1Line_congr (by rw [h.m]) c _)
    (by rw [below_congr (s := s) (t := t)] <;> rw [h.m])]

theorem Lands.flag {s t : State} (h : Lands s t) (w f : Nat) : (t.wave w).flag f = (s.wave w).flag f := by
  rw [h.wave]
  rfl

theorem Lands.op {s t : State} (h : Lands s t) (id : Nat) : t.op id = s.op id := by
  unfold State.op
  rw [h.o]

section
variable (s : State) (n : Nat) (v : Word)

theorem State.landTo_wave (e : Nat × Nat) (w : Nat) : (State.landTo n v s e).wave w =
    if w = e.1 then (if e.2 == 32 then (s.wave w).setS n v else (s.wave w).setV n e.2 v) else s.wave w := by
  unfold State.landTo
  rw [State.modWave_wave]
  split
  next h => rw [h]
  next => rfl

theorem landTo_lands (e : Nat × Nat) : Lands s (State.landTo n v s e) where
  reg := rfl
  teams := rfl
  m := rfl
  o := rfl
  wave w := by
    rw [State.landTo_wave]
    split
    · split <;> rfl
    · rfl

theorem landWord_lands (p : Part) (k : Nat) : Lands s (s.landWord p k v) :=
  foldl_rel Lands.refl Lands.trans _ _ (fun u e _ => landTo_lands u (p.reg + k) v e) s

theorem State.landTo_vreg {e : Nat × Nat} (he : e.2 ≤ 32) (w m : Nat) {l : Nat} (hl : l < 32) :
    ((State.landTo n v s e).wave w).vreg m l = if (w, l) = e ∧ m = n then v else (s.wave w).vreg m l := by
  obtain ⟨a, b⟩ := e
  simp only [State.landTo_wave, Prod.mk.injEq]
  by_cases hw : w = a
  · by_cases hb : b = 32
    · subst hb
      have hne : l ≠ 32 := by omega
      simp [hw, hne, Wave.vreg, Wave.setS]
    · have hb' : b < 32 := by simp only at he; omega
      have hs := Wave.setV_vreg (s.wave w) n b v m l hb' hl
      simp only [hw, true_and, if_true, beq_iff_eq, hb, if_false] at hs ⊢
      rw [hs]
      simp only [and_comm]
  · simp [hw]

theorem State.landTo_sreg (e : Nat × Nat) (w m : Nat) :
    ((State.landTo n v s e).wave w).sreg m = if (w, 32) = e ∧ m = n then v else (s.wave w).sreg m := by
  obtain ⟨a, b⟩ := e
  simp only [State.landTo_wave, Prod.mk.injEq]
  by_cases hw : w = a
  · by_cases hb : b = 32
    · simp [hw, hb, Wave.setS_sreg]
    · have hb' : ¬ 32 = b := fun h => hb h.symm
      simp [hw, hb, hb', Wave.sreg, Wave.setV]
  · simp [hw]

/-- R196: a word in the v-registers. -/
theorem State.landWord_vreg (p : Part) (k : Nat) (hd : ∀ e ∈ p.dst, e.2 ≤ 32) (w m : Nat) {l : Nat} (hl : l < 32) :
    ((s.landWord p k v).wave w).vreg m l = if (w, l) ∈ p.dst ∧ m = p.reg + k then v else (s.wave w).vreg m l := by
  rw [State.landWord_eq]
  generalize p.reg + k = n
  generalize p.dst = ds at hd
  induction ds generalizing s with
  | nil => simp
  | cons e ds ih =>
    rw [List.foldl_cons, ih _ fun e he => hd e (List.mem_cons_of_mem _ he), State.landTo_vreg s n v (hd e List.mem_cons_self) w m hl]
    by_cases h1 : (w, l) ∈ ds <;> by_cases h2 : m = n <;> simp [h1, h2]

/-- R198: a word in the uniform registers. -/
theorem State.landWord_sreg (p : Part) (k : Nat) (w m : Nat) :
    ((s.landWord p k v).wave w).sreg m = if (w, 32) ∈ p.dst ∧ m = p.reg + k then v else (s.wave w).sreg m := by
  rw [State.landWord_eq]
  generalize p.reg + k = n
  generalize p.dst = ds
  induction ds generalizing s with
  | nil => simp
  | cons e ds ih =>
    rw [List.foldl_cons, ih, State.landTo_sreg]
    by_cases h1 : (w, 32) ∈ ds <;> by_cases h2 : m = n <;> simp [h1, h2]
end

/-- R199: words in consecutive v-registers. -/
def State.landWords (s : State) (p : Part) (ws : List Word) (n : Nat) : State :=
  (List.range n).foldl (fun s k => s.landWord p k (ws.getD k 0#32)) s

theorem landWords_lands (s : State) (p : Part) (ws : List Word) (n : Nat) : Lands s (s.landWords p ws n) :=
  foldl_rel Lands.refl Lands.trans _ _ (fun u k _ => landWord_lands u _ p k) s

theorem State.landWords_vreg (s : State) (p : Part) (ws : List Word) (n : Nat) (hd : ∀ e ∈ p.dst, e.2 ≤ 32) (w m : Nat) {l : Nat} (hl : l < 32) :
    ((s.landWords p ws n).wave w).vreg m l = if (w, l) ∈ p.dst ∧ p.reg ≤ m ∧ m < p.reg + n then ws.getD (m - p.reg) 0#32 else (s.wave w).vreg m l := by
  unfold State.landWords
  induction n with
  | zero =>
    have h : ¬ (p.reg ≤ m ∧ m < p.reg) := by omega
    simp [h]
  | succ n ih =>
    rw [List.range_succ, List.foldl_append, List.foldl_cons, List.foldl_nil, State.landWord_vreg _ _ p n hd w m hl, ih]
    by_cases hmem : (w, l) ∈ p.dst
    · by_cases hm : m = p.reg + n
      · have h1 : p.reg ≤ m ∧ m < p.reg + (n + 1) := by omega
        have h2 : m - p.reg = n := by omega
        rw [if_pos ⟨hmem, hm⟩, if_pos ⟨hmem, h1⟩, h2]
      · have h1 : (p.reg ≤ m ∧ m < p.reg + (n + 1)) ↔ p.reg ≤ m ∧ m < p.reg + n := by omega
        simp only [hmem, hm, true_and, if_false, h1]
    · simp only [hmem, false_and, if_false]

theorem State.landWords_s (s : State) (p : Part) (ws : List Word) (n : Nat) (hd : ∀ e ∈ p.dst, e.2 < 32) (w : Nat) :
    ((s.landWords p ws n).wave w).s = (s.wave w).s := by
  have hto : ∀ (u : State) (m : Nat) (v : Word), ∀ e ∈ p.dst, ((State.landTo m v u e).wave w).s = (u.wave w).s := fun u m v e he => by
    have hne : (e.2 == 32) = false := by simpa using Nat.ne_of_lt (hd e he)
    rw [State.landTo_wave, hne]
    split <;> rfl
  refine foldl_rel (R := fun s t : State => (t.wave w).s = (s.wave w).s) (fun _ => rfl) (fun h k => k.trans h) _ _ (fun u k _ => ?_) s
  exact foldl_rel (R := fun s t : State => (t.wave w).s = (s.wave w).s) (fun _ => rfl) (fun h k => k.trans h) _ _ (fun u e he => hto u _ _ e he) u

end Sys2Proof.Machine
end

section
/-! SUPPORT. The arrival of load data (R192, R196, R214, R225): a granule takes its bytes, and with every granule bound a word lands. -/

set_option Elab.async false

namespace Sys2Proof.Machine

open Sys2Proof Sys2Proof.Safety

/-! ### Bits and parts -/

theorem hasBit_eq_testBit (n i : Nat) : hasBit n i = n.testBit i := by
  rw [hasBit, Nat.testBit_eq_decide_div_mod_eq]
  rfl

/-- Where every bit stands, each does. -/
theorem hasBit_of_all {n w k : Nat} (h : n + 1 = 2 ^ w) (hk : k < w) : hasBit n k = true := by
  rw [hasBit_eq_testBit, show n = 2 ^ w - 1 by omega, Nat.testBit_two_pow_sub_one]
  exact decide_eq_true hk

theorem withBit_clear {n k : Nat} (h : hasBit n k = false) : withBit n k = n + 2 ^ k := by
  rw [withBit, h]
  rfl

theorem set_of_getElem? {α : Type} {l : List α} {i : Nat} {a : α} (h : l[i]? = some a) : l.set i a = l := by
  obtain ⟨hi, rfl⟩ := List.getElem?_eq_some_iff.mp h
  exact List.set_getElem_self hi

theorem getD_of_getElem? {α : Type} {l : List α} {i : Nat} {a d : α} (h : l[i]? = some a) : l.getD i d = a := by
  rw [List.getD_eq_getElem?_getD, h]
  rfl

theorem getElem?_set_same {α : Type} {l : List α} {i : Nat} {a b : α} (h : l[i]? = some a) : (l.set i b)[i]? = some b := by
  rw [List.getElem?_set_self (List.getElem?_eq_some_iff.mp h).1]

/-- An operation with part i as given. -/
def Op.withPart (o : Op) (i : Nat) (p : Part) : Op := { o with parts := o.parts.set i p }

theorem Op.withPart_self {o : Op} {i : Nat} {p : Part} (h : o.parts[i]? = some p) : o.withPart i p = o := by
  rw [Op.withPart, set_of_getElem? h]

theorem Op.withPart_part {o : Op} {i : Nat} {p q : Part} (h : o.parts[i]? = some p) : (o.withPart i q).parts[i]? = some q := getElem?_set_same h

theorem Op.withPart_withPart (o : Op) (i : Nat) (p q : Part) : (o.withPart i p).withPart i q = o.withPart i q := by
  simp [Op.withPart]

theorem Op.withPart_all {o : Op} {i : Nat} {p : Part} {P : Part → Prop} (hp : P p) (h : ∀ j q, o.parts[j]? = some q → j ≠ i → P q) :
    ∀ q ∈ (o.withPart i p).parts, P q := by
  intro q hq
  obtain ⟨j, hj⟩ := List.mem_iff_getElem?.mp hq
  by_cases hji : j = i
  · subst hji
    rw [Op.withPart, List.getElem?_set_self'] at hj
    obtain ⟨-, -, rfl⟩ := Option.map_eq_some_iff.mp hj
    exact hp
  · rw [Op.withPart, List.getElem?_set_ne (Ne.symm hji)] at hj
    exact h j q hj hji

theorem State.modPart_eq {s : State} {id i : Nat} {p : Part} (hp : (s.op id).parts[i]? = some p) (f : Part → Part) :
    s.modPart id i f = s.setOp id ((s.op id).withPart i (f p)) := by
  unfold State.modPart
  dsimp only
  rw [getD_of_getElem? hp]
  rfl

/-- R230: the part as its read is stamped. -/
theorem State.stampRead_op {s : State} {id i : Nat} {p : Part} (hp : (s.op id).parts[i]? = some p) :
    ∃ n, (s.stampRead id i).op id = (s.op id).withPart i { p with plt := some n } := by
  unfold State.stampRead
  dsimp only
  rw [getD_of_getElem? hp]
  split
  next h =>
    obtain ⟨n, hn⟩ := Option.isSome_iff_exists.mp h
    exact ⟨n, by rw [← hn, Op.withPart_self hp]⟩
  next =>
    have hset : ∀ (c : Core) (n : Nat), (((s.setCore (s.op id).core c).modPart id i fun p => { p with plt := some n }).op id) =
        (s.op id).withPart i { p with plt := some n } := fun c n => by
      rw [State.modPart_eq (s := s.setCore (s.op id).core c) (p := p) hp, State.setOp_op_self]
      rfl
    unfold State.stamp
    cases s.readLt (s.op id).core p with
    | none => exact ⟨_, hset _ _⟩
    | some m => exact ⟨_, hset _ _⟩

theorem State.stampRead_stamped {s : State} {id i : Nat} {p : Part} (hp : (s.op id).parts[i]? = some p) (h : p.plt.isSome = true) : s.stampRead id i = s := by
  unfold State.stampRead
  dsimp only
  rw [getD_of_getElem? hp, if_pos h]

/-! ### What a part reads -/

/-- R229: a part outside a task reads what its core sees, or its team's CLM. -/
theorem State.partRead_ok {s : State} {o : Op} {p : Part} {pa n : Nat} (htask : s.partTask o p = none) (hy : p.clm = false → yieldsWhole s (some o.core) (pa / 64)) :
    ∃ u, SameView s u ∧ s.partRead o p pa n = (if p.clm then (s.teamOf o.wave).readClm pa n else s.readPa (some o.core) pa n, u) ∧
      (u = s ∨ u = s.yieldLine (some o.core) (pa / 64)) := by
  unfold State.partRead
  split
  next h => exact ⟨s, .refl s, by simp, .inl rfl⟩
  next h =>
    have hv := yieldLine_view (hy (by simpa using h))
    refine ⟨_, hv, ?_, .inr rfl⟩
    dsimp only
    rw [hv.partTask, htask, hv.readPa]

/-- R214, R225: the granule takes the value its bytes have. -/
theorem State.bindGranule_ok {s : State} {id i k v : Nat} {p : Part} (hp : (s.op id).parts[i]? = some p) (hbit : hasBit p.bound k = false)
    (htask : s.partTask (s.op id) p = none) (hy : p.clm = false → yieldsWhole s (some (s.op id).core) ((p.pa + 8 * k) / 64))
    (hv : (if p.clm then (s.teamOf (s.op id).wave).readClm (p.pa + 8 * k) (Nat.min 8 (p.size - 8 * k))
       else s.readPa (some (s.op id).core) (p.pa + 8 * k) (Nat.min 8 (p.size - 8 * k))) = (v, false)) :
    ∃ u, SameView s u ∧ s.bindGranule id i k =
      u.setOp id ((s.op id).withPart i { p with val := some (p.val.getD 0 + v * 2 ^ (64 * k)), bound := p.bound + 2 ^ k }) := by
  obtain ⟨u, hu, hread, -⟩ := State.partRead_ok (n := Nat.min 8 (p.size - 8 * k)) htask hy
  rw [hv] at hread
  refine ⟨u, hu, ?_⟩
  unfold State.bindGranule
  dsimp only
  rw [getD_of_getElem? hp, hread]
  dsimp only
  rw [State.modPart_eq (by rw [hu.op]; exact hp), hu.op, ← withBit_clear hbit]
  simp

/-! ### A word lands -/

/-- R196: a word of load data is in its registers; no other register, no team, no device register and no byte of memory changes. -/
structure Arrives (p : Part) (k : Nat) (v : Word) (s t : State) : Prop where
  bytes : KeepsMemory s t
  reg : t.reg = s.reg
  teams : t.x.teams = s.x.teams
  vreg : ∀ w n l, l < 32 → (t.wave w).vreg n l = if (w, l) ∈ p.dst ∧ n = p.reg + k then v else (s.wave w).vreg n l
  sreg : ∀ w n, (t.wave w).sreg n = if (w, 32) ∈ p.dst ∧ n = p.reg + k then v else (s.wave w).sreg n
  rest : ∀ w, (t.wave w).p = (s.wave w).p ∧ (t.wave w).acc = (s.wave w).acc

theorem KeepsData.vreg {s t : State} (h : KeepsData s t) (w n l : Nat) : (t.wave w).vreg n l = (s.wave w).vreg n l := by
  unfold Wave.vreg
  rw [h.program.regs.v]

theorem KeepsData.sreg {s t : State} (h : KeepsData s t) (w n : Nat) : (t.wave w).sreg n = (s.wave w).sreg n := by
  unfold Wave.sreg
  rw [h.program.regs.sregs]

theorem arrives_landWord {p : Part} {k : Nat} {v : Word} {s u t : State} (hd : ∀ e ∈ p.dst, e.2 ≤ 32) (h : KeepsData s u) (h' : KeepsData (u.landWord p k v) t) :
    Arrives p k v s t where
  bytes a := (h'.bytes a).trans (((landWord_lands u v p k).keepsMemory a).trans (h.bytes a))
  reg := h'.program.reg.trans ((landWord_lands u v p k).reg.trans h.program.reg)
  teams := h'.program.teams.trans ((landWord_lands u v p k).teams.trans h.program.teams)
  vreg w n l hl := by rw [h'.vreg, State.landWord_vreg u v p k hd w n hl, h.vreg]
  sreg w n := by rw [h'.sreg, State.landWord_sreg, h.sreg]
  rest w := by
    have hl := (landWord_lands u v p k).wave w
    exact ⟨(h'.program.regs.p w).trans ((by rw [hl] : ((u.landWord p k v).wave w).p = (u.wave w).p).trans (h.program.regs.p w)),
      (h'.program.regs.acc w).trans ((by rw [hl] : ((u.landWord p k v).wave w).acc = (u.wave w).acc).trans (h.program.regs.acc w))⟩

/-- R192, R196: the read is stamped, its word k written, and the operation ends where that was the last. -/
def State.landPart (s : State) (id i k : Nat) (p : Part) (v : Word) : State :=
  let s := ((s.stampRead id i).landWord p k v).modPart id i fun q => { q with landed := withBit q.landed k }
  if ((s.op id).parts.getD i {}).landed + 1 = 2 ^ p.words then s.finishRead id i else s.afterPerform id

theorem landPart_arrives {s : State} {id i : Nat} (k : Nat) {p : Part} (v : Word) (hd : ∀ e ∈ p.dst, e.2 ≤ 32) : Arrives p k v s (s.landPart id i k p v) := by
  refine arrives_landWord hd (stampRead_leaves s id i).keepsData 
    ((modPart_leaves _ id i fun q => { q with landed := withBit q.landed k }).keepsData.trans ?_)
  unfold State.landPart
  dsimp only
  split
  · exact finishRead_keepsData _ id i
  · exact (afterPerform_leaves _ id).keepsData

/-- R82: the last word of an operation whose other parts have come to their end. -/
theorem landPart_flagFalls {s : State} {id i k : Nat} {p : Part} (v : Word) (hp : (s.op id).parts[i]? = some p) (hk : (s.op id).kind ≠ .jtab)
    (hbit : hasBit p.landed k = false) (hhurt : p.hurt = false) (hlast : p.landed + 2 ^ k + 1 = 2 ^ p.words) (hdone : (s.op id).done = false)
    (hall : ∀ j q, (s.op id).parts[j]? = some q → q.hurt = false ∧ (j ≠ i → q.arrived (s.op id).kind = true)) :
    FlagFalls (s.op id) s (s.landPart id i k p v) := by
  intro w f hf
  obtain ⟨n, hop⟩ := State.stampRead_op hp
  have hleave := stampRead_leaves s id i
  have hland := landWord_lands (s.stampRead id i) v p k
  unfold State.landPart
  dsimp only
  generalize (s.stampRead id i).landWord p k v = u at hland
  have huop : u.op id = (s.op id).withPart i { p with plt := some n } := by
    rw [hland.op, hop]
  have hupart : (u.op id).parts[i]? = some { p with plt := some n } := by
    rw [huop]
    exact Op.withPart_part hp
  have hwords : p.landed + 2 ^ k + 1 = 2 ^ ((p.size + 3) / 4) := hlast
  rw [State.modPart_eq hupart, huop, Op.withPart_withPart, withBit_clear hbit, State.setOp_op_self,
    getD_of_getElem? (Op.withPart_part hp), if_pos hlast,
    State.finishRead_flag (State.stampRead_stamped (p := { p with plt := some n, landed := p.landed + 2 ^ k }) (by rw [State.setOp_op_self]; exact Op.withPart_part hp) rfl)]
  · exact congrArg (· - 1) ((hland.flag w f).trans (hleave.flag w f))
  · rw [State.setOp_op_self]; exact hdone
  · rw [State.setOp_op_self]; exact hf
  · rw [State.setOp_op_self]; exact hk
  · rw [State.setOp_op_self]
    exact Op.withPart_all ⟨hhurt, by simp [Part.arrived, hwords]⟩ fun j q hq hj => ⟨(hall j q hq).1, (hall j q hq).2 hj⟩

/-! ### A word arrives -/

/-- R192, R214: the operation with the granule bound, where it was not; with every granule bound the word lands. -/
theorem State.arrive_bound {s : State} {id i k : Nat} {p : Part} (hp : (s.op id).parts[i]? = some p) (hk : k < p.words) (hland : hasBit p.landed k = false)
    (hhurt : p.hurt = false) (hbit : hasBit p.bound (k / 2) = true) :
    s.arrive id i k = if p.bound + 1 = 2 ^ p.granules then s.landPart id i k p (BitVec.ofNat 32 (p.val.getD 0 / 2 ^ (32 * k))) else s := by
  unfold State.arrive
  simp only [getD_of_getElem? hp, hland, hbit, hhurt, Nat.not_le.mpr hk, decide_false, Bool.or_self, Bool.false_eq_true, if_false, if_true, beq_iff_eq]
  rfl

theorem State.arrive_unbound {s u : State} {id i k : Nat} {p q : Part} (hp : (s.op id).parts[i]? = some p) (hk : k < p.words) (hland : hasBit p.landed k = false)
    (hbit : hasBit p.bound (k / 2) = false) (hu : s.bindGranule id i (k / 2) = u) (hq : (u.op id).parts[i]? = some q) (hhurt : q.hurt = false) :
    s.arrive id i k = if q.bound + 1 = 2 ^ q.granules then u.landPart id i k q (BitVec.ofNat 32 (q.val.getD 0 / 2 ^ (32 * k))) else u := by
  unfold State.arrive
  simp only [getD_of_getElem? hp, hland, hbit, Nat.not_le.mpr hk, decide_false, Bool.or_self, Bool.false_eq_true, if_false, beq_iff_eq, hu, getD_of_getElem? hq, hhurt]
  rfl

/-- R192, R214: the granule of a word is bound or takes its value now; with every granule bound the word lands. -/
theorem State.arrive_ok {s : State} {id i k v data bound : Nat} {p : Part} (hp : (s.op id).parts[i]? = some p) (hk : k < p.words)
    (hland : hasBit p.landed k = false) (hhurt : p.hurt = false) (htask : s.partTask (s.op id) p = none)
    (hy : p.clm = false → hasBit p.bound (k / 2) = false → yieldsWhole s (some (s.op id).core) ((p.pa + 8 * (k / 2)) / 64))
    (hv : if hasBit p.bound (k / 2) then data = p.val.getD 0 ∧ bound = p.bound
     else (if p.clm then (s.teamOf (s.op id).wave).readClm (p.pa + 8 * (k / 2)) (Nat.min 8 (p.size - 8 * (k / 2)))
       else s.readPa (some (s.op id).core) (p.pa + 8 * (k / 2)) (Nat.min 8 (p.size - 8 * (k / 2)))) = (v, false) ∧
       data = p.val.getD 0 + v * 2 ^ (64 * (k / 2)) ∧ bound = p.bound + 2 ^ (k / 2)) :
    ∃ u, ∃ w : Option Nat, Leaves s u ∧ u.op id = (s.op id).withPart i { p with val := w, bound := bound } ∧
      s.arrive id i k = if bound + 1 = 2 ^ p.granules then u.landPart id i k { p with val := w, bound := bound } (BitVec.ofNat 32 (data / 2 ^ (32 * k))) else u := by
  by_cases hbit : hasBit p.bound (k / 2) = true
  · rw [if_pos hbit] at hv
    obtain ⟨rfl, rfl⟩ := hv
    exact ⟨s, p.val, .refl s, (Op.withPart_self hp).symm, State.arrive_bound hp hk hland hhurt hbit⟩
  · rw [if_neg hbit] at hv
    obtain ⟨hread, rfl, rfl⟩ := hv
    have hclear : hasBit p.bound (k / 2) = false := by simpa using hbit
    obtain ⟨u, hu, hbind⟩ := State.bindGranule_ok hp hclear htask (fun hc => hy hc hclear) hread
    have hop := State.setOp_op_self u id ((s.op id).withPart i { p with val := some (p.val.getD 0 + v * 2 ^ (64 * (k / 2))), bound := p.bound + 2 ^ (k / 2) })
    exact ⟨_, _, hu.leaves.trans (setOp_leaves u id _), hop,
      State.arrive_unbound hp hk hland hclear hbind ((congrArg (fun o : Op => o.parts[i]?) hop).trans (Op.withPart_part hp)) hhurt⟩

theorem Arrives.after {p : Part} {k : Nat} {v : Word} {s u t : State} (h : KeepsData s u) (h' : Arrives p k v u t) : Arrives p k v s t where
  bytes a := (h'.bytes a).trans (h.bytes a)
  reg := h'.reg.trans h.program.reg
  teams := h'.teams.trans h.program.teams
  vreg w n l hl := by rw [h'.vreg w n l hl, h.vreg]
  sreg w n := by rw [h'.sreg, h.sreg]
  rest w := ⟨(h'.rest w).1.trans (h.program.regs.p w), (h'.rest w).2.trans (h.program.regs.acc w)⟩

/-- The clause of R196 where a word need not land yet. -/
theorem KeepsData.landing {s t : State} (h : KeepsData s t) {p : Part} {k : Nat} {v : Word} {whole : Bool} (hw : whole = false) :
    (∀ w n l, l < 32 → (t.wave w).vreg n l = if whole = true ∧ (w, l) ∈ p.dst ∧ n = p.reg + k then v else (s.wave w).vreg n l) ∧
    (∀ w n, (t.wave w).sreg n = if whole = true ∧ (w, 32) ∈ p.dst ∧ n = p.reg + k then v else (s.wave w).sreg n) := by
  simp only [hw, Bool.false_eq_true, false_and, if_false]
  exact ⟨fun w n l _ => h.vreg w n l, h.sreg⟩

/-- R192, R235: a word of a load arrives when its turn has come, its requests gone. -/
theorem exec_loadWord {id i k : Nat} {s : State} {p : Part} (hp : (s.op id).parts[i]? = some p)
    (hkind : (s.op id).kind = .ld ∨ (s.op id).kind = .lds ∨ (s.op id).kind = .uld ∨ (s.op id).kind = .ldm) (hk : k < p.words)
    (hland : hasBit p.landed k = false) (hhurt : p.hurt = false)
    (hturn : p.plt = none ∧ s.partReady id i = true ∧ (p.bound ≠ 0 ∨ s.linkFree id i = true) ∨ p.plt.isSome = true) :
    ∃ u, Asked s u ∧ SameView s u ∧ exec (.loadDataArrive id i k) s = .next (u.arrive id i k) := by
  have hload : (s.op id).kind.isLoad = true := by rcases hkind with h | h | h | h <;> rw [h] <;> rfl
  have hldf : ((s.op id).kind == .ldf) = false := by rcases hkind with h | h | h | h <;> rw [h] <;> rfl
  have hjtab : ((s.op id).kind == .jtab) = false := by rcases hkind with h | h | h | h <;> rw [h] <;> rfl
  have hlen : i < (s.op id).parts.length := (List.getElem?_eq_some_iff.mp hp).1
  rw [exec_loadDataArrive, execLoadDataArrive]
  simp only [getD_of_getElem? hp, hload, hldf, hjtab, hlen, decide_true, Bool.true_and, Bool.false_and, Bool.false_eq_true, if_false]
  rcases hturn with ⟨hplt, hready, hlink⟩ | hplt
  · have hgo : (!s.partReady id i || !(p.bound != 0 || s.linkFree id i)) = false := by
      rcases hlink with h | h <;> simp [hready, h]
    simp only [hplt, Option.isSome_none, Bool.false_and, Bool.false_eq_true, if_false, hgo, if_true]
    split
    · exact ⟨_, linkPay_asked s id i, linkPay_view s id i, rfl⟩
    · exact ⟨s, .refl s, .refl s, rfl⟩
  · have harr : p.arrived (s.op id).kind = false := by
      have hne : ¬ p.landed + 1 = 2 ^ ((p.size + 3) / 4) := fun h => by
        rw [hasBit_of_all h hk] at hland
        cases hland
      simp [Part.arrived, hload, hhurt, hne]
    simp only [hplt, harr, Bool.not_false, Bool.and_true, if_true]
    exact ⟨s, .refl s, .refl s, rfl⟩

end Sys2Proof.Machine
end

section
/-! SUPPORT. The arrival of an LDF's data (R104, R199): the element and its scale byte are read together, and every word of it lands. -/

set_option Elab.async false

namespace Sys2Proof.Machine

open Sys2Proof Sys2Proof.Safety

/-- R199, R235: the data of an LDF arrives when its turn has come, its requests gone. -/
theorem exec_loadElem {id i : Nat} (k : Nat) {s : State} (hkind : (s.op id).kind = .ldf) (hready : s.partReady id i = true) (hlink : s.linkFree id i = true) :
    exec (.loadDataArrive id i k) s = .next ((s.linkPay id i).arriveElem id i) := by
  rw [exec_loadDataArrive, execLoadDataArrive]
  simp only [hkind, hready, hlink, OpKind.isLoad, Bool.false_and, Bool.not_true, Bool.or_true, Bool.or_self, Bool.false_eq_true, if_false, beq_self_eq_true, if_true]

/-- R294: an access outside a TASK region is no task's. -/
theorem State.partTask_none (s : State) (o : Op) {p : Part} (h : p.task = false) : s.partTask o p = none := by
  unfold State.partTask
  rw [h]
  rfl

/-- R199: an element without poison lands, and its read ends. -/
def State.landElem (s : State) (id i : Nat) (p : Part) (ws : List Word) : State :=
  ((s.modPart id i fun q => { q with hurt := false, scaleBad := false }).landWords p ws ws.length).finishRead id i

section
variable {s : State} {id i v : Nat} {p : Part} {scale : Option Nat}

/-- R104, R199: the words of an element that meets no poison, of its bytes and, where the slot has a scale, of its scale byte. -/
theorem State.arriveElem_ok (hp : (s.op id).parts[i]? = some p) (hclm : p.clm = false) (htask : p.task = false) (hstask : p.scaleTask = false)
    (hv : s.readPa (some (s.op id).core) p.pa p.size = (v, false)) (hy : yieldsWhole s (some (s.op id).core) (p.pa / 64))
    (hys : ((s.gridOf (s.op id).wave).slot (s.op id).fmt).sk = 1 → yieldsWhole s (some (s.op id).core) (p.scalePa / 64))
    (hscale : if ((s.gridOf (s.op id).wave).slot (s.op id).fmt).sk = 1 then ∃ e, scale = some e ∧ s.readPa (some (s.op id).core) p.scalePa 1 = (e, false)
      else scale = none) :
    ∃ u, SameView s u ∧ s.arriveElem id i =
      u.landElem id i p (loadElem ((s.gridOf (s.op id).wave).slot (s.op id).fmt) v scale) := by
  have hread := State.partRead_ok (n := p.size) (State.partTask_none s (s.op id) htask) fun _ => hy
  rw [hclm] at hread
  obtain ⟨u, hu, hread, hyield⟩ := hread
  simp only [Bool.false_eq_true, if_false, hv] at hread
  unfold State.arriveElem
  dsimp only
  rw [getD_of_getElem? hp, hread]
  dsimp only
  generalize (s.gridOf (s.op id).wave).slot (s.op id).fmt = f at hys hscale ⊢
  by_cases hsk : f.sk = 1
  · rw [if_pos hsk] at hscale
    obtain ⟨e, rfl, he⟩ := hscale
    have hyu : yieldsWhole u (some (s.op id).core) (p.scalePa / 64) := by
      rcases hyield with rfl | rfl
      · exact hys hsk
      · exact yieldsWhole_yieldLine hy (hys hsk)
    obtain ⟨u', hu', hread', -⟩ := State.partRead_ok (s := u) (o := s.op id) (p := { p with clm := false, task := p.scaleTask }) (pa := p.scalePa) (n := 1)
      (State.partTask_none u _ hstask) fun _ => hyu
    simp only [Bool.false_eq_true, if_false, hu.readPa, he] at hread'
    refine ⟨u', hu.trans hu', ?_⟩
    simp only [State.scaleRead, hread', hsk, beq_self_eq_true, if_true, Bool.or_self, Bool.false_and, Bool.false_eq_true, if_false]
    rfl
  · rw [if_neg hsk] at hscale
    subst hscale
    refine ⟨u, hu, ?_⟩
    have hsk' : (f.sk == 1) = false := by simpa using hsk
    simp only [hsk', Bool.or_self, Bool.false_and, Bool.false_eq_true, if_false]
    rfl

/-- R82: the flag falls where no other part is still to perform. -/
theorem landElem_flagFalls (ws : List Word) (hp : (s.op id).parts[i]? = some p) (hkind : (s.op id).kind = .ldf) (hlast : lastPart (s.op id) i) :
    FlagFalls (s.op id) s (s.landElem id i p ws) := by
  intro w f hf
  obtain ⟨hdone, hall⟩ := hlast
  have hmod := modPart_leaves s id i fun q => { q with hurt := false, scaleBad := false }
  have hmodop : (s.modPart id i fun q => { q with hurt := false, scaleBad := false }).op id = (s.op id).withPart i { p with hurt := false, scaleBad := false } := by
    rw [State.modPart_eq hp, State.setOp_op_self]
  unfold State.landElem
  generalize (s.modPart id i fun q => { q with hurt := false, scaleBad := false }) = u at hmod hmodop
  have hland := landWords_lands u p ws ws.length
  generalize u.landWords p ws ws.length = u' at hland
  have hop : u'.op id = (s.op id).withPart i { p with hurt := false, scaleBad := false } := (hland.op id).trans hmodop
  obtain ⟨n, hstamped⟩ := State.stampRead_op (s := u') (id := id) (i := i) (p := { p with hurt := false, scaleBad := false }) (by rw [hop]; exact Op.withPart_part hp)
  rw [hop, Op.withPart_withPart] at hstamped
  rw [State.finishRead_flag rfl, (stampRead_leaves u' id i).flag, hland.flag, hmod.flag]
  · rw [hstamped]; exact hdone
  · rw [hstamped]; exact hf
  · rw [hstamped]
    show (s.op id).kind ≠ .jtab
    rw [hkind]
    decide
  · rw [hstamped]
    have harr : ∀ q : Part, q.plt.isSome = true → q.arrived (s.op id).kind = true := fun q hq => by simp [Part.arrived, hkind, OpKind.isLoad, hq]
    exact Op.withPart_all ⟨rfl, harr _ rfl⟩ fun j q hq hj => ⟨(hall j q hq).1, harr q ((hall j q hq).2 hj)⟩

/-- R199: the words of an element are in its v-registers, and nothing else changes. -/
theorem landElem_spec (s : State) (id i : Nat) {p : Part} (ws : List Word) (hd : ∀ e ∈ p.dst, e.2 < 32) :
    KeepsMemory s (s.landElem id i p ws) ∧ (s.landElem id i p ws).reg = s.reg ∧ (s.landElem id i p ws).x.teams = s.x.teams ∧
    (∀ w n l, l < 32 → ((s.landElem id i p ws).wave w).vreg n l =
      if (w, l) ∈ p.dst ∧ p.reg ≤ n ∧ n < p.reg + ws.length then ws.getD (n - p.reg) 0#32 else (s.wave w).vreg n l) ∧
    ∀ w, ((s.landElem id i p ws).wave w).s = (s.wave w).s ∧ ((s.landElem id i p ws).wave w).p = (s.wave w).p ∧ ((s.landElem id i p ws).wave w).acc = (s.wave w).acc := by
  have hmod := (modPart_leaves s id i fun q => { q with hurt := false, scaleBad := false }).keepsData
  unfold State.landElem
  generalize (s.modPart id i fun q => { q with hurt := false, scaleBad := false }) = u at hmod
  have hland := landWords_lands u p ws ws.length
  have hend := finishRead_keepsData (u.landWords p ws ws.length) id i
  refine ⟨fun a => (hend.bytes a).trans ((hland.keepsMemory a).trans (hmod.bytes a)), hend.program.reg.trans (hland.reg.trans hmod.program.reg),
    hend.program.teams.trans (hland.teams.trans hmod.program.teams), fun w n l hl => ?_, fun w => ⟨?_, ?_, ?_⟩⟩
  · rw [hend.vreg, State.landWords_vreg u p ws ws.length (fun e he => Nat.le_of_lt (hd e he)) w n hl, hmod.vreg]
  · rw [hend.program.regs.sregs, State.landWords_s u p ws ws.length hd, hmod.program.regs.sregs]
  · rw [hend.program.regs.p, hland.wave, hmod.program.regs.p]
  · rw [hend.program.regs.acc, hland.wave, hmod.program.regs.acc]
end

end Sys2Proof.Machine

open Sys2Proof Sys2Proof.Machine Sys2Proof.Safety

/-- Settles O26: `State.arrive_ok` and `State.arriveElem_ok` say what arrives, `Arrives` and `State.landWords_vreg` where it lands, and
`landPart_flagFalls` and `loadElem_flagFalls` when the flag falls. -/
theorem loadWordArrives : Obligations.LoadWordArrives := by
  unfold Obligations.LoadWordArrives
  refine ⟨?_, ?_⟩
  · intro id i k v data bound s o p ho hp hkind hk hland hhurt htask hdst hturn hy hv whole hwhole
    subst ho
    obtain ⟨s', hasked, hview, he⟩ := exec_loadWord hp hkind hk hland hhurt hturn
    have hop := hview.op id
    obtain ⟨u, w, hleave, huop, harr⟩ := State.arrive_ok (s := s') (id := id) (i := i) (k := k) (v := v) (data := data) (bound := bound) (p := p)
      (by rw [hop]; exact hp) hk hland hhurt (by rw [hop, hview.partTask]; exact htask)
      (fun hc hb => by rw [hop]; exact hasked.yieldsWhole hview (hy hc hb)) (by rw [hop, hview.team, hview.readPa]; exact hv)
    have hdata : KeepsData s u := hview.leaves.keepsData.trans hleave.keepsData
    rw [harr] at he
    refine ⟨_, he, ?_⟩
    have hgran : (bound + 1 = 2 ^ p.granules) ↔ whole = true := by rw [hwhole]; exact (decide_eq_true_iff).symm
    by_cases hw : whole = true
    · rw [if_pos (hgran.mpr hw)]
      obtain ⟨hbytes, hreg, hteams, hvreg, hsreg, hrest⟩ := (landPart_arrives (s := u) (id := id) (i := i) k (p := { p with val := w, bound := bound })
        (BitVec.ofNat 32 (data / 2 ^ (32 * k))) hdst).after hdata
      refine ⟨hbytes, hreg, hteams, ?_, ?_, hrest, ?_⟩
      · simpa only [hw, true_and] using hvreg
      · simpa only [hw, true_and] using hsreg
      · intro _ hlast hdone hall
        have hleaves := hview.leaves.trans hleave
        rw [hop] at huop
        have hpart : (u.op id).parts[i]? = some { p with val := w, bound := bound } := by
          rw [huop]
          exact Op.withPart_part hp
        refine hleaves.flagFalls (by rw [huop]; rfl) (landPart_flagFalls _ hpart ?_ hland hhurt hlast (by rw [huop]; exact hdone) fun j q hq => ?_)
        · rw [huop]
          show (s.op id).kind ≠ .jtab
          rcases hkind with h | h | h | h <;> rw [h] <;> decide
        · rw [huop] at hq ⊢
          by_cases hj : j = i
          · subst hj
            obtain rfl := Option.some.inj ((Op.withPart_part hp).symm.trans hq)
            exact ⟨hhurt, fun h => absurd rfl h⟩
          · rw [Op.withPart, List.getElem?_set_ne (Ne.symm hj)] at hq
            exact hall j q hq
    · rw [if_neg (fun h => hw (hgran.mp h))]
      obtain ⟨hvreg, hsreg⟩ := hdata.landing (p := p) (k := k) (v := BitVec.ofNat 32 (data / 2 ^ (32 * k))) (whole := whole) (by simpa using hw)
      exact ⟨hdata.bytes, hdata.program.reg, hdata.program.teams, hvreg, hsreg, fun w => ⟨hdata.program.regs.p w, hdata.program.regs.acc w⟩, fun h => absurd h hw⟩
  · intro id i k v s o p f scale ho hp hkind hf hclm htask hstask hready hlink hdst hv hy hys hscale
    subst ho
    have he := exec_loadElem k hkind hready hlink
    have hview := linkPay_view s id i
    have hasked := linkPay_asked s id i
    generalize s.linkPay id i = s' at he hview hasked
    have hop := hview.op id
    obtain ⟨u, hu, helem⟩ := State.arriveElem_ok (s := s') (id := id) (i := i) (v := v) (p := p) (scale := scale) (by rw [hop]; exact hp) hclm htask hstask
      (by rw [hop, hview.readPa]; exact hv) (by rw [hop]; exact hasked.yieldsWhole hview hy)
      (by rw [hop, hview.grid, ← hf]; exact fun h => hasked.yieldsWhole hview (hys h)) (by rw [hop, hview.grid, ← hf, hview.readPa]; exact hscale)
    rw [helem, hop, hview.grid, ← hf] at he
    have hdata := (hview.trans hu).leaves.keepsData
    obtain ⟨hbytes, hreg, hteams, hvreg, hrest⟩ := landElem_spec u id i (loadElem f v scale) hdst
    have huop : u.op id = s.op id := (hu.op id).trans hop
    refine ⟨_, he, fun a => (hbytes a).trans (hdata.bytes a), hreg.trans hdata.program.reg, hteams.trans hdata.program.teams, fun w n l hl => ?_, fun w => ?_, fun hlast => ?_⟩
    · rw [hvreg w n l hl, hdata.vreg]
    · obtain ⟨hs, hpred, hacc⟩ := hrest w
      exact ⟨hs.trans (hdata.program.regs.sregs w), hpred.trans (hdata.program.regs.p w), hacc.trans (hdata.program.regs.acc w)⟩
    · rw [← huop] at hp hkind hlast
      exact (hview.trans hu).leaves.flagFalls (by rw [huop]) (landElem_flagFalls (loadElem f v scale) hp hkind hlast)
end

section
/-! SUPPORT. A map of region 8 that waits to be installed (R27, R29): region 8 of package 0 is region 0 of package 1, whose lines leave no cache
at the install. -/

set_option Elab.async false

open Sys2Proof Sys2Proof.Machine Sys2Proof.Safety

namespace Sys2Proof.Machine

/-- A byte stands at the first address of package 1, and nothing else is written. -/
def strayHome (b : Byte) : State := { m := { mem := setMemByte [] (2 ^ 39) b } }

/-- The LLC holds the line of that byte clean, and a map of region 8 is due to be installed. -/
def strayMap (b : Byte) : State :=
  { sch := { due := [.mapInstall] }
    reg := { mapLoad := some { region := 8 } }
    m := { mem := (strayHome b).m.mem, llc := [(2 ^ 33, { valid := true, data := (strayHome b).homeData (2 ^ 33) })] } }

/-- The state once the event is taken. -/
def strayDue (b : Byte) : State := { strayMap b with sch := {} }

/-- The state after the install. -/
def strayInstalled (b : Byte) : State := ((strayDue b).installMap { region := 8 }).agentDone (askAgent 12 0)

theorem strayMap_inv (b : Byte) : MemoryInv (strayMap b) where
  mem := setMemByte_wf _ _ rfl
  scrambled := rfl
  coherent := {
    clean := fun line hv _ => by
      unfold State.llcLine strayMap at hv ⊢
      simp only [SMap.get] at hv ⊢
      split
      · next h =>
        rw [beq_iff_eq.1 h]
        exact homeData_congr rfl rfl _
      · next h =>
        rw [if_neg h] at hv
        cases hv
    dirty := fun _ _ _ hv _ => nomatch hv }

theorem inRegion_beyond (s : State) (line : Nat) : s.inRegion 8 line = false := by
  have h : (64 * line / 2 ^ 36 % 8 == 8) = false := by rw [beq_eq_false_iff_ne]; omega
  unfold State.inRegion
  rw [h, Bool.and_false]

/-- No line that a cache holds is taken to be in region 8. -/
theorem heldIn_beyond (s : State) : s.heldLines.filter (s.inRegion 8) = [] :=
  List.filter_eq_nil_iff.2 fun line _ => by rw [inRegion_beyond]; decide

theorem strayMap_step (b : Byte) : step (strayMap b) = .next (strayInstalled b) := by
  have hstep : step (strayMap b) = execMapInstall (strayDue b) := rfl
  have hload : (strayDue b).reg.mapLoad = some { region := 8 } := rfl
  have hfree : (strayDue b).acceptedIn 8 = false := rfl
  rw [hstep, execMapInstall, hload]
  dsimp only
  rw [hfree, heldIn_beyond]
  exact congrArg _ (act_of_answered (as := []) ⟨rfl, fun _ h => nomatch h⟩ (askAgent 12 0) fun u => u.installMap { region := 8 })

/-- The install flushes nothing and clears the homes of package 1's region 0. -/
theorem strayInstalled_m (b : Byte) : (strayInstalled b).m.scrambled = [(8, 1)] ∧ (strayInstalled b).m.mem = [] ∧ (strayInstalled b).m.llc = (strayMap b).m.llc := by
  have hflush : (strayDue b).flushRegion 8 = strayDue b := by unfold State.flushRegion; rw [heldIn_beyond]; rfl
  have hm : (strayInstalled b).m.scrambled = (((strayDue b).flushRegion 8).scramble 8).m.scrambled ∧
    (strayInstalled b).m.mem = (((strayDue b).flushRegion 8).scramble 8).m.mem ∧ (strayInstalled b).m.llc = (((strayDue b).flushRegion 8).scramble 8).m.llc :=
    ⟨rfl, rfl, rfl⟩
  rw [hflush] at hm
  obtain ⟨hscr, hmem, hllc⟩ := hm
  refine ⟨hscr, hmem.trans ?_, hllc⟩
  show ((strayHome b).m.mem.filter fun e => e.1 / 2 ^ 36 != 8) = []
  by_cases hb : b = memDefault
  · subst hb
    rfl
  · have hone : (strayHome b).m.mem = [(2 ^ 39, b)] := if_neg hb
    rw [hone]
    exact List.filter_eq_nil_iff.2 fun e he => by rw [List.mem_singleton.1 he]; simp

/-- Were the caches coherent after the install, the byte would be what the home has then. -/
theorem strayHome_of_inv {b : Byte} (h : MemoryInv (strayInstalled b)) : b = byteOf (State.homeData { m := { scrambled := [(8, 1)] } } (2 ^ 33)) 0 := by
  obtain ⟨hscr, hmem, hllc⟩ := strayInstalled_m b
  have hline : (strayInstalled b).llcLine (2 ^ 33) = { valid := true, data := (strayHome b).homeData (2 ^ 33) } := by
    unfold State.llcLine
    rw [hllc]
    rfl
  have hclean := h.coherent.clean (2 ^ 33) (by rw [hline]) (by rw [hline])
  rw [hline, homeData_congr (s := { m := { scrambled := [(8, 1)] } }) hmem hscr] at hclean
  rw [← hclean, byteOf_homeData _ _ _ (by decide)]
  show b = memByte (setMemByte [] (2 ^ 39) b) (2 ^ 39) ^^^ 0#8
  rw [memByte_set, if_pos rfl, BitVec.xor_zero]

end Sys2Proof.Machine

/-- Refutes O60: `MemoryInv` says nothing of the map that waits to be installed. Where that is of region 8, the install makes undefined the contents
of package 1's region 0 and takes no line of it from the LLC, so that not both of two lines that differ in a byte are their home's after it. -/
theorem not_stepKeepsCoherence : ¬ Obligations.StepKeepsCoherence := by
  unfold Obligations.StepKeepsCoherence
  intro h
  have hbyte : ∀ b, b = byteOf (State.homeData { m := { scrambled := [(8, 1)] } } (2 ^ 33)) 0 := fun b =>
    strayHome_of_inv (h _ _ (strayMap_inv b) (strayMap_step b))
  exact absurd ((hbyte 0#8).trans (hbyte 1#8).symm) (by decide)
end

section
/-! SUPPORT. A store that its shadow issued otherwise (R337), one byte of which met poisoned data (R192, R33). -/

set_option Elab.async false

open Sys2Proof Sys2Proof.Machine Sys2Proof.Safety

namespace Sys2Proof.Machine

/-- The one part of the store: it met poisoned data. -/
def hurtPart : Part := { hurt := true }

/-- A store of one lane that its shadow issued otherwise. -/
def hurtOp : Op := { kind := .st, odd := true, cls := .pw, parts := [hurtPart] }

/-- The store is all that is outstanding. -/
def hurtStore : State := { o := { ops := [(1, hurtOp)] } }

/-- The store may perform. -/
theorem hurtStore_canPerform : hurtStore.canPerform 1 0 = true := by decide +kernel

theorem hurtStore_step : exec (.memoryEventPerform 1 0) hurtStore = .next (hurtStore.stopOp 1 0) := by
  show execMemoryEventPerform 1 0 hurtStore = _
  unfold execMemoryEventPerform
  rw [hurtStore_canPerform]
  rfl

/-- What is stopped records the poisoned data (R33) and the mismatch (R339), both of tenant 0. -/
theorem stopOp_hurtStore : (hurtStore.stopOp 1 0).x.tenants.map (fun e => (e.1, e.2.records.length)) = [(0, 2)] := by decide +kernel

/-- No tenant has one record once the store is stopped. -/
theorem stopOp_hurtStore_records (k : Nat) : ((hurtStore.stopOp 1 0).tenant k).records.length ≠ 1 := by
  have hall := stopOp_hurtStore
  unfold State.tenant
  generalize (hurtStore.stopOp 1 0).x.tenants = m at hall
  obtain ⟨e, rfl, he⟩ := List.map_eq_singleton_iff.1 hall
  simp only [SMap.get]
  split
  · rw [(Prod.mk.inj he).2]; decide
  · exact (by decide : (0 : Nat) ≠ 1)

end Sys2Proof.Machine

/-- Refutes O27: a mismatch ends every part of the operation that has not performed, one that met poisoned data too, and that is recorded before the
mismatch is: the queue of tenant 0 then has two records more, that of no tenant has one. -/
theorem not_writePerforms : ¬ Obligations.WritePerforms := by
  unfold Obligations.WritePerforms
  rintro ⟨-, h⟩
  obtain ⟨t, r, k, hstep, -, -, -, -, -, hrec, -⟩ := h 1 0 hurtStore hurtOp hurtPart rfl rfl hurtStore_canPerform rfl rfl rfl rfl rfl
    (by decide) (fun _ h => nomatch h) rfl (fun _ => rfl)
  obtain rfl : hurtStore.stopOp 1 0 = t := by injection hurtStore_step.symm.trans hstep
  exact stopOp_hurtStore_records k (congrArg List.length hrec)
end

section
/-! SUPPORT. What the checkers and the links note as a line is taken from its holders: records of closed intervals, none of them waiting, and debits; no
record of a tenant's queue (R229, R238, R335). -/

set_option Elab.async false

open Sys2Proof Sys2Proof.Machine Sys2Proof.Safety

namespace Sys2Proof.Machine

/-- Closed intervals are on their way besides, none of them waiting; the tenants' queued records stand. -/
structure Noted (s t : State) : Prop where
  intervals : ∃ l, t.m.intervals = s.m.intervals ++ l ∧ ∀ h ∈ l, h.waiting = false
  records : ∀ k, (t.tenant k).records = (s.tenant k).records
  viols : ∀ k, (t.tenant k).viols = (s.tenant k).viols

theorem Noted.of_eq {s t : State} (hi : t.m.intervals = s.m.intervals) (hx : t.x.tenants = s.x.tenants) : Noted s t where
  intervals := ⟨[], by rw [hi, List.append_nil], fun _ h => nomatch h⟩
  records k := by unfold State.tenant; rw [hx]
  viols k := by unfold State.tenant; rw [hx]

theorem Noted.refl (s : State) : Noted s s := .of_eq rfl rfl

theorem Noted.trans {s t u : State} (h : Noted s t) (k : Noted t u) : Noted s u where
  intervals := by
    obtain ⟨l, hl, hw⟩ := h.intervals
    obtain ⟨l', hl', hw'⟩ := k.intervals
    exact ⟨l ++ l', by rw [hl', hl, List.append_assoc], fun v hv => (List.mem_append.1 hv).elim (hw v) (hw' v)⟩
  records n := (k.records n).trans (h.records n)
  viols n := (k.viols n).trans (h.viols n)

theorem Noted.ite {s t u : State} {p : Prop} [Decidable p] (h : Noted s t) (k : Noted s u) : Noted s (if p then t else u) := by
  split
  · exact h
  · exact k

theorem Noted.foldl {γ : Type} (f : State → γ → State) (h : ∀ s a, Noted s (f s a)) (l : List γ) (s : State) : Noted s (l.foldl f s) := by
  induction l generalizing s with
  | nil => exact .refl s
  | cons a l ih => exact (h s a).trans (ih _)

theorem setClock_noted (s : State) (h t : Nat) : Noted s (s.setClock h t) := by
  unfold State.setClock
  split <;> exact .of_eq rfl rfl

theorem openAt_noted (s : State) (line h : Nat) (sw : Bool) : Noted s (s.openAt line h sw) := .ite (.refl s) (.of_eq rfl rfl)

theorem closeAt_noted (s : State) (line h : Nat) : Noted s (s.closeAt line h) := by
  unfold State.closeAt
  dsimp only
  split
  · exact ⟨⟨_, rfl, fun v hv => by rw [List.mem_singleton.1 hv]⟩, fun _ => rfl, fun _ => rfl⟩
  · exact .refl s

theorem passLine_noted (s : State) (line a b : Nat) : Noted s (s.passLine line a b) := by
  have hb : Noted s (if (s.held line b).opened then s.closeAt line b else s) := .ite (closeAt_noted _ _ _) (.refl s)
  exact (hb.trans ((closeAt_noted _ _ _).trans (setClock_noted _ _ _))).trans (.ite (openAt_noted _ _ _ _) (.refl _))

theorem returnLine_noted (s : State) (core line : Nat) : Noted s (s.returnLine core line) :=
  ((setClock_noted _ _ _).trans ((closeAt_noted _ _ _).trans (setClock_noted _ _ _))).trans (.ite (.refl _) (openAt_noted _ _ _ _))

theorem payBytes_noted (s : State) (t kind n : Nat) : Noted s (s.payBytes t kind n) := by
  unfold State.payBytes
  split
  · exact .refl s
  · refine ⟨⟨[], (List.append_nil _).symm, fun _ h => nomatch h⟩, fun k => ?_, fun k => ?_⟩ <;>
    · unfold State.modTenant
      rw [State.setTenant_tenant]
      split
      · next h => rw [h]; rfl
      · rfl

theorem billBack_noted (s : State) (c line : Nat) : Noted s (s.billBack c line) :=
  .ite (.ite (.refl s) (.foldl _ (fun s l => payBytes_noted s _ (linkKind l) 64) _ s)) (.refl s)

theorem setL1_noted (s : State) (c line : Nat) (x : Line) : Noted s (s.setL1 c line x) := .of_eq rfl rfl

theorem dropL1_noted (s : State) (c line : Nat) : Noted s (s.dropL1 c line) :=
  .ite ((returnLine_noted s c line).trans (setL1_noted _ _ _ _)) (.refl s)

theorem fillLlc_noted (s : State) (line : Nat) : Noted s (s.fillLlc line) := by
  unfold State.fillLlc
  split
  · exact .refl s
  · exact .ite (.refl s) ((passLine_noted _ _ _ _).trans (.of_eq rfl rfl))

theorem writeBack_noted (s : State) (c line : Nat) : Noted s (s.writeBack c line) := by
  have hput : ∀ (u : State) d p, Noted u (u.putBelow line d p) := fun u _ _ => .ite (.of_eq rfl rfl) (.of_eq rfl rfl)
  exact (fillLlc_noted s line).trans ((setClock_noted _ _ _).trans (hput _ _ _))

theorem saveL1_noted (s : State) (c line : Nat) : Noted s (s.saveL1 c line) := .ite ((writeBack_noted s c line).trans (setL1_noted _ _ _ _)) (.refl s)

theorem evictL1_noted (s : State) (c line : Nat) : Noted s (s.evictL1 c line) :=
  (billBack_noted s c line).trans ((Noted.ite (writeBack_noted _ _ _) (saveL1_noted _ _ _)).trans (dropL1_noted _ _ _))

theorem recall_noted (s : State) (line : Nat) (but : Option Nat) : Noted s (s.recall line but) := by
  unfold State.recall
  dsimp only
  have hdrop := Noted.foldl (fun s' c => if but == some c || s.owner line == some c then s' else s'.dropL1 c line)
    (fun u c => .ite (.refl u) (dropL1_noted _ _ _)) (s.holders line) s
  split
  · exact .ite hdrop (hdrop.trans (evictL1_noted _ _ _))
  · exact hdrop

theorem poisonLine_noted (s : State) (line : Nat) : Noted s (s.poisonLine line) :=
  (recall_noted s line none).trans (.ite (.of_eq rfl rfl) (.of_eq rfl rfl))

end Sys2Proof.Machine
end

section
/-! SUPPORT. The coherence checkers (R240, R241): what a violation is, what the containment of one leaves and records, and what a record that is received
does where no other waits for it. -/

set_option Elab.async false

open Sys2Proof Sys2Proof.Machine Sys2Proof.Safety

namespace Sys2Proof.Machine

/-! ### A poisoned line (R33) -/

/-- Every byte of a poisoned line reads as poisoned below the L1s. -/
theorem poisonLine_poison (s : State) (line : Nat) : ((s.poisonLine line).lineVal line).2 = 0xFFFF#16 := by
  obtain ⟨-, hown, -⟩ := recall_spec s line
  unfold State.poisonLine
  dsimp only
  generalize s.recall line none = u at hown
  split
  next hv =>
    have h : (u.setLlc line { u.llcLine line with poison := 0xFFFF#16, dirty := true }).owner line = none := hown
    unfold State.lineVal
    rw [h]
    simp [State.below, llcLine_setLlc, hv]
  next hv =>
    have h : (u.poisonHome line).owner line = none := hown
    unfold State.lineVal
    rw [h]
    have hl : ((u.poisonHome line).llcLine line).valid = false := Bool.eq_false_iff.2 hv
    have hp : (u.poisonHome line).homePoison line = true := SMap.get_set_self false u.m.memPoison line true
    simp [State.below, hl, hp]

theorem lineVal_of_m {s t : State} (h : t.m = s.m) (line : Nat) : t.lineVal line = s.lineVal line := by
  have hown : t.owner line = s.owner line := owner_congr (by rw [h]) line
  have hbelow : t.below line = s.below line := below_congr (by rw [h]) (by rw [h]) (by rw [h]) (by rw [h]) line
  unfold State.lineVal
  rw [hown, hbelow]
  simp only [l1Line_congr (s := s) (t := t) (by rw [h])]

theorem overlayBad_none (s : State) (a : Nat) (bad : Bool) : s.overlayBad none a bad = bad := by
  unfold State.overlayBad
  induction s.m.prov generalizing bad with
  | nil => rfl
  | cons q qs ih => exact ih bad

theorem readPa_poison (s : State) (line : Nat) (h : (s.lineVal line).2 = 0xFFFF#16) : (s.readPa none (64 * line) 4).2 = true := by
  have hl : 64 * line / 64 = line := by omega
  have ho : 64 * line % 64 = 0 := by omega
  unfold State.readPa
  rw [hl, ho]
  dsimp only
  rw [h]
  exact List.any_eq_true.2 ⟨0, by simp, by rw [overlayBad_none]; decide⟩

/-! ### Containment where no release of the line is incomplete (R241) -/

/-- No release is to be discarded for a line of slice `k`, and every violation queued for the device is of that slice's checker. -/
structure Watched (line k : Nat) (s : State) : Prop where
  rels : s.relsOnLine line = []
  home : s.homeSlice line = some k
  viols : ∀ e ∈ (s.tenant 0).viols, e.2.2 = sliceChecker k

/-- The record of a violation where no release is discarded (R241, R243). -/
def lineRecord (scope line kind lo hi k : Nat) : List Byte :=
  containBytes kind scope 2 0 (64 * line) lo hi (sliceChecker k) 0xFFFFFFFF 0 0 0 0

/-- R243: the kind, the flags, the address and the interval of LT in a record of containment. -/
def containFields (r : List Byte) : Nat × Nat × Nat × Nat × Nat :=
  (leNat (r.take 1), leNat ((r.drop 2).take 2), leNat ((r.drop 8).take 8), leNat ((r.drop 0x10).take 8), leNat ((r.drop 0x18).take 8))

theorem containBytes_fields (kind scope flags ndisc line lo hi checker wave pc pol poe rline : Nat) :
    containFields (containBytes kind scope flags ndisc line lo hi checker wave pc pol poe rline) =
      (kind % 2 ^ 8, flags % 2 ^ 16, line % 2 ^ 64, lo % 2 ^ 64, hi % 2 ^ 64) := by
  unfold containFields containBytes
  simp [List.drop_append, List.drop_eq_nil_of_le, leNat_leBytes]

theorem watched_of {line k : Nat} {s t : State} (h : Watched line k s) (ho : t.o = s.o) (hp : t.m.prov = s.m.prov) (hr : t.reg = s.reg)
    (hm : t.pk.remap = s.pk.remap) (hv : ∀ e ∈ (t.tenant 0).viols, e.2.2 = sliceChecker k) : Watched line k t where
  rels := by
    have hrels := h.rels
    unfold State.relsOnLine at hrels ⊢
    rw [ho, hp]
    exact hrels
  home := (homeSlice_congr hr hm line).trans h.home
  viols := hv

theorem poisonLine_watched {line k : Nat} {s : State} (h : Watched line k s) : Watched line k (s.poisonLine line) := by
  obtain ⟨hreg, hpk, ho, -, -, hm⟩ := poisonLine_only s line
  exact watched_of h ho (by rw [hm]) hreg (by rw [hpk]) (by rw [(poisonLine_noted s line).viols]; exact h.viols)

/-- R244: no violation of the same checker goes before another. -/
theorem laterViols_same {t : Tenant} {ck : Nat} (h : ∀ e ∈ t.viols, e.2.2 = ck) (cycle : Nat) : t.laterViols cycle ck = 0 := by
  unfold Tenant.laterViols
  rw [List.length_eq_zero_iff]
  have hall : ∀ e ∈ t.viols.reverse.zip (List.range t.viols.length), ¬ ck < e.1.2.2 := fun e he => by
    rw [h _ (List.mem_reverse.1 (List.of_mem_zip he).1)]
    exact lt_irrefl _
  generalize t.viols.reverse.zip (List.range t.viols.length) = l at hall
  cases l with
  | nil => rfl
  | cons e l => simp [List.takeWhile, hall e List.mem_cons_self]

/-- R241, R244: a violation of the one checker that has reported any to the device is recorded last. -/
theorem postViolation_device (s : State) (ck : Nat) (r : List Byte) (h : ∀ e ∈ (s.tenant 0).viols, e.2.2 = ck) :
    ((s.postViolation { tenant := 0 } ck r).tenant 0).records = (s.tenant 0).records ++ [r] ∧
    ∀ e ∈ ((s.postViolation { tenant := 0 } ck r).tenant 0).viols, e.2.2 = ck := by
  have hlater := laterViols_same h s.sch.cycle
  have htenant : (s.postViolation { tenant := 0 } ck r).tenant 0 =
      { (s.queueRecord 0 r).tenant 0 with
        records := (s.tenant 0).records ++ [r]
        viols := ((s.tenant 0).viols.filter fun e => e.1 < (s.tenant 0).nrec && (s.tenant 0).nrec ≤ e.1 + (s.tenant 0).records.length) ++
          [((s.tenant 0).nrec, s.sch.cycle, ck)] ++ ((s.tenant 0).viols.filter fun e => (s.tenant 0).nrec ≤ e.1).map fun e => (e.1 + 1, e.2) } := by
    unfold State.postViolation
    dsimp only
    rw [hlater]
    simp only [Nat.sub_zero, List.take_length, List.drop_length, List.append_nil]
    exact SMap.get_set_self _ _ _ _
  rw [htenant]
  refine ⟨rfl, fun e he => ?_⟩
  simp only [List.mem_append, List.mem_filter, List.mem_singleton, List.mem_map] at he
  obtain (⟨he, -⟩ | rfl) | ⟨e', ⟨he', -⟩, rfl⟩ := he
  · exact h e he
  · rfl
  · exact h e' he'

/-- A record changes the tenants and the groups alone. -/
theorem postViolation_frame (s : State) (g : Group) (ck : Nat) (r : List Byte) :
    (s.postViolation g ck r).m = s.m ∧ (s.postViolation g ck r).o = s.o ∧ (s.postViolation g ck r).reg = s.reg ∧ (s.postViolation g ck r).pk = s.pk := by
  unfold State.postViolation
  simp only [State.queueRecord, State.modTenant, State.setTenant_m, State.setTenant_o, State.setTenant_reg, State.setTenant_pk, and_self]

/-- R241: where no release is discarded the line is poisoned and the device told. -/
theorem containLine_watched_eq {line k : Nat} {s : State} (h : Watched line k s) (kind lo hi : Nat) :
    s.containLine line kind lo hi =
      (s.poisonLine line).postViolation { tenant := 0 } (sliceChecker k) (lineRecord ((s.poisonLine line).lineScope line).code line kind lo hi k) := by
  have hhome := (poisonLine_watched h).home
  unfold State.containLine
  rw [h.rels]
  dsimp only [List.isEmpty]
  rw [if_pos rfl, hhome, Option.getD_some, lineRecord]

/-- What the containment of a violation leaves: the line poisoned, its record last in the device's queue, nothing waiting. -/
structure ContainedLine (line : Nat) (b : Nat × Nat × Nat) (k : Nat) (s t : State) : Prop where
  watched : Watched line k t
  record : ∃ scope, (t.tenant 0).records = (s.tenant 0).records ++ [lineRecord scope line b.1 b.2.1 b.2.2 k]
  intervals : ∃ l, t.m.intervals = s.m.intervals ++ l ∧ ∀ h ∈ l, h.waiting = false
  history : t.m.history = s.m.history
  poison : (t.readPa none (64 * line) 4).2 = true
  bytes : KeepsMemory s t

theorem containLine_contained {line k : Nat} {s : State} (h : Watched line k s) (b : Nat × Nat × Nat) :
    ContainedLine line b k s (s.containLine line b.1 b.2.1 b.2.2) := by
  rw [containLine_watched_eq h]
  have hp := poisonLine_watched h
  have hnoted := poisonLine_noted s line
  obtain ⟨hrec, hviols⟩ := postViolation_device (s.poisonLine line) (sliceChecker k)
    (lineRecord ((s.poisonLine line).lineScope line).code line b.1 b.2.1 b.2.2 k) hp.viols
  obtain ⟨hm, ho, hreg, hpk⟩ := postViolation_frame (s.poisonLine line) { tenant := 0 } (sliceChecker k)
    (lineRecord ((s.poisonLine line).lineScope line).code line b.1 b.2.1 b.2.2 k)
  exact {
    watched := watched_of hp ho (by rw [hm]) hreg (by rw [hpk]) hviols
    record := ⟨_, by rw [hrec, hnoted.records]⟩
    intervals := by rw [hm]; exact hnoted.intervals
    history := by rw [hm, (poisonLine_only s line).m]
    poison := readPa_poison _ line (by rw [lineVal_of_m hm, poisonLine_poison])
    bytes := ((poisonLine_leaves s line).trans (postViolation_leaves _ { tenant := 0 } _ _)).bytes }

/-! ### A record is received (R240) -/

/-- The violations of one record, contained one after another. -/
structure ContainedAll (line : Nat) (bad : List (Nat × Nat × Nat)) (k : Nat) (s t : State) : Prop where
  watched : Watched line k t
  records : ∃ rs, (t.tenant 0).records = (s.tenant 0).records ++ rs ∧
    rs.map containFields = bad.map fun b => (b.1 % 2 ^ 8, 2, 64 * line % 2 ^ 64, b.2.1 % 2 ^ 64, b.2.2 % 2 ^ 64)
  intervals : ∃ l, t.m.intervals = s.m.intervals ++ l ∧ ∀ h ∈ l, h.waiting = false
  history : t.m.history = s.m.history
  poison : bad ≠ [] → (t.readPa none (64 * line) 4).2 = true
  bytes : KeepsMemory s t

theorem foldl_containLine {line k : Nat} (bad : List (Nat × Nat × Nat)) {s : State} (h : Watched line k s) :
    ContainedAll line bad k s (bad.foldl (fun (s : State) b => s.containLine line b.1 b.2.1 b.2.2) s) := by
  induction bad generalizing s with
  | nil =>
    exact ⟨h, ⟨[], by simp, rfl⟩, ⟨[], by simp, fun _ h => nomatch h⟩, rfl, fun h => absurd rfl h, fun _ => rfl⟩
  | cons b bad ih =>
    have hb := containLine_contained h b
    obtain ⟨hw, ⟨rs, hrs, hfields⟩, ⟨l, hl, hlw⟩, hhist, hpoison, hbytes⟩ := ih hb.watched
    obtain ⟨scope, hrec⟩ := hb.record
    obtain ⟨l₀, hl₀, hlw₀⟩ := hb.intervals
    rw [List.foldl_cons]
    refine ⟨hw, ⟨lineRecord scope line b.1 b.2.1 b.2.2 k :: rs, ?_, ?_⟩, ⟨l₀ ++ l, ?_, ?_⟩, hhist.trans hb.history, fun _ => ?_, ?_⟩
    · rw [hrs, hrec, List.append_assoc, List.singleton_append]
    · rw [List.map_cons, List.map_cons, hfields, lineRecord, containBytes_fields]
      rfl
    · rw [hl, hl₀, List.append_assoc]
    · exact fun v hv => (List.mem_append.1 hv).elim (hlw₀ v) (hlw v)
    · cases bad with
      | nil => exact hb.poison
      | cons b' bad => exact hpoison (List.cons_ne_nil _ _)
    · exact fun a => (hbytes a).trans (hb.bytes a)

/-! ### What a violation is (R240) -/

/-- Of two intervals, the one of `line` that ends last before `start`. -/
def laterBefore (line start : Nat) (b : Option Interval) (h : Interval) : Option Interval :=
  if h.line == line && h.fin < start then
    match b with
    | none => some h
    | some k => if k.fin < h.fin then some h else b
  else b

theorem predecessor_eq (s : State) (v : Interval) : s.predecessor v = s.m.history.foldl (laterBefore v.line v.start) none := rfl

/-- R240: of the intervals of `line` in a list, the one that ends last before `start`; none where none does. -/
def IsLatest (line start : Nat) (l : List Interval) : Option Interval → Prop
  | none => ∀ h ∈ l, h.line = line → start ≤ h.fin
  | some p => p ∈ l ∧ p.line = line ∧ p.fin < start ∧ ∀ q ∈ l, q.line = line → q.fin < start → q.fin ≤ p.fin

theorem laterBefore_isLatest {line start : Nat} {l : List Interval} {b : Option Interval} (hb : IsLatest line start l b) (h : Interval) :
    IsLatest line start (l ++ [h]) (laterBefore line start b h) := by
  cases b with
  | none =>
    unfold laterBefore
    split
    next hc => grind [IsLatest]
    next hc => grind [IsLatest]
  | some k =>
    unfold laterBefore
    split
    next hc =>
      dsimp only
      split
      next hk => grind [IsLatest]
      next hk => grind [IsLatest]
    next hc => grind [IsLatest]

theorem predecessor_isLatest (s : State) (v : Interval) : IsLatest v.line v.start s.m.history (s.predecessor v) := by
  rw [predecessor_eq]
  induction s.m.history using List.reverseRecOn with
  | nil => exact fun _ h => nomatch h
  | append_singleton l h ih =>
    rw [List.foldl_concat]
    exact laterBefore_isLatest ih h

theorem predecessor_none {s : State} {v : Interval} (h : s.predecessor v = none) : ∀ q ∈ s.m.history, q.line = v.line → v.start ≤ q.fin := by
  have hl := predecessor_isLatest s v
  rw [h] at hl
  exact hl

theorem predecessor_some {s : State} {v p : Interval} (h : s.predecessor v = some p) :
    p ∈ s.m.history ∧ p.line = v.line ∧ p.fin < v.start ∧ ∀ q ∈ s.m.history, q.line = v.line → q.fin < v.start → q.fin ≤ p.fin := by
  have hl := predecessor_isLatest s v
  rw [h] at hl
  exact hl

theorem predecessor_none_iff (s : State) (v : Interval) : s.predecessor v = none ↔ ∀ q ∈ s.m.history, q.line = v.line → v.start ≤ q.fin := by
  refine ⟨predecessor_none, fun hall => ?_⟩
  cases hp : s.predecessor v with
  | none => rfl
  | some p =>
    obtain ⟨hmem, hline, hbefore, -⟩ := predecessor_some hp
    exact absurd (hall p hmem hline) (by omega)

/-- Where no two intervals of the line end together, the latest is the predecessor. -/
theorem predecessor_some_iff {s : State} {v : Interval}
    (huniq : ∀ p ∈ s.m.history, ∀ q ∈ s.m.history, p.line = v.line → q.line = v.line → p.fin = q.fin → p = q) (p : Interval) :
    s.predecessor v = some p ↔
      p ∈ s.m.history ∧ p.line = v.line ∧ p.fin < v.start ∧ ∀ q ∈ s.m.history, q.line = v.line → q.fin < v.start → q.fin ≤ p.fin := by
  refine ⟨predecessor_some, fun ⟨hmem, hline, hbefore, hlast⟩ => ?_⟩
  cases hq : s.predecessor v with
  | none =>
    have hle := predecessor_none hq p hmem hline
    omega
  | some q =>
    obtain ⟨hqmem, hqline, hqbefore, hqlast⟩ := predecessor_some hq
    rw [huniq q hqmem p hmem hqline hline (Nat.le_antisymm (hlast q hqmem hqline hqbefore) (hqlast p hmem hline hbefore))]

/-- R240: SWMR. -/
theorem mem_swmr_iff (s : State) (v h : Interval) : h ∈ s.swmr v ↔
    h ∈ s.m.history ∧ h.line = v.line ∧ h.holder ≠ v.holder ∧ (h.sw = true ∨ v.sw = true) ∧ Nat.max h.start v.start ≤ Nat.min h.fin v.fin := by
  simp [State.swmr, Interval.meets, and_assoc]

/-- R239, R240: a break of the hash chain at the START. -/
theorem chainBreak_eq_some_iff (s : State) (v : Interval) (b : Nat × Nat × Nat) : s.chainBreak v = some b ↔
    b = (3, ((s.predecessor v).map fun h => h.fin).getD 0, v.start) ∧ v.poisoned = false ∧
      ((∃ p, s.predecessor v = some p ∧ p.poisoned = false ∧ p.hend ≠ v.hstart) ∨ (v.sw = false ∧ v.hstart ≠ v.hend)) := by
  unfold State.chainBreak
  dsimp only
  cases s.predecessor v with
  | none => simp [and_comm, eq_comm (a := b), and_assoc]
  | some p => simp [and_comm, eq_comm (a := b), and_assoc]

/-- R240: the intervals that have it as predecessor now. -/
theorem mem_successors_iff (s : State) (v h : Interval) : h ∈ s.successors v ↔
    h ∈ s.m.history ∧ h.line = v.line ∧ v.fin < h.start ∧ ∀ p ∈ s.m.history, p.line = v.line → p.fin < h.start → p.fin < v.fin := by
  have hpre : h.line = v.line → (((s.predecessor h).all fun p => p.fin < v.fin) = true ↔ ∀ p ∈ s.m.history, p.line = v.line → p.fin < h.start → p.fin < v.fin) := by
    intro hline
    cases hp : s.predecessor h with
    | none =>
      have hnone := (predecessor_none_iff s h).1 hp
      rw [hline] at hnone
      exact ⟨fun _ p hp hpl hps => absurd (hnone p hp hpl) (by omega), fun _ => rfl⟩
    | some p =>
      obtain ⟨hmem, hpl, hbefore, hlast⟩ := predecessor_some hp
      rw [hline] at hpl hlast
      simp only [Option.all_some, decide_eq_true_eq]
      exact ⟨fun hlt q hq hql hqs => lt_of_le_of_lt (hlast q hq hql hqs) hlt, fun hall => hall p hmem hpl hbefore⟩
  unfold State.successors
  simp only [List.mem_filter, Bool.and_eq_true, beq_iff_eq, decide_eq_true_eq]
  constructor
  · rintro ⟨hmem, ⟨hline, hlt⟩, hall⟩
    exact ⟨hmem, hline, hlt, (hpre hline).1 hall⟩
  · rintro ⟨hmem, hline, hlt, hall⟩
    exact ⟨hmem, ⟨hline, hlt⟩, (hpre hline).2 hall⟩

/-- R240: the violations of an interval: of SWMR, at its START, and of those that it becomes the predecessor of. -/
theorem mem_violations_iff (s : State) (v : Interval) (b : Nat × Nat × Nat) : b ∈ s.violations v ↔
    (∃ h ∈ s.swmr v, (2, Nat.max h.start v.start, Nat.min h.fin v.fin) = b) ∨ s.chainBreak v = some b ∨
    ∃ h ∈ s.successors v, v.poisoned = false ∧ h.poisoned = false ∧ v.hend ≠ h.hstart ∧ (3, v.fin, h.start) = b := by
  unfold State.violations
  simp only [List.mem_append, List.mem_map, Option.mem_toList, List.mem_filterMap, or_assoc]
  refine or_congr_right (or_congr_right (exists_congr fun h => and_congr_right fun _ => ?_))
  split
  next hc => simp_all
  next hc => simp_all

section
variable {s : State} {v : Interval} {kind lo hi : Nat}

/-- R240: a violation of SWMR is that of two intervals that meet. -/
theorem swmr_violation_iff : (∃ h ∈ s.swmr v, (2, Nat.max h.start v.start, Nat.min h.fin v.fin) = (kind, lo, hi)) ↔
    kind = 2 ∧ ∃ h ∈ s.m.history, h.line = v.line ∧ h.holder ≠ v.holder ∧ (h.sw = true ∨ v.sw = true) ∧
      lo = Nat.max h.start v.start ∧ hi = Nat.min h.fin v.fin ∧ lo ≤ hi := by
  simp only [mem_swmr_iff, Prod.mk.injEq]
  constructor
  · rintro ⟨h, ⟨hmem, hline, hholder, hsw, hmeets⟩, rfl, rfl, rfl⟩
    exact ⟨rfl, h, hmem, hline, hholder, hsw, rfl, rfl, hmeets⟩
  · rintro ⟨rfl, h, hmem, hline, hholder, hsw, rfl, rfl, hmeets⟩
    exact ⟨h, ⟨hmem, hline, hholder, hsw, hmeets⟩, rfl, rfl, rfl⟩

/-- R239, R240: the hash chain breaks at the START: at the predecessor, or in a reader. -/
theorem chain_violation_iff (huniq : ∀ p ∈ s.m.history, ∀ q ∈ s.m.history, p.line = v.line → q.line = v.line → p.fin = q.fin → p = q) :
    s.chainBreak v = some (kind, lo, hi) ↔ kind = 3 ∧ hi = v.start ∧ v.poisoned = false ∧
      ((∃ p ∈ s.m.history, p.line = v.line ∧ p.fin < v.start ∧ (∀ q ∈ s.m.history, q.line = v.line → q.fin < v.start → q.fin ≤ p.fin) ∧ lo = p.fin ∧
          ((p.poisoned = false ∧ p.hend ≠ v.hstart) ∨ (v.sw = false ∧ v.hstart ≠ v.hend))) ∨
        ((∀ p ∈ s.m.history, p.line = v.line → v.start ≤ p.fin) ∧ lo = 0 ∧ v.sw = false ∧ v.hstart ≠ v.hend)) := by
  rw [chainBreak_eq_some_iff, ← predecessor_none_iff]
  have hsome : ∀ (P : Interval → Prop), (∃ p ∈ s.m.history, p.line = v.line ∧ p.fin < v.start ∧
      (∀ q ∈ s.m.history, q.line = v.line → q.fin < v.start → q.fin ≤ p.fin) ∧ P p) ↔ ∃ p, s.predecessor v = some p ∧ P p := fun P =>
    exists_congr fun p => by rw [predecessor_some_iff huniq]; simp only [and_assoc]
  rw [hsome fun p => lo = p.fin ∧ ((p.poisoned = false ∧ p.hend ≠ v.hstart) ∨ (v.sw = false ∧ v.hstart ≠ v.hend))]
  cases s.predecessor v with
  | none => simp only [Prod.mk.injEq]; aesop
  | some p => simp only [Prod.mk.injEq]; aesop

/-- R240: the hash chain breaks at an interval that has this one as predecessor now. -/
theorem successor_violation_iff : (∃ h ∈ s.successors v, v.poisoned = false ∧ h.poisoned = false ∧ v.hend ≠ h.hstart ∧ (3, v.fin, h.start) = (kind, lo, hi)) ↔
    kind = 3 ∧ lo = v.fin ∧ v.poisoned = false ∧ ∃ h ∈ s.m.history, h.line = v.line ∧ v.fin < h.start ∧
      (∀ p ∈ s.m.history, p.line = v.line → p.fin < h.start → p.fin < v.fin) ∧ h.poisoned = false ∧ v.hend ≠ h.hstart ∧ hi = h.start := by
  simp only [mem_successors_iff, Prod.mk.injEq]
  constructor
  · rintro ⟨h, ⟨hmem, hline, hlt, hall⟩, hv, hh, hne, rfl, rfl, rfl⟩
    exact ⟨rfl, rfl, hv, h, hmem, hline, hlt, hall, hh, hne, rfl⟩
  · rintro ⟨rfl, rfl, hv, h, hmem, hline, hlt, hall, hh, hne, rfl⟩
    exact ⟨h, ⟨hmem, hline, hlt, hall⟩, hv, hh, hne, rfl, rfl, rfl⟩

end

/-- R240: SWMR or HASHCHAIN. -/
theorem violations_kind {s : State} {v : Interval} {b : Nat × Nat × Nat} (h : b ∈ s.violations v) : b.1 = 2 ∨ b.1 = 3 := by
  obtain ⟨_, -, rfl⟩ | hchain | ⟨_, -, -, -, -, rfl⟩ := (mem_violations_iff s v b).1 h
  · exact .inl rfl
  · exact .inr (((chainBreak_eq_some_iff s v b).1 hchain).1 ▸ rfl)
  · exact .inr rfl

/-- A record's violations are those of its interval. -/
theorem violations_waiting (s : State) (v : Interval) (b : Bool) : s.violations { v with waiting := b } = s.violations v := rfl

theorem violations_congr {s t : State} (h : t.m.history = s.m.history) (v : Interval) : t.violations v = s.violations v := by
  unfold State.violations State.swmr State.successors State.chainBreak State.predecessor
  rw [h]

theorem setClock_slice (s : State) (k t : Nat) (hk : k < 2 ^ 16) : s.setClock (sliceChecker k) t = s.setSlice k { s.slice k with lt := t } := by
  have hlow : sliceChecker k % 2 ^ 16 = k := by unfold sliceChecker; omega
  have hhigh : sliceChecker k / 2 ^ 28 = 2 := by unfold sliceChecker; omega
  unfold State.setClock
  dsimp only
  rw [hlow, hhigh]
  rfl

/-- Nothing of the line waits: the record of it that comes first is not there or not received. -/
theorem checkWaiting_stops (s : State) (line n : Nat) (h : ∀ v ∈ s.m.intervals, v.line = line → v.waiting = false) : s.checkWaiting line n = s := by
  cases n with
  | zero => rfl
  | succ n =>
    unfold State.checkWaiting
    split
    · rfl
    · next v hv =>
      rw [h v (List.mem_of_find?_eq_some hv) (by simpa using List.find?_some hv)]
      rfl

/-- R229, R240: the home checker has taken record `idx` of those on their way, which ends at `fin`. -/
def State.takenBy (s : State) (k idx fin : Nat) : State :=
  { s.setSlice k { s.slice k with lt := Nat.max (s.sliceLt k) fin + 1 } with m := { s.m with intervals := s.m.intervals.eraseIdx idx } }

section
variable {s : State} {idx k : Nat} {v : Interval}

/-- The first record of its line, marked, is the one found and taken out. -/
theorem find_erase_first {l : List Interval} {w : Interval} (hv : l[idx]? = some v) (hw : w.line = v.line) (hfirst : ∀ h ∈ l.take idx, h.line ≠ v.line) :
    (l.set idx w).find? (fun h => h.line == v.line) = some w ∧ (l.set idx w).erase w = l.eraseIdx idx := by
  obtain ⟨hlt, -⟩ := List.getElem?_eq_some_iff.1 hv
  have hnone : (l.take idx).find? (fun h => h.line == v.line) = none := List.find?_eq_none.2 fun h hh => by simpa using hfirst h hh
  have hmem : w ∉ l.take idx := fun h => hfirst w h hw
  rw [List.set_eq_take_append_cons_drop, if_pos hlt, List.find?_append, hnone, List.erase_append_right _ hmem, List.erase_cons_head,
    List.eraseIdx_eq_take_drop_succ]
  simp [hw]

/-- R240: a record whose line's earlier ones have all come is checked, and none after it where none waits. -/
theorem receiveInterval_first (hv : s.m.intervals[idx]? = some v) (hk : s.homeSlice v.line = some k) (hb : k < 2 ^ 16) (hw : v.waiting = false)
    (hfirst : ∀ h ∈ s.m.intervals.take idx, h.line ≠ v.line) :
    ∃ n, s.receiveInterval idx = ((s.takenBy k idx v.fin).checkInterval { v with waiting := true }).checkWaiting v.line n := by
  obtain ⟨hlt, -⟩ := List.getElem?_eq_some_iff.1 hv
  obtain ⟨hfind, herase⟩ := find_erase_first (w := { v with waiting := true }) hv rfl hfirst
  obtain ⟨n, hn⟩ : ∃ n, s.m.intervals.length = n + 1 := ⟨s.m.intervals.length - 1, by omega⟩
  refine ⟨n, ?_⟩
  unfold State.receiveInterval
  rw [hv]
  dsimp only
  rw [hk]
  dsimp only
  rw [if_neg (by simp [hw]), setClock_slice _ _ _ hb]
  dsimp only [State.setSlice]
  rw [List.length_set, hn, State.checkWaiting, hfind]
  dsimp only
  rw [if_pos rfl, herase]
  rfl

/-- R240: a record waits where an earlier one of its line has not come. -/
theorem receiveInterval_waits (hv : s.m.intervals[idx]? = some v) (hk : s.homeSlice v.line = some k) (hb : k < 2 ^ 16) (hw : v.waiting = false)
    (hearlier : ∃ h ∈ s.m.intervals.take idx, h.line = v.line) (hnone : ∀ h ∈ s.m.intervals.take idx, h.line = v.line → h.waiting = false) :
    s.receiveInterval idx =
      { s.setSlice k { s.slice k with lt := Nat.max (s.sliceLt k) v.fin + 1 } with m := { s.m with intervals := s.m.intervals.set idx { v with waiting := true } } } := by
  obtain ⟨hlt, -⟩ := List.getElem?_eq_some_iff.1 hv
  obtain ⟨n, hn⟩ : ∃ n, s.m.intervals.length = n + 1 := ⟨s.m.intervals.length - 1, by omega⟩
  obtain ⟨h, hfind⟩ : ∃ h, (s.m.intervals.take idx).find? (fun h => h.line == v.line) = some h := by
    rw [← Option.isSome_iff_exists, List.find?_isSome]
    obtain ⟨h, hmem, hline⟩ := hearlier
    exact ⟨h, hmem, by simpa using hline⟩
  have hset : (s.m.intervals.set idx { v with waiting := true }).find? (fun h => h.line == v.line) = some h := by
    rw [List.set_eq_take_append_cons_drop, if_pos hlt, List.find?_append, hfind]
    rfl
  have hwait : h.waiting = false := hnone h (List.mem_of_find?_eq_some hfind) (by simpa using List.find?_some hfind)
  unfold State.receiveInterval
  rw [hv]
  dsimp only
  rw [hk]
  dsimp only
  rw [if_neg (by simp [hw]), setClock_slice _ _ _ hb]
  dsimp only [State.setSlice]
  rw [List.length_set, hn, State.checkWaiting, hset]
  dsimp only
  rw [if_neg (by simp [hwait])]

/-- R240: a record that shows no violation is kept. -/
theorem checkInterval_clean (u : State) (hw : v.waiting = false) (h : u.violations v = []) :
    u.checkInterval { v with waiting := true } = { u with m := { u.m with history := u.m.history ++ [v] } } := by
  have hsame : ({ v with waiting := false } : Interval) = v := by rw [← hw]
  unfold State.checkInterval
  rw [violations_waiting, h]
  exact congrArg (fun w => ({ u with m := { u.m with history := u.m.history ++ [w] } } : State)) hsame

/-- R240, R241: a record that shows violations is kept, and each is contained. -/
theorem checkInterval_contained (u : State) (hw : v.waiting = false) (h : Watched v.line k u) :
    ∃ w : State, w.m = { u.m with history := u.m.history ++ [v] } ∧ w.x = u.x ∧
      ContainedAll v.line (u.violations v) k w (u.checkInterval { v with waiting := true }) := by
  have hsame : ({ v with waiting := false } : Interval) = v := by rw [← hw]
  refine ⟨{ u with m := { u.m with history := u.m.history ++ [v] } }, rfl, rfl, ?_⟩
  unfold State.checkInterval
  rw [violations_waiting]
  dsimp only
  rw [hsame]
  exact foldl_containLine _ (watched_of h rfl rfl rfl rfl h.viols)

/-- What stands in a list without one of its records. -/
theorem takenBy_none_waits (hnone : ∀ h ∈ s.m.intervals, h.line = v.line → h.waiting = false) (fin : Nat) :
    ∀ h ∈ (s.takenBy k idx fin).m.intervals, h.line = v.line → h.waiting = false :=
  fun h hh => hnone h (List.mem_of_mem_eraseIdx hh)

theorem receiveInterval_clean (hv : s.m.intervals[idx]? = some v) (hk : s.homeSlice v.line = some k) (hb : k < 2 ^ 16) (hw : v.waiting = false)
    (hfirst : ∀ h ∈ s.m.intervals.take idx, h.line ≠ v.line) (hnone : ∀ h ∈ s.m.intervals, h.line = v.line → h.waiting = false)
    (hgood : s.violations v = []) :
    s.receiveInterval idx = { s.setSlice k { s.slice k with lt := Nat.max (s.sliceLt k) v.fin + 1 } with
      m := { s.m with intervals := s.m.intervals.eraseIdx idx, history := s.m.history ++ [v] } } := by
  obtain ⟨n, hn⟩ := receiveInterval_first hv hk hb hw hfirst
  rw [hn, checkInterval_clean (s.takenBy k idx v.fin) hw ((violations_congr (s := s) rfl v).trans hgood), checkWaiting_stops]
  · rfl
  · exact takenBy_none_waits (s := s) (k := k) hnone v.fin

/-- R240, R241: where a record shows violations, each is recorded with the interval of LT that it names, and the line is poisoned. -/
theorem receiveInterval_violated (hv : s.m.intervals[idx]? = some v) (hk : s.homeSlice v.line = some k) (hb : k < 2 ^ 16) (hw : v.waiting = false)
    (hfirst : ∀ h ∈ s.m.intervals.take idx, h.line ≠ v.line) (hnone : ∀ h ∈ s.m.intervals, h.line = v.line → h.waiting = false)
    (hbad : s.violations v ≠ []) (hrels : s.relsOnLine v.line = []) (hviols : (s.tenant 0).viols = []) :
    KeepsMemory s (s.receiveInterval idx) ∧ (s.receiveInterval idx).m.history = s.m.history ++ [v] ∧
    ((s.receiveInterval idx).readPa none (64 * v.line) 4).2 = true ∧
    ∃ rs, ((s.receiveInterval idx).tenant 0).records = (s.tenant 0).records ++ rs ∧
      rs.map containFields = (s.violations v).map fun b => (b.1, 2, 64 * v.line % 2 ^ 64, b.2.1 % 2 ^ 64, b.2.2 % 2 ^ 64) := by
  have hwatched : Watched v.line k (s.takenBy k idx v.fin) :=
    watched_of (s := s) ⟨hrels, hk, by rw [hviols]; exact fun _ h => nomatch h⟩ rfl rfl rfl rfl (by
      show ∀ e ∈ (s.tenant 0).viols, _
      rw [hviols]
      exact fun _ h => nomatch h)
  obtain ⟨u, hum, hux, hall⟩ := checkInterval_contained _ hw hwatched
  rw [violations_congr (s := s) (t := s.takenBy k idx v.fin) rfl] at hall
  obtain ⟨-, ⟨rs, hrs, hfields⟩, ⟨l, hl, hlw⟩, hhist, hpoison, hbytes⟩ := hall
  obtain ⟨n, hn⟩ := receiveInterval_first hv hk hb hw hfirst
  have hstop : s.receiveInterval idx = (s.takenBy k idx v.fin).checkInterval { v with waiting := true } := by
    rw [hn]
    refine checkWaiting_stops _ _ _ fun h hh hline => ?_
    rw [hl, hum] at hh
    exact (List.mem_append.1 hh).elim (fun hh => takenBy_none_waits (s := s) (k := k) hnone v.fin h hh hline) (hlw h)
  rw [hstop]
  refine ⟨fun a => (hbytes a).trans ?_, by rw [hhist, hum]; rfl, hpoison hbad, rs, ?_, ?_⟩
  · rw [readPhys_byte, readPhys_byte, lineVal_of (s := s) (t := u) _ (owner_congr (by rw [hum]; rfl) _) (fun _ _ => l1Line_congr (by rw [hum]; rfl) _ _)
      (by rw [below_congr (s := s) (t := u)] <;> rw [hum] <;> rfl)]
  · rw [hrs]
    unfold State.tenant
    rw [hux]
    rfl
  · rw [hfields]
    refine List.map_congr_left fun b hb => ?_
    have hmod : b.1 % 2 ^ 8 = b.1 := by obtain h | h := violations_kind hb <;> rw [h] <;> rfl
    rw [hmod]

end

/-! ### The rebase (R228) -/

theorem ltRebase_early {s : State} (h : s.maxClock < 2 ^ 47) : exec .ltRebase s = .next s := by
  rw [exec_ltRebase, execLtRebase, if_pos h]

theorem ltRebase_waits {s : State} (h : 2 ^ 47 ≤ s.maxClock)
    (hw : s.drained = false ∨ ((∃ e ∈ s.x.grids, e.2.live = true) ∧ s.maxClock < 2 ^ 47 + 2 ^ 46)) :
    exec .ltRebase s = .next { s with pk := { s.pk with rebase := true } } := by
  rw [exec_ltRebase, execLtRebase, if_neg (by omega)]
  dsimp only
  rw [if_neg]
  rintro hc
  obtain ⟨hlaunch, hdrained⟩ := Bool.and_eq_true_iff.1 hc
  obtain hw | ⟨hlive, hclock⟩ := hw
  · exact Bool.noConfusion (hw.symm.trans hdrained)
  · obtain h | h := Bool.or_eq_true_iff.1 hlaunch
    · have hany : s.anyLaunch = true := (anyLaunch_iff s).2 hlive
      have hnone : (!s.anyLaunch) = true := h
      rw [hany] at hnone
      cases hnone
    · exact absurd (of_decide_eq_true h : 2 ^ 47 + 2 ^ 46 ≤ s.maxClock) (by omega)

/-- R228: a rebase is due. -/
def State.rebaseDue (s : State) : State := { s with pk := { s.pk with rebase := true } }

theorem ltRebase_restarts {s : State} (h : 2 ^ 47 ≤ s.maxClock) (hd : s.drained = true)
    (hl : (∀ e ∈ s.x.grids, e.2.live = false) ∨ 2 ^ 47 + 2 ^ 46 ≤ s.maxClock) :
    ∃ t, exec .ltRebase s = .next t ∧ t.pk.rebase = false ∧ KeepsProgram s t ∧ Restarted s t := by
  have hcond : ((!s.anyLaunch || s.rebasing) && s.drained) = true := by
    rw [hd, Bool.and_true, Bool.or_eq_true]
    refine hl.imp (fun hdead => ?_) fun hclock => decide_eq_true hclock
    rw [Bool.not_eq_true', ← Bool.not_eq_true, anyLaunch_iff]
    rintro ⟨e, he, hlive⟩
    exact Bool.noConfusion ((hdead e he).symm.trans hlive)
  have hstart := restartClocks_restarted s.rebaseDue
  have hkeeps : KeepsProgram s s.rebaseDue.restartClocks := (KeepsProgram.of_waves (s := s) (t := s.rebaseDue) rfl rfl rfl).trans (restartClocks_keepsProgram s.rebaseDue)
  have hstep : exec .ltRebase s = .next { s.rebaseDue.restartClocks with pk := { s.rebaseDue.restartClocks.pk with rebase := false } } := by
    rw [exec_ltRebase, execLtRebase, if_neg (by omega)]
    exact congrArg _ (if_pos hcond)
  refine ⟨_, hstep, rfl, hkeeps.trans (.of_waves rfl rfl rfl), ?_⟩
  · exact ⟨hstart.cores, hstart.slices, hstart.ctrls, hstart.ports, hstart.arbiter, hstart.intervals, hstart.history, hstart.held⟩

end Sys2Proof.Machine

open Sys2Proof Sys2Proof.Machine Sys2Proof.Safety

/-- Settles O52: a record that is received by the lemmas about `receiveInterval`, what a violation is by `mem_violations_iff`, and the rebase. -/
theorem checkerEvents : Obligations.CheckerEvents := by
  unfold Obligations.CheckerEvents
  intro s
  refine ⟨fun idx hv => ?none, fun idx v hv hk => ?foreign, fun idx v k hv hk hb => ⟨fun hw => ?received, fun hw hearlier hnone => ?waits,
    fun hw hfirst hnone => ⟨fun hgood => ?clean, fun hbad hrels hviols => ?violated⟩⟩, fun v kind lo hi huniq => ?violations, fun h => ltRebase_early h,
    fun h hw => ltRebase_waits h hw, fun h hd hl => ?restart⟩
  case none => rw [exec_intervalRecord, execIntervalRecord, State.receiveInterval, hv]
  case foreign =>
    rw [exec_intervalRecord, execIntervalRecord, State.receiveInterval, hv]
    dsimp only
    rw [hk]
  case received =>
    rw [exec_intervalRecord, execIntervalRecord, State.receiveInterval, hv]
    dsimp only
    rw [hk]
    dsimp only
    rw [if_pos hw]
  case waits => rw [exec_intervalRecord, execIntervalRecord, receiveInterval_waits hv hk hb hw hearlier hnone]
  case clean => rw [exec_intervalRecord, execIntervalRecord, receiveInterval_clean hv hk hb hw hfirst hnone hgood]
  case violated =>
    obtain ⟨hbytes, hhist, hpoison, rs, hrs, hfields⟩ := receiveInterval_violated hv hk hb hw hfirst hnone hbad hrels hviols
    obtain ⟨hregs, hteams, hreg⟩ := receiveInterval_keepsProgram s idx
    exact ⟨_, rs, rfl, hregs, hbytes, hreg, hteams, hhist, hrs, hpoison, hfields⟩
  case violations =>
    rw [mem_violations_iff, swmr_violation_iff, chain_violation_iff huniq, successor_violation_iff]
  case restart =>
    obtain ⟨t, ht, hrebase, ⟨hregs, hteams, hreg⟩, hstart⟩ := ltRebase_restarts h hd hl
    exact ⟨t, ht, hrebase, hreg, hregs, hteams, hstart.cores, hstart.slices, hstart.ctrls, hstart.ports, hstart.arbiter, hstart.intervals, hstart.history, hstart.held⟩
end

section
/-! SUPPORT. Entries leave the windows of waves in which one operation alone stands (R236, R237): nothing is checked, and the operation stays while a
release of it is incomplete (R226). -/

set_option Elab.async false

open Sys2Proof Sys2Proof.Machine Sys2Proof.Safety

namespace Sys2Proof.Machine

theorem SMap.mem_set {α : Type} [DecidableEq α] {d x : α} {m : SMap α} {k : Nat} {e : Nat × α} (h : e ∈ SMap.set d m k x) : e = (k, x) ∨ e ∈ m := by
  unfold SMap.set at h
  split at h
  · exact .inr (List.mem_of_mem_filter h)
  · exact SMap.mem_insert h

/-- An entry that is kept is found among those kept. -/
theorem SMap.get_filter_kept {α : Type} {d : α} {P : Nat × α → Bool} {m : SMap α} {k : Nat} (hd : SMap.get d m k ≠ d) (hP : P (k, SMap.get d m k) = true) :
    SMap.get d (m.filter P) k = SMap.get d m k := by
  induction m with
  | nil => rfl
  | cons e m ih =>
    obtain ⟨j, v⟩ := e
    by_cases hk : k = j
    · subst hk
      have hv : SMap.get d ((k, v) :: m) k = v := if_pos (beq_self_eq_true k)
      rw [hv] at hP ⊢
      rw [List.filter_cons_of_pos hP]
      exact if_pos (beq_self_eq_true k)
    · have hv : ∀ l : SMap α, SMap.get d ((j, v) :: l) k = SMap.get d l k := fun l => if_neg (by simpa using hk)
      rw [hv] at hd hP ⊢
      by_cases hj : P (j, v) = true
      · rw [List.filter_cons_of_pos hj, hv, ih hd hP]
      · rw [List.filter_cons_of_neg hj, ih hd hP]

/-- The places in program order of operation `id` and of the others stand. -/
structure SamePlaces (id : Nat) (s t : State) : Prop where
  pos : (t.op id).pos = (s.op id).pos
  ops : ∀ e ∈ t.o.ops, e ∈ s.o.ops ∨ e.1 = id ∧ e.2.pos = (s.op id).pos

/-- Of operation `id` alone an entry stands in wave `w`. -/
def OnlyOne (w id : Nat) (s : State) : Prop := ∀ e ∈ s.o.ops, (e.1 = id ∧ e.2.pos = (s.op id).pos) ∨ e.2.poIn w = none

section
variable {w id : Nat} {s t u : State}

theorem SamePlaces.of_o (h : t.o = s.o) : SamePlaces id s t where
  pos := by unfold State.op; rw [h]
  ops e he := .inl (h ▸ he)

theorem SamePlaces.refl (s : State) : SamePlaces id s s := .of_o rfl

theorem SamePlaces.trans (h : SamePlaces id s t) (k : SamePlaces id t u) : SamePlaces id s u where
  pos := k.pos.trans h.pos
  ops e he := (k.ops e he).elim (h.ops e) fun ⟨hid, hpos⟩ => .inr ⟨hid, hpos.trans h.pos⟩

theorem SamePlaces.setOp (s : State) {o : Op} (ho : o.pos = (s.op id).pos) : SamePlaces id s (s.setOp id o) where
  pos := by rw [State.setOp_op_self, ho]
  ops e he := (SMap.mem_set he).elim (fun h => .inr (h ▸ ⟨rfl, ho⟩)) .inl

theorem onlyOne_of_alone (h : alone s w id) : OnlyOne w id s := fun e he => (h e he).imp_left fun ⟨hid, ho⟩ => ⟨hid, by rw [ho]⟩

theorem OnlyOne.of_places (h : OnlyOne w id s) (k : SamePlaces id s t) : OnlyOne w id t := fun e he => by
  rw [k.pos]
  exact (k.ops e he).elim (h e) .inl

/-- R237: of two entries of wave `w`, the earlier that has not left. -/
def olderIn (w : Nat) (b : Option (Nat × Nat)) (e : Nat × Op) : Option (Nat × Nat) :=
  match e.2.poIn w with
  | none => b
  | some p =>
    if e.2.left.contains w then b
    else match b with
      | none => some (e.1, p)
      | some k => if poBefore p k.2 then some (e.1, p) else b

theorem oldest_eq (s : State) (w : Nat) : s.oldest w = (s.o.ops.foldl (olderIn w) none).map fun k => k.1 := rfl

theorem olderIn_cases {b : Option (Nat × Nat)} {e : Nat × Op} {p : Nat × Nat} (h : olderIn w b e = some p) : b = some p ∨ e.1 = p.1 ∧ e.2.poIn w ≠ none := by
  unfold olderIn at h
  split at h
  next => exact .inl h
  next n hpo =>
    have hnew : some (e.1, n) = some p → e.1 = p.1 ∧ e.2.poIn w ≠ none := fun h => ⟨by rw [← Option.some.inj h], by rw [hpo]; exact Option.some_ne_none n⟩
    split at h
    · exact .inl h
    · split at h
      · exact .inr (hnew h)
      · split at h
        · exact .inr (hnew h)
        · exact .inl h

/-- The entry found is one of the wave's. -/
theorem oldest_mem {k : Nat} (h : s.oldest w = some k) : ∃ e ∈ s.o.ops, e.1 = k ∧ e.2.poIn w ≠ none := by
  rw [oldest_eq] at h
  obtain ⟨p, hp, rfl⟩ := Option.map_eq_some_iff.1 h
  clear h
  generalize s.o.ops = ops at hp
  induction ops using List.reverseRecOn with
  | nil => cases hp
  | append_singleton l e ih =>
    rw [List.foldl_concat] at hp
    obtain hold | hnew := olderIn_cases hp
    · obtain ⟨e', he', h⟩ := ih hold
      exact ⟨e', List.mem_append_left _ he', h⟩
    · exact ⟨e, List.mem_append_right _ (List.mem_singleton_self e), hnew⟩

theorem OnlyOne.oldest (h : OnlyOne w id s) {k : Nat} (hk : s.oldest w = some k) : k = id := by
  obtain ⟨e, he, rfl, hpo⟩ := oldest_mem hk
  exact ((h e he).resolve_right hpo).1

/-- R237: no entry of the wave is later than the only one. -/
theorem OnlyOne.checkLeaving (h : OnlyOne w id s) : s.checkLeaving w id = s := by
  unfold State.checkLeaving
  dsimp only
  rw [List.filter_eq_nil_iff.mpr, List.map_nil, List.foldl_nil]
  intro e he
  obtain ⟨-, hpos⟩ | hnone := h e he
  · have hpo : e.2.poIn w = (s.op id).poIn w := by unfold Op.poIn; rw [hpos]
    rw [hpo]
    cases (s.op id).poIn w with
    | none => simp
    | some p => simp [poBefore]
  · simp [hnone]

/-- Nothing changes but the windows that entries of operation `id` have left. -/
structure OnlyLeaves (id : Nat) (s t : State) : Prop where
  rest : t = { s with o := t.o }
  parts : (t.op id).parts = (s.op id).parts
  places : SamePlaces id s t

theorem OnlyLeaves.refl (s : State) : OnlyLeaves id s s := ⟨rfl, rfl, .refl s⟩

theorem OnlyLeaves.trans (h : OnlyLeaves id s t) (k : OnlyLeaves id t u) : OnlyLeaves id s u where
  rest := by
    rw [k.rest, h.rest]
  parts := k.parts.trans h.parts
  places := h.places.trans k.places

theorem OnlyOne.leaveWindow (h : OnlyOne w id s) (n : Nat) : OnlyLeaves id s (s.leaveWindow w n) := by
  induction n generalizing s with
  | zero => exact .refl s
  | succ n ih =>
    unfold State.leaveWindow
    split
    · exact .refl s
    next k hk =>
      obtain rfl := h.oldest hk
      split
      · dsimp only
        rw [h.checkLeaving]
        have hplaces : SamePlaces k s (s.setOp k { s.op k with left := w :: (s.op k).left }) := .setOp s rfl
        have hone : OnlyLeaves k s (s.setOp k { s.op k with left := w :: (s.op k).left }) := ⟨rfl, by rw [State.setOp_op_self], hplaces⟩
        exact hone.trans (ih (h.of_places hplaces))
      · exact .refl s

/-- R226: an operation a release of which is incomplete stays. -/
theorem sweepOps_open {q : Part} (hq : q ∈ (s.op id).parts) (ho : q.relOpen = true) : s.sweepOps.op id = s.op id := by
  refine SMap.get_filter_kept (P := fun e : Nat × Op => !e.2.finished) (fun h => ?_) ?_
  · have hdef : s.op id = {} := h
    rw [hdef] at hq
    cases hq
  · have hfin : (s.op id).finished = false := by
      unfold Op.finished
      rw [Bool.and_eq_false_iff]
      exact .inr (List.all_eq_false.2 ⟨q, hq, by rw [ho]; decide⟩)
    exact (congrArg (!·) hfin).trans rfl

/-- R236, R237: where operation `id` stands alone in each of its waves, and a release of it is incomplete. -/
theorem afterPerform_alone (h : ∀ e ∈ (s.op id).pos, OnlyOne e.1 id s) {q : Part} (hq : q ∈ (s.op id).parts) (ho : q.relOpen = true) :
    (s.afterPerform id).m = s.m ∧ ((s.afterPerform id).op id).parts = (s.op id).parts := by
  have hleave : ∀ (l : List (Nat × Nat)) (u : State), (∀ e ∈ l, OnlyOne e.1 id u) → OnlyLeaves id u (l.foldl (fun u e => u.leaveWindow e.1 256) u) := by
    intro l
    induction l with
    | nil => exact fun u _ => .refl u
    | cons e l ih =>
      intro u hu
      have hone := (hu e List.mem_cons_self).leaveWindow 256
      exact hone.trans (ih _ fun e' he' => (hu e' (List.mem_cons_of_mem _ he')).of_places hone.places)
  have hall := hleave (s.op id).pos s h
  unfold State.afterPerform
  refine ⟨?_, ?_⟩
  · rw [show ∀ u : State, u.sweepOps.m = u.m from fun _ => rfl, hall.rest]
  · rw [sweepOps_open (q := q) (by rw [hall.parts]; exact hq) ho, hall.parts]

end

end Sys2Proof.Machine
end

section
/-! SUPPORT. A write comes to its end (R82, R192, R230): what that leaves alone, and when the flag of its operation falls. -/

set_option Elab.async false

open Sys2Proof Sys2Proof.Machine Sys2Proof.Safety

namespace Sys2Proof.Machine

/-- The operations and the provisional releases stand. -/
structure KeepsOps (s t : State) : Prop where
  o : t.o = s.o
  prov : t.m.prov = s.m.prov

theorem KeepsOps.refl (s : State) : KeepsOps s s := ⟨rfl, rfl⟩

theorem KeepsOps.trans {s t u : State} (h : KeepsOps s t) (k : KeepsOps t u) : KeepsOps s u := ⟨k.o.trans h.o, k.prov.trans h.prov⟩

theorem KeepsOps.op {s t : State} (h : KeepsOps s t) (id : Nat) : t.op id = s.op id := by
  unfold State.op
  rw [h.o]

theorem sysFault_keepsOps (s : State) (ws : List Nat) (susp w lane : Nat) (pc : DWord) (f : FaultInfo) : KeepsOps s (s.sysFault ws susp w lane pc f) := ⟨rfl, rfl⟩

theorem stopTasks_keepsOps (s : State) (w : Nat) (m : Mask) : KeepsOps s (s.stopTasks w m) := ⟨rfl, rfl⟩

theorem raiseEccu_keepsOps (s : State) (id : Nat) : KeepsOps s (s.raiseEccu id) := by
  have hstop : ∀ (w : Nat) (m : Mask), KeepsOps s (if m == 0#32 then s else s.stopTasks w m) := fun w m => by
    split
    · exact .refl s
    · exact stopTasks_keepsOps s w m
  unfold State.raiseEccu
  dsimp only
  generalize (if (s.op id).arrived then (s.op id).parts.filter fun p => p.hurt else []) = hs
  cases hs with
  | nil => exact .refl s
  | cons p ps =>
    dsimp only
    split
    · exact sysFault_keepsOps ..
    · exact sysFault_keepsOps ..
    · split
      · exact hstop _ _
      · exact (hstop _ _).trans (sysFault_keepsOps ..)

theorem flagsDown_keepsOps (s : State) (fs : List (Nat × Nat)) : KeepsOps s (s.flagsDown fs) :=
  foldl_rel KeepsOps.refl KeepsOps.trans (fun (u : State) (e : Nat × Nat) => u.flagDown e.1 e.2) fs (fun _ _ _ => ⟨rfl, rfl⟩) s

section
variable {id i : Nat} {s : State} {p : Part}

/-- R82: a complete operation keeps its parts and its places. -/
theorem completeOp_frame (s : State) (id : Nat) :
    (s.completeOp id).m.prov = s.m.prov ∧ ((s.completeOp id).op id).parts = (s.op id).parts ∧ SamePlaces id s (s.completeOp id) := by
  unfold State.completeOp
  dsimp only
  split
  · exact ⟨rfl, rfl, .refl s⟩
  · have hdown := flagsDown_keepsOps s (s.op id).flags
    exact ⟨hdown.prov, by rw [State.setOp_op_self], (SamePlaces.of_o hdown.o).trans (.setOp _ (by rw [hdown.op]))⟩

/-- R230: the part of a write as it is stamped. -/
theorem State.stamp_part (hp : (s.op id).parts[i]? = some p) :
    ∃ n, (s.stamp id i none).op id = (s.op id).withPart i { p with plt := some n } ∧ (s.stamp id i none).m = s.m ∧ SamePlaces id s (s.stamp id i none) := by
  obtain ⟨u, n, hu, hm, hstamp⟩ : ∃ (u : State) (n : Nat), u.o = s.o ∧ u.m = s.m ∧ s.stamp id i none = u.modPart id i fun p => { p with plt := some n } :=
    ⟨s.setCore (s.op id).core _, _, rfl, rfl, rfl⟩
  have hop : u.op id = s.op id := by unfold State.op; rw [hu]
  rw [hstamp, State.modPart_eq (by rw [hop]; exact hp), hop]
  exact ⟨n, State.setOp_op_self .., hm, (SamePlaces.of_o hu).trans (.setOp u (by rw [hop]; rfl))⟩

theorem endPart_keepsData (s : State) (id : Nat) : KeepsData s (s.endPart id) := by
  unfold State.endPart
  dsimp only
  refine (raiseEccu_keepsData s id).trans (.trans ?_ (afterPerform_leaves _ id).keepsData)
  split
  · exact completeOp_keepsData ..
  · exact .refl _

theorem finishWrite_keepsData (s : State) (id i : Nat) : KeepsData s (s.finishWrite id i) :=
  (stamp_leaves s id i none).keepsData.trans (endPart_keepsData _ id)

/-- R226, R237: a release that is incomplete stands as it is, where its operation is alone in its waves. -/
theorem endPart_open (halone : ∀ e ∈ (s.op id).pos, OnlyOne e.1 id s) (hp : p ∈ (s.op id).parts) (ho : p.relOpen = true) :
    (s.endPart id).m.prov = s.m.prov ∧ ((s.endPart id).op id).parts = (s.op id).parts := by
  have hraised := raiseEccu_keepsOps s id
  have hended : ∀ u : State, u.m.prov = s.m.prov → (u.op id).parts = (s.op id).parts → SamePlaces id s u →
      (u.afterPerform id).m.prov = s.m.prov ∧ ((u.afterPerform id).op id).parts = (s.op id).parts := fun u hu hparts hplaces => by
    obtain ⟨hm, h⟩ := afterPerform_alone (s := u) (q := p) (fun e he => (halone e (hplaces.pos ▸ he)).of_places hplaces) (hparts ▸ hp) ho
    exact ⟨by rw [hm, hu], h.trans hparts⟩
  unfold State.endPart
  dsimp only
  split
  · obtain ⟨hm, hparts, hplaces⟩ := completeOp_frame (s.raiseEccu id) id
    exact hended _ (hm.trans hraised.prov) (by rw [hparts, hraised.op]) ((SamePlaces.of_o hraised.o).trans hplaces)
  · exact hended _ hraised.prov (by rw [hraised.op]) (.of_o hraised.o)

theorem finishWrite_open (halone : ∀ e ∈ (s.op id).pos, OnlyOne e.1 id s) (hp : (s.op id).parts[i]? = some p) (ho : p.relOpen = true) :
    (s.finishWrite id i).m.prov = s.m.prov ∧ (((s.finishWrite id i).op id).parts[i]?).map (fun q => q.rel) = some p.rel := by
  obtain ⟨n, hop, hm, hplaces⟩ := State.stamp_part hp
  have hq : ((s.stamp id i none).op id).parts[i]? = some { p with plt := some n } := by rw [hop]; exact Op.withPart_part hp
  obtain ⟨hprov, hparts⟩ := endPart_open (s := s.stamp id i none) (fun e he => (halone e (hplaces.pos ▸ he)).of_places hplaces)
    (List.mem_of_getElem? hq) ho
  unfold State.finishWrite
  rw [hprov, hm, hparts, hq]
  exact ⟨rfl, rfl⟩

/-- R82: with its last part, unhurt, the operation is complete and its flag falls. -/
theorem finishWrite_flag (hp : (s.op id).parts[i]? = some p) (hlast : lastPart (s.op id) i) : FlagFalls (s.op id) s (s.finishWrite id i) := by
  obtain ⟨hdone, hrest⟩ := hlast
  obtain ⟨n, hop, -, -⟩ := State.stamp_part hp
  have hall : ∀ q ∈ ((s.stamp id i none).op id).parts, q.hurt = false ∧ q.plt.isSome = true := by
    rw [hop]
    exact Op.withPart_all ⟨(hrest i p hp).1, rfl⟩ fun j q hj hne => ⟨(hrest j q hj).1, (hrest j q hj).2 hne⟩
  have hperf : ((s.stamp id i none).op id).performed = true := List.all_eq_true.2 fun q hq => (hall q hq).2
  intro w f hf
  unfold State.finishWrite State.endPart
  dsimp only
  rw [State.raiseEccu_unhurt fun q hq => (hall q hq).1, if_pos hperf, (afterPerform_leaves _ id).flag,
    State.completeOp_flag (by rw [hop]; exact hdone) (by rw [hop]; exact hf), (stamp_leaves s id i none).flag]

end

end Sys2Proof.Machine
end

section
/-! SUPPORT. Provisional releases (R226): what a core reads over those it has made, and what stands at home until they complete. -/

set_option Elab.async false

open Sys2Proof Sys2Proof.Machine Sys2Proof.Safety

namespace Sys2Proof.Machine

/-- A byte read over one provisional release. -/
def overProv (core : Option Nat) (a v : Nat) (q : Prov) : Nat :=
  if core == some q.core && q.pa < a + 1 && a < q.pa + q.size then
    (List.range 1).foldl (fun v i =>
      let b := a + i
      if q.pa ≤ b && b < q.pa + q.size then
        v - (v / 2 ^ (8 * i) % 256) * 2 ^ (8 * i) + (q.val / 2 ^ (8 * (b - q.pa)) % 256) * 2 ^ (8 * i)
      else v) v
  else v

/-- R226: a core reads the bytes that it has released last, and no other core's. -/
theorem overProv_byte {v : Nat} (hv : v < 256) (core : Option Nat) (a : Nat) (q : Prov) :
    overProv core a v q = if core = some q.core then byteAfter q.pa q.size q.val a v else v := by
  unfold overProv byteAfter
  by_cases hc : core = some q.core
  · by_cases ha : q.pa ≤ a ∧ a < q.pa + q.size
    · have hlt : q.pa < a + 1 := by omega
      have hmod : v % 256 = v := Nat.mod_eq_of_lt hv
      simp [hc, ha, hlt, hmod, List.range_one]
    · have hout : ¬ (q.pa < a + 1 ∧ a < q.pa + q.size) := by omega
      simp only [hc, beq_self_eq_true, Bool.true_and, Bool.and_eq_true, decide_eq_true_eq, hout, ha, if_false, if_true]
  · simp [hc]

theorem overProv_lt {v : Nat} (hv : v < 256) (core : Option Nat) (a : Nat) (q : Prov) : overProv core a v q < 256 := by
  rw [overProv_byte hv]
  unfold byteAfter
  split
  · split
    · exact Nat.mod_lt _ (by decide)
    · exact hv
  · exact hv

theorem foldl_overProv_lt (qs : List Prov) {v : Nat} (hv : v < 256) (core : Option Nat) (a : Nat) : qs.foldl (overProv core a) v < 256 := by
  induction qs generalizing v with
  | nil => exact hv
  | cons q qs ih => exact ih (overProv_lt hv core a q)

/-- R226: a core reads a byte over its provisional releases, in the order in which it has made them. -/
theorem readPa_byte (s : State) (core : Option Nat) (a : Nat) : (s.readPa core a 1).1 = s.m.prov.foldl (overProv core a) (s.readPhys a 1) := by
  rw [readPhys_byte, byteOf_toNat]
  rfl

theorem readPhys_lt (s : State) (a : Nat) : s.readPhys a 1 < 256 := by
  rw [readPhys_byte]
  exact BitVec.isLt _

/-- R226: what a core reads once one more release has performed provisionally. -/
theorem readPa_released {s t : State} {q : Prov} (hbytes : KeepsMemory s t) (hprov : t.m.prov = s.m.prov ++ [q]) (core : Option Nat) (a : Nat) :
    (t.readPa core a 1).1 = if core = some q.core then byteAfter q.pa q.size q.val a (s.readPa core a 1).1 else (s.readPa core a 1).1 := by
  rw [readPa_byte, readPa_byte, hprov, hbytes, List.foldl_concat]
  exact overProv_byte (foldl_overProv_lt _ (readPhys_lt s a) core a) core a q

/-- A provisional release is noted, a byte at its home stands. -/
theorem withProv_leaves (s : State) (qs : List Prov) : Leaves s { s with m := { s.m with prov := qs } } :=
  ⟨rfl, rfl, fun _ => rfl, fun a => by rw [readPhys_byte, readPhys_byte]; rfl⟩

theorem recall_leaves (s : State) (line : Nat) : Leaves s (s.recall line none) where
  reg := (recall_spec s line).2.2.2.2.2.reg
  teams := by rw [(recall_spec s line).2.2.2.2.2.x]
  wave w := by
    have h : (s.recall line none).wave w = s.wave w := by
      unfold State.wave
      rw [(recall_spec s line).2.2.2.2.2.x]
    rw [h]
  bytes a := by rw [readPhys_byte, readPhys_byte, (recall_spec s line).1]

section
variable {id i : Nat} {s : State} {p : Part}

/-- R226: the state with a release of a store noted provisionally, its line recalled from the L1s. -/
def State.withRelease (s : State) (id i : Nat) (p : Part) : State :=
  let u := s.recall (p.pa / 64) none
  { u with m := { u.m with
      prov := u.m.prov ++ [{ op := id, part := i, core := (s.op id).core, pa := p.pa, size := p.size, val := p.data, bad := false }] } }

/-- R226: a store that is a release performs provisionally. -/
theorem performProvisional_eq (hp : (s.op id).parts[i]? = some p) (hk : (s.op id).kind = .st ∨ (s.op id).kind = .ust ∨ (s.op id).kind = .stm)
    (hbad : p.scaleBad = false) (hready : p.ready = 0) : 
    s.performProvisional id i = ((s.withRelease id i p).setOp id ((s.op id).withPart i { p with rel := .prov })).finishWrite id i := by
  have hop : (s.withRelease id i p).op id = s.op id := by
    show (s.recall (p.pa / 64) none).op id = s.op id
    unfold State.op
    rw [(recall_spec s (p.pa / 64)).2.2.2.2.2.o]
  have hscaled : s.scaledStore (s.op id) = false := by
    unfold State.scaledStore
    obtain hk | hk | hk := hk <;> rw [hk] <;> rfl
  have hval : ∀ u : State, u.provValue (s.op id) p = (p.data, false, u) := fun u => by
    unfold State.provValue
    rw [hbad]
    obtain hk | hk | hk := hk <;> rw [hk]
  have hacc : ((s.op id).kind == OpKind.accflush || (s.op id).kind == .accdet) = false := by
    obtain hk | hk | hk := hk <;> rw [hk] <;> rfl
  have hfir : ∀ u : State, u.firDone (s.op id) p = u := fun u => by
    unfold State.firDone
    rw [hready]
    rfl
  unfold State.performProvisional State.stfReady
  dsimp only
  rw [getD_of_getElem? hp, hscaled, hval]
  simp only [Bool.false_and, Bool.false_eq_true, if_false, Bool.not_false, Bool.true_or, Bool.not_true, hfir]
  show (((s.withRelease id i p).modPart id i fun q => { q with rel := .prov }).finishWrite id i) = _
  rw [State.modPart_eq (by rw [hop]; exact hp), hop]

theorem withRelease_leaves (s : State) (id i : Nat) (p : Part) : Leaves s (s.withRelease id i p) :=
  (recall_leaves s (p.pa / 64)).trans (withProv_leaves (s.recall (p.pa / 64) none) _)

/-- R226: no byte at home changes, and the release is noted last, where its operation is alone in its waves. -/
theorem performProvisional_spec (hp : (s.op id).parts[i]? = some p) (hk : (s.op id).kind = .st ∨ (s.op id).kind = .ust ∨ (s.op id).kind = .stm)
    (hbad : p.scaleBad = false) (hready : p.ready = 0) (halone : ∀ e ∈ (s.op id).pos, alone s e.1 id) :
    KeepsData s (s.performProvisional id i) ∧
    (s.performProvisional id i).m.prov = s.m.prov ++ [{ op := id, part := i, core := (s.op id).core, pa := p.pa, size := p.size, val := p.data, bad := false }] ∧
    (((s.performProvisional id i).op id).parts[i]?).map (fun q => q.rel) = some .prov ∧
    (lastPart (s.op id) i → FlagFalls (s.op id) s (s.performProvisional id i)) := by
  have hleaves := withRelease_leaves s id i p
  have hm := (recall_spec s (p.pa / 64)).2.2.2.2.2
  have ho : (s.withRelease id i p).o = s.o := hm.o
  have hprov : (s.withRelease id i p).m.prov =
      s.m.prov ++ [{ op := id, part := i, core := (s.op id).core, pa := p.pa, size := p.size, val := p.data, bad := false }] := by
    show (s.recall (p.pa / 64) none).m.prov ++ _ = _
    rw [hm.m]
  have hop : (s.withRelease id i p).op id = s.op id := by unfold State.op; rw [ho]
  rw [performProvisional_eq hp hk hbad hready]
  generalize s.withRelease id i p = u at *
  have hset : (u.setOp id ((s.op id).withPart i { p with rel := .prov })).op id = (s.op id).withPart i { p with rel := .prov } := State.setOp_op_self ..
  have hplaces : SamePlaces id s (u.setOp id ((s.op id).withPart i { p with rel := .prov })) := (SamePlaces.of_o ho).trans (.setOp u (by rw [hop]; rfl))
  have hpart : ((u.setOp id ((s.op id).withPart i { p with rel := .prov })).op id).parts[i]? = some { p with rel := .prov } := by
    rw [hset]
    exact Op.withPart_part hp
  have hsets : Leaves s (u.setOp id ((s.op id).withPart i { p with rel := .prov })) := hleaves.trans (setOp_leaves ..)
  obtain ⟨hprov', hrel⟩ := finishWrite_open (fun e he => (onlyOne_of_alone (halone e (hplaces.pos ▸ he))).of_places hplaces) hpart rfl
  refine ⟨hsets.keepsData.trans (finishWrite_keepsData _ id i), hprov'.trans hprov, hrel, fun hlast => ?_⟩
  have hlast' : lastPart ((u.setOp id ((s.op id).withPart i { p with rel := .prov })).op id) i := by
    rw [hset]
    refine ⟨hlast.1, fun j q hj => ?_⟩
    by_cases hji : j = i
    · subst hji
      rw [Op.withPart_part hp] at hj
      obtain rfl := Option.some.inj hj
      exact ⟨(hlast.2 j p hp).1, fun h => absurd rfl h⟩
    · rw [Op.withPart, List.getElem?_set_ne (Ne.symm hji)] at hj
      exact hlast.2 j q hj
  exact hsets.flagFalls (by rw [hset]; rfl) (finishWrite_flag hpart hlast')

/-- R227: a release completes: its bytes take the value it holds, and it is no longer provisional. -/
theorem completeRelease_spec {q : Prov} (hq : s.m.prov.find? (fun q => q.op == id && q.part == i) = some q) (hn : q.pa % 64 + q.size ≤ 64) :
    KeepsProgram s (s.completeRelease id i) ∧ MemoryWrites q.pa q.size q.val s (s.completeRelease id i) ∧
    (s.completeRelease id i).m.prov = s.m.prov.filter fun r => !(r.op == id && r.part == i) := by
  have hfree := withProv_leaves s (s.m.prov.filter fun r => !(r.op == id && r.part == i))
  obtain ⟨u, hu⟩ : ∃ u : State, u = { s with m := { s.m with prov := s.m.prov.filter fun r => !(r.op == id && r.part == i) } } := ⟨_, rfl⟩
  have hprov : u.m.prov = s.m.prov.filter fun r => !(r.op == id && r.part == i) := by rw [hu]
  rw [← hu] at hfree
  have heq : s.completeRelease id i =
      ((u.writeHome q.pa q.size q.val ((s.op id).parts.getD i {}).cache q.bad).modPart id i fun r => { r with rel := .complete }).sweepOps := by
    unfold State.completeRelease
    rw [hq, hu]
  obtain ⟨hw, -, -⟩ := writeHome_spec u q.pa q.size q.val ((s.op id).parts.getD i {}).cache q.bad
  have hbyte := readPhys_writeHome u q.pa q.size q.val ((s.op id).parts.getD i {}).cache q.bad hn
  rw [heq]
  generalize u.writeHome q.pa q.size q.val ((s.op id).parts.getD i {}).cache q.bad = t at *
  have hend : Leaves t (t.modPart id i fun r => { r with rel := .complete }).sweepOps := (modPart_leaves ..).trans (sweepOps_leaves _)
  refine ⟨(hfree.keepsData.program.trans hw.keepsProgram).trans hend.keepsData.program, fun a => ?_, ?_⟩
  · rw [hend.bytes a, hbyte a, hfree.bytes a]
    rfl
  · show t.m.prov = _
    rw [hw.m]
    exact hprov

end

end Sys2Proof.Machine

open Sys2Proof Sys2Proof.Machine Sys2Proof.Safety

/-- Settles O28: the provisional perform by `performProvisional_spec` and `readPa_released`, the completion by `completeRelease_spec`. -/
theorem releasePerforms : Obligations.ReleasePerforms := by
  unfold Obligations.ReleasePerforms
  rintro id i s _ p rfl hp - hn - hbad hdiffers
  refine ⟨fun hk hcan hrel hready hfir halone => ?performs, fun q hrel hcomplete hq hpa hsize => ?completes⟩
  case performs =>
    have hview := linkPay_view s id i
    have hstep : exec (.releaseProvisionalPerform id i) s = .next ((s.linkPay id i).performProvisional id i) := by
      have hkind : ((s.op id).kind == OpKind.accflush) = false ∧ ((s.op id).kind == OpKind.accdet) = false := by
        obtain hk | hk | hk := hk <;> rw [hk] <;> exact ⟨rfl, rfl⟩
      rw [exec_releaseProvisionalPerform]
      unfold execReleaseProvisionalPerform State.compared
      dsimp only
      rw [getD_of_getElem? hp, hcan, hrel, hready, hkind.1, hkind.2, hfir, hdiffers, Bool.and_false]
      rfl
    obtain ⟨hdata, hprov, hpart, hflag⟩ := performProvisional_spec (s := s.linkPay id i) (by rw [hview.op]; exact hp) (by rw [hview.op]; exact hk) hbad hready
      (by
        rw [hview.op]
        intro e he
        unfold alone
        rw [hview.o, hview.op]
        exact halone e he)
    rw [hview.op, hview.prov] at hprov
    rw [hview.op] at hflag
    have hkeeps := hview.leaves.keepsData.trans hdata
    obtain ⟨hregs, hteams, hreg⟩ := hkeeps.program
    refine ⟨_, hstep, hkeeps.bytes, hregs, hteams, hreg, hprov, hpart, fun a => ?_, fun k a hne => ?_, fun hlast => hview.leaves.flagFalls rfl (hflag hlast)⟩
    · rw [readPa_released hkeeps.bytes hprov, if_pos rfl]
    · rw [readPa_released hkeeps.bytes hprov, if_neg fun h => hne (Option.some.inj h)]
  case completes =>
    obtain ⟨⟨hregs, hteams, hreg⟩, hbytes, hprov⟩ := completeRelease_spec hq (by rw [hpa, hsize]; exact hn)
    refine ⟨_, ?_, hpa ▸ hsize ▸ hbytes, hregs, hteams, hreg, hprov⟩
    rw [exec_releaseComplete]
    unfold execReleaseComplete
    dsimp only
    rw [getD_of_getElem? hp, hrel, hcomplete]
    rfl
end

section
/-! SUPPORT. What leaves memory alone: the bytes at home (`s.m.mem`) are the same after each of the operations below, file by file.  Only a
few operations write them, and those keep the canonical form of memory (`Memory.wf`). -/

set_option Elab.async false

namespace Sys2Proof.Machine

open Sys2Proof Sys2Proof.Safety

@[simp] theorem State.mem_ite (c : Prop) [Decidable c] (s t : State) : (if c then s else t).m.mem = if c then s.m.mem else t.m.mem := by split <;> rfl

theorem State.mem_foldl {α : Type} (f : State → α → State) (h : ∀ s a, (f s a).m.mem = s.m.mem) (l : List α) (s : State) :
    (l.foldl f s).m.mem = s.m.mem := by
  induction l generalizing s with
  | nil => rfl
  | cons a l ih => exact (ih _).trans (h s a)

section
variable {α : Type} (k : State → α → Nat) (l : List α) (s : State)

@[simp] theorem State.mem_foldl_setWave (x : State → α → Wave) : (l.foldl (fun s a => s.setWave (k s a) (x s a)) s).m.mem = s.m.mem :=
  State.mem_foldl _ (fun _ _ => by rfl) l s

@[simp] theorem State.mem_foldl_modWave (f : State → α → Wave → Wave) : (l.foldl (fun s a => s.modWave (k s a) (f s a)) s).m.mem = s.m.mem :=
  State.mem_foldl _ (fun _ _ => by rfl) l s

@[simp] theorem State.mem_foldl_setTeam (x : State → α → Team) : (l.foldl (fun s a => s.setTeam (k s a) (x s a)) s).m.mem = s.m.mem :=
  State.mem_foldl _ (fun _ _ => by rfl) l s

@[simp] theorem State.mem_foldl_modTeam (f : State → α → Team → Team) : (l.foldl (fun s a => s.modTeam (k s a) (f s a)) s).m.mem = s.m.mem :=
  State.mem_foldl _ (fun _ _ => by rfl) l s

@[simp] theorem State.mem_foldl_setCopy (x : State → α → Copy) : (l.foldl (fun s a => s.setCopy (k s a) (x s a)) s).m.mem = s.m.mem :=
  State.mem_foldl _ (fun _ _ => by rfl) l s

end

/-! ### Get -/

@[simp] theorem State.modTeam_mem (s : State) (t : Nat) (f : Team → Team) : (s.modTeam t f).m.mem = s.m.mem := rfl

@[simp] theorem State.modCore_mem (s : State) (c : Nat) (f : Core → Core) : (s.modCore c f).m.mem = s.m.mem := rfl

@[simp] theorem State.modGrid_mem (s : State) (g : Nat) (f : Grid → Grid) : (s.modGrid g f).m.mem = s.m.mem := rfl

@[simp] theorem State.modTenant_mem (s : State) (t : Nat) (f : Tenant → Tenant) : (s.modTenant t f).m.mem = s.m.mem := rfl

@[simp] theorem State.draw_mem (s : State) : (s.draw).2.m.mem = s.m.mem := rfl

@[simp] theorem State.tickLt_mem (s : State) (c : Nat) : (s.tickLt c).2.m.mem = s.m.mem := rfl

@[simp] theorem State.recvLt_mem (s : State) (c m : Nat) : (s.recvLt c m).2.m.mem = s.m.mem := rfl

/-! ### Lines -/

@[simp] theorem State.poisonHome_mem (s : State) (line : Nat) : (s.poisonHome line).m.mem = s.m.mem := rfl

/-! ### Holders -/

@[simp] theorem State.setClock_mem (s : State) (h t : Nat) : (s.setClock h t).m.mem = s.m.mem := by
  unfold State.setClock
  split <;> simp

@[simp] theorem State.sendLt_mem (s : State) (a b : Nat) : (s.sendLt a b).m.mem = s.m.mem := by
  simp [State.sendLt]

@[simp] theorem State.tickAt_mem (s : State) (h : Nat) : (s.tickAt h).m.mem = s.m.mem := by
  simp [State.tickAt]

@[simp] theorem State.setHeld_mem (s : State) (line h : Nat) (x : Hold) : (s.setHeld line h x).m.mem = s.m.mem := rfl

@[simp] theorem State.openAt_mem (s : State) (line h : Nat) (sw : Bool) : (s.openAt line h sw).m.mem = s.m.mem := by
  simp [State.openAt]

@[simp] theorem State.closeAt_mem (s : State) (line h : Nat) : (s.closeAt line h).m.mem = s.m.mem := by
  simp [State.closeAt]

@[simp] theorem State.passLine_mem (s : State) (line a b : Nat) : (s.passLine line a b).m.mem = s.m.mem := by
  simp [State.passLine]

@[simp] theorem State.shareAt_mem (s : State) (line h : Nat) : (s.shareAt line h).m.mem = s.m.mem := by
  simp [State.shareAt]

@[simp] theorem State.takeBack_mem (s : State) (line : Nat) : (s.takeBack line).m.mem = s.m.mem := by
  simp [State.takeBack]

@[simp] theorem State.grantLine_mem (s : State) (core line : Nat) (excl : Bool) : (s.grantLine core line excl).m.mem = s.m.mem := by
  simp [State.grantLine]

@[simp] theorem State.returnLine_mem (s : State) (core line : Nat) : (s.returnLine core line).m.mem = s.m.mem := by
  simp [State.returnLine]

@[simp] theorem State.writeAt_mem (s : State) (line : Nat) : (s.writeAt line).m.mem = s.m.mem := by
  simp [State.writeAt]

@[simp] theorem State.hostTake_mem (s : State) (port line : Nat) : (s.hostTake port line).m.mem = s.m.mem := by
  simp [State.hostTake]

@[simp] theorem State.hostGive_mem (s : State) (line : Nat) : (s.hostGive line).m.mem = s.m.mem := by
  simp [State.hostGive]

/-! ### Budget -/

@[simp] theorem State.pay_mem (s : State) (t kind n : Nat) : (s.pay t kind n).m.mem = s.m.mem := by
  simp [State.pay]

@[simp] theorem State.payBytes_mem (s : State) (t kind n : Nat) : (s.payBytes t kind n).m.mem = s.m.mem := by
  simp [State.payBytes]

@[simp] theorem State.bill_mem (s : State) (t : Nat) (links : List Nat) (n : Nat) : (s.bill t links n).m.mem = s.m.mem := by
  simp [State.bill, State.mem_foldl]

@[simp] theorem State.setLink_mem (s : State) (n : Nat) (up : Bool) : (s.setLink n up).m.mem = s.m.mem := rfl

/-! ### Memory -/

@[simp] theorem State.billBack_mem (s : State) (core line : Nat) : (s.billBack core line).m.mem = s.m.mem := by
  simp [State.billBack]

/-! ### Translate -/

@[simp] theorem State.note_mem (s : State) (ag : Agent) (as : List (Nat × Nat × Bool)) : (s.note ag as).m.mem = s.m.mem := rfl

/-! ### Ops -/

@[simp] theorem State.queueRecord_mem (s : State) (t : Nat) (r : List Byte) : (s.queueRecord t r).m.mem = s.m.mem := rfl

@[simp] theorem State.suspend_mem (s : State) (g : Group) : (s.suspend g).m.mem = s.m.mem := rfl

@[simp] theorem State.dropFailed_mem (s : State) (ws : List Nat) : (s.dropFailed ws).m.mem = s.m.mem := rfl

@[simp] theorem State.sysFault_mem (s : State) (ws : List Nat) (susp w lane : Nat) (pc : DWord) (f : FaultInfo) :
    (s.sysFault ws susp w lane pc f).m.mem = s.m.mem := rfl

@[simp] theorem State.deviceError_mem (s : State) (reason info paddr : Nat) : (s.deviceError reason info paddr).m.mem = s.m.mem := rfl

@[simp] theorem State.inWaveTrap_mem (s : State) (w cause : Nat) (hdr : Bool) (pc : DWord) (mask : Mask) (ctx : Option Clause) (rdv : Bool) :
    (s.inWaveTrap w cause hdr pc mask ctx rdv).m.mem = s.m.mem := by
  simp [State.inWaveTrap]

@[simp] theorem State.advance_mem (s : State) (c : Cx) : (s.advance c).m.mem = s.m.mem := rfl

@[simp] theorem State.leave_mem (s : State) (c : Cx) (target : Nat → DWord) : (s.leave c target).m.mem = s.m.mem := rfl

@[simp] theorem State.waitAt_mem (s : State) (c : Cx) (k : Wait) : (s.waitAt c k).m.mem = s.m.mem := rfl

@[simp] theorem State.stall_mem (s : State) (c : Cx) (why : Stall) : (s.stall c why).m.mem = s.m.mem := rfl

@[simp] theorem State.stopTasks_mem (s : State) (w : Nat) (m : Mask) : (s.stopTasks w m).m.mem = s.m.mem := rfl

@[simp] theorem State.meets_mem (s : State) (c : Cx) (m : Mask) (others : Cx → State → State) (raise : State → State)
    (hothers : ∀ c s, (others c s).m.mem = s.m.mem) (hraise : ∀ s, (raise s).m.mem = s.m.mem) : (s.meets c m others raise).m.mem = s.m.mem := by
  simp [State.meets, hothers, hraise]

@[simp] theorem State.trapAt_mem (s : State) (c : Cx) (cause : Nat) (mask : Mask) : (s.trapAt c cause mask).m.mem = s.m.mem := by
  simp [State.trapAt]

@[simp] theorem State.trapAll_mem (s : State) (c : Cx) (cause : Nat) : (s.trapAll c cause).m.mem = s.m.mem := State.trapAt_mem s c cause c.b.lanes

@[simp] theorem State.faultAt_mem (s : State) (c : Cx) (lane : Nat) (mask : Mask) (f : FaultInfo) : (s.faultAt c lane mask f).m.mem = s.m.mem := by
  simp [State.faultAt]

@[simp] theorem State.flagUp_mem (s : State) (w f : Nat) : (s.flagUp w f).m.mem = s.m.mem := rfl

@[simp] theorem State.flagDown_mem (s : State) (w f : Nat) : (s.flagDown w f).m.mem = s.m.mem := rfl

@[simp] theorem State.flagsDown_mem (s : State) (fs : List (Nat × Nat)) : (s.flagsDown fs).m.mem = s.m.mem := by
  unfold State.flagsDown
  exact State.mem_foldl _ (fun _ _ => by simp) _ _

@[simp] theorem State.takePo_mem (s : State) (w : Nat) : (s.takePo w).2.m.mem = s.m.mem := rfl

@[simp] theorem State.clearMprog_mem (s : State) (w : Nat) : (s.clearMprog w).m.mem = s.m.mem := by
  simp [State.clearMprog]

/-! ### Operands -/

@[simp] theorem State.write1_mem (s : State) (a0 : Wr) : (s.write1 a0).m.mem = s.m.mem := by
  unfold State.write1
  split <;> simp

@[simp] theorem State.writeAll_mem (s : State) (ws : List Wr) : (s.writeAll ws).m.mem = s.m.mem := by
  simp [State.writeAll, State.mem_foldl]

@[simp] theorem State.lanesEffect_mem (s : State) (ls : List (Nat × Bundle × Nat)) (op : LOp) : (s.lanesEffect ls op).m.mem = s.m.mem := by
  simp [State.lanesEffect]

/-! ### Order -/

@[simp] theorem State.takePos_mem (s : State) (ws : List Nat) : (s.takePos ws).2.m.mem = s.m.mem := by
  have h : ∀ (l : List Nat) (a : List (Nat × Nat) × State), (l.foldl (fun a w => let (p, s) := a.2.takePo w; (a.1 ++ [(w, p)], s)) a).2.m.mem =
      a.2.m.mem := by
    intro l
    induction l with
    | nil => exact fun _ => rfl
    | cons w l ih => exact fun a => (ih _).trans rfl
  exact h ws ([], s)

@[simp] theorem State.issueOp_mem (s : State) (ws : List Nat) (o : Op) : (s.issueOp ws o).2.m.mem = s.m.mem := by
  have h := s.takePos_mem ws
  unfold State.issueOp
  generalize s.takePos ws = r at h
  obtain ⟨pos, u⟩ := r
  exact (State.mem_foldl _ (fun _ _ => by rfl) _ u).trans h

@[simp] theorem State.modPart_mem (s : State) (id i : Nat) (f : Part → Part) : (s.modPart id i f).m.mem = s.m.mem := rfl

@[simp] theorem State.stamp_mem (s : State) (id i : Nat) (m : Option Nat) : (s.stamp id i m).m.mem = s.m.mem := by
  unfold State.stamp
  split <;> simp

@[simp] theorem State.discardRels_mem (s : State) (qs : List (Nat × Nat)) : (s.discardRels qs).m.mem = s.m.mem := by
  unfold State.discardRels
  exact State.mem_foldl _ (fun _ _ => by simp) _ _

@[simp] theorem State.postViolation_mem (s : State) (g : Group) (checker : Nat) (r : List Byte) : (s.postViolation g checker r).m.mem = s.m.mem := rfl

@[simp] theorem State.sweepOps_mem (s : State) : (s.sweepOps).m.mem = s.m.mem := rfl

@[simp] theorem State.completeOp_mem (s : State) (id : Nat) : (s.completeOp id).m.mem = s.m.mem := by
  simp [State.completeOp]

@[simp] theorem State.containShadow_mem (s : State) (ws : List Nat) (copy : Option Nat) (line flags : Nat) (pc : DWord) :
    (s.containShadow ws copy line flags pc).m.mem = s.m.mem := by
  simp [State.containShadow]

/-! ### Versions -/

@[simp] theorem State.noteRead_mem (s : State) (g u pa n : Nat) : (s.noteRead g u pa n).m.mem = s.m.mem := by
  simp [State.noteRead]

@[simp] theorem State.leaveLane_mem (s : State) (t : Task) : (s.leaveLane t).m.mem = s.m.mem := by
  unfold State.leaveLane
  split <;> simp

@[simp] theorem State.dropVersions_mem (s : State) (g id : Nat) : (s.dropVersions g id).2.m.mem = s.m.mem := rfl

@[simp] theorem State.undoTasks_mem (s : State) (g : Nat) (a0 : Nat) (a1 : List (Nat × Bool)) : (s.undoTasks g a0 a1).m.mem = s.m.mem := by
  induction a0 generalizing s a1 with
  | zero => rfl
  | succ n ih =>
    cases a1 with
    | nil => rfl
    | cons e rest =>
      unfold State.undoTasks
      dsimp only
      split <;> simp [ih]

@[simp] theorem State.abortTask_mem (s : State) (g id : Nat) : (s.abortTask g id).m.mem = s.m.mem := State.undoTasks_mem s g _ _

@[simp] theorem State.makeRoom_mem (s : State) (g core t : Nat) (a0 : Nat) : (s.makeRoom g core t a0).2.m.mem = s.m.mem := by
  induction a0 generalizing s with
  | zero => rfl
  | succ n ih =>
    unfold State.makeRoom
    (repeat' split) <;> simp [ih]

/-! ### Mem -/

@[simp] theorem State.startWalk_mem (s : State) (w : Nat) (va : DWord) (need : Need) : (s.startWalk w va need).2.m.mem = s.m.mem := rfl

@[simp] theorem State.issueRel_mem (s : State) (ws : List Nat) (o : Op) : (s.issueRel ws o).m.mem = s.m.mem := by
  unfold State.issueRel
  dsimp only
  split
  · simp
  · split <;> simp

@[simp] theorem State.issueMem_mem (s : State) (w : Nat) (ws : List Nat) (pc : DWord) (sc : Scope) (sset : Nat) (m : MemL) (parts : List Part)
    (fl : List (Nat × Nat)) (group : Mask) : (s.issueMem w ws pc sc sset m parts fl group).m.mem = s.m.mem := by
  simp [State.issueMem]

@[simp] theorem State.landWord_mem (s : State) (p : Part) (k : Nat) (v : Word) : (s.landWord p k v).m.mem = s.m.mem := by
  simp [State.landWord]

@[simp] theorem State.landAll_mem (s : State) (p : Part) (old : Nat) : (s.landAll p old).m.mem = s.m.mem := by
  simp [State.landAll, State.mem_foldl]

@[simp] theorem State.raiseEccu_mem (s : State) (id : Nat) : (s.raiseEccu id).m.mem = s.m.mem := by
  unfold State.raiseEccu
  dsimp only
  generalize (if (s.op id).arrived then (s.op id).parts.filter fun p => p.hurt else []) = hs
  cases hs with
  | nil => rfl
  | cons p ps => (repeat' split) <;> simp

@[simp] theorem State.stampRead_mem (s : State) (id i : Nat) : (s.stampRead id i).m.mem = s.m.mem := by
  simp [State.stampRead]

@[simp] theorem State.markSilent_mem (s : State) (id i : Nat) : (s.markSilent id i).m.mem = s.m.mem := rfl

@[simp] theorem State.firDone_mem (s : State) (o : Op) (p : Part) : (s.firDone o p).m.mem = s.m.mem := by
  simp [State.firDone]

@[simp] theorem State.stallTask_mem (s : State) (o : Op) (p : Part) : (s.stallTask o p).m.mem = s.m.mem := rfl

@[simp] theorem State.unstallTask_mem (s : State) (o : Op) (p : Part) : (s.unstallTask o p).m.mem = s.m.mem := rfl

@[simp] theorem State.provValue_mem (s : State) (o : Op) (p : Part) : (s.provValue o p).2.2.m.mem = s.m.mem := by
  unfold State.provValue
  split <;> simp

/-! ### CopyShape -/

@[simp] theorem State.modTeamOf_mem (s : State) (w : Nat) (f : Team → Team) : (s.modTeamOf w f).m.mem = s.m.mem := rfl

/-! ### Access -/

@[simp] theorem State.takeTurns_mem (s : State) (t : Nat) (ls : List Nat) : (s.takeTurns t ls).m.mem = s.m.mem := by
  simp [State.takeTurns]

@[simp] theorem State.agentDone_mem (s : State) (key : Nat) : (s.agentDone key).m.mem = s.m.mem := rfl

/-! ### CopyEngine -/

@[simp] theorem State.modHandles_mem (s : State) (tk : Nat) (f : Team → Team) : (s.modHandles tk f).m.mem = s.m.mem := by
  simp [State.modHandles]

@[simp] theorem State.takeHandles_mem (s : State) (id : Nat) (slot : Nat) : (s.takeHandles id slot).m.mem = s.m.mem := by
  unfold State.takeHandles
  dsimp only
  split <;> simp

@[simp] theorem State.handleWrite_mem (s : State) (c : Copy) (e n v : Nat) (bad : Bool) : (s.handleWrite c e n v bad).m.mem = s.m.mem := rfl

@[simp] theorem State.engineSees_mem (s : State) (c : Copy) (line : Nat) (data : Bool) : (s.engineSees c line data).m.mem = s.m.mem := by
  simp [State.engineSees]

@[simp] theorem State.engineWalk_mem (s : State) (id : Nat) (va : DWord) (need : Need) : (s.engineWalk id va need).m.mem = s.m.mem := by
  simp [State.engineWalk]

@[simp] theorem State.dropWalks_mem (s : State) (id : Nat) (all : Bool) : (s.dropWalks id all).m.mem = s.m.mem := rfl

@[simp] theorem State.releaseHandles_mem (s : State) (c : Copy) : (s.releaseHandles c).m.mem = s.m.mem := by
  unfold State.releaseHandles
  dsimp only
  split
  · simp
  · split <;> simp

@[simp] theorem State.killHandles_mem (s : State) (c : Copy) : (s.killHandles c).m.mem = s.m.mem := by
  unfold State.killHandles
  dsimp only
  split
  · simp
  · split <;> simp

@[simp] theorem State.dropCopy_mem (s : State) (id : Nat) : (s.dropCopy id).m.mem = s.m.mem := by
  simp [State.dropCopy]

@[simp] theorem State.copySetFault_mem (s : State) (id : Nat) (f : FaultInfo) : (s.copySetFault id f).m.mem = s.m.mem := rfl

@[simp] theorem State.copyLost_mem (s : State) (id : Nat) (a : Ask) : (s.copyLost id a).m.mem = s.m.mem := rfl

/-! ### Sync -/

@[simp] theorem State.rdvmix_mem (s : State) (w : Nat) (due : List (DWord × Nat)) : (s.rdvmix w due).m.mem = s.m.mem := by
  unfold State.rdvmix
  split <;> simp

@[simp] theorem State.judged_mem (s : State) (w : Nat) : (s.judged w).m.mem = s.m.mem := by
  simp [State.judged]

@[simp] theorem State.dissolve_mem (s : State) (tk : Nat) (vs : List Lvl) : (s.dissolve tk vs).m.mem = s.m.mem := by
  simp [State.dissolve, State.mem_foldl]

@[simp] theorem State.releaseLanes_mem (s : State) (ls : List (Nat × Nat)) : (s.releaseLanes ls).m.mem = s.m.mem := by
  simp [State.releaseLanes]

@[simp] theorem State.needWalk_mem (s : State) (w : Nat) (va : DWord) (n : Need) : (s.needWalk w va n).m.mem = s.m.mem := by
  simp [State.needWalk]

@[simp] theorem State.satTrap_mem (s : State) (ws : List Nat) (pc : DWord) : (s.satTrap ws pc).m.mem = s.m.mem := by
  simp [State.satTrap, State.mem_foldl]

@[simp] theorem State.markChecked_mem (s : State) (as : List Arr) : (s.markChecked as).m.mem = s.m.mem := by
  simp [State.markChecked]

@[simp] theorem State.wideFaultOf_mem (s : State) (v : Lvl) (as : List Arr) (w lane : Nat) (f : FaultInfo) :
    (s.wideFaultOf v as w lane f).m.mem = s.m.mem := by
  unfold State.wideFaultOf
  split <;> simp

@[simp] theorem State.wideFault_mem (s : State) (v : Lvl) (as : List Arr) (f : FaultInfo) : (s.wideFault v as f).m.mem = s.m.mem := by
  simp [State.wideFault]

@[simp] theorem State.addDue_mem (s : State) (is : List DevEv) : (s.addDue is).m.mem = s.m.mem := rfl

@[simp] theorem State.settleHwait_mem (s : State) (w : Nat) : (s.settleHwait w).m.mem = s.m.mem := rfl

@[simp] theorem State.resolveWaits_mem (s : State) (tk : Nat) : (s.resolveWaits tk).m.mem = s.m.mem := by
  unfold State.resolveWaits
  dsimp only
  split
  · exact State.mem_foldl _ (fun _ _ => by split <;> simp) _ _
  · exact State.mem_foldl _ (fun _ _ => by simp) _ _

@[simp] theorem State.retire_mem (s : State) (ws : List Nat) : (s.retire ws).m.mem = s.m.mem := rfl

@[simp] theorem State.endTeam_mem (s : State) (tk : Nat) : (s.endTeam tk).m.mem = s.m.mem := by
  unfold State.endTeam
  dsimp only
  split
  · split <;> simp
  · rfl

/-! ### Flags -/

@[simp] theorem State.runReads_mem (s : State) (c : Cx) (p : Cx → Pre) (body : Cx → State → State) (hbody : ∀ c s, (body c s).m.mem = s.m.mem) :
    (s.runReads c p body).m.mem = s.m.mem := by
  unfold State.runReads
  split <;> simp [hbody]

@[simp] theorem State.run_mem (s : State) (p : Cx → Pre) (body : Cx → State → State) (own : State → Cx → Option (Nat × Mask))
    (hbody : ∀ c s, (body c s).m.mem = s.m.mem) : (s.run p body own).m.mem = s.m.mem := by
  unfold State.run
  (repeat' split) <;> simp [hbody]

@[simp] theorem State.stallWalk_mem (s : State) (c : Cx) (va : DWord) (need : Need) : (s.stallWalk c va need).m.mem = s.m.mem := by
  unfold State.stallWalk
  split <;> simp

@[simp] theorem State.faultLanes_mem (s : State) (c : Cx) (bad : List (Nat × FaultInfo)) (others : Cx → State → State)
    (hothers : ∀ c s, (others c s).m.mem = s.m.mem) : (s.faultLanes c bad others).m.mem = s.m.mem := by
  unfold State.faultLanes
  refine State.meets_mem s c _ _ _ hothers fun s => ?_
  dsimp only
  (repeat' split) <;> simp

/-! ### Fetch -/

@[simp] theorem State.setIc_mem (s : State) (die line : Nat) (x : Line) : (s.setIc die line x).m.mem = s.m.mem := rfl

@[simp] theorem State.startMiss_mem (s : State) (w : Nat) (va : DWord) (pa cache : Nat) : (s.startMiss w va pa cache).2.m.mem = s.m.mem := rfl

@[simp] theorem State.headerTrap_mem (s : State) (c : Cx) : (s.headerTrap c).m.mem = s.m.mem := by
  simp [State.headerTrap]

theorem State.fetch_wait_mem {s t : State} {w : Nat} {va : DWord} {why : Stall} (h : s.fetch w va = .wait t why) : t.m.mem = s.m.mem := by
  unfold State.fetch at h
  dsimp only at h
  (repeat' split at h) <;> cases h <;> rfl

theorem State.fetch_word_mem {s t : State} {w : Nat} {va : DWord} {v : Word} (h : s.fetch w va = .word v t) : t.m.mem = s.m.mem := by
  unfold State.fetch at h
  dsimp only at h
  (repeat' split at h) <;> cases h <;> rfl

theorem State.fetchMany_wait_mem {s t : State} {w : Nat} {l : List DWord} {vs : List Word} {why : Stall} (h : s.fetchMany w l = (vs, .wait t why)) :
    t.m.mem = s.m.mem := by
  induction l generalizing s vs with
  | nil => cases h
  | cons va l ih =>
    unfold State.fetchMany at h
    split at h
    next u hf => exact (ih (Prod.ext rfl (Prod.mk.inj h).2)).trans (State.fetch_word_mem hf)
    next => exact State.fetch_wait_mem (congrArg Prod.snd h)

theorem State.fetchMany_word_mem {s t : State} {w : Nat} {l : List DWord} {vs : List Word} {v : Word} (h : s.fetchMany w l = (vs, .word v t)) :
    t.m.mem = s.m.mem := by
  induction l generalizing s vs with
  | nil => cases h; rfl
  | cons va l ih =>
    unfold State.fetchMany at h
    split at h
    next u hf => exact (ih (Prod.ext rfl (Prod.mk.inj h).2)).trans (State.fetch_word_mem hf)
    next => exact State.fetch_word_mem (congrArg Prod.snd h)

@[simp] theorem State.startClause_mem (s : State) (c : Cx) (word : Word) (badFlags : Bool) : (s.startClause c word badFlags).m.mem = s.m.mem := by
  unfold State.startClause
  split
  · simp
  · split
    · simp
    · next hf => simp [State.fetch_wait_mem hf]
    · next hf =>
      have h := State.fetch_word_mem hf
      split
      · simp [h]
      · split
        · simp [h]
        · next hm => simp [State.fetchMany_wait_mem hm, h]
        · next hm => simp [State.fetchMany_word_mem hm, h]

/-! ### Sched -/

@[simp] theorem State.choose_mem (s : State) (core part slot : Nat) : (s.choose core part slot).m.mem = s.m.mem := by
  simp [State.choose]

@[simp] theorem State.startAt_mem (s : State) (w : Nat) (pc : DWord) : (s.startAt w pc).m.mem = s.m.mem := by
  simp [State.startAt]

@[simp] theorem State.countWaits_mem (s : State) : (s.countWaits).m.mem = s.m.mem := by
  simp [State.countWaits, State.mem_foldl]

@[simp] theorem State.dueRebase_mem (s : State) : (s.dueRebase).m.mem = s.m.mem := by
  simp [State.dueRebase]

/-! ### Issue -/

@[simp] theorem State.arriveAll_mem (s : State) (c : Cx) (sc : Scope) (op : LOp) : (s.arriveAll c sc op).m.mem = s.m.mem := rfl

@[simp] theorem State.taskFault_mem (s : State) (c : Cx) : (s.taskFault c).m.mem = s.m.mem := by
  simp [State.taskFault]

@[simp] theorem State.memIssue_mem (s : State) (m : MemL) (ps : List Part) (c : Cx) : (s.memIssue m ps c).m.mem = s.m.mem := by
  simp [State.memIssue]

@[simp] theorem State.memLane_mem (s : State) (c : Cx) (m : MemL) : (s.memLane c m).m.mem = s.m.mem := by
  unfold State.memLane
  dsimp only
  split
  · simp
  · split
    · simp
    · split
      · simp
      · split
        · simp
        · exact State.faultLanes_mem _ _ _ _ fun _ _ => by simp

@[simp] theorem State.lanesNow_mem (s : State) (c : Cx) (op : LOp) : (s.lanesNow c op).m.mem = s.m.mem := by
  simp [State.lanesNow]

@[simp] theorem State.lword_mem (s : State) (c : Cx) (sc : Scope) (op : LOp) : (s.lword c sc op).m.mem = s.m.mem := by
  unfold State.lword
  (repeat' split) <;> simp

/-! ### Control -/

@[simp] theorem State.transfer_mem (s : State) (c : Cx) (taken : Mask) (target : Nat → DWord) (link : Mask → Wave → Wave) :
    (s.transfer c taken target link).m.mem = s.m.mem := by
  unfold State.transfer
  dsimp only
  split
  · simp
  · exact State.faultLanes_mem _ _ _ _ fun _ _ => by simp

@[simp] theorem State.jtabReads_mem (s : State) (ps : List Part) (a : Ext) (c : Cx) : (s.jtabReads ps a c).m.mem = s.m.mem := rfl

@[simp] theorem State.jtabIssue_mem (s : State) (c : Cx) (a : Ext) (b : Nat) : (s.jtabIssue c a b).m.mem = s.m.mem := by
  unfold State.jtabIssue
  dsimp only
  split
  · simp
  · split
    · simp
    · split
      · simp
      · split
        · simp
        · exact State.faultLanes_mem _ _ _ _ fun _ _ => by simp

@[simp] theorem State.jtabDone_mem (s : State) (id : Nat) : (s.jtabDone id).m.mem = s.m.mem := by
  unfold State.jtabDone
  dsimp only
  (repeat' split) <;> simp

@[simp] theorem State.routeFault_mem (s : State) (c : Cx) : (s.routeFault c).m.mem = s.m.mem := by
  simp [State.routeFault]

/-! ### MemOps -/

@[simp] theorem State.uniformMem_mem (s : State) (c : Cx) (load : Bool) (z d a imm : Nat) : (s.uniformMem c load z d a imm).m.mem = s.m.mem := by
  unfold State.uniformMem
  dsimp only
  (repeat' split) <;> simp

@[simp] theorem State.issueSteps_mem (s : State) (c : Cx) (load : Bool) (ps : List Part) : (s.issueSteps c load ps).m.mem = s.m.mem := by
  simp [State.issueSteps]

@[simp] theorem State.multiOthers_mem (s : State) (load : Bool) (d base cnt off : Nat) (c : Cx) :
    (s.multiOthers load d base cnt off c).m.mem = s.m.mem := by
  unfold State.multiOthers
  dsimp only
  split <;> simp

@[simp] theorem State.multiMem_mem (s : State) (c : Cx) (load : Bool) (d base cnt off : Nat) :
    (s.multiMem c load d base cnt off).m.mem = s.m.mem := by
  unfold State.multiMem
  dsimp only
  split
  · simp
  · split
    · simp
    · split
      · simp
      · refine State.meets_mem s c _ _ _ (fun _ _ => State.multiOthers_mem ..) fun s => ?_
        split <;> simp

@[simp] theorem State.maintain_mem (s : State) (c : Cx) (kind : OpKind) (d a b : Nat) : (s.maintain c kind d a b).m.mem = s.m.mem := by
  unfold State.maintain
  dsimp only
  (repeat' split) <;> simp

/-! ### Matrix -/

@[simp] theorem State.debit_mem (s : State) (core t cost : Nat) : (s.debit core t cost).m.mem = s.m.mem := rfl

@[simp] theorem State.lxIssue_mem (s : State) (c : Cx) (ws : List Nat) (o : Op) (load : Bool) : (s.lxIssue c ws o load).m.mem = s.m.mem := by
  simp [State.lxIssue]

@[simp] theorem State.flushIssue_mem (s : State) (c : Cx) (det : Bool) (ps : List Part) : (s.flushIssue c det ps).m.mem = s.m.mem := by
  simp [State.flushIssue]

@[simp] theorem State.flush_mem (s : State) (c : Cx) (det : Bool) (acc areg : Nat) : (s.flush c det acc areg).m.mem = s.m.mem := by
  unfold State.flush
  (repeat' split) <;> simp

@[simp] theorem State.readSlots_mem (s : State) (id : Nat) : (s.readSlots id).m.mem = s.m.mem := by
  simp [State.readSlots, State.mem_foldl]

@[simp] theorem State.accstConvert_mem (s : State) (id i : Nat) : (s.accstConvert id i).m.mem = s.m.mem := by
  simp [State.accstConvert]

@[simp] theorem State.takeSlot_mem (s : State) (id q : Nat) : (s.takeSlot id q).m.mem = s.m.mem := rfl

@[simp] theorem State.holdElem_mem (s : State) (id i : Nat) : (s.holdElem id i).m.mem = s.m.mem := by
  simp [State.holdElem]

/-! ### MemEvents -/

@[simp] theorem State.firDelay_mem (s : State) (id i : Nat) : (s.firDelay id i).m.mem = s.m.mem := rfl

@[simp] theorem State.fillTlb_mem (s : State) (k : Walk) (r : WalkOk) (a d : Bool) : (s.fillTlb k r a d).m.mem = s.m.mem := rfl

@[simp] theorem State.endWalk_mem (s : State) (id w : Nat) : (s.endWalk id w).m.mem = s.m.mem := rfl

@[simp] theorem State.failWalk_mem (s : State) (walk : Nat) (k : Walk) (f : FaultInfo) : (s.failWalk walk k f).m.mem = s.m.mem := rfl

@[simp] theorem State.missFilled_mem (s : State) (miss : Nat) (k : Miss) (x : Line) : (s.missFilled miss k x).m.mem = s.m.mem := rfl

/-! ### Report -/

@[simp] theorem State.sendMsi_mem (s : State) (port vec : Nat) : (s.sendMsi port vec).m.mem = s.m.mem := rfl

@[simp] theorem State.setRes_mem (s : State) (tenant res : Nat) : (s.setRes tenant res).m.mem = s.m.mem := rfl

@[simp] theorem State.resumeCopy_mem (s : State) (g : Group) : (s.resumeCopy g).m.mem = s.m.mem := by
  unfold State.resumeCopy
  split <;> simp

@[simp] theorem State.goOn_mem (s : State) : (s.goOn).m.mem = s.m.mem := by
  simp [State.goOn, State.mem_foldl]

@[simp] theorem State.clearGroups_mem (s : State) (w : Nat) : (s.clearGroups w).m.mem = s.m.mem := rfl

@[simp] theorem State.resume_mem (s : State) (w : Nat) : (s.resume w).m.mem = s.m.mem := by
  simp [State.resume]

@[simp] theorem State.wcmdResume_mem (s : State) (tenant wid : Nat) : (s.wcmdResume tenant wid).m.mem = s.m.mem := by
  simp [State.wcmdResume]

@[simp] theorem State.finishKilled_mem (s : State) (w : Nat) : (s.finishKilled w).m.mem = s.m.mem := by
  simp [State.finishKilled]

@[simp] theorem State.killWave_mem (s : State) (w : Nat) : (s.killWave w).m.mem = s.m.mem := by
  simp [State.killWave]

@[simp] theorem State.kill_mem (s : State) (w : Nat) : (s.kill w).m.mem = s.m.mem := by
  simp [State.kill, State.mem_foldl]

@[simp] theorem State.wcmdKill_mem (s : State) (tenant wid : Nat) : (s.wcmdKill tenant wid).m.mem = s.m.mem := by
  simp [State.wcmdKill]

/-! ### Launch -/

@[simp] theorem State.cmplFault_mem (s : State) (tenant asid status seq : Nat) (cmpl : DWord) (f : FaultInfo) :
    (s.cmplFault tenant asid status seq cmpl f).m.mem = s.m.mem := rfl

@[simp] theorem State.sendCmpl_mem (s : State) (tenant vec : Nat) : (s.sendCmpl tenant vec).m.mem = s.m.mem := by
  simp [State.sendCmpl]

@[simp] theorem State.readRec_mem (s : State) (ag : Agent) (a : Nat) : (s.readRec ag a).2.m.mem = s.m.mem := rfl

@[simp] theorem State.tookRecord_mem (s : State) (t k : Nat) (q : Queue) (last : Option Nat) : (s.tookRecord t k q last).m.mem = s.m.mem := rfl

/-! ### AddrMap -/

@[simp] theorem State.setMapstat_mem (s : State) (code : Nat) (busy : Bool) : (s.setMapstat code busy).m.mem = s.m.mem := by
  rw [setMapstat_eq, State.setDev_m]

@[simp] theorem State.mapSubmit_mem (s : State) : (s.mapSubmit).m.mem = s.m.mem := by
  unfold State.mapSubmit
  dsimp only
  split
  · simp
  · split <;> simp

@[simp] theorem State.setMap_mem (s : State) (k : Nat) (rows : List Nat) : (s.setMap k rows).m.mem = s.m.mem := rfl

@[simp] theorem State.forgetGot_mem (s : State) (k : Nat) : (s.forgetGot k).m.mem = s.m.mem := rfl

@[simp] theorem State.rtapply_mem (s : State) : (s.rtapply).m.mem = s.m.mem := rfl

/-! ### Checkers -/

@[simp] theorem State.zeroClocks_mem (s : State) : (s.zeroClocks).m.mem = s.m.mem := rfl

/-! ### Copies -/

@[simp] theorem State.handleWord_mem (s : State) (reads : List Nat) (body : Cx → State → State) (hbody : ∀ c s, (body c s).m.mem = s.m.mem) :
    (s.handleWord reads body).m.mem = s.m.mem := by
  simp [State.handleWord, hbody]

@[simp] theorem State.handleFault_mem (s : State) (c : Cx) (reason addr : Nat) : (s.handleFault c reason addr).m.mem = s.m.mem := by
  simp [State.handleFault]

@[simp] theorem State.handleOp_mem (s : State) (c : Cx) (kind : OpKind) : (s.handleOp c kind).m.mem = s.m.mem := rfl

/-! ### Hbm -/

@[simp] theorem State.hbmServe_mem (s : State) (ctrl idx : Nat) : (s.hbmServe ctrl idx).m.mem = s.m.mem := by
  unfold State.hbmServe
  dsimp only
  (repeat' split) <;> simp

/-! ### Reset -/

@[simp] theorem State.abortOn_mem (s : State) (on : Nat → Bool) : (s.abortOn on).m.mem = s.m.mem := by
  simp [State.abortOn, State.mem_foldl]

@[simp] theorem State.discardOn_mem (s : State) (on : Nat → Bool) : (s.discardOn on).m.mem = s.m.mem := by
  simp [State.discardOn]

@[simp] theorem State.setResetstat_mem (s : State) (state why : Nat) : (s.setResetstat state why).m.mem = s.m.mem := rfl

@[simp] theorem State.testCore_mem (s : State) (core : Nat) : (s.testCore core).m.mem = s.m.mem := by
  simp [State.testCore]

@[simp] theorem State.clearCore_mem (s : State) (core : Nat) : (s.clearCore core).m.mem = s.m.mem := rfl

@[simp] theorem State.setGatestat_mem (s : State) (core state : Nat) : (s.setGatestat core state).m.mem = s.m.mem := rfl

@[simp] theorem State.wake_mem (s : State) (core : Nat) : (s.wake core).m.mem = s.m.mem := rfl

@[simp] theorem State.extend_mem (s : State) (m : Nat) (d : List Byte) : (s.extend m d).m.mem = s.m.mem := rfl

@[simp] theorem State.enumerate_mem (s : State) (ioOnly : Bool) : (s.enumerate ioOnly).m.mem = s.m.mem := rfl

/-! ### HostPort -/

@[simp] theorem State.hdmReport_mem (s : State) (pa : Nat) : (s.hdmReport pa).m.mem = s.m.mem := by
  simp [State.hdmReport]

/-! ### Links -/

@[simp] theorem State.walkLost_mem (s : State) (id pa : Nat) : (s.walkLost id pa).m.mem = s.m.mem := by
  unfold State.walkLost
  split <;> simp

@[simp] theorem State.missLost_mem (s : State) (id : Nat) : (s.missLost id).m.mem = s.m.mem := by
  unfold State.missLost
  split <;> simp

@[simp] theorem State.wantLost_mem (s : State) (key : Nat) : (s.wantLost key).m.mem = s.m.mem := by
  unfold State.wantLost
  split <;> simp

@[simp] theorem State.restLost_mem (s : State) (link : Nat) : (s.restLost link).m.mem = s.m.mem := by
  simp [State.restLost, State.mem_foldl]

/-! ### Power -/

@[simp] theorem State.budgetFault_mem (s : State) (kind w : Nat) : (s.budgetFault kind w).m.mem = s.m.mem := rfl

@[simp] theorem State.closeKind_mem (s : State) (t kind : Nat) : (s.closeKind t kind).m.mem = s.m.mem := by
  unfold State.closeKind
  exact (State.mem_foldl _ (fun _ _ => by simp) _ _).trans rfl

@[simp] theorem State.closeMat_mem (s : State) (t : Nat) : (s.closeMat t).m.mem = s.m.mem := rfl

@[simp] theorem State.startPeriod_mem (s : State) : (s.startPeriod).m.mem = s.m.mem := by
  unfold State.startPeriod
  dsimp only
  split <;> simp [State.mem_foldl]

/-! ### Preempt -/

@[simp] theorem State.setPrestat_mem (s : State) (state why tslot : Nat) : (s.setPrestat state why tslot).m.mem = s.m.mem := rfl

@[simp] theorem State.abortCore_mem (s : State) (g core : Nat) : (s.abortCore g core).m.mem = s.m.mem := by
  simp [State.abortCore, State.mem_foldl]

@[simp] theorem State.saveTeam_mem (s : State) (core tslot : Nat) : (s.saveTeam core tslot).m.mem = s.m.mem := by
  unfold State.saveTeam
  dsimp only
  split
  · rfl
  · split
    · simp
    · split <;> simp

@[simp] theorem State.freeSaved_mem (s : State) (addr core tk : Nat) : (s.freeSaved addr core tk).m.mem = s.m.mem := by
  simp [State.freeSaved]

@[simp] theorem State.unsave_mem (s : State) (v : Saving) : (s.unsave v).m.mem = s.m.mem := by
  simp [State.unsave]

@[simp] theorem State.loadTeam_mem (s : State) (addr tk : Nat) (v : SavedTeam) : (s.loadTeam addr tk v).m.mem = s.m.mem := by
  simp [State.loadTeam]

@[simp] theorem State.loadGroups_mem (s : State) (addr tk : Nat) (v : SavedTeam) : (s.loadGroups addr tk v).m.mem = s.m.mem := rfl

@[simp] theorem State.restoreBegin_mem (s : State) (core : Nat) : (s.restoreBegin core).m.mem = s.m.mem := by
  simp [State.restoreBegin]

/-! ### Tlb -/

@[simp] theorem State.tlbinv_mem (s : State) (tlb : Nat → Nat → Bool) (rgn : Nat → Bool) : (s.tlbinv tlb rgn).m.mem = s.m.mem := rfl

@[simp] theorem State.tlbinvPage_mem (s : State) (asid : Nat) : (s.tlbinvPage asid).m.mem = s.m.mem := rfl

@[simp] theorem State.tlbinvAsid_mem (s : State) (asid : Nat) : (s.tlbinvAsid asid).m.mem = s.m.mem := rfl

@[simp] theorem State.tlbinvAll_mem (s : State) : (s.tlbinvAll).m.mem = s.m.mem := rfl

/-! ### Regs -/

@[simp] theorem State.setDev64_mem (s : State) (low : Nat) (v : DWord) : (s.setDev64 low v).m.mem = s.m.mem := rfl

@[simp] theorem State.writeChkkey_mem (s : State) (v : DWord) : (s.writeChkkey v).m.mem = s.m.mem := by
  simp [State.writeChkkey]

@[simp] theorem State.stageRow_mem (s : State) (v : DWord) : (s.stageRow v).m.mem = s.m.mem := by
  simp [State.stageRow]

@[simp] theorem State.write64_mem (s : State) (a : RegAt) (low : Nat) (v : DWord) : (s.write64 a low v).m.mem = s.m.mem := by
  simp [State.write64]

@[simp] theorem State.takeCfr_mem (s : State) (w : Nat) : (s.takeCfr w).m.mem = s.m.mem := rfl

@[simp] theorem State.writeFqcons_mem (s : State) (t : Nat) (v : Word) : (s.writeFqcons t v).m.mem = s.m.mem := rfl

@[simp] theorem State.writeWcmd_mem (s : State) (t : Nat) (v : Word) : (s.writeWcmd t v).m.mem = s.m.mem := by
  unfold State.writeWcmd
  split <;> simp

@[simp] theorem State.writeFirctl_mem (s : State) (v : Word) : (s.writeFirctl v).m.mem = s.m.mem := rfl

@[simp] theorem State.writeMeasd7_mem (s : State) (v : Word) : (s.writeMeasd7 v).m.mem = s.m.mem := by
  simp [State.writeMeasd7]

@[simp] theorem State.writeTlbinv_mem (s : State) (v : Word) : (s.writeTlbinv v).m.mem = s.m.mem := by
  unfold State.writeTlbinv
  split <;> simp

@[simp] theorem State.writeRtbl_mem (s : State) (v : Word) : (s.writeRtbl v).m.mem = s.m.mem := by
  simp [State.writeRtbl]

@[simp] theorem State.writeTenant_mem (s : State) (t n : Nat) (v : Word) : (s.writeTenant t n v).m.mem = s.m.mem := by
  simp [State.writeTenant]

@[simp] theorem State.setSnap_mem (s : State) (a : RegAt) (low : Nat) (v : DWord) : (s.setSnap a low v).m.mem = s.m.mem := by
  unfold State.setSnap
  split <;> simp

@[simp] theorem State.setLatch_mem (s : State) (a : RegAt) (low : Nat) (v : Option Word) : (s.setLatch a low v).m.mem = s.m.mem := by
  unfold State.setLatch
  split <;> simp

@[simp] theorem State.sysRead_mem (s : State) (a : RegAt) (n : Nat) : (s.sysRead a n).2.m.mem = s.m.mem := by
  unfold State.sysRead
  (repeat' split) <;> simp

@[simp] theorem State.sysregFault_mem (s : State) (c : Cx) : (s.sysregFault c).m.mem = s.m.mem := by
  simp [State.sysregFault]

@[simp] theorem State.barRead_mem (s : State) (off : Nat) : (s.barRead off).m.mem = s.m.mem := by
  unfold State.barRead
  dsimp only
  (repeat' split) <;> simp

/-! ### Tasks -/

@[simp] theorem State.spawnIssue_mem (s : State) (d : Nat) (a : Ext) (b : Nat) (ls : List Nat) (c : Cx) :
    (s.spawnIssue d a b ls c).m.mem = s.m.mem := rfl

@[simp] theorem State.spawn_mem (s : State) (c : Cx) (d : Nat) (a : Ext) (b : Nat) : (s.spawn c d a b).m.mem = s.m.mem := by
  unfold State.spawn
  dsimp only
  split
  · simp
  · split
    · simp
    · split
      · simp
      · split
        · simp
        · exact State.faultLanes_mem _ _ _ _ fun _ _ => by simp

@[simp] theorem State.fsWord_mem (s : State) (c : Cx) (bad : Bool) (body : State → State) (hbody : ∀ s, (body s).m.mem = s.m.mem) :
    (s.fsWord c bad body).m.mem = s.m.mem := by
  unfold State.fsWord
  split <;> simp [hbody]

/-! ### Shadow -/

@[simp] theorem State.asShadows_mem (s : State) : (s.asShadows).m.mem = s.m.mem := rfl

/-! ### Agenda -/

@[simp] theorem State.moveIcFill_mem (s : State) (die line : Nat) : (s.moveIcFill die line).m.mem = s.m.mem := by
  simp [State.moveIcFill]

@[simp] theorem State.moveRunAhead_mem (s : State) (w : Nat) (pc : DWord) : (s.moveRunAhead w pc).m.mem = s.m.mem := by
  unfold State.moveRunAhead
  (repeat' split) <;> simp

@[simp] theorem State.moveRgnFill_mem (s : State) (core asid e : Nat) : (s.moveRgnFill core asid e).m.mem = s.m.mem := by
  simp [State.moveRgnFill]

@[simp] theorem State.moveParity_mem (s : State) (w : Nat) (c : RegClass) (n : Nat) : (s.moveParity w c n).m.mem = s.m.mem := by
  simp [State.moveParity]

@[simp] theorem State.moveMismatch_mem (s : State) (w : Nat) (c : RegClass) (n : Nat) (v : Word) : (s.moveMismatch w c n v).m.mem = s.m.mem := by
  simp [State.moveMismatch]

@[simp] theorem State.moveMsix_mem (s : State) (port vec addr : Nat) (data : Word) : (s.moveMsix port vec addr data).m.mem = s.m.mem := by
  simp [State.moveMsix]

@[simp] theorem State.moveDevMsi_mem (s : State) (k : Nat) : (s.moveDevMsi k).m.mem = s.m.mem := by
  simp [State.moveDevMsi]

@[simp] theorem State.moveHdm_mem (s : State) (port base size : Nat) : (s.moveHdm port base size).m.mem = s.m.mem := by
  simp [State.moveHdm]

@[simp] theorem State.moveFlash_mem (s : State) (a : Bool) (i : Image) : (s.moveFlash a i).m.mem = s.m.mem := rfl

@[simp] theorem State.moveSliceTest_mem (s : State) (slice : Nat) (fails : Bool) : (s.moveSliceTest slice fails).m.mem = s.m.mem := rfl

@[simp] theorem State.moveSelfTest_mem (s : State) (core : Nat) (fails : Bool) : (s.moveSelfTest core fails).m.mem = s.m.mem := rfl

end Sys2Proof.Machine
end

section
/-! SUPPORT. What writes memory keeps its canonical form (R4, R225): writes that perform, lines that a cache gives back, maps that are installed,
and whatever calls these. -/

set_option Elab.async false

namespace Sys2Proof.Machine

open Sys2Proof Sys2Proof.Safety

/-! ### Actions one after another -/

theorem State.wf_foldl {α : Type} {f : State → α → State} (hf : ∀ (s : State) (a : α), Memory.wf s.m.mem = true → Memory.wf (f s a).m.mem = true)
    (l : List α) {s : State} (hwf : Memory.wf s.m.mem = true) : Memory.wf (l.foldl f s).m.mem = true := by
  induction l generalizing s with
  | nil => exact hwf
  | cons a l ih => exact ih (hf s a hwf)

theorem State.wf_ite {p : Prop} [Decidable p] {s t : State} (hs : Memory.wf s.m.mem = true) (ht : Memory.wf t.m.mem = true) :
    Memory.wf (if p then s else t).m.mem = true := by
  split
  · exact hs
  · exact ht

/-! ### Memory -/

theorem State.writeRange_wf {s : State} (pa : Nat) (bs : List Byte) (hwf : Memory.wf s.m.mem = true) :
    Memory.wf (s.writeRange pa bs).m.mem = true := by
  unfold State.writeRange
  exact State.wf_foldl (fun _ _ h => writeHome_wf _ _ _ _ _ h) _ hwf

/-! ### Translate -/

theorem State.markLeaf_wf {s : State} (pte : Nat) (write : Bool) (hwf : Memory.wf s.m.mem = true) :
    Memory.wf (s.markLeaf pte write).m.mem = true := by
  simp [State.markLeaf, writeHome_wf, hwf]

theorem State.walkMark_wf {s : State} (ag : Agent) (need : Need) (va : DWord) (hwf : Memory.wf s.m.mem = true) :
    Memory.wf (s.walkMark ag need va).2.m.mem = true := by
  unfold State.walkMark
  dsimp only
  (repeat' split) <;> simp [State.markLeaf_wf, hwf]

theorem State.checkNow_wf {s : State} (ag : Agent) (need : Need) (va : DWord) (size : Nat) (task : Bool) (hwf : Memory.wf s.m.mem = true) :
    Memory.wf (s.checkNow ag need va size task).2.m.mem = true := by
  have hmark := State.walkMark_wf ag need va hwf
  unfold State.checkNow
  dsimp only
  generalize s.walkMark ag need va = r at hmark
  (repeat' split) <;> simp_all

/-! ### Order -/

theorem State.poisonLine_wf {s : State} (line : Nat) (hwf : Memory.wf s.m.mem = true) : Memory.wf (s.poisonLine line).m.mem = true := by
  simp [State.poisonLine, recall_wf, setLlc_mem, hwf]

theorem State.containReorder_wf {s : State} (w eid lid : Nat) (pe pl : Part) (scope : Dom) (hwf : Memory.wf s.m.mem = true) :
    Memory.wf (s.containReorder w eid lid pe pl scope).m.mem = true := by
  unfold State.containReorder
  dsimp only
  (repeat' split) <;> simp [State.poisonLine_wf, hwf]

theorem State.checkLeaving_wf {s : State} (w eid : Nat) (hwf : Memory.wf s.m.mem = true) : Memory.wf (s.checkLeaving w eid).m.mem = true := by
  unfold State.checkLeaving
  refine State.wf_foldl (fun s lid h => ?_) _ hwf
  dsimp only
  split
  · exact h
  · exact State.containReorder_wf _ _ _ _ _ _ h

theorem State.leaveWindow_wf {s : State} (w : Nat) (a0 : Nat) (hwf : Memory.wf s.m.mem = true) : Memory.wf (s.leaveWindow w a0).m.mem = true := by
  induction a0 generalizing s with
  | zero => exact hwf
  | succ n ih =>
    unfold State.leaveWindow
    split
    · exact hwf
    · split
      · exact ih (State.checkLeaving_wf w _ hwf)
      · exact hwf

theorem State.afterPerform_wf {s : State} (id : Nat) (hwf : Memory.wf s.m.mem = true) : Memory.wf (s.afterPerform id).m.mem = true := by
  unfold State.afterPerform
  rw [State.sweepOps_mem]
  exact State.wf_foldl (f := fun (s : State) (e : Nat × Nat) => s.leaveWindow e.1 256) (fun _ _ h => State.leaveWindow_wf _ _ h) _ hwf

theorem State.noteEvent_wf {s : State} (ws : List Nat) (lanes : Mask) (cls : Cls) (dom : Dom) (kind : OpKind) (sc : Scope) (pc : DWord)
    (hwf : Memory.wf s.m.mem = true) : Memory.wf (s.noteEvent ws lanes cls dom kind sc pc).m.mem = true := by
  simp [State.noteEvent, State.afterPerform_wf, hwf]

/-! ### Versions -/

theorem State.taskWrite_wf {s : State} (g t core pa n x cache : Nat) (bad : Bool) (hwf : Memory.wf s.m.mem = true) :
    Memory.wf (s.taskWrite g t core pa n x cache bad).2.m.mem = true := by
  unfold State.taskWrite
  dsimp only
  (repeat' split) <;> simp [writePa_wf, hwf]

/-! ### Mem -/

theorem State.partRead_wf {s : State} (o : Op) (p : Part) (pa n : Nat) (hwf : Memory.wf s.m.mem = true) :
    Memory.wf (s.partRead o p pa n).2.m.mem = true := by
  unfold State.partRead
  dsimp only
  (repeat' split) <;> simp [yieldLine_wf, hwf]

theorem State.scaleRead_wf {s : State} (o : Op) (p : Part) (hwf : Memory.wf s.m.mem = true) : Memory.wf (s.scaleRead o p).2.m.mem = true := by
  simp [State.scaleRead, State.partRead_wf, hwf]

theorem State.partWrite_wf {s : State} (o : Op) (p : Part) (n v : Nat) (bad : Bool) (hwf : Memory.wf s.m.mem = true) :
    Memory.wf (s.partWrite o p n v bad).2.m.mem = true := by
  unfold State.partWrite
  (repeat' split) <;> simp [State.taskWrite_wf, writePa_wf, hwf]

theorem State.bindGranule_wf {s : State} (id i k : Nat) (hwf : Memory.wf s.m.mem = true) : Memory.wf (s.bindGranule id i k).m.mem = true := by
  simp [State.bindGranule, State.partRead_wf, hwf]

theorem State.finishRead_wf {s : State} (id i : Nat) (hwf : Memory.wf s.m.mem = true) : Memory.wf (s.finishRead id i).m.mem = true := by
  simp [State.finishRead, State.afterPerform_wf, hwf]

theorem State.arrive_wf {s : State} (id i word : Nat) (hwf : Memory.wf s.m.mem = true) : Memory.wf (s.arrive id i word).m.mem = true := by
  unfold State.arrive
  dsimp only
  (repeat' split) <;> simp [State.bindGranule_wf, State.finishRead_wf, State.afterPerform_wf, hwf]

theorem State.arriveElem_wf {s : State} (id i : Nat) (hwf : Memory.wf s.m.mem = true) : Memory.wf (s.arriveElem id i).m.mem = true := by
  have hread := State.partRead_wf (s.op id) ((s.op id).parts.getD i {}) ((s.op id).parts.getD i {}).pa ((s.op id).parts.getD i {}).size hwf
  unfold State.arriveElem
  dsimp only
  generalize s.partRead (s.op id) ((s.op id).parts.getD i {}) ((s.op id).parts.getD i {}).pa ((s.op id).parts.getD i {}).size = r at hread
  obtain ⟨⟨v, bad⟩, u⟩ := r
  have hscale := State.scaleRead_wf (s.op id) ((s.op id).parts.getD i {}) hread
  have hland : ∀ (t : State) (l : List Nat) (p : Part) (ws : List Word), (l.foldl (fun s k => s.landWord p k (ws.getD k 0#32)) t).m.mem = t.m.mem :=
    fun t l p ws => State.mem_foldl _ (fun _ _ => by simp) _ _
  dsimp only
  (repeat' split) <;> simp_all [State.finishRead_wf]

theorem State.endPart_wf {s : State} (id : Nat) (hwf : Memory.wf s.m.mem = true) : Memory.wf (s.endPart id).m.mem = true := by
  simp [State.endPart, State.afterPerform_wf, hwf]

theorem State.finishWrite_wf {s : State} (id i : Nat) (hwf : Memory.wf s.m.mem = true) : Memory.wf (s.finishWrite id i).m.mem = true := by
  simp [State.finishWrite, State.endPart_wf, hwf]

theorem State.endSilent_wf {s : State} (id i : Nat) (hwf : Memory.wf s.m.mem = true) : Memory.wf (s.endSilent id i).m.mem = true := by
  simp [State.endSilent, State.endPart_wf, hwf]

theorem State.stfConvert_wf {s : State} (id i : Nat) (hwf : Memory.wf s.m.mem = true) : Memory.wf (s.stfConvert id i).m.mem = true := by
  unfold State.stfConvert
  dsimp only
  (repeat' split) <;> simp [State.scaleRead_wf, hwf]

theorem State.performStore_wf {s : State} (id i : Nat) (hwf : Memory.wf s.m.mem = true) : Memory.wf (s.performStore id i).m.mem = true := by
  unfold State.performStore
  dsimp only
  (repeat' split) <;> simp [State.stfConvert_wf, State.partWrite_wf, State.finishWrite_wf, hwf]

theorem State.ownFor_wf {s : State} (o : Op) (p : Part) (hwf : Memory.wf s.m.mem = true) : Memory.wf (s.ownFor o p).m.mem = true := by
  unfold State.ownFor
  (repeat' split) <;> simp [gainL1_mem, setL1_mem, hwf]

theorem State.performAtom_wf {s : State} (id i opc : Nat) (hwf : Memory.wf s.m.mem = true) : Memory.wf (s.performAtom id i opc).m.mem = true := by
  have hown := State.ownFor_wf (s.op id) ((s.op id).parts.getD i {}) hwf
  unfold State.performAtom
  dsimp only
  generalize s.ownFor (s.op id) ((s.op id).parts.getD i {}) = t at hown
  have hread := State.partRead_wf (s.op id) ((s.op id).parts.getD i {}) ((s.op id).parts.getD i {}).pa ((s.op id).parts.getD i {}).size hown
  generalize t.partRead (s.op id) ((s.op id).parts.getD i {}) ((s.op id).parts.getD i {}).pa ((s.op id).parts.getD i {}).size = r at hread
  obtain ⟨⟨old, bad⟩, u⟩ := r
  have hwrite := State.partWrite_wf (s.op id) ((s.op id).parts.getD i {}) ((s.op id).parts.getD i {}).size
    (atomVal opc ((s.op id).parts.getD i {}).size old ((s.op id).parts.getD i {}).data ((s.op id).parts.getD i {}).data2) false hread
  dsimp only
  generalize u.partWrite (s.op id) ((s.op id).parts.getD i {}) ((s.op id).parts.getD i {}).size
    (atomVal opc ((s.op id).parts.getD i {}).size old ((s.op id).parts.getD i {}).data ((s.op id).parts.getD i {}).data2) false = w at hwrite
  split
  · exact State.finishWrite_wf _ _ (by simpa using hread)
  · (repeat' split) <;> simp_all [State.finishWrite_wf]

theorem State.performProvisional_wf {s : State} (id i : Nat) (hwf : Memory.wf s.m.mem = true) :
    Memory.wf (s.performProvisional id i).m.mem = true := by
  unfold State.performProvisional
  dsimp only
  (repeat' split) <;> simp [State.stfConvert_wf, recall_wf, State.finishWrite_wf, hwf]

theorem State.completeRelease_wf {s : State} (id i : Nat) (hwf : Memory.wf s.m.mem = true) : Memory.wf (s.completeRelease id i).m.mem = true := by
  unfold State.completeRelease
  (repeat' split) <;> simp [writeHome_wf, hwf]

theorem State.stopOp_wf {s : State} (id i : Nat) (hwf : Memory.wf s.m.mem = true) : Memory.wf (s.stopOp id i).m.mem = true := by
  unfold State.stopOp
  dsimp only
  rw [State.containShadow_mem]
  refine State.wf_foldl (fun t k h => ?_) _ (State.wf_foldl (fun _ _ h => State.poisonLine_wf _ h) _ hwf)
  split
  · exact h
  · exact State.finishWrite_wf _ _ (by simpa using h)

theorem State.compared_wf {s : State} (id i : Nat) (f : State → State) (hf : ∀ s : State, Memory.wf s.m.mem = true → Memory.wf (f s).m.mem = true)
    (hwf : Memory.wf s.m.mem = true) : Memory.wf (s.compared id i f).m.mem = true := by
  unfold State.compared
  dsimp only
  (repeat' split) <;> simp [State.stopOp_wf, hf, hwf]

/-! ### Access -/

@[simp] theorem State.askGo_mem (s : State) (a : Ask) : (s.askGo a).m.mem = s.m.mem := by
  unfold State.askGo
  dsimp only
  split
  · split <;> simp [fillLlc_mem]
  · simp

@[simp] theorem State.asksGo_mem (s : State) (as : List Ask) : (s.asksGo as).m.mem = s.m.mem := by
  unfold State.asksGo
  exact State.mem_foldl _ (fun _ _ => by simp) _ _

@[simp] theorem State.linkPay_mem (s : State) (id i : Nat) : (s.linkPay id i).m.mem = s.m.mem := State.asksGo_mem s _

@[simp] theorem State.passAsks_mem (s : State) (as : List Ask) : (s.passAsks as).2.m.mem = s.m.mem := by
  induction as generalizing s with
  | nil => rfl
  | cons a as ih =>
    unfold State.passAsks
    split
    · exact ih s
    · split
      · simp [ih]
      · rfl

theorem State.actOr_wf {s : State} (key : Nat) (as : List Ask) (wait f : State → State)
    (hwait : ∀ s : State, Memory.wf s.m.mem = true → Memory.wf (wait s).m.mem = true)
    (hf : ∀ s : State, Memory.wf s.m.mem = true → Memory.wf (f s).m.mem = true) (hwf : Memory.wf s.m.mem = true) :
    Memory.wf (s.actOr key as wait f).m.mem = true := by
  have hpass : Memory.wf (s.passAsks as).2.m.mem = true := by rw [State.passAsks_mem]; exact hwf
  unfold State.actOr
  dsimp only
  split
  · rw [State.agentDone_mem]
    exact hf _ hpass
  · exact hwait _ hpass

theorem State.act_wf {s : State} (key : Nat) (as : List Ask) (f : State → State)
    (hf : ∀ s : State, Memory.wf s.m.mem = true → Memory.wf (f s).m.mem = true) (hwf : Memory.wf s.m.mem = true) :
    Memory.wf (s.act key as f).m.mem = true := State.actOr_wf key as id f (fun _ h => h) hf hwf

theorem State.tryAct_wf {s : State} (key : Nat) (f : State → State) (hf : ∀ s : State, Memory.wf s.m.mem = true → Memory.wf (f s).m.mem = true)
    (hwf : Memory.wf s.m.mem = true) : Memory.wf (s.tryAct key f).m.mem = true := State.act_wf key _ f hf hwf

/-! ### CopyEngine -/

theorem State.engineRead_wf {s : State} (c : Copy) (lost : List Nat) (pa n : Nat) (hwf : Memory.wf s.m.mem = true) :
    Memory.wf (s.engineRead c lost pa n).2.m.mem = true := by
  simp [State.engineRead, yieldLine_wf, hwf]

theorem State.readStep_wf {s : State} (id : Nat) (lost : List Nat) (i : Nat) (hwf : Memory.wf s.m.mem = true) :
    Memory.wf (s.readStep id lost i).2.m.mem = true := by
  unfold State.readStep
  dsimp only
  (repeat' split) <;> simp [State.engineRead_wf, hwf]

theorem State.copyRead_wf {s : State} (id : Nat) (lost : List Nat) (hwf : Memory.wf s.m.mem = true) :
    Memory.wf (s.copyRead id lost).m.mem = true := by
  unfold State.copyRead
  refine State.wf_foldl (fun t i h => ?_) _ hwf
  simpa using State.readStep_wf id lost i h

theorem State.copyScale_wf {s : State} (id : Nat) (lost : List Nat) (i : Nat) (hwf : Memory.wf s.m.mem = true) :
    Memory.wf (s.copyScale id lost i).2.m.mem = true := by
  unfold State.copyScale
  dsimp only
  (repeat' split) <;> simp [State.engineRead_wf, hwf]

theorem State.storeVal_wf {s : State} (id : Nat) (lost : List Nat) (i : Nat) (hwf : Memory.wf s.m.mem = true) :
    Memory.wf (s.storeVal id lost i).2.m.mem = true := by
  unfold State.storeVal
  dsimp only
  (repeat' split) <;> simp [State.copyScale_wf, hwf]

theorem State.writeStep_wf {s : State} (id : Nat) (lost : List Nat) (drop : Bool) (i : Nat) (hwf : Memory.wf s.m.mem = true) :
    Memory.wf (s.writeStep id lost drop i).m.mem = true := by
  unfold State.writeStep
  dsimp only
  (repeat' split) <;> simp [writeHome_wf, State.storeVal_wf, hwf]

theorem State.copyWrite_wf {s : State} (id : Nat) (lost : List Nat) (drop : Bool) (n : Nat) (hwf : Memory.wf s.m.mem = true) :
    Memory.wf (s.copyWrite id lost drop n).m.mem = true := by
  unfold State.copyWrite
  dsimp only
  split
  · simpa using hwf
  · exact State.wf_foldl (fun _ _ h => State.writeStep_wf _ _ _ _ h) _ hwf

theorem State.copyAccess_wf {s : State} (id : Nat) (lost : List Nat) (drop : Bool) (hwf : Memory.wf s.m.mem = true) :
    Memory.wf (s.copyAccess id lost drop).m.mem = true := by
  unfold State.copyAccess
  dsimp only
  (repeat' split) <;> simp [State.copyWrite_wf, State.copyRead_wf, hwf]

@[simp] theorem State.elemPay_mem (s : State) (id : Nat) : (s.elemPay id).m.mem = s.m.mem := by
  simp [State.elemPay]

theorem State.copyStepOn_wf {s : State} (id : Nat) (hwf : Memory.wf s.m.mem = true) : Memory.wf (s.copyStepOn id).m.mem = true := by
  unfold State.copyStepOn
  dsimp only
  (repeat' split) <;> simp [State.copyAccess_wf, State.elemPay_mem, hwf]

theorem State.copyPoison_wf {s : State} (id link : Nat) (hwf : Memory.wf s.m.mem = true) : Memory.wf (s.copyPoison id link).m.mem = true := by
  unfold State.copyPoison
  dsimp only
  (repeat' split) <;> simp [State.copyRead_wf, State.copyWrite_wf, State.copyAccess_wf, hwf]

theorem State.copyLoop_wf {s : State} (id : Nat) (a : Ask) (hwf : Memory.wf s.m.mem = true) : Memory.wf (s.copyLoop id a).m.mem = true := by
  simp [State.copyLoop, State.copyAccess_wf, hwf]

/-! ### Sync -/

/-- The state in which a wide instruction's completion leaves off. -/
def Wide.left : Wide → State
  | .done s => s
  | .copy s _ => s
  | .fault s _ => s
  | .wait s => s

theorem State.wideMem_mem (s : State) (sc : Scope) (sset : Nat) (as : List Arr) (m : MemL) : (s.wideMem sc sset as m).left.m.mem = s.m.mem := by
  unfold State.wideMem
  dsimp only
  (repeat' split) <;> simp [Wide.left]

theorem State.wideCopy_mem (s : State) (sset : Nat) (as : List Arr) (nxt : Bool) (h : Nat) (a : Ext) (dir q : Nat) :
    (s.wideCopy sset as nxt h a dir q).left.m.mem = s.m.mem := by
  have hup : ∀ (l : List (Nat × Nat)) (t : State), (l.foldl (fun s e => s.flagUp e.1 e.2) t).m.mem = t.m.mem := fun l t => State.mem_foldl _
      (fun _ _ => by rfl) l t
  unfold State.wideCopy
  dsimp only
  (repeat' split) <;> simp [Wide.left, hup]

/-- A completion reads memory and issues what is to reach it. -/
theorem State.wideExec_mem (s : State) (v : Lvl) (sc : Scope) (sset : Nat) (as : List Arr) (op : LOp) :
    (s.wideExec v sc sset as op).left.m.mem = s.m.mem := by
  unfold State.wideExec
  split
  · simp [Wide.left]
  · exact State.wideMem_mem ..
  · exact State.wideCopy_mem ..
  · simp [Wide.left]

theorem State.noteRecord_wf {s : State} (copy : Nat) (ld : Arr) (hwf : Memory.wf s.m.mem = true) : Memory.wf (s.noteRecord copy ld).m.mem = true := by
  unfold State.noteRecord
  split
  · dsimp only
    refine State.afterPerform_wf _ ?_
    rw [State.mem_foldl _ fun _ _ => by simp, State.issueOp_mem]
    exact State.wf_foldl (fun _ _ h => yieldLine_wf _ _ h) _ hwf
  · exact hwf

theorem State.tryComplete_wf {s : State} (v : Lvl) (sc : Scope) (sset : Nat) (hwf : Memory.wf s.m.mem = true) :
    Memory.wf (s.tryComplete v sc sset).m.mem = true := by
  unfold State.tryComplete
  dsimp only
  generalize s.arrivals v = as
  cases as with
  | nil => exact hwf
  | cons a0 rest =>
    have hexec := s.wideExec_mem v sc sset (a0 :: rest) a0.op
    have hchecked := (s.markChecked (a0 :: rest)).wideExec_mem v sc sset (a0 :: rest) a0.op
    dsimp only
    (repeat' split) <;> simp_all [Wide.left, State.noteRecord_wf]

theorem State.settleWaitb_wf {s : State} (w : Nat) (hwf : Memory.wf s.m.mem = true) : Memory.wf (s.settleWaitb w).m.mem = true := by
  unfold State.settleWaitb
  refine State.wf_foldl (fun t r h => ?_) _ hwf
  dsimp only
  split
  · simpa using State.noteEvent_wf _ _ _ _ _ _ _ h
  · exact h

theorem State.settleFswait_wf {s : State} (w : Nat) (hwf : Memory.wf s.m.mem = true) : Memory.wf (s.settleFswait w).m.mem = true := by
  unfold State.settleFswait
  refine State.wf_foldl (fun t r h => ?_) _ hwf
  dsimp only
  split
  · simpa using State.noteEvent_wf _ _ _ _ _ _ _ h
  · exact h

theorem State.settle_wf {s : State} (tk : Nat) (hwf : Memory.wf s.m.mem = true) : Memory.wf (s.settle tk).m.mem = true := by
  have hwaves : ∀ (l : List Nat) (u : State), Memory.wf u.m.mem = true →
      Memory.wf (l.foldl (fun s w => if s.suspended w then s else ((s.settleWaitb w).settleFswait w).settleHwait w) u).m.mem = true := fun l u h =>
    State.wf_foldl (fun t w ht => by
      split
      · exact ht
      · rw [State.settleHwait_mem]
        exact State.settleFswait_wf _ (State.settleWaitb_wf _ ht)) l h
  have hlvls : ∀ (l : List (Lvl × Scope × Nat)) (u : State), Memory.wf u.m.mem = true →
      Memory.wf (l.foldl (fun s v => s.tryComplete v.1 v.2.1 v.2.2) u).m.mem = true := fun l u h =>
    State.wf_foldl (fun _ _ ht => State.tryComplete_wf _ _ _ ht) l h
  unfold State.settle
  dsimp only
  rw [apply_ite (fun s : State => s.m.mem), State.addDue_mem, ite_self, State.endTeam_mem, apply_ite (fun s : State => s.m.mem), State.addDue_mem,
      ite_self, State.mem_foldl_modWave]
  refine hwaves _ _ (hlvls _ _ ?_)
  rw [State.dissolve_mem, State.mem_foldl_modWave]
  exact hwf

/-! ### Sched -/

theorem State.endCycle_wf {s : State} (hwf : Memory.wf s.m.mem = true) : Memory.wf (s.endCycle).m.mem = true := by
  have hteams : ∀ (l : List (Nat × Team)) (u : State), Memory.wf u.m.mem = true → Memory.wf (l.foldl (fun s e => s.settle e.1) u).m.mem = true :=
    fun l u h => State.wf_foldl (fun _ _ ht => State.settle_wf _ ht) l h
  unfold State.endCycle
  dsimp only
  have hsettled := hteams s.countWaits.x.teams { s.countWaits with sch := { s.countWaits.sch with cycle := s.countWaits.sch.cycle + 1 } }
      (by simpa using hwf)
  (repeat' split) <;> simpa using hsettled

theorem State.tick_wf {s : State} (hwf : Memory.wf s.m.mem = true) : Memory.wf (s.tick).m.mem = true := by
  unfold State.tick
  (repeat' split) <;> simp [State.endCycle_wf, hwf]

/-! ### MemOps -/

theorem State.fence_wf {s : State} (c : Cx) (cls : Cls) (kind : OpKind) (a : Nat) (hwf : Memory.wf s.m.mem = true) :
    Memory.wf (s.fence c cls kind a).m.mem = true := by
  unfold State.fence
  dsimp only
  (repeat' split) <;> simp [State.noteEvent_wf, hwf]

theorem State.maintainLine_wf {s : State} (id i : Nat) (hwf : Memory.wf s.m.mem = true) : Memory.wf (s.maintainLine id i).m.mem = true := by
  have hdrops : ∀ (l : List Nat) (line : Nat) (u : State), Memory.wf u.m.mem = true → Memory.wf
      (l.foldl (fun s k => s.dropL1 k line) u).m.mem = true :=
    fun l line u h => State.wf_foldl (fun _ _ ht => dropL1_wf _ _ ht) l h
  have hcount : ∀ n, Memory.wf (s.setOp id { s.op id with count := (s.op id).count + n }).m.mem = true := fun n => by simpa using hwf
  unfold State.maintainLine
  dsimp only
  refine State.finishWrite_wf _ _ ?_
  rw [apply_ite State.m, State.modWave_m, ite_self]
  split
  · split
    · exact cleanLlc_wf _ (cleanL1_wf _ _ hwf)
    · exact cleanL1_wf _ _ hwf
  · split
    · exact dropLlc_wf _ (cleanLlc_wf _ (evictL1_wf _ _ hwf))
    · exact evictL1_wf _ _ hwf
  · split
    · exact dropL1_wf _ _ (hcount _)
    · exact dropLlc_wf _ (hdrops _ _ _ (hcount _))
  · rw [State.mem_foldl _ fun _ _ => by simp]
    exact hwf

@[simp] theorem State.prefetch_mem (s : State) (c : Cx) (vas : List DWord) : (s.prefetch c vas).m.mem = s.m.mem := by
  induction vas generalizing s with
  | nil => rfl
  | cons va vas ih =>
    unfold State.prefetch
    dsimp only
    split
    · split <;> simp [ih]
    · rfl

/-! ### Matrix -/

theorem State.performAccst_wf {s : State} (id i : Nat) (hwf : Memory.wf s.m.mem = true) : Memory.wf (s.performAccst id i).m.mem = true := by
  unfold State.performAccst
  dsimp only
  (repeat' split) <;> simp [State.finishWrite_wf, hwf]

@[simp] theorem State.flushSend_mem (s : State) (id i : Nat) : (s.flushSend id i).m.mem = s.m.mem := by
  unfold State.flushSend
  dsimp only
  split <;> simp

theorem State.applyElem_wf {s : State} (id i : Nat) (hwf : Memory.wf s.m.mem = true) : Memory.wf (s.applyElem id i).m.mem = true := by
  unfold State.applyElem
  dsimp only
  split
  · exact State.performProvisional_wf _ _ hwf
  · exact State.finishWrite_wf _ _ (writeHome_wf _ _ _ _ _ (yieldLine_wf _ _ hwf))

/-! ### MemEvents -/

theorem State.performPlain_wf {s : State} (id i : Nat) (hwf : Memory.wf s.m.mem = true) : Memory.wf (s.performPlain id i).m.mem = true := by
  unfold State.performPlain
  (repeat' split) <;> simp [State.performStore_wf, State.performAtom_wf, State.maintainLine_wf, State.performAccst_wf, State.finishWrite_wf, hwf]

/-! ### Place -/

theorem State.flushL1_wf {s : State} (core : Nat) (hwf : Memory.wf s.m.mem = true) : Memory.wf (s.flushL1 core).m.mem = true := by
  unfold State.flushL1
  exact State.wf_foldl (fun _ _ h => evictL1_wf _ _ h) _ hwf

theorem State.readyCore_wf {s : State} (core carve : Nat) (hwf : Memory.wf s.m.mem = true) : Memory.wf (s.readyCore core carve).m.mem = true := by
  unfold State.readyCore
  (repeat' split) <;> simp [State.flushL1_wf, hwf]

/-! ### Launch -/

/-- What a launch processor does keeps memory's canonical form. -/
def Lp.Canonical {α : Type} (m : Lp α) : Prop := ∀ s : State, Memory.wf s.m.mem = true → Memory.wf (m s).2.m.mem = true

theorem lpRet_canonical {α : Type} (a : α) : (lpRet a).Canonical := fun _ h => h

theorem Lp.Canonical.andThen {α β : Type} {m : Lp α} {f : α → Lp β} (hm : m.Canonical) (hf : ∀ a, (f a).Canonical) : (m.andThen f).Canonical := by
  intro s h
  have hs := hm s h
  unfold Lp.andThen
  generalize m s = r at hs
  obtain ⟨_ | a, u⟩ := r
  · exact hs
  · exact hf a u hs

theorem Lp.Canonical.ite {α : Type} {p : Prop} [Decidable p] {m n : Lp α} (hm : m.Canonical) (hn : n.Canonical) : (if p then m else n).Canonical := by
  split
  · exact hm
  · exact hn

theorem lpLine_canonical (ag : Agent) (va : DWord) (n : Nat) : (lpLine ag va n).Canonical := by
  intro s h
  have hcheck := State.checkNow_wf ag .load va 0 true h
  unfold lpLine
  generalize s.checkNow ag .load va 0 = r at hcheck
  obtain ⟨_ | a, u⟩ := r
  · exact hcheck
  · exact yieldLine_wf _ _ (by simpa using hcheck)

theorem lpRead_canonical (ag : Agent) (es : List (Nat × Nat)) : (lpRead ag es).Canonical := by
  induction es with
  | nil => exact lpRet_canonical _
  | cons e es ih => exact (lpLine_canonical ag _ _).andThen fun _ => ih.andThen fun _ => lpRet_canonical _

theorem lpTake_canonical (ag : Agent) (va n : Nat) : (lpTake ag va n).Canonical := lpRead_canonical ag _

theorem lpMaps_canonical (ag : Agent) (bs : List (List Byte)) : (lpMaps ag bs).Canonical := by
  induction bs with
  | nil => exact lpRet_canonical _
  | cons b bs ih =>
    exact (Lp.Canonical.ite (lpTake_canonical ag _ _) (lpRet_canonical _)).andThen fun _ => ih.andThen fun _ => lpRet_canonical _

theorem lpVariants_canonical (ag : Agent) (r : LRec) : (lpVariants ag r).Canonical :=
  (lpTake_canonical ag _ _).andThen fun _ => .ite (lpRet_canonical _) ((lpTake_canonical ag _ _).andThen fun _ => lpRet_canonical _)

theorem lpTables_canonical (ag : Agent) (r : LRec) : (lpTables ag r).Canonical :=
  (lpTake_canonical ag _ _).andThen fun _ => (lpTake_canonical ag _ _).andThen fun _ => (lpMaps_canonical ag _).andThen fun _ =>
    (lpTake_canonical ag _ _).andThen fun _ => (lpVariants_canonical ag r).andThen fun _ =>
    (Lp.Canonical.ite (lpTake_canonical ag _ _) (lpRet_canonical _)).andThen fun _ =>
    (Lp.Canonical.ite (lpTake_canonical ag _ _) (lpRet_canonical _)).andThen fun _ => fun s h => lpTake_canonical ag _ _ s h

theorem lpPlace_canonical (ag : Agent) (r : LRec) (vs : List (List Byte)) : (lpPlace ag r vs).Canonical := by
  intro s h
  unfold lpPlace
  split
  · exact h
  · split
    · exact h
    · exact (lpTake_canonical ag _ _).andThen (fun _ => lpRet_canonical _) s h

theorem lpChecks_canonical (ag : Agent) (es : List (Nat × Nat)) : (lpChecks ag es).Canonical := by
  induction es with
  | nil => exact lpRet_canonical _
  | cons e es ih =>
    intro s h
    have hcheck := State.checkNow_wf ag .load (BitVec.ofNat 64 e.1) 0 false h
    unfold lpChecks
    generalize s.checkNow ag .load (BitVec.ofNat 64 e.1) 0 false = r at hcheck
    obtain ⟨_ | a, u⟩ := r
    · exact hcheck
    · exact ih u hcheck

theorem lpHampers_canonical (ag : Agent) (hs : List Hamper) : (lpHampers ag hs).Canonical := by
  induction hs with
  | nil => exact lpRet_canonical _
  | cons h hs ih => exact (lpChecks_canonical ag _).andThen fun _ => ih

theorem stage_canonical (tk : Nat) (ag : Agent) (hs : List Hamper) : (stage tk ag hs).Canonical := by
  induction hs with
  | nil => exact lpRet_canonical _
  | cons h hs ih =>
    unfold stage
    exact .ite ((lpTake_canonical ag _ _).andThen fun _ => fun s hs => ih _ (by simpa using hs)) ih

theorem State.cmplCheck_wf {s : State} (ag : Agent) (a0 : List (Nat × Nat)) (hwf : Memory.wf s.m.mem = true) :
    Memory.wf (s.cmplCheck ag a0).2.m.mem = true := by
  induction a0 generalizing s with
  | nil => exact hwf
  | cons e es ih =>
    have hcheck := State.checkNow_wf ag .store (BitVec.ofNat 64 e.1) 0 true hwf
    unfold State.cmplCheck
    generalize s.checkNow ag .store (BitVec.ofNat 64 e.1) 0 = r at hcheck
    obtain ⟨_ | a, u⟩ := r
    · exact hcheck
    · have hrest := ih (s := u.note ag [(a.pa, e.2, true)]) (by simpa using hcheck)
      dsimp only
      generalize (u.note ag [(a.pa, e.2, true)]).cmplCheck ag es = q at hrest
      obtain ⟨_ | ps, w⟩ := q <;> exact hrest

theorem State.complete_wf {s : State} (ag : Agent) (status seq vec : Nat) (cmpl : DWord) (hwf : Memory.wf s.m.mem = true) :
    Memory.wf (s.complete ag status seq vec cmpl).m.mem = true := by
  have hcheck := State.cmplCheck_wf ag (pieces cmpl.toNat 16) hwf
  unfold State.complete
  rw [State.sendCmpl_mem]
  generalize s.cmplCheck ag (pieces cmpl.toNat 16) = r at hcheck
  obtain ⟨f | ps, u⟩ := r
  · simpa using hcheck
  · exact State.wf_foldl (fun _ _ h => writeHome_wf _ _ _ _ _ h) _ hcheck

theorem State.judgeRest_wf {s : State} (ag : Agent) (q prio seq : Nat) (r : LRec) (t : Tables) (place : List Nat) (hwf : Memory.wf s.m.mem = true) :
    Memory.wf (s.judgeRest ag q prio seq r t place).2.m.mem = true := by
  have hh := lpHampers_canonical ag ((t.hampers.getD []).map hamperOf) s hwf
  unfold State.judgeRest
  generalize lpHampers ag ((t.hampers.getD []).map hamperOf) s = r' at hh
  obtain ⟨_ | _, u⟩ := r'
  · exact hh
  · dsimp only
    split
    · exact hh
    · split <;> exact hh

theorem State.judge_wf {s : State} (ag : Agent) (q prio seq : Nat) (r : LRec) (hwf : Memory.wf s.m.mem = true) :
    Memory.wf (s.judge ag q prio seq r).2.m.mem = true := by
  have hread := (lpTables_canonical ag r).andThen (fun t => (lpPlace_canonical ag r t.variants).andThen fun p => lpRet_canonical (t, p))
    (s.note ag [(s.ctxEntry ag.asid, 24, false)]) (by simpa using hwf)
  unfold State.judge
  dsimp only
  generalize ((lpTables ag r).andThen fun t => (lpPlace ag r t.variants).andThen fun p => lpRet (t, p))
      (s.note ag [(s.ctxEntry ag.asid, 24, false)]) = x at hread
  obtain ⟨_ | ⟨t, place⟩, u⟩ := x
  · (repeat' split) <;> simp_all
  · (repeat' split) <;> simp_all [State.judgeRest_wf]

theorem State.takeRecord_wf {s : State} (h : Nat × Nat × Queue) (hwf : Memory.wf s.m.mem = true) : Memory.wf (s.takeRecord h).m.mem = true := by
  obtain ⟨t, k, q⟩ := h
  have hread : Memory.wf (s.readRec (lpAgent (q.ctl.toNat / 2 ^ 12 % 4) 0 t (askAgent 0 (q.ctl.toNat / 2 ^ 12 % 4))) q.record).2.m.mem = true := by
    rw [State.readRec_mem]
    exact hwf
  unfold State.takeRecord
  dsimp only
  generalize s.readRec (lpAgent (q.ctl.toNat / 2 ^ 12 % 4) 0 t (askAgent 0 (q.ctl.toNat / 2 ^ 12 % 4))) q.record = rd at hread
  split
  · simpa using hread
  · generalize hj : rd.2.judge (lpAgent (q.ctl.toNat / 2 ^ 12 % 4) (rd.1.1.at 6 2) t (askAgent 0 (q.ctl.toNat / 2 ^ 12 % 4))) k (q.ctl.toNat % 8)
      (s.tenant t).seq rd.1.1 = j
    have hjudge : Memory.wf j.2.m.mem = true := by
      rw [← hj]
      exact State.judge_wf _ _ _ _ _ hread
    obtain ⟨_ | g, u⟩ := j
    · refine State.complete_wf (s := u.tookRecord t k q q.last) _ _ _ _ _ ?_
      rw [State.tookRecord_mem]
      exact hjudge
    · simpa using hjudge

theorem State.putWaves_mem {s t : State} {gk core tslot p0 n w : Nat} {g : Grid} {ks : List Nat}
    (hp : s.putWaves gk g core tslot p0 n w = some (ks, t)) :
    t.m.mem = s.m.mem := by
  induction n generalizing s w ks with
  | zero => cases hp; rfl
  | succ n ih =>
    unfold State.putWaves at hp
    dsimp only at hp
    split at hp
    · cases hp
    · split at hp
      · cases hp
      · split at hp
        · cases hp
        · next hrest =>
          obtain ⟨-, rfl⟩ := Prod.mk.inj (Option.some.inj hp)
          exact (ih hrest).trans rfl

theorem State.place_wf {s t : State} {gk core p0 num ts : Nat} (hwf : Memory.wf s.m.mem = true) (hp : s.place gk core p0 num = some (ts, t)) :
    Memory.wf t.m.mem = true := by
  unfold State.place at hp
  dsimp only at hp
  split at hp
  · cases hp
  · split at hp
    · cases hp
    · split at hp
      · cases hp
      · next hput =>
        obtain ⟨-, rfl⟩ := Prod.mk.inj (Option.some.inj hp)
        rw [State.setTeam_m, State.putWaves_mem hput]
        exact State.readyCore_wf core _ hwf

theorem State.codeLines_wf {s : State} (ag : Agent) (b : Buf) (hwf : Memory.wf s.m.mem = true) : Memory.wf (s.codeLines ag b).m.mem = true := by
  unfold State.codeLines
  refine State.wf_foldl (fun t i h => ?_) _ hwf
  have hcheck := State.checkNow_wf ag .load (BitVec.ofNat 64 (b.base.toNat / 64 * 64 + 64 * i)) 0 true h
  generalize t.checkNow ag .load (BitVec.ofNat 64 (b.base.toNat / 64 * 64 + 64 * i)) 0 = r at hcheck
  obtain ⟨_ | a, u⟩ := r
  · exact hcheck
  · have hrecall := recall_wf (s := u.note ag [(a.pa, 64, false)]) (a.pa / 64) none (by simpa using hcheck)
    dsimp only
    split
    · exact cleanLlc_wf _ hrecall
    · exact hrecall

theorem State.codeUses_wf {s : State} (gk : Nat) (hwf : Memory.wf s.m.mem = true) : Memory.wf (s.codeUses gk).m.mem = true := by
  unfold State.codeUses
  dsimp only
  split
  · exact hwf
  · exact State.wf_foldl (fun _ _ h => State.codeLines_wf _ _ h) _ hwf

theorem State.placeNext_wf {s : State} (gk core part : Nat) (hwf : Memory.wf s.m.mem = true) : Memory.wf (s.placeNext gk core part).m.mem = true := by
  unfold State.placeNext
  split
  · exact hwf
  · next hp =>
    dsimp only
    rw [State.modCore_mem, State.modGrid_mem]
    exact State.place_wf (State.codeUses_wf gk hwf) hp

theorem State.stageTeam_wf {s : State} (tk : Nat) (ag : Agent) (hs : List Hamper) (hwf : Memory.wf s.m.mem = true) :
    Memory.wf (s.stageTeam tk ag hs).m.mem = true := by
  have hstage := stage_canonical tk ag hs s hwf
  unfold State.stageTeam
  generalize stage tk ag hs s = r at hstage
  obtain ⟨_ | _, u⟩ := r
  · exact hwf
  · simpa using hstage

/-! ### AddrMap -/

theorem State.flushRegion_wf {s : State} (k : Nat) (hwf : Memory.wf s.m.mem = true) : Memory.wf (s.flushRegion k).m.mem = true := by
  unfold State.flushRegion
  exact State.wf_foldl (fun _ _ h => flushLine_wf _ h) _ hwf

theorem State.scramble_wf {s : State} (k : Nat) (hwf : Memory.wf s.m.mem = true) : Memory.wf (s.scramble k).m.mem = true := by
  unfold State.scramble
  exact SMap.wf_filter _ _ hwf

/-- R24: memory is laid out anew from the bytes that it held. -/
theorem State.renumber_wf (s : State) (new : Nat) : Memory.wf (s.renumber new).m.mem = true := by
  unfold State.renumber
  exact SMap.wf_setAll _ _ rfl

theorem State.writePkgnum_wf {s : State} (v : Word) (hwf : Memory.wf s.m.mem = true) : Memory.wf (s.writePkgnum v).m.mem = true := by
  unfold State.writePkgnum
  (repeat' split) <;> simp [State.renumber_wf, hwf]

/-! ### Checkers -/

theorem State.containLine_wf {s : State} (line kind lo hi : Nat) (hwf : Memory.wf s.m.mem = true) :
    Memory.wf (s.containLine line kind lo hi).m.mem = true := by
  unfold State.containLine
  dsimp only
  split
  · simpa using State.poisonLine_wf line hwf
  · rw [State.mem_foldl _ fun _ _ => by simp, State.discardRels_mem]
    exact State.poisonLine_wf line hwf

theorem State.checkInterval_wf {s : State} (v : Interval) (hwf : Memory.wf s.m.mem = true) : Memory.wf (s.checkInterval v).m.mem = true := by
  unfold State.checkInterval
  exact State.wf_foldl (fun _ _ h => State.containLine_wf _ _ _ _ h) _ hwf

theorem State.checkWaiting_wf {s : State} (line : Nat) (a0 : Nat) (hwf : Memory.wf s.m.mem = true) :
    Memory.wf (s.checkWaiting line a0).m.mem = true := by
  induction a0 generalizing s with
  | zero => exact hwf
  | succ n ih =>
    unfold State.checkWaiting
    split
    · exact hwf
    · split
      · exact ih (State.checkInterval_wf _ hwf)
      · exact hwf

theorem State.receiveInterval_wf {s : State} (idx : Nat) (hwf : Memory.wf s.m.mem = true) : Memory.wf (s.receiveInterval idx).m.mem = true := by
  unfold State.receiveInterval
  (repeat' split) <;> simp [State.checkWaiting_wf, hwf]

theorem State.closeAll_wf {s : State} (hwf : Memory.wf s.m.mem = true) : Memory.wf (s.closeAll).m.mem = true := by
  unfold State.closeAll
  dsimp only
  refine State.wf_foldl (fun t _ h => ?_) _ ?_
  · split
    · exact State.receiveInterval_wf _ h
    · exact h
  · rw [State.mem_foldl _ fun _ _ => by simp]
    exact hwf

theorem State.restartClocks_wf {s : State} (hwf : Memory.wf s.m.mem = true) : Memory.wf (s.restartClocks).m.mem = true := by
  simp [State.restartClocks, State.closeAll_wf, hwf]

theorem State.ltreset_wf {s : State} (hwf : Memory.wf s.m.mem = true) : Memory.wf (s.ltreset).m.mem = true := by
  unfold State.ltreset
  (repeat' split) <;> simp [State.restartClocks_wf, hwf]

/-! ### Copies -/

theorem State.hwait_wf {s : State} (c : Cx) (h : Nat) (full p : Bool) (hwf : Memory.wf s.m.mem = true) :
    Memory.wf (s.hwait c h full p).m.mem = true := by
  unfold State.hwait
  dsimp only
  (repeat' split) <;> simp [State.noteEvent_wf, hwf]

theorem State.copyMove_wf {s : State} (id : Nat) (hwf : Memory.wf s.m.mem = true) : Memory.wf (s.copyMove id).m.mem = true := by
  unfold State.copyMove
  dsimp only
  (repeat' split) <;> simp [State.copyStepOn_wf, hwf]

/-! ### Hbm -/

theorem State.emptySet_wf {s : State} (slice set : Nat) (hwf : Memory.wf s.m.mem = true) : Memory.wf (s.emptySet slice set).m.mem = true := by
  unfold State.emptySet
  exact State.wf_foldl (fun _ _ h => dropLlc_wf _ (cleanLlc_wf _ h)) _ hwf

theorem State.retireSlice_wf {s : State} (die slice p k : Nat) (hwf : Memory.wf s.m.mem = true) :
    Memory.wf (s.retireSlice die slice p k).m.mem = true := by
  unfold State.retireSlice
  exact State.wf_foldl (fun _ _ h => dropLlc_wf _ (cleanLlc_wf _ h)) _ hwf

/-! ### Reset -/

theorem State.quiesce_wf {s : State} (on : Nat → Bool) (hwf : Memory.wf s.m.mem = true) : Memory.wf (s.quiesce on).m.mem = true := by
  unfold State.quiesce
  refine State.wf_foldl (fun t c h => ?_) _ (by simpa using hwf)
  split
  · exact State.flushL1_wf _ h
  · exact h

theorem State.writeBackAll_wf {s : State} (hwf : Memory.wf s.m.mem = true) : Memory.wf (s.writeBackAll).m.mem = true := by
  unfold State.writeBackAll
  exact State.wf_foldl (fun _ _ h => flushLine_wf _ h) _ hwf

theorem State.finishWarm_wf (s : State) : Memory.wf s.finishWarm.m.mem = true := by
  have hback := State.renumber_wf (s.quiesce fun _ => true).writeBackAll 0
  unfold State.finishWarm
  generalize (s.quiesce fun _ => true).writeBackAll.renumber 0 = u at hback ⊢
  exact hback

theorem State.beginWarm_wf {s : State} (hwf : Memory.wf s.m.mem = true) : Memory.wf (s.beginWarm).m.mem = true := by
  have hback : Memory.wf (((s.quiesce fun _ => true).writeBackAll).setResetstat 1 0).m.mem = true := by
    simpa using State.writeBackAll_wf (State.quiesce_wf (fun _ => true) hwf)
  unfold State.beginWarm
  split
  · exact hwf
  · generalize ((s.quiesce fun _ => true).writeBackAll).setResetstat 1 0 = u at hback ⊢
    dsimp only
    split
    · exact State.finishWarm_wf _
    · exact hback

theorem State.cmdWarm_wf {s : State} (hwf : Memory.wf s.m.mem = true) : Memory.wf (s.cmdWarm).m.mem = true := by
  unfold State.cmdWarm
  (repeat' split) <;> simp [State.beginWarm_wf, hwf]

theorem State.cmdCore_wf {s : State} (core : Nat) (hwf : Memory.wf s.m.mem = true) : Memory.wf (s.cmdCore core).m.mem = true := by
  unfold State.cmdCore
  (repeat' split) <;> simp [State.quiesce_wf, hwf]

theorem State.gate_wf {s : State} (core : Nat) (hwf : Memory.wf s.m.mem = true) : Memory.wf (s.gate core).m.mem = true := by
  unfold State.gate
  (repeat' split) <;> simp [State.flushL1_wf, hwf]

theorem State.defaultMaps_wf {s : State} (i : Image) (hwf : Memory.wf s.m.mem = true) : Memory.wf (s.defaultMaps i).m.mem = true := by
  unfold State.defaultMaps
  refine State.wf_foldl (fun t k h => ?_) _ hwf
  dsimp only
  rw [State.setMap_mem]
  split
  · exact h
  · exact State.scramble_wf _ h

theorem State.testSlice_wf {s : State} (p : Nat) (hwf : Memory.wf s.m.mem = true) : Memory.wf (s.testSlice p).m.mem = true := by
  unfold State.testSlice
  (repeat' split) <;> simp [State.retireSlice_wf, hwf]

/-! ### HostPort -/

theorem State.shareHost_wf {s : State} (line : Nat) (hwf : Memory.wf s.m.mem = true) : Memory.wf (s.shareHost line).m.mem = true := by
  simp [State.shareHost, cleanLlc_wf, recall_wf, hwf]

theorem State.hostTakes_wf {s : State} (line : Nat) (hwf : Memory.wf s.m.mem = true) : Memory.wf (s.hostTakes line).m.mem = true := by
  unfold State.hostTakes
  split
  · exact hwf
  · split
    · exact hwf
    · refine State.act_wf _ _ _ (fun t h => ?_) hwf
      simpa using recall_wf (s := t.hdmReport (64 * line)) line none (by simpa using h)

/-! ### Links -/

theorem State.answerPoison_wf {s : State} (id i : Nat) (hwf : Memory.wf s.m.mem = true) : Memory.wf (s.answerPoison id i).m.mem = true := by
  unfold State.answerPoison
  dsimp only
  (repeat' split) <;> simp [State.finishRead_wf, State.finishWrite_wf, hwf]

theorem State.looped_wf {s t : State} {who : Requester} {part pa : Nat} (hwf : Memory.wf s.m.mem = true) (hl : s.looped who part = some (pa, t)) :
    Memory.wf t.m.mem = true := by
  unfold State.looped at hl
  split at hl
  · dsimp only at hl
    split at hl
    · cases hl
    · cases hl
      exact State.answerPoison_wf _ _ hwf
  · dsimp only at hl
    split at hl
    · cases hl
    · obtain ⟨a, -, ha⟩ := Option.bind_eq_some_iff.1 hl
      split at ha
      · cases ha
        exact State.copyLoop_wf _ _ hwf
      · cases ha
  · split at hl
    · cases hl
    · split at hl
      · obtain ⟨a, -, ha⟩ := Option.map_eq_some_iff.1 hl
        cases ha
        simpa using hwf
      · cases hl
  · split at hl
    · cases hl
    · obtain ⟨a, -, ha⟩ := Option.map_eq_some_iff.1 hl
      cases ha
      simpa using hwf
  · split at hl
    · cases hl
    · obtain ⟨a, -, ha⟩ := Option.map_eq_some_iff.1 hl
      cases ha
      simpa using hwf

/-! ### Preempt -/

theorem State.putArea_wf {s : State} (pa : Nat) (bs : List Byte) (bad : Nat → Bool) (hwf : Memory.wf s.m.mem = true) :
    Memory.wf (s.putArea pa bs bad).m.mem = true := by
  unfold State.putArea
  exact State.wf_foldl (fun _ _ h => writeHome_wf _ _ _ _ _ h) _ hwf

theorem State.writeArea_wf {s : State} (addr tk : Nat) (hwf : Memory.wf s.m.mem = true) : Memory.wf (s.writeArea addr tk).m.mem = true := by
  unfold State.writeArea
  dsimp only
  exact State.putArea_wf _ _ _ (State.putArea_wf _ _ _ (State.putArea_wf _ _ _ (State.putArea_wf _ _ _ (State.putArea_wf _ _ _ (State.putArea_wf _ _ _
    (State.putArea_wf _ _ _ hwf))))))

theorem State.saveNow_wf {s : State} (v : Saving) (hwf : Memory.wf s.m.mem = true) : Memory.wf (s.saveNow v).m.mem = true := by
  unfold State.saveNow
  (repeat' split) <;> simp [State.writeArea_wf, hwf]

theorem State.loadTasks_mem {s t : State} {gk : Nat} {v : SavedTeam} (hl : s.loadTasks gk v = some t) : t.m.mem = s.m.mem := by
  have hnone : ∀ (f : State → Nat × Wave × List Group → Option State) (l : List (Nat × Wave × List Group)),
      l.foldl (fun (r : Option State) e => r.bind fun s => f s e) none = none := fun f l => by
    induction l with
    | nil => rfl
    | cons e l ih => exact ih
  have hfold : ∀ (f : State → Nat × Wave × List Group → Option State), (∀ u e v, f u e = some v → v.m.mem = u.m.mem) →
      ∀ (l : List (Nat × Wave × List Group)) (u v : State), l.foldl (fun (r : Option State) e => r.bind fun s => f s e)
          (some u) = some v → v.m.mem = u.m.mem := by
    intro f hf l
    induction l with
    | nil => intro u v h; cases h; rfl
    | cons e l ih =>
      intro u v h
      rw [List.foldl_cons, Option.bind_some] at h
      cases hu : f u e with
      | none => rw [hu, hnone] at h; cases h
      | some w => rw [hu] at h; exact (ih w v h).trans (hf u e w hu)
  unfold State.loadTasks at hl
  refine (hfold _ ?_ _ _ _ hl).trans (by simp)
  intro u e v h
  obtain ⟨part, -, hpart⟩ := List.exists_of_findSome?_eq_some h
  dsimp only at hpart
  split at hpart
  · cases hpart
  · obtain ⟨w, -, rfl⟩ := Option.map_eq_some_iff.1 hpart
    simp

theorem State.replace_wf {s t : State} {gk core num old ts : Nat} (hwf : Memory.wf s.m.mem = true) (hr : s.replace gk core num old = some (ts, t)) :
    Memory.wf t.m.mem = true := by
  unfold State.replace at hr
  split at hr
  next hp =>
    rw [Option.some.inj hr] at hp
    exact State.place_wf hwf hp
  next =>
    obtain ⟨p, -, hp⟩ := List.exists_of_findSome?_eq_some hr
    exact State.place_wf hwf hp

theorem State.restorePlace_wf {s : State} (addr core gk num : Nat) (v : SavedTeam) (hwf : Memory.wf s.m.mem = true) :
    Memory.wf (s.restorePlace addr core gk num v).m.mem = true := by
  unfold State.restorePlace
  split
  · simpa using hwf
  · split
    · simpa using hwf
    next ts u hu =>
      obtain ⟨r, hr, hu⟩ := Option.bind_eq_some_iff.1 hu
      obtain ⟨w, hw, hu⟩ := Option.map_eq_some_iff.1 hu
      obtain ⟨rfl, rfl⟩ := Prod.mk.inj hu
      have hplaced := State.replace_wf hwf hr
      dsimp only
      refine State.settle_wf _ ?_
      simpa [State.loadTasks_mem hw] using hplaced

theorem State.restoreNow_wf {s : State} (v : Saving) (hwf : Memory.wf s.m.mem = true) : Memory.wf (s.restoreNow v).m.mem = true := by
  unfold State.restoreNow
  dsimp only
  (repeat' split) <;> simp [State.restorePlace_wf, hwf]

theorem State.yieldAsks_wf {s : State} (as : List Ask) (hwf : Memory.wf s.m.mem = true) : Memory.wf (s.yieldAsks as).m.mem = true := by
  unfold State.yieldAsks
  exact State.wf_foldl (fun _ _ h => yieldLine_wf _ _ h) _ hwf

theorem State.restoreGo_wf {s : State} (core : Nat) (hwf : Memory.wf s.m.mem = true) : Memory.wf (s.restoreGo core).m.mem = true := by
  unfold State.restoreGo
  split
  · exact hwf
  · split
    · exact hwf
    · exact State.act_wf _ _ _ (fun _ h => State.restoreNow_wf _ (State.yieldAsks_wf _ h)) hwf

theorem State.restoreTeam_wf {s : State} (core : Nat) (hwf : Memory.wf s.m.mem = true) : Memory.wf (s.restoreTeam core).m.mem = true := by
  simp [State.restoreTeam, State.restoreGo_wf, hwf]

/-! ### Regs -/

theorem State.writePrecmd_wf {s : State} (v : Word) (hwf : Memory.wf s.m.mem = true) : Memory.wf (s.writePrecmd v).m.mem = true := by
  unfold State.writePrecmd
  (repeat' split) <;> simp [State.restoreTeam_wf, hwf]

theorem State.writeResetcmd_wf {s : State} (v : Word) (hwf : Memory.wf s.m.mem = true) : Memory.wf (s.writeResetcmd v).m.mem = true := by
  unfold State.writeResetcmd
  (repeat' split) <;> simp [State.cmdWarm_wf, State.cmdCore_wf, hwf]

theorem State.writeGatecmd_wf {s : State} (v : Word) (hwf : Memory.wf s.m.mem = true) : Memory.wf (s.writeGatecmd v).m.mem = true := by
  unfold State.writeGatecmd
  (repeat' split) <;> simp [State.gate_wf, hwf]

theorem State.writeDev_wf {s : State} (n : Nat) (v : Word) (hwf : Memory.wf s.m.mem = true) : Memory.wf (s.writeDev n v).m.mem = true := by
  have hf : ∀ t : State, t.m.mem = s.m.mem → Memory.wf t.m.mem = true := fun t h => by
    rw [h]
    exact hwf
  unfold State.writeDev
  exact State.wf_ite (hf _ (by simp)) <| State.wf_ite (State.ltreset_wf hwf) <| State.wf_ite (hf _ (by simp)) <|
    State.wf_ite (State.wf_ite (hf _ (by simp)) hwf) <| State.wf_ite (hf _ (by simp)) <| State.wf_ite (hf _ (by simp)) <|
    State.wf_ite (hf _ (by simp)) <| State.wf_ite (State.wf_ite (hf _ (by simp)) hwf) <| State.wf_ite (State.writePrecmd_wf _ hwf) <|
    State.wf_ite (hf _ (by simp)) <| State.wf_ite (hf _ (by simp)) <| State.wf_ite (hf _ (by simp)) <|
    State.wf_ite (hf _ (by simp)) <| State.wf_ite (State.wf_ite (hf _ (by simp)) hwf) <| State.wf_ite (hf _ (by simp)) <|
    State.wf_ite (hf _ (by simp)) <| State.wf_ite (hf _ (by simp)) <| State.wf_ite hwf <|
    State.wf_ite (State.writePkgnum_wf _ hwf) <| State.wf_ite (hf _ (by simp)) <| State.wf_ite (hf _ (by simp)) <|
    State.wf_ite (State.writeResetcmd_wf _ hwf) <|
    State.wf_ite (State.writeGatecmd_wf _ hwf) hwf

theorem State.write32_wf {s : State} (a : RegAt) (i : RegInfo) (n : Nat) (v : Word) (hwf : Memory.wf s.m.mem = true) :
    Memory.wf (s.write32 a i n v).m.mem = true := by
  unfold State.write32
  (repeat' split) <;> simp [State.writeDev_wf, hwf]

theorem State.sysWrite_wf {s : State} (a : RegAt) (n : Nat) (v : Word) (hwf : Memory.wf s.m.mem = true) :
    Memory.wf (s.sysWrite a n v).m.mem = true := by
  unfold State.sysWrite
  (repeat' split) <;> simp [State.write32_wf, hwf]

theorem State.rgnWrite_wf {s : State} (asid e : Nat) (w0 w1 : DWord) (hwf : Memory.wf s.m.mem = true) :
    Memory.wf (s.rgnWrite asid e w0 w1).m.mem = true := by
  simp [State.rgnWrite, writeHome_wf, hwf]

theorem State.rgnAct_wf {s : State} (c : Cx) (e : Nat) (write looks : Bool) (f : State → State)
    (hf : ∀ s : State, Memory.wf s.m.mem = true → Memory.wf (f s).m.mem = true) (hwf : Memory.wf s.m.mem = true) :
    Memory.wf (s.rgnAct c e write looks f).m.mem = true := by
  unfold State.rgnAct
  refine State.actOr_wf _ _ _ _ (fun t h => by simpa using h) (fun t h => ?_) hwf
  split
  · simpa using h
  · exact hf _ (yieldLine_wf _ _ h)

theorem State.barWrite_wf {s : State} (off : Nat) (v : Word) (hwf : Memory.wf s.m.mem = true) : Memory.wf (s.barWrite off v).m.mem = true := by
  unfold State.barWrite
  (repeat' split) <;> simp [State.sysWrite_wf, hwf]

/-! ### Tasks -/

theorem State.dispatch_wf {s : State} (g core part : Nat) (ids : List Nat) (nonspec : Bool) (hwf : Memory.wf s.m.mem = true) :
    Memory.wf (s.dispatch g core part ids nonspec).m.mem = true := by
  unfold State.dispatch
  (repeat' split) <;> simp [State.readyCore_wf, hwf]

theorem State.commitLine_wf {s : State} (line : Nat) (v : Version) (hwf : Memory.wf s.m.mem = true) :
    Memory.wf (s.commitLine line v).m.mem = true := by
  unfold State.commitLine
  refine State.wf_foldl (fun t k h => ?_) _ hwf
  split
  · exact writeHome_wf _ _ _ _ _ h
  · refine State.wf_foldl (fun u i h => ?_) _ h
    split
    · exact writeHome_wf _ _ _ _ _ h
    · exact h

theorem State.commitTask_wf {s : State} (g id : Nat) (hwf : Memory.wf s.m.mem = true) : Memory.wf (s.commitTask g id).m.mem = true := by
  unfold State.commitTask
  exact State.wf_foldl (fun _ _ h => State.commitLine_wf _ _ h) _ hwf

theorem State.commitFront_wf {s : State} (g : Nat) (a0 : Nat) (hwf : Memory.wf s.m.mem = true) : Memory.wf (s.commitFront g a0).m.mem = true := by
  induction a0 generalizing s with
  | zero => exact hwf
  | succ n ih =>
    unfold State.commitFront
    split
    · exact hwf
    next id _ =>
      split
      · exact ih (State.commitTask_wf (s := { s with pk := { s.pk with arbLt := s.pk.arbLt + 1 } }) g id hwf)
      · exact hwf

theorem State.publish_wf {s : State} (g : Nat) (hwf : Memory.wf s.m.mem = true) : Memory.wf (s.publish g).m.mem = true := by
  unfold State.publish
  refine State.commitFront_wf g _ ?_
  rw [State.mem_foldl _ fun _ _ => by split <;> simp]
  exact hwf

/-! ### Agenda -/

theorem State.moveL1Fill_wf {s : State} (core line : Nat) (excl : Bool) (hwf : Memory.wf s.m.mem = true) :
    Memory.wf (s.moveL1Fill core line excl).m.mem = true := by
  unfold State.moveL1Fill
  split
  · exact hwf
  · dsimp only
    split
    · rw [setL1_mem]
      exact gainL1_mem _ _ _ _ (by simpa using hwf)
    · exact hwf

theorem State.moveLlcFill_wf {s : State} (line : Nat) (hwf : Memory.wf s.m.mem = true) : Memory.wf (s.moveLlcFill line).m.mem = true := by
  unfold State.moveLlcFill
  (repeat' split) <;> simpa using hwf

theorem State.moveL1Evict_wf {s : State} (core line : Nat) (hwf : Memory.wf s.m.mem = true) : Memory.wf (s.moveL1Evict core line).m.mem = true := by
  unfold State.moveL1Evict
  split
  · exact hwf
  · exact State.act_wf _ _ _ (fun _ h => giveL1_wf _ _ h) hwf

theorem State.moveLlcEvict_wf {s : State} (line : Nat) (hwf : Memory.wf s.m.mem = true) : Memory.wf (s.moveLlcEvict line).m.mem = true := by
  unfold State.moveLlcEvict
  exact State.act_wf _ _ _ (fun _ h => dropLlc_wf _ (cleanLlc_wf _ h)) hwf

end Sys2Proof.Machine
end

section
/-! SUPPORT. Every word and every event keeps memory in its canonical form: an outcome is canonical where the state that follows is. -/

set_option Elab.async false

namespace Sys2Proof.Machine

open Sys2Proof Sys2Proof.Safety

/-- A state that follows has memory in its canonical form. -/
def Outcome.Canonical (o : Outcome) : Prop := ∀ t, o = .next t → Memory.wf t.m.mem = true

theorem Outcome.canonical_next {s : State} (h : Memory.wf s.m.mem = true) : Outcome.Canonical (.next s) := by
  intro t ht
  cases ht
  exact h

/-! ### The checks before a word's effect -/

theorem State.meets_wf {s : State} {c : Cx} {m : Mask} {others : Cx → State → State} {raise : State → State}
    (hothers : ∀ c (t : State), Memory.wf t.m.mem = true → Memory.wf (others c t).m.mem = true)
    (hraise : ∀ t : State, Memory.wf t.m.mem = true → Memory.wf (raise t).m.mem = true) (hwf : Memory.wf s.m.mem = true) :
    Memory.wf (s.meets c m others raise).m.mem = true := by
  unfold State.meets
  split
  · exact hraise _ hwf
  · dsimp only
    split
    · simpa using hwf
    · exact hothers _ _ hwf

theorem State.runReads_wf {s : State} {c : Cx} {p : Cx → Pre} {body : Cx → State → State}
    (hbody : ∀ c (t : State), Memory.wf t.m.mem = true → Memory.wf (body c t).m.mem = true) (hwf : Memory.wf s.m.mem = true) :
    Memory.wf (s.runReads c p body).m.mem = true := by
  unfold State.runReads
  split
  · exact State.meets_wf hbody (fun _ h => by simpa using h) hwf
  · exact hbody _ _ hwf

theorem State.run_wf {s : State} {p : Cx → Pre} {body : Cx → State → State} {own : State → Cx → Option (Nat × Mask)}
    (hbody : ∀ c (t : State), Memory.wf t.m.mem = true → Memory.wf (body c t).m.mem = true) (hwf : Memory.wf s.m.mem = true) :
    Memory.wf (s.run p body own).m.mem = true := by
  unfold State.run
  split
  · exact hwf
  · split
    · simpa using hwf
    · split
      · exact State.meets_wf (fun _ _ h => State.runReads_wf hbody h) (fun _ h => by simpa using h) hwf
      · exact State.runReads_wf hbody hwf

theorem State.handleWord_wf {s : State} {reads : List Nat} {body : Cx → State → State}
    (hbody : ∀ c (t : State), Memory.wf t.m.mem = true → Memory.wf (body c t).m.mem = true) (hwf : Memory.wf s.m.mem = true) :
    Memory.wf (s.handleWord reads body).m.mem = true := by
  refine State.run_wf (fun c t h => ?_) hwf
  split
  · simpa using h
  · exact hbody _ _ h

theorem State.execL_wf {s : State} (ill : Bool) (sc : Scope) (op : LOp) (hwf : Memory.wf s.m.mem = true) :
    Memory.wf (s.execL ill sc op).m.mem = true :=
  State.run_wf (fun _ _ h => by simpa using h) hwf

theorem State.execU_wf {s : State} (ill : Bool) (reads : List Nat) (f : Cx → Wave → Wave) (hwf : Memory.wf s.m.mem = true) :
    Memory.wf (s.execU ill reads f).m.mem = true :=
  State.run_wf (fun _ _ h => by simpa using h) hwf

theorem State.fsWord_wf {s : State} {c : Cx} {bad : Bool} {body : State → State}
    (hbody : ∀ t : State, Memory.wf t.m.mem = true → Memory.wf (body t).m.mem = true) (hwf : Memory.wf s.m.mem = true) :
    Memory.wf (s.fsWord c bad body).m.mem = true := by
  unfold State.fsWord
  split
  · simpa using hwf
  · split
    · simpa using hwf
    · exact hbody _ hwf

/-! ### Words and events -/

@[simp] theorem State.markNext_mem (r : List HbmReq × State) (q : HbmReq) : (State.markNext r q).2.m.mem = r.2.m.mem := by
  unfold State.markNext
  dsimp only
  split
  · dsimp only
    split <;> simp
  · rfl

theorem State.markAll_mem (qs : List HbmReq) (r : List HbmReq × State) : (qs.foldl State.markNext r).2.m.mem = r.2.m.mem := by
  induction qs generalizing r with
  | nil => rfl
  | cons q qs ih => rw [List.foldl_cons, ih, State.markNext_mem]

theorem State.testAll_wf {s : State} (cs ps : List Nat) (hwf : Memory.wf s.m.mem = true) :
    Memory.wf (ps.foldl (fun s p => s.testSlice p) (cs.foldl (fun s c => s.testCore c) s)).m.mem = true := by
  refine State.wf_foldl (fun _ _ h => State.testSlice_wf _ h) _ ?_
  rw [State.mem_foldl _ fun _ _ => State.testCore_mem ..]
  exact hwf

theorem execMma_canonical {s : State} (ec acc : Nat) (atam : Bool) (areg breg fmt : Nat) (hwf : Memory.wf s.m.mem = true) :
    (execMma ec acc atam areg breg fmt s).Canonical := by
  refine Outcome.canonical_next (State.run_wf (fun c t ht => ?_) hwf)
  dsimp only
  (repeat' split) <;> simp [ht]

theorem execAccld_canonical {s : State} (acc areg : Nat) (hwf : Memory.wf s.m.mem = true) : (execAccld acc areg s).Canonical := by
  refine Outcome.canonical_next (State.run_wf (fun c t ht => ?_) hwf)
  dsimp only
  (repeat' split) <;> simp [ht]

theorem execAccst_canonical {s : State} (acc areg fmt : Nat) (hwf : Memory.wf s.m.mem = true) : (execAccst acc areg fmt s).Canonical := by
  refine Outcome.canonical_next (State.run_wf (fun c t ht => ?_) hwf)
  (repeat' split) <;> simp [ht]

theorem execClause_canonical {s : State} (wait : Nat) (first : Nat) (second : Nat) (len : Nat) (hwf : Memory.wf s.m.mem = true) :
    (execClause wait first second len s).Canonical := by
  unfold execClause
  refine Outcome.canonical_next ?_
  (repeat' split) <;> simp [hwf]

theorem execWaitb_canonical {s : State} (r : Nat) (hwf : Memory.wf s.m.mem = true) : (execWaitb r s).Canonical := by
  refine Outcome.canonical_next (State.run_wf (fun c t ht => ?_) hwf)
  (repeat' split) <;> simp [State.noteEvent_wf, ht]

theorem execFenceAcq_canonical {s : State} (a : Nat) (hwf : Memory.wf s.m.mem = true) : (execFenceAcq a s).Canonical := by
  refine Outcome.canonical_next (State.run_wf (fun c t ht => ?_) hwf)
  simp [State.fence_wf, ht]

theorem execFenceRel_canonical {s : State} (a : Nat) (hwf : Memory.wf s.m.mem = true) : (execFenceRel a s).Canonical := by
  refine Outcome.canonical_next (State.run_wf (fun c t ht => ?_) hwf)
  simp [State.fence_wf, ht]

theorem execFenceAr_canonical {s : State} (a : Nat) (hwf : Memory.wf s.m.mem = true) : (execFenceAr a s).Canonical := by
  refine Outcome.canonical_next (State.run_wf (fun c t ht => ?_) hwf)
  simp [State.fence_wf, ht]

theorem execHwaitFull_canonical {s : State} (h : Nat) (p : Bool) (hwf : Memory.wf s.m.mem = true) : (execHwaitFull h p s).Canonical := by
  refine Outcome.canonical_next (State.handleWord_wf (fun c t ht => ?_) hwf)
  simp [State.hwait_wf, ht]

theorem execHwaitFree_canonical {s : State} (h : Nat) (hwf : Memory.wf s.m.mem = true) : (execHwaitFree h s).Canonical := by
  refine Outcome.canonical_next (State.handleWord_wf (fun c t ht => ?_) hwf)
  simp [State.hwait_wf, ht]

theorem execHcfgBind_canonical {s : State} (h : Nat) (a : Nat) (b : Nat) (hwf : Memory.wf s.m.mem = true) : (execHcfgBind h a b s).Canonical :=
  Outcome.canonical_next (State.handleWord_wf (fun _ _ h => by simpa using h) hwf)

theorem execHcfgRing_canonical {s : State} (h : Nat) (a : Nat) (hwf : Memory.wf s.m.mem = true) : (execHcfgRing h a s).Canonical :=
  Outcome.canonical_next (State.handleWord_wf (fun _ _ h => by simpa using h) hwf)

theorem execHcfgMark_canonical {s : State} (h : Nat) (hwf : Memory.wf s.m.mem = true) : (execHcfgMark h s).Canonical :=
  Outcome.canonical_next (State.handleWord_wf (fun _ _ h => by simpa using h) hwf)

theorem execHcfgUnbind_canonical {s : State} (h : Nat) (hwf : Memory.wf s.m.mem = true) : (execHcfgUnbind h s).Canonical := by
  refine Outcome.canonical_next (State.handleWord_wf (fun c t ht => ?_) hwf)
  dsimp only
  (repeat' split) <;> simp [ht]

theorem execHfree_canonical {s : State} (h : Nat) (p : Bool) (hwf : Memory.wf s.m.mem = true) : (execHfree h p s).Canonical :=
  Outcome.canonical_next (State.handleWord_wf (fun _ _ h => by simpa using h) hwf)

theorem execFsopen_canonical {s : State} (a b : Nat) (hwf : Memory.wf s.m.mem = true) : (execFsopen a b s).Canonical := by
  refine Outcome.canonical_next (State.run_wf (fun c t ht => ?_) hwf)
  exact State.fsWord_wf (fun _ h => by simpa using h) ht

theorem execFsclose_canonical {s : State} (a : Nat) (hwf : Memory.wf s.m.mem = true) : (execFsclose a s).Canonical := by
  refine Outcome.canonical_next (State.run_wf (fun c t ht => ?_) hwf)
  exact State.fsWord_wf (fun _ h => by simpa using h) ht

theorem execFswait_canonical {s : State} (a : Nat) (hwf : Memory.wf s.m.mem = true) : (execFswait a s).Canonical := by
  refine Outcome.canonical_next (State.run_wf (fun c t ht => ?_) hwf)
  refine State.fsWord_wf (fun u h => ?_) ht
  split
  · simpa using State.noteEvent_wf _ _ _ _ _ _ _ h
  · simpa using h

theorem execMts_canonical {s : State} (r : Nat) (num : Nat) (hwf : Memory.wf s.m.mem = true) : (execMts r num s).Canonical := by
  refine Outcome.canonical_next (State.run_wf (fun c t ht => ?_) hwf)
  (repeat' split) <;> simp [State.sysWrite_wf, ht]

theorem execRgnw_canonical {s : State} (k : Nat) (e : Nat) (t : Nat) (hwf : Memory.wf s.m.mem = true) : (execRgnw k e t s).Canonical := by
  refine Outcome.canonical_next (State.run_wf (fun c t ht => ?_) hwf)
  refine State.rgnAct_wf _ _ _ _ _ (fun u h => ?_) ht
  dsimp only
  split
  · simpa using State.rgnWrite_wf _ _ _ _ h
  · simpa using h

theorem execRgnr_canonical {s : State} (k : Nat) (e : Nat) (hwf : Memory.wf s.m.mem = true) : (execRgnr k e s).Canonical := by
  refine Outcome.canonical_next (State.run_wf (fun c t ht => ?_) hwf)
  exact State.rgnAct_wf _ _ _ _ _ (fun _ h => by simpa using h) ht

theorem execSysregWrite_canonical {s : State} (src : RegSrc) (num : Nat) (v : Word) (hwf : Memory.wf s.m.mem = true) :
    (execSysregWrite src num v s).Canonical := by
  unfold execSysregWrite
  refine Outcome.canonical_next ?_
  (repeat' split) <;> simp [State.sysWrite_wf, hwf]

theorem execPkgnumWrite_canonical {s : State} (v : Word) (hwf : Memory.wf s.m.mem = true) : (execPkgnumWrite v s).Canonical :=
  Outcome.canonical_next (State.writePkgnum_wf v hwf)

theorem execLtreset_canonical {s : State} (hwf : Memory.wf s.m.mem = true) : (execLtreset s).Canonical :=
  Outcome.canonical_next (State.ltreset_wf hwf)

theorem execMapInstall_canonical {s : State} (hwf : Memory.wf s.m.mem = true) : (execMapInstall s).Canonical := by
  unfold execMapInstall
  refine Outcome.canonical_next ?_
  split
  · exact hwf
  · split
    · exact hwf
    · refine State.act_wf _ _ _ (fun t h => ?_) hwf
      simpa using State.scramble_wf _ (State.flushRegion_wf _ h)

theorem execSaveAreaWrite_canonical {s : State} (hwf : Memory.wf s.m.mem = true) : (execSaveAreaWrite s).Canonical := by
  unfold execSaveAreaWrite
  refine Outcome.canonical_next ?_
  split
  · exact hwf
  · split
    · exact hwf
    · exact State.act_wf _ _ _ (fun _ h => State.saveNow_wf _ h) hwf

theorem execPrecmdRestore_canonical {s : State} (core : Nat) (hwf : Memory.wf s.m.mem = true) : (execPrecmdRestore core s).Canonical :=
  Outcome.canonical_next (State.restoreTeam_wf core hwf)

theorem execResetcmdWarm_canonical {s : State} (hwf : Memory.wf s.m.mem = true) : (execResetcmdWarm s).Canonical :=
  Outcome.canonical_next (State.cmdWarm_wf hwf)

theorem execResetcmdCore_canonical {s : State} (core : Nat) (hwf : Memory.wf s.m.mem = true) : (execResetcmdCore core s).Canonical :=
  Outcome.canonical_next (State.cmdCore_wf core hwf)

theorem execGatecmdGate_canonical {s : State} (core : Nat) (hwf : Memory.wf s.m.mem = true) : (execGatecmdGate core s).Canonical :=
  Outcome.canonical_next (State.gate_wf core hwf)

theorem execColdReset_canonical (s : State) : (execColdReset s).Canonical := Outcome.canonical_next reset_wf

theorem execCxlHotReset_canonical {s : State} (hwf : Memory.wf s.m.mem = true) : (execCxlHotReset s).Canonical :=
  Outcome.canonical_next (State.beginWarm_wf hwf)

theorem execSnoopTimeout_canonical {s : State} (hwf : Memory.wf s.m.mem = true) : (execSnoopTimeout s).Canonical := by
  unfold execSnoopTimeout
  refine Outcome.canonical_next ?_
  split
  · exact hwf
  · split
    · exact hwf
    · exact State.finishWarm_wf _

theorem execBootSequence_canonical {s : State} (hwf : Memory.wf s.m.mem = true) : (execBootSequence s).Canonical := by
  unfold execBootSequence
  generalize List.range 256 = cs
  refine Outcome.canonical_next ?_
  split
  · exact hwf
  · dsimp only
    split
    · exact hwf
    next i _ =>
      refine State.wf_ite ?_ ?_
      · rw [State.enumerate_mem]
        exact State.testAll_wf _ _ hwf
      · rw [State.addDue_mem]
        dsimp only
        rw [State.enumerate_mem, State.extend_mem, State.extend_mem]
        exact State.defaultMaps_wf _ (State.testAll_wf _ _ hwf)

theorem execBatchForm_canonical {s : State} (ctrl : Nat) (hwf : Memory.wf s.m.mem = true) : (execBatchForm ctrl s).Canonical := by
  unfold execBatchForm
  refine Outcome.canonical_next ?_
  dsimp only
  split
  · exact hwf
  · show Memory.wf (((s.ctrl ctrl).queue.foldl State.markNext ([], s)).2).m.mem = true
    rw [State.markAll_mem]
    exact hwf

theorem execScrubConditionalWrite_canonical {s : State} (idx : Nat) (hwf : Memory.wf s.m.mem = true) :
    (execScrubConditionalWrite idx s).Canonical := by
  unfold execScrubConditionalWrite
  refine Outcome.canonical_next ?_
  (repeat' split) <;> simp [hwf]

theorem execLlcWayDisable_canonical {s : State} (slice set way line : Nat) (hwf : Memory.wf s.m.mem = true) :
    (execLlcWayDisable slice set way line s).Canonical := by
  unfold execLlcWayDisable
  refine Outcome.canonical_next ?_
  dsimp only
  split
  · exact hwf
  · split
    · simpa using hwf
    · have hline : Memory.wf (if (s.homeSlice line == some slice) = true then (s.cleanLlc line).dropLlc line else s).m.mem = true :=
        State.wf_ite (dropLlc_wf _ (cleanLlc_wf _ hwf)) hwf
      generalize (if (s.homeSlice line == some slice) = true then (s.cleanLlc line).dropLlc line else s) = t at hline ⊢
      (repeat' split) <;> simp_all [State.emptySet_wf]

theorem execSliceRetire_canonical {s : State} (die slice : Nat) (hwf : Memory.wf s.m.mem = true) : (execSliceRetire die slice s).Canonical := by
  unfold execSliceRetire
  refine Outcome.canonical_next ?_
  dsimp only
  split
  · exact hwf
  · split
    · simpa using hwf
    · exact State.act_wf _ _ _ (fun _ h => State.retireSlice_wf _ _ _ _ h) hwf

theorem execLinkDown_canonical {s : State} (link : Nat) (hwf : Memory.wf s.m.mem = true) : (execLinkDown link s).Canonical := by
  unfold execLinkDown
  refine Outcome.canonical_next ?_
  split
  · exact hwf
  · dsimp only
    rw [State.deviceError_mem]
    refine State.wf_foldl (fun _ _ h => State.answerPoison_wf _ _ h) _ ?_
    show Memory.wf (State.restLost _ link).m.mem = true
    rw [State.restLost_mem]
    exact State.wf_foldl (f := fun (s : State) (e : Nat × Copy) => s.copyPoison e.1 link) (fun _ _ h => State.copyPoison_wf _ _ h) _ hwf

theorem execRouteloop_canonical {s : State} (who : Requester) (part link : Nat) (hwf : Memory.wf s.m.mem = true) :
    (execRouteloop who part link s).Canonical := by
  unfold execRouteloop
  refine Outcome.canonical_next ?_
  split
  · exact hwf
  · split
    · exact hwf
    next hl =>
      rw [State.deviceError_mem]
      exact State.looped_wf hwf hl

theorem execHostSnoop_canonical {s : State} (line : Nat) (inv : Bool) (hwf : Memory.wf s.m.mem = true) : (execHostSnoop line inv s).Canonical := by
  unfold execHostSnoop
  refine Outcome.canonical_next ?_
  (repeat' split) <;> simp [flushLine_wf, State.shareHost_wf, hwf]

theorem execHostDeviceAccess_canonical {s : State} (acc : HostAccess) (hwf : Memory.wf s.m.mem = true) : (execHostDeviceAccess acc s).Canonical := by
  unfold execHostDeviceAccess
  refine Outcome.canonical_next ?_
  dsimp only
  split
  · exact hwf
  · split
    · exact hwf
    · refine State.act_wf _ _ _ (fun t h => ?_) hwf
      split
      · split
        · exact yieldLine_wf _ _ (by simpa using h)
        · rw [State.hostTake_mem]
          exact recall_wf _ _ (by simpa using h)
      · rw [State.hostTake_mem]
        exact writeHome_wf _ _ _ _ _ (by simpa using h)

theorem execLaunchAccept_canonical {s : State} (hwf : Memory.wf s.m.mem = true) : (execLaunchAccept s).Canonical := by
  unfold execLaunchAccept
  refine Outcome.canonical_next ?_
  split
  · exact hwf
  · split
    · exact hwf
    · exact State.tryAct_wf _ _ (fun _ h => State.takeRecord_wf _ h) hwf

theorem execTeamPlace_canonical {s : State} (grid core part : Nat) (hwf : Memory.wf s.m.mem = true) : (execTeamPlace grid core part s).Canonical := by
  unfold execTeamPlace
  refine Outcome.canonical_next ?_
  split
  · exact hwf
  · split
    · exact hwf
    · exact State.tryAct_wf _ _ (fun _ h => State.placeNext_wf _ _ _ h) hwf

theorem execHamperStage_canonical {s : State} (grid team : Nat) (hwf : Memory.wf s.m.mem = true) : (execHamperStage grid team s).Canonical := by
  unfold execHamperStage
  refine Outcome.canonical_next ?_
  dsimp only
  (repeat' split) <;> simp_all [State.tryAct_wf, State.stageTeam_wf]

theorem execLaunchComplete_canonical {s : State} (grid : Nat) (hwf : Memory.wf s.m.mem = true) : (execLaunchComplete grid s).Canonical := by
  unfold execLaunchComplete
  refine Outcome.canonical_next ?_
  dsimp only
  (repeat' split) <;> simp_all [State.tryAct_wf, State.complete_wf]

theorem execShuttleDispatch_canonical {s : State} (grid core part : Nat) (hwf : Memory.wf s.m.mem = true) :
    (execShuttleDispatch grid core part s).Canonical := by
  unfold execShuttleDispatch
  refine Outcome.canonical_next ?_
  (repeat' split) <;> simp [State.dispatch_wf, hwf]

theorem execTaskFinish_canonical {s : State} (grid id : Nat) (hwf : Memory.wf s.m.mem = true) : (execTaskFinish grid id s).Canonical := by
  unfold execTaskFinish
  refine Outcome.canonical_next ?_
  dsimp only
  (repeat' split) <;> simp [hwf]

theorem execCommitPublication_canonical {s : State} (hwf : Memory.wf s.m.mem = true) : (execCommitPublication s).Canonical := by
  unfold execCommitPublication
  refine Outcome.canonical_next ?_
  split
  · exact hwf
  · exact State.wf_foldl (f := fun (s : State) (e : Nat × Grid) => s.publish e.1) (fun _ _ h => State.publish_wf _ h) _ hwf

theorem execTaskNonspecRedispatch_canonical {s : State} (grid part : Nat) (hwf : Memory.wf s.m.mem = true) :
    (execTaskNonspecRedispatch grid part s).Canonical := by
  unfold execTaskNonspecRedispatch
  refine Outcome.canonical_next ?_
  dsimp only
  (repeat' split) <;> simp [State.dispatch_wf, hwf]

theorem execLoadDataArrive_canonical {s : State} (op part word : Nat) (hwf : Memory.wf s.m.mem = true) :
    (execLoadDataArrive op part word s).Canonical := by
  unfold execLoadDataArrive
  refine Outcome.canonical_next ?_
  dsimp only
  (repeat' split) <;> simp [State.arrive_wf, State.arriveElem_wf, hwf]

theorem execMemoryEventPerform_canonical {s : State} (op part : Nat) (hwf : Memory.wf s.m.mem = true) :
    (execMemoryEventPerform op part s).Canonical := by
  unfold execMemoryEventPerform
  refine Outcome.canonical_next ?_
  dsimp only
  (repeat' split) <;> simp_all [State.compared_wf, State.performPlain_wf]

theorem execReleaseProvisionalPerform_canonical {s : State} (op part : Nat) (hwf : Memory.wf s.m.mem = true) :
    (execReleaseProvisionalPerform op part s).Canonical := by
  unfold execReleaseProvisionalPerform
  refine Outcome.canonical_next ?_
  dsimp only
  (repeat' split) <;> simp_all [State.compared_wf, State.performProvisional_wf]

theorem execReleaseComplete_canonical {s : State} (op part : Nat) (hwf : Memory.wf s.m.mem = true) : (execReleaseComplete op part s).Canonical := by
  unfold execReleaseComplete
  refine Outcome.canonical_next ?_
  dsimp only
  (repeat' split) <;> simp [State.completeRelease_wf, hwf]

theorem execIntervalRecord_canonical {s : State} (idx : Nat) (hwf : Memory.wf s.m.mem = true) : (execIntervalRecord idx s).Canonical :=
  Outcome.canonical_next (State.receiveInterval_wf idx hwf)

theorem execLtRebase_canonical {s : State} (hwf : Memory.wf s.m.mem = true) : (execLtRebase s).Canonical := by
  unfold execLtRebase
  refine Outcome.canonical_next ?_
  dsimp only
  (repeat' split) <;> simp [State.restartClocks_wf, hwf]

theorem execArriveCount_canonical {s : State} (op : Nat) (hwf : Memory.wf s.m.mem = true) : (execArriveCount op s).Canonical := by
  unfold execArriveCount
  refine Outcome.canonical_next ?_
  dsimp only
  (repeat' split) <;> simp [State.afterPerform_wf, hwf]

theorem execPhaseComplete_canonical {s : State} (route : Nat) (hwf : Memory.wf s.m.mem = true) : (execPhaseComplete route s).Canonical := by
  unfold execPhaseComplete
  refine Outcome.canonical_next ?_
  exact State.wf_foldl (f := fun (s : State) (e : Nat × Wave) => if s.suspended e.1 then s else s.settleWaitb e.1)
    (fun _ _ h => State.wf_ite h (State.settleWaitb_wf _ h)) _ (by simpa using hwf)

theorem execCopyTakeSlot_canonical {s : State} (copy : Nat) (hwf : Memory.wf s.m.mem = true) : (execCopyTakeSlot copy s).Canonical := by
  unfold execCopyTakeSlot
  refine Outcome.canonical_next ?_
  dsimp only
  (repeat' split) <;> simp [State.noteEvent_wf, hwf]

theorem execCopyTransferFault_canonical {s : State} (copy : Nat) (hwf : Memory.wf s.m.mem = true) : (execCopyTransferFault copy s).Canonical := by
  unfold execCopyTransferFault
  refine Outcome.canonical_next ?_
  (repeat' split) <;> simp [hwf]

theorem execMarkPerform_canonical {s : State} (op : Nat) (hwf : Memory.wf s.m.mem = true) : (execMarkPerform op s).Canonical := by
  unfold execMarkPerform
  refine Outcome.canonical_next ?_
  dsimp only
  (repeat' split) <;> simp [State.afterPerform_wf, hwf]

theorem execHandleAcquire_canonical {s : State} (wave lane : Nat) (hwf : Memory.wf s.m.mem = true) : (execHandleAcquire wave lane s).Canonical := by
  unfold execHandleAcquire
  refine Outcome.canonical_next ?_
  dsimp only
  (repeat' split) <;> simp [State.noteEvent_wf, hwf]

theorem execAccumulateApply_canonical {s : State} (op part elem : Nat) (hwf : Memory.wf s.m.mem = true) :
    (execAccumulateApply op part elem s).Canonical := by
  unfold execAccumulateApply
  refine Outcome.canonical_next ?_
  dsimp only
  (repeat' split) <;> simp_all [State.compared_wf, State.applyElem_wf]

theorem execDetContributionApply_canonical {s : State} (op part elem : Nat) (hwf : Memory.wf s.m.mem = true) :
    (execDetContributionApply op part elem s).Canonical := by
  unfold execDetContributionApply
  refine Outcome.canonical_next ?_
  dsimp only
  (repeat' split) <;> simp [State.applyElem_wf, hwf]

theorem execPageWalk_canonical {s : State} (walk : Nat) (hwf : Memory.wf s.m.mem = true) : (execPageWalk walk s).Canonical := by
  have hyield : ∀ (as : List Ask) (u : State), Memory.wf u.m.mem = true → Memory.wf
      (as.foldl (fun (s : State) a => s.yieldLine none a.line) u).m.mem = true :=
    fun as u h => State.wf_foldl (fun _ _ h => yieldLine_wf _ _ h) as h
  unfold execPageWalk
  refine Outcome.canonical_next ?_
  split
  · exact hwf
  next k _ =>
    dsimp only
    split
    · exact hwf
    · have hread := hyield (s.walkAsks walk k) (s.asksGo (s.walkAsks walk k)) (by simpa using hwf)
      generalize (s.walkAsks walk k).foldl (fun (s : State) a => s.yieldLine none a.line) (s.asksGo (s.walkAsks walk k)) = t at hread ⊢
      (repeat' split) <;> simp_all [State.markLeaf_wf]

theorem execIcacheMissFill_canonical {s : State} (miss : Nat) (hwf : Memory.wf s.m.mem = true) : (execIcacheMissFill miss s).Canonical := by
  unfold execIcacheMissFill
  refine Outcome.canonical_next ?_
  (repeat' split) <;> simp [hwf]

theorem execFirDelayedStore_canonical {s : State} (hwf : Memory.wf s.m.mem = true) : (execFirDelayedStore s).Canonical := by
  unfold execFirDelayedStore
  refine Outcome.canonical_next ?_
  dsimp only
  (repeat' split) <;> simp_all [State.compared_wf, State.performProvisional_wf, State.performPlain_wf]

theorem execFaultRecordPost_canonical {s : State} (tenant : Nat) (hwf : Memory.wf s.m.mem = true) : (execFaultRecordPost tenant s).Canonical := by
  unfold execFaultRecordPost
  refine Outcome.canonical_next ?_
  dsimp only
  split
  · exact hwf
  · split
    · exact hwf
    · refine State.act_wf _ _ _ (fun t h => ?_) hwf
      split
      · simpa using h
      · simpa using State.writeRange_wf _ _ h

theorem execSpawnPerform_canonical {s : State} (op part : Nat) (hwf : Memory.wf s.m.mem = true) : (execSpawnPerform op part s).Canonical := by
  unfold execSpawnPerform
  refine Outcome.canonical_next ?_
  dsimp only
  (repeat' split) <;> simp [State.endSilent_wf, hwf]

theorem execAccumulatorSlotWritten_canonical {s : State} (op part : Nat) (hwf : Memory.wf s.m.mem = true) :
    (execAccumulatorSlotWritten op part s).Canonical := by
  unfold execAccumulatorSlotWritten
  refine Outcome.canonical_next ?_
  dsimp only
  (repeat' split) <;> simp [State.endSilent_wf, hwf]

theorem execBackInvalidateResponse_canonical {s : State} (line : Nat) (hwf : Memory.wf s.m.mem = true) :
    (execBackInvalidateResponse line s).Canonical := by
  unfold execBackInvalidateResponse
  refine Outcome.canonical_next ?_
  dsimp only
  (repeat' split) <;> simp [State.finishWarm_wf, hwf]

end Sys2Proof.Machine
end

section
/-! SUPPORT. A step keeps memory in its canonical form: by the word that issues, the event that is due or the move that is made. -/

set_option Elab.async false

namespace Sys2Proof.Machine

open Sys2Proof Sys2Proof.Safety

/-- The words that are no L-word and no computation of the U class, and the events. -/
theorem exec_other_canonical {s : State} {i : Instr} (hl : lword i = none) (hu : uword i = none) (hwf : Memory.wf s.m.mem = true) :
    Outcome.Canonical (exec i s) := by
  cases i
  case exit | spawn | tsget | brx | ret | rng | jtab | join | joinleave | ldm | stm | bp | call | accz | accflush | accflushDet | uret | ldk |
      uldB32 | uldB64 | ustB32 | ustB64 | bra | bc | ucall | joinset | yield | part | arrive | trap | rett | wb | inv | invn | ifence | icinv |
      pfi | mfs | rngseed | bgtw | bgtr =>
    exact Outcome.canonical_next (State.run_wf (fun _ _ h => by simpa using h) hwf)
  case cfrtlRead | trappcWrite | wpartWrite | satfWrite | measd7Write | fqconsWrite | chkkeyWrite | firctlWrite | tlbinvPage | tlbinvAsid |
      tlbinvAll | tlbInvalidateDone | mapcmdSubmit | precmdSave | rtapply | wcmdResume | wcmdKill | gatecmdWake | powerMeasurement |
      budgetPeriodStart | hbmRequest | scrubRead | linkFlitRetry | msiDeliverPending | quoteRequest | waitCycleResolution | copyComplete =>
    exact Outcome.canonical_next (by simpa using hwf)
  case mma ec acc atam areg breg fmt => exact execMma_canonical ec acc atam areg breg fmt hwf
  case accld acc areg => exact execAccld_canonical acc areg hwf
  case accst acc areg fmt => exact execAccst_canonical acc areg fmt hwf
  case clause wait first second len => exact execClause_canonical wait first second len hwf
  case waitb r => exact execWaitb_canonical r hwf
  case fenceAcq a => exact execFenceAcq_canonical a hwf
  case fenceRel a => exact execFenceRel_canonical a hwf
  case fenceAr a => exact execFenceAr_canonical a hwf
  case hwaitFull h p => exact execHwaitFull_canonical h p hwf
  case hwaitFree h => exact execHwaitFree_canonical h hwf
  case hcfgBind h a b => exact execHcfgBind_canonical h a b hwf
  case hcfgRing h a => exact execHcfgRing_canonical h a hwf
  case hcfgMark h => exact execHcfgMark_canonical h hwf
  case hcfgUnbind h => exact execHcfgUnbind_canonical h hwf
  case hfree h p => exact execHfree_canonical h p hwf
  case fsopen a b => exact execFsopen_canonical a b hwf
  case fsclose a => exact execFsclose_canonical a hwf
  case fswait a => exact execFswait_canonical a hwf
  case mts r num => exact execMts_canonical r num hwf
  case rgnw k e t => exact execRgnw_canonical k e t hwf
  case rgnr k e => exact execRgnr_canonical k e hwf
  case sysregWrite src num v => exact execSysregWrite_canonical src num v hwf
  case pkgnumWrite v => exact execPkgnumWrite_canonical v hwf
  case ltreset => exact execLtreset_canonical hwf
  case mapInstall => exact execMapInstall_canonical hwf
  case saveAreaWrite => exact execSaveAreaWrite_canonical hwf
  case precmdRestore core => exact execPrecmdRestore_canonical core hwf
  case resetcmdWarm => exact execResetcmdWarm_canonical hwf
  case resetcmdCore core => exact execResetcmdCore_canonical core hwf
  case gatecmdGate core => exact execGatecmdGate_canonical core hwf
  case coldReset => exact execColdReset_canonical s
  case cxlHotReset => exact execCxlHotReset_canonical hwf
  case snoopTimeout => exact execSnoopTimeout_canonical hwf
  case bootSequence => exact execBootSequence_canonical hwf
  case batchForm ctrl => exact execBatchForm_canonical ctrl hwf
  case scrubConditionalWrite idx => exact execScrubConditionalWrite_canonical idx hwf
  case llcWayDisable slice set way line => exact execLlcWayDisable_canonical slice set way line hwf
  case sliceRetire die slice => exact execSliceRetire_canonical die slice hwf
  case linkDown link => exact execLinkDown_canonical link hwf
  case routeloop who part link => exact execRouteloop_canonical who part link hwf
  case hostSnoop line inv => exact execHostSnoop_canonical line inv hwf
  case hostDeviceAccess acc => exact execHostDeviceAccess_canonical acc hwf
  case launchAccept => exact execLaunchAccept_canonical hwf
  case teamPlace grid core part => exact execTeamPlace_canonical grid core part hwf
  case hamperStage grid team => exact execHamperStage_canonical grid team hwf
  case launchComplete grid => exact execLaunchComplete_canonical grid hwf
  case shuttleDispatch grid core part => exact execShuttleDispatch_canonical grid core part hwf
  case taskFinish grid id => exact execTaskFinish_canonical grid id hwf
  case commitPublication => exact execCommitPublication_canonical hwf
  case taskNonspecRedispatch grid part => exact execTaskNonspecRedispatch_canonical grid part hwf
  case loadDataArrive op part word => exact execLoadDataArrive_canonical op part word hwf
  case memoryEventPerform op part => exact execMemoryEventPerform_canonical op part hwf
  case releaseProvisionalPerform op part => exact execReleaseProvisionalPerform_canonical op part hwf
  case releaseComplete op part => exact execReleaseComplete_canonical op part hwf
  case intervalRecord idx => exact execIntervalRecord_canonical idx hwf
  case ltRebase => exact execLtRebase_canonical hwf
  case arriveCount op => exact execArriveCount_canonical op hwf
  case phaseComplete route => exact execPhaseComplete_canonical route hwf
  case copyTakeSlot copy => exact execCopyTakeSlot_canonical copy hwf
  case copyTransferFault copy => exact execCopyTransferFault_canonical copy hwf
  case markPerform op => exact execMarkPerform_canonical op hwf
  case handleAcquire wave lane => exact execHandleAcquire_canonical wave lane hwf
  case accumulateApply op part elem => exact execAccumulateApply_canonical op part elem hwf
  case detContributionApply op part elem => exact execDetContributionApply_canonical op part elem hwf
  case pageWalk walk => exact execPageWalk_canonical walk hwf
  case icacheMissFill miss => exact execIcacheMissFill_canonical miss hwf
  case firDelayedStore => exact execFirDelayedStore_canonical hwf
  case faultRecordPost tenant => exact execFaultRecordPost_canonical tenant hwf
  case spawnPerform op part => exact execSpawnPerform_canonical op part hwf
  case accumulatorSlotWritten op part => exact execAccumulatorSlotWritten_canonical op part hwf
  case backInvalidateResponse line => exact execBackInvalidateResponse_canonical line hwf
  all_goals simp only [lword, uword, uAlu, reduceCtorEq] at hl hu

theorem exec_canonical {s : State} (i : Instr) (hwf : Memory.wf s.m.mem = true) : Outcome.Canonical (exec i s) := by
  cases hl : lword i with
  | some p =>
    obtain ⟨sc, op⟩ := p
    rw [exec_lword i sc op s hl]
    exact Outcome.canonical_next (State.execL_wf _ sc op hwf)
  | none =>
    cases hu : uword i with
    | some p =>
      obtain ⟨reads, after⟩ := p
      obtain ⟨f, -, hf⟩ := exec_uword s hu
      rw [hf]
      exact Outcome.canonical_next (State.execU_wf _ _ _ hwf)
    | none => exact exec_other_canonical hl hu hwf

theorem runEvent_canonical {s : State} (e : DevEv) (hwf : Memory.wf s.m.mem = true) : (runEvent e s).Canonical := by
  cases e
  case cfrtlRead | trappcWrite | wpartWrite | satfWrite | measd7Write | fqconsWrite | chkkeyWrite | firctlWrite | tlbinvPage | tlbinvAsid |
      tlbinvAll | tlbInvalidateDone | mapcmdSubmit | precmdSave | rtapply | wcmdResume | wcmdKill | gatecmdWake | powerMeasurement |
      budgetPeriodStart | hbmRequest | scrubRead | linkFlitRetry | msiDeliverPending | quoteRequest | waitCycleResolution | copyComplete =>
    exact Outcome.canonical_next (by simpa using hwf)
  case sysregWrite src num v => exact execSysregWrite_canonical src num v hwf
  case pkgnumWrite v => exact execPkgnumWrite_canonical v hwf
  case ltreset => exact execLtreset_canonical hwf
  case mapInstall => exact execMapInstall_canonical hwf
  case saveAreaWrite => exact execSaveAreaWrite_canonical hwf
  case precmdRestore core => exact execPrecmdRestore_canonical core hwf
  case resetcmdWarm => exact execResetcmdWarm_canonical hwf
  case resetcmdCore core => exact execResetcmdCore_canonical core hwf
  case gatecmdGate core => exact execGatecmdGate_canonical core hwf
  case coldReset => exact execColdReset_canonical s
  case cxlHotReset => exact execCxlHotReset_canonical hwf
  case snoopTimeout => exact execSnoopTimeout_canonical hwf
  case bootSequence => exact execBootSequence_canonical hwf
  case batchForm ctrl => exact execBatchForm_canonical ctrl hwf
  case scrubConditionalWrite idx => exact execScrubConditionalWrite_canonical idx hwf
  case llcWayDisable slice set way line => exact execLlcWayDisable_canonical slice set way line hwf
  case sliceRetire die slice => exact execSliceRetire_canonical die slice hwf
  case linkDown link => exact execLinkDown_canonical link hwf
  case routeloop who part link => exact execRouteloop_canonical who part link hwf
  case hostSnoop line inv => exact execHostSnoop_canonical line inv hwf
  case hostDeviceAccess acc => exact execHostDeviceAccess_canonical acc hwf
  case launchAccept => exact execLaunchAccept_canonical hwf
  case teamPlace grid core part => exact execTeamPlace_canonical grid core part hwf
  case hamperStage grid team => exact execHamperStage_canonical grid team hwf
  case launchComplete grid => exact execLaunchComplete_canonical grid hwf
  case shuttleDispatch grid core part => exact execShuttleDispatch_canonical grid core part hwf
  case taskFinish grid id => exact execTaskFinish_canonical grid id hwf
  case commitPublication => exact execCommitPublication_canonical hwf
  case taskNonspecRedispatch grid part => exact execTaskNonspecRedispatch_canonical grid part hwf
  case loadDataArrive op part word => exact execLoadDataArrive_canonical op part word hwf
  case memoryEventPerform op part => exact execMemoryEventPerform_canonical op part hwf
  case releaseProvisionalPerform op part => exact execReleaseProvisionalPerform_canonical op part hwf
  case releaseComplete op part => exact execReleaseComplete_canonical op part hwf
  case intervalRecord idx => exact execIntervalRecord_canonical idx hwf
  case ltRebase => exact execLtRebase_canonical hwf
  case arriveCount op => exact execArriveCount_canonical op hwf
  case phaseComplete route => exact execPhaseComplete_canonical route hwf
  case copyTakeSlot copy => exact execCopyTakeSlot_canonical copy hwf
  case copyTransferFault copy => exact execCopyTransferFault_canonical copy hwf
  case markPerform op => exact execMarkPerform_canonical op hwf
  case handleAcquire wave lane => exact execHandleAcquire_canonical wave lane hwf
  case accumulateApply op part elem => exact execAccumulateApply_canonical op part elem hwf
  case detContributionApply op part elem => exact execDetContributionApply_canonical op part elem hwf
  case pageWalk walk => exact execPageWalk_canonical walk hwf
  case icacheMissFill miss => exact execIcacheMissFill_canonical miss hwf
  case firDelayedStore => exact execFirDelayedStore_canonical hwf
  case faultRecordPost tenant => exact execFaultRecordPost_canonical tenant hwf
  case spawnPerform op part => exact execSpawnPerform_canonical op part hwf
  case accumulatorSlotWritten op part => exact execAccumulatorSlotWritten_canonical op part hwf
  case backInvalidateResponse line => exact execBackInvalidateResponse_canonical line hwf

theorem runMove_canonical {s : State} (m : Move) (hwf : Memory.wf s.m.mem = true) : (runMove m s).Canonical := by
  cases m with
  | event e => exact runEvent_canonical e hwf
  | tick => exact Outcome.canonical_next (State.tick_wf hwf)
  | barWrite off v => exact Outcome.canonical_next (State.barWrite_wf off v hwf)
  | l1Fill core line excl => exact Outcome.canonical_next (State.moveL1Fill_wf core line excl hwf)
  | l1Evict core line => exact Outcome.canonical_next (State.moveL1Evict_wf core line hwf)
  | llcFill line => exact Outcome.canonical_next (State.moveLlcFill_wf line hwf)
  | llcEvict line => exact Outcome.canonical_next (State.moveLlcEvict_wf line hwf)
  | poison line => exact Outcome.canonical_next (State.poisonLine_wf line hwf)
  | hostTakes line => exact Outcome.canonical_next (State.hostTakes_wf line hwf)
  | copyMove copy => exact Outcome.canonical_next (State.copyMove_wf copy hwf)
  | icDrop die line => exact Outcome.canonical_next (State.wf_ite (by simpa using hwf) hwf)
  | linkUp link => exact Outcome.canonical_next (State.wf_ite (by simpa using hwf) hwf)
  | tlbDrop core asid vpn => exact Outcome.canonical_next hwf
  | _ => exact Outcome.canonical_next (by simpa using hwf)

/-! ### The issue of a word -/

/-- R337: a shadow's targets are compared, and its wave is suspended where they differ. -/
theorem State.compareTargets_canonical {s : State} (w : Nat) (m : Mask) (pc : DWord) {f : State → Outcome} (hf : (f s).Canonical)
    (hwf : Memory.wf s.m.mem = true) :
    (s.compareTargets w m pc f).Canonical := by
  unfold State.compareTargets
  split
  · exact hf
  · split
    next t u ht hu =>
      split
      · exact Outcome.canonical_next (hf t ht)
      · exact Outcome.canonical_next (by simpa using hwf)
    · exact hf

theorem State.runWord_canonical {s : State} (c : Cx) (v : Word) (hwf : Memory.wf s.m.mem = true) : (s.runWord c v).Canonical := by
  unfold State.runWord
  split
  · refine Outcome.canonical_next ?_
    split <;> simpa using hwf
  · split
    · exact Outcome.canonical_next (by simpa using hwf)
    · split
      · exact State.compareTargets_canonical _ _ _ (exec_canonical _ hwf) hwf
      · exact exec_canonical _ hwf

theorem State.wordAt_wait_mem {s t : State} {c : Cx} {why : Stall} (h : s.wordAt c = .wait t why) : t.m.mem = s.m.mem := by
  unfold State.wordAt at h
  split at h
  · cases h
  · exact State.fetch_wait_mem h

theorem State.wordAt_word_mem {s t : State} {c : Cx} {v : Word} (h : s.wordAt c = .word v t) : t.m.mem = s.m.mem := by
  unfold State.wordAt at h
  split at h
  · cases h
    rfl
  · exact State.fetch_word_mem h

theorem State.issueNow_canonical {s : State} (hwf : Memory.wf s.m.mem = true) : s.issueNow.Canonical := by
  unfold State.issueNow
  split
  · exact Outcome.canonical_next hwf
  · split
    · exact Outcome.canonical_next hwf
    · split
      · exact Outcome.canonical_next (by simpa using hwf)
      next hw =>
        refine Outcome.canonical_next ?_
        rw [State.stall_mem, State.wordAt_wait_mem hw]
        exact hwf
      next hw =>
        refine State.runWord_canonical _ _ ?_
        rw [State.wordAt_word_mem hw]
        exact hwf

/-! ### A step -/

theorem stepOnce_canonical {s : State} (hwf : Memory.wf s.m.mem = true) : Outcome.Canonical (stepOnce s) := by
  unfold stepOnce
  split
  · exact runEvent_canonical _ hwf
  · split
    · exact State.issueNow_canonical hwf
    · split
      · exact runMove_canonical _ hwf
      · exact runMove_canonical _ hwf

/-- R337: the shadows' step leaves memory as the leaders' did. -/
theorem State.paired_canonical {s : State} {f : State → Outcome} (hf : (f s).Canonical) : (s.paired f).Canonical := by
  unfold State.paired
  split
  · exact hf
  · split
    next t u ht hu => exact Outcome.canonical_next (s := t.reconcile s u) (hf t ht)
    · exact hf

end Sys2Proof.Machine

open Sys2Proof Sys2Proof.Machine Sys2Proof.Safety

/-- Settles O59: `stepOnce_canonical` says it of the leaders' step, and a shadow's own step changes no memory. -/
theorem stepKeepsMemoryCanonical : Obligations.StepKeepsMemoryCanonical := by
  intro s t hwf hstep
  exact State.paired_canonical (stepOnce_canonical hwf) t hstep
end
